-- ==== Sys2Proof/Word.lean ====
section
/-! DEFINITION. The word and byte types of the KRV-4820 (00_scope.md R5, R12). -/

namespace Sys2Proof

/-- A register word: every register is 32 bits wide (R5). -/
abbrev Word := BitVec 32

/-- A byte of device memory; byte order is little-endian (R12). -/
abbrev Byte := BitVec 8

end Sys2Proof
end

