-- ==== Sys2Proof/Operand.lean ====
section
/-! DEFINITION. The types of the commands' operands that are more than a number or a bit: who sends a write, what a
memory read found, the fields of an engine's microword slots (R167), and what a measurement outside the block's
own arithmetic returned. -/

namespace Sys2Proof

/-- Who makes an access: the host through BAR0, the data port or the burst aperture (R418 to R421), a DMA channel
(R427), or the SMBus target (R535). -/
inductive Source where
  | bar
  | port
  | aperture
  | dma
  | smbus
  deriving DecidableEq, Repr

/-- What the check bits of an engine's memory showed at an access (R136). -/
inductive Ecc where
  | clean
  | corrected (lane : Fin 4)
  | uncorrectable (lane : Fin 4)
  /-- Uncorrectable, and so is the copy in the cluster that the repair needs (R198). -/
  | copyLost (lane : Fin 4)
  deriving DecidableEq, Repr

/-- The fields of an LD slot (R167): generator, format, destination, post-increment. -/
structure LdSlot where
  ag  : Fin 4
  fmt : Fin 8
  toA : Bool
  vd  : Fin 32
  pi  : Bool
  deriving DecidableEq, Repr

/-- The fields of the ST slot and the scaler's source depth (R167): source, generator, format, V register,
post-increment, FRAC, BEXP tracking, SHD. -/
structure StSlot where
  fromA : Bool
  ag    : Fin 4
  fmt   : Fin 8
  vs    : Fin 32
  pi    : Bool
  frac  : Bool
  bx    : Bool
  shd   : Fin 8
  deriving DecidableEq, Repr

/-- The fields of the ALU slot (R167): variant bits AMOD, operands, destination of EXP and NORM, lanes not written. -/
structure AluSlot where
  amod : Fin 16
  va   : Fin 32
  vb   : Fin 32
  vd   : Fin 32
  skip : Fin 16
  deriving DecidableEq, Repr

/-- The fields of the MOVE slot and the scaler's source depth (R167). -/
structure MvSlot where
  vd   : Fin 32
  vs   : Fin 32
  sel  : Fin 256
  frac : Bool
  bx   : Bool
  shd  : Fin 8
  deriving DecidableEq, Repr

/-- The fields of the CTL slot (R167): generator or σ, and the 20-bit immediate. -/
structure CtlSlot where
  ag  : Fin 4
  imm : BitVec 20
  deriving DecidableEq, Repr

/-- The sequencing operation of a microword with the fields that it uses (R170). -/
inductive SeqOp where
  | next
  | repeatLoop (count : BitVec 16) (stop : BitVec 14)
  | jump (target : BitVec 14)
  | branch (cond : Fin 16) (target : BitVec 14)
  | commit (ends : Bool) (target : BitVec 14)
  deriving DecidableEq, Repr

/-- One operation that a microword holds (R167, R170): the slot, its operation code (STOP, AOP, MOP, COP), and its fields. -/
inductive SlotOp where
  | load (x : LdSlot)
  | store (op : Fin 8) (x : StSlot)
  | alu (op : Fin 32) (x : AluSlot)
  | move (op : Fin 4) (x : MvSlot)
  | ctl (op : Fin 64) (x : CtlSlot)
  | seq (x : SeqOp)
  deriving DecidableEq, Repr

/-- What radiation or wear has done to the sequencer by the time it fetches (R166): nothing; the copies of the fetched word in
the named clusters now hold the given words; or the sequencer's own state (pc, loop stack, descriptor) fails its parity. -/
inductive Upset where
  | clean
  | copies (l : List (Fin 64 × BitVec 256))
  | sequencer
  deriving DecidableEq, Repr

/-- An uncorrectable word of a cluster's shared memories (R198): 0 task store, 1 replay ring, 2 mirror; and the word's index in
the section of the slot. -/
structure SharedWord where
  res  : Fin 3
  word : Nat
  deriving DecidableEq, Repr

/-- What a converter's calibrator measured in a dwell (R75, R77, R84, R86): the trims the visited lane needs, whether
its residual difference from the ruler exceeds 8 LSB rms, and whether the ruler itself failed. -/
structure CalMeasure where
  gain      : BitVec 14
  offset    : BitVec 12
  skew      : BitVec 10
  bw        : BitVec 6
  residual  : Bool
  rulerFail : Bool
  deriving DecidableEq, Repr

/-- The instructions of the test access port (R547), and its reset. -/
inductive TapInstr where
  | bypass
  | idcode
  | samplePreload
  | extest
  | clamp
  | highz
  | extestPulse
  | extestTrain
  /-- A private instruction for internal scan. -/
  | internalScan
  /-- TRST_N, or five TCK cycles with TMS high. -/
  | tapReset
  deriving DecidableEq, Repr

/-- An entry of the memory BIST report as the march produces it (R505): TYPE, background and element, UNIT, word, failing
bit, spare row, MEM, and expected XOR observed. -/
structure MbEntry where
  ty    : Fin 5
  bg    : Fin 6
  elem  : Fin 6
  unit  : BitVec 16
  word  : BitVec 32
  bit   : BitVec 8
  spare : BitVec 8
  mem   : BitVec 16
  xor   : BitVec 32
  deriving DecidableEq, Repr

/-- A crossing at a comparator or a timing pin (R95, R98, R315, R316): its output before, the voltage in µV to which the input
goes, and how long it stays there, in ps. -/
structure Crossing where
  high : Bool
  uv   : Int
  ps   : Nat
  deriving DecidableEq, Repr

/-- What a sweep measures on a byte lane (R364, R376): the strobe settings found, the edges of the read and the write eye in
1/64 UI at the chosen Vref, and the lowest and highest working code of either Vref. -/
structure Eye where
  wrlvl : BitVec 8
  rden  : BitVec 8
  read  : BitVec 8 × BitVec 8
  write : BitVec 8 × BitVec 8
  wvref : BitVec 8 × BitVec 8
  rvref : BitVec 8 × BitVec 8
  deriving DecidableEq, Repr

/-- What the training of a subchannel met (R363): whether its stored table passed the pattern test, and what a sweep of its
lanes measures, with the chip-select and command-address delays it finds. -/
structure Training where
  verified : Bool
  cs       : BitVec 8
  ca       : BitVec 8
  lane0    : Eye
  lane1    : Eye
  lane2    : Eye
  lane3    : Eye
  lane4    : Eye
  deriving DecidableEq, Repr

/-- A DIMM as its SPD describes it (R351 to R353): `rdimm` says that it is a registered DIMM with check bits and no 3DS stacks,
`limit` is its temperature limit in °C. And what the training of each of its subchannels met. -/
structure Dimm where
  serial : BitVec 32
  rdimm  : Bool
  limit  : Int
  gib    : Nat
  ranks  : Nat
  x4     : Bool
  bin    : Nat
  train0 : Training
  train1 : Training
  deriving DecidableEq, Repr

/-- What a start step found (R467) beyond what the device's own state says. -/
inductive StepResult where
  /-- Step 1 or 5 ended. -/
  | ended
  /-- Step 2: whether ROM and RAM passed their check, and the ROM's version word. -/
  | rom (good : Bool) (version : BitVec 32)
  /-- Step 3: how completing an interrupted zeroisation ended (R493): KEY_ZERO verified, key bits left unblown. -/
  | fuses (zeroed : Bool) (left : Nat)
  /-- Step 4: the march's entries, the partitions that failed logic BIST with their signatures, the TDC channels that
  failed (a bit mask), and its duration in ms. -/
  | bist (mb : List MbEntry) (lb : List (Nat × BitVec 64)) (tdc : BitVec 20) (ms : Nat)
  /-- Step 6: what SFDP says of the flash (MiB, 64 KiB erase declared), or nothing usable; the clusters whose control store
  still fails its check after three reloads (R163). -/
  | image (sfdp : Option (Nat × Bool)) (bad : List (Fin 64))
  /-- Step 7: REFCLK is present; MDLLs that lock from their stored word (a bit mask); the band and control word that a
  search finds, by MDLL; the hits of the TDC channels' code density, by channel (R311). -/
  | clocks (refclk : Bool) (stored : BitVec 4) (found : List (Nat × Nat)) (tables : List (Nat × List Nat))
  /-- Step 8: REFCLK is present; the measured sample clock in kHz; the ms that it has waited for TIME_EPOCH_SET (R482). -/
  | converters (refclk : Bool) (khz waited : Nat)
  /-- Step 9: the DIMM of each channel, A first. -/
  | ddr (dimms : List (Option Dimm))
  /-- Step 10: the ms that it has waited for the links (R482). -/
  | links (waited : Nat)
  deriving DecidableEq, Repr

end Sys2Proof
end

