-- ==== Sys2Proof/Syntax.lean ====
section
/-! DEFINITION. The commands and events that reach the KRV-4820, one constructor for each row of the opcode table, in
the table's order. Operands carry what the sender gives (an address, a value, a slot's fields) or, for an event, what
happened (which instance, and what a measurement returned). -/

namespace Sys2Proof

/-- A command or event of the block (opcode_table.json). -/
inductive Instr where
  -- Registers, deals and amendments (00, 02)
  | registerWrite (src : Source) (addr : Nat) (bytes : Nat) (value : Word)
  | closePoint
  | dealTick (ms : Nat)
  | stageGateWrite (gate : Bool)
  | stageRelease
  | amendmentSubmit (hi : Word)
  | amendmentChecked
  | amdCancel
  | dealWorkLate (leader : Fin 1024) (deal : Nat)
  | overrun (leader : Fin 1024) (deal : Nat)
  -- Converters and Dealers (03, 04)
  | sclkLost
  | calDwellEnd (input : Fin 4) (meas : CalMeasure)
  | calReq (input : Fin 4)
  | calHoldWrite (input : Fin 4) (hold : Bool)
  | snapshotGo (input : Fin 4) (lenM1 : BitVec 15)
  | snapshotFillStart (input : Fin 4)
  | snapshotFillEnd (input : Fin 4)
  | snapshotRetire (input : Fin 4)
  | rawTapEntry (input : Fin 4) (entry : Int) (samples : List Int)
  | dealerHop (input : Fin 4) (samples : List Int)
  | coefDataRead (input : Fin 4)
  -- Engine slots (05, 06)
  | taskDispatch (p : Fin 1088) (up : Upset)
  | load (p : Fin 1088) (slot : LdSlot) (ecc : Ecc)
  | st (p : Fin 1088) (slot : StSlot)
  | stAdd (p : Fin 1088) (slot : StSlot) (ecc : Ecc)
  | stHist (p : Fin 1088) (slot : StSlot)
  | push (p : Fin 1088) (slot : StSlot)
  | cmul (p : Fin 1088) (slot : AluSlot)
  | pwr (p : Fin 1088) (slot : AluSlot)
  | add (p : Fin 1088) (slot : AluSlot)
  | sub (p : Fin 1088) (slot : AluSlot)
  | ldv (p : Fin 1088) (slot : AluSlot)
  | clr (p : Fin 1088) (slot : AluSlot)
  | cselMax (p : Fin 1088) (slot : AluSlot)
  | cselMin (p : Fin 1088) (slot : AluSlot)
  | log2 (p : Fin 1088) (slot : AluSlot)
  | exp (p : Fin 1088) (slot : AluSlot)
  | norm (p : Fin 1088) (slot : AluSlot)
  | bfly4 (p : Fin 1088) (slot : AluSlot)
  | bfly2 (p : Fin 1088) (slot : AluSlot)
  | move (p : Fin 1088) (slot : MvSlot)
  | vperm (p : Fin 1088) (slot : MvSlot)
  | moveExp (p : Fin 1088) (slot : MvSlot)
  | setsc (p : Fin 1088) (slot : CtlSlot)
  | setscB (p : Fin 1088) (slot : CtlSlot)
  | setscE (p : Fin 1088) (slot : CtlSlot)
  | bexpClr (p : Fin 1088) (slot : CtlSlot)
  | agBase (p : Fin 1088) (slot : CtlSlot)
  | agOff (p : Fin 1088) (slot : CtlSlot)
  | agStep (p : Fin 1088) (slot : CtlSlot)
  | agLstr (p : Fin 1088) (slot : CtlSlot)
  | agMod (p : Fin 1088) (slot : CtlSlot)
  | agBr (p : Fin 1088) (slot : CtlSlot)
  | agInwin (p : Fin 1088) (slot : CtlSlot)
  | agParam (p : Fin 1088) (slot : CtlSlot)
  | agCarry (p : Fin 1088) (slot : CtlSlot)
  | tw (p : Fin 1088) (slot : CtlSlot)
  | twInc (p : Fin 1088) (slot : CtlSlot)
  | idxr (p : Fin 1088) (slot : CtlSlot)
  | hb (p : Fin 1088) (slot : CtlSlot)
  | hm (p : Fin 1088) (slot : CtlSlot)
  | hl (p : Fin 1088) (slot : CtlSlot)
  | xpub (p : Fin 1088) (slot : CtlSlot)
  | xwait (p : Fin 1088) (slot : CtlSlot)
  | xwaitSatisfied (p : Fin 1088)
  | ropen (p : Fin 1088) (slot : CtlSlot)
  | rclose (p : Fin 1088) (slot : CtlSlot)
  | carrySet (p : Fin 1088) (slot : CtlSlot)
  | carryAdd (p : Fin 1088) (slot : CtlSlot)
  -- Sequencing (06)
  | nextWord (p : Fin 1088) (up : Upset)
  | repeatLoop (p : Fin 1088) (count : BitVec 16) (stop : BitVec 14) (up : Upset)
  | jmp (p : Fin 1088) (target : BitVec 14) (up : Upset)
  | br (p : Fin 1088) (cond : Fin 16) (target : BitVec 14) (up : Upset)
  | commit (p : Fin 1088) (ends : Bool) (target : BitVec 14) (up : Upset)
  | resultFifoDrain (p : Fin 1088)
  | routineRestart (p : Fin 1088) (bad : List SharedWord) (up : Upset)
  -- Hands and recovery (07)
  | issueWatchdog (p : Fin 1088)
  | takeoverComplete (logical : Fin 1024) (ns : Nat) (bad : List Nat) (shared : List SharedWord)
  | handForce (value : Word)
  | handCfgWrite (value : Word)
  -- Results and arbitration (08)
  | recordRelease
  | recordAbsent (deal : Nat)
  | fmtEventArrival (index : Nat)
  | arbitrationWindowClose (scope : Fin 5)
  | pksMerge (product : Fin 256) (deal : Nat) (scope : Fin 5)
  -- Zoom chains (09)
  | zoomSegment (chain : Fin 16)
  | zcSettleEnd (chain : Fin 16)
  | zcPowerValue (chain : Fin 16)
  -- Timing and triggers (10, 11)
  | edgeTimed (channel : Fin 20) (count : BitVec 48) (code : BitVec 9) (x : Crossing)
  | timeoutFire (slot : Fin 8) (isB : Bool)
  | todFire (g : Fin 4)
  | trgForce (mask : BitVec 8) (idx : Int)
  | trigOutAssert (o : Fin 2) (late : Bool)
  | trigOutRelease (o : Fin 2)
  -- Capture (10)
  | triggerArrival (unit : Fin 8) (ns : Nat)
  | captureRowComplete (unit : Fin 8) (acked : Nat)
  | segmentComplete (unit : Fin 8)
  -- Timekeeping (11)
  | acceptanceWindowClose (channel : Fin 20)
  | secondBoundary
  | gridMarker (die : Fin 2) (k : Int) (count : BitVec 48) (code : BitVec 9)
  | codeDensityRefresh (channel : Fin 20) (hits : List Nat)
  | resync
  | timeEpochSet (hi : Word)
  -- Clock generation (12)
  | refLost (quiet edges : Nat)
  | refRequal (windows fewest most : Nat)
  | relockComplete (locked : BitVec 4) (ns : Nat)
  | cgUnlock (m : Fin 4)
  | cgBandSearch (m : Fin 4) (band : Option (BitVec 6)) (ns : Nat)
  | cgMdll2CfgWrite (value : Word)
  | clkoutCfgWrite (o : Fin 3) (value : Word)
  | phaseStep (o : Fin 7)
  -- Die links (01)
  | dieLinkRetransmit (link : Fin 6)
  | linkFail (link : Fin 6)
  -- Capture memory (13)
  | memoryRequest (off : Nat) (write : Option (List Byte)) (cls : Fin 8) (ecc : Fin 3) (served : Nat)
  | refreshDue (sub : Fin 16) (rank : Fin 2) (bank : Fin 4)
  | powerDownEntry (sub : Fin 16) (sr : Bool)
  | dimmTempPoll (ch : Fin 8) (t : Int)
  | retrainWindow (sub : Fin 16) (ends : Option Eye)
  | memcRetrain (sub : Fin 16)
  | memcStore
  | evacuationGranuleCopy (answers : Bool) (ue : List Nat)
  | scrubStep (sub : Fin 16) (ces : Nat) (ue : List Nat)
  -- Streaming (14)
  | ethSignalDetect (port : Fin 2) (link : Fin 4)
  | linkUp (port : Fin 2) (link : Fin 4)
  | ethAlignTimeout (port : Fin 2) (link : Fin 4)
  | linkDown (port : Fin 2) (link : Fin 4) (cause : Fin 3)
  | ethFrameReceived (port : Fin 2) (link : Fin 4) (corr : Nat) (uncorr : Nat)
  | packetTransmit (port : Fin 2) (link : Fin 4) (ns : Nat)
  | recordAgeExpiry (port : Fin 2) (stream : Fin 64)
  | spillReadBack (port : Fin 2) (ue : Option Nat)
  | gapRecord (port : Fin 2) (stream : Fin 64)
  | statRecord (port : Fin 2)
  | vdifFrame (port : Fin 2) (stream : Fin 64)
  -- Kitty port (14)
  | kittyWord (word : BitVec 16) (last : Bool)
  | kitCut
  | kitTagRead
  | kitDrop
  -- Host port and DMA (15)
  | pciePerst
  | hotReset (kind : Fin 3)
  | pcieLinkDown
  | portDataRead
  | portDataWrite (value : Word)
  | apertureAccess (off : Fin 65536) (len : Nat) (data : Option (List Byte))
  | cplLate (addr : Nat)
  | hostIntPendClear (mask : Word)
  | msixEnable (en fmask : Bool)
  | dmaStart (c : Fin 16) (en ie dir : Bool)
  | dmaStop (c : Fin 16) (ie dir : Bool)
  | dmaBurstComplete (data : List Byte)
  | dmaErr (c : Fin 16) (data : List Byte)
  -- Display (16)
  | dispHpd (up : Bool)
  | irqHpd
  | dispTrainingEnd (good : Bool)
  | dispRetrain
  | lineStart (line : Fin 4096) (gotY gotC : Nat)
  | lineMatch
  | dispClosePoint
  | frameDone
  | vblankStart
  | frameBegin
  | dispCommit
  | renderStart
  | renderDone
  -- Start, reset and life cycle (17)
  | powerOn (rise cool : Bool)
  | resetN (ns : Nat) (taken cool : Bool)
  | startStepComplete (r : StepResult)
  | supervisorWatchdog
  | thermalShutdown
  | flashRead
  | flashProgram
  | flashErase4k
  | flashErase64k
  | flashDone (ready : Bool)
  | lcAdvance (confirm : BitVec 16) (target : Fin 8)
  | lcTransitionDone (zeroed : Bool) (left : Nat) (blown : Bool)
  | otpKey
  | otpPkh
  | otpSecure
  | otpProgrammed
  -- Self-test and stores (18)
  | iftDue (q : Fin 4)
  | iftTestEnd (q : Fin 4) (lb : List (Fin 4 × BitVec 64)) (mb : List MbEntry)
  | iftHandback (q : Fin 4)
  | iftRun (p : Fin 2048)
  | calSave
  | calSaveDue
  | calStoreWrite (fails : Nat)
  | calLoad (src : Bool) (inputs : BitVec 4)
  | jmapEdit (remove : Bool) (p : Fin 2048)
  | testCsDataRead
  -- SMBus and power (19)
  | smbusAddr (addr : Word) (pec : Bool)
  | smbusDataRead
  | smbusDataWrite (value : Word) (pec : Bool)
  | smbusStatus
  | alertResponse
  | telemetryUpdate (mv ma : Nat) (temps : List Int) (mj : Nat) (rail : Option (Nat × Nat))
  | vinLow (mv : Nat)
  | overvoltageStop (mv : Nat)
  | ilimit (ma : Nat)
  | overvoltageRelease
  -- Late rows: links, power, test access
  | pcieLinkUp (rate : Fin 5) (width : Fin 4)
  | unaligned
  | kitClkLost
  | tapInstruction (t : TapInstr)
  | subchannelPhyFailure (sub : Fin 16)
  | railsNotGood
  | ppsCountedEdge (ns : Nat) (x : Crossing)
  deriving DecidableEq, Repr

end Sys2Proof
end

