-- ==== Sys2Proof/Decode.lean ====
section
/-! DEFINITION. The reading of a command from a word by the opcode table's bits. The table gives no row any bits
(spec/opcode_table.json: every row's field list is empty), so no word spells a command. -/

namespace Sys2Proof

/-- The command that a word spells: none, for every word (no row of the table gives bits). -/
def decodeTableWord (_nbits _w : Nat) : Option Instr := none

end Sys2Proof
end

