-- ==== Sys2Proof/Config.lean ====
section
/-! DEFINITION. Values the spec leaves open: constants without a body, so that no proof can see what they are. -/

namespace Sys2Proof

/-- A value the spec leaves open, fresh for each index: the step reads the index from the state and advances it. -/
opaque Config.freeValue : Nat → BitVec 64

/-- The vendor default prototype coefficients h[m] in the Dealers' ROM (R110, R111): the spec gives their symmetry, sum,
check word and response, not their values. -/
opaque Config.defaultPrototype : Nat → Int

/-- Coefficient t of the half-band filters of a length in the zoom chains' ROM (R255): the spec gives their length, sum and
response, not their values. -/
opaque Config.halfBand : Nat → Nat → Int

/-- The vendor's expected signature of a logic BIST partition (R507): the spec gives its place, not its value. -/
opaque Config.lbistExpected : Nat → BitVec 64

/-- The manufacturer code that IDCODE shows, bits 11 to 1 (R547): the spec names the field, not its value. -/
opaque Config.jedecCode : BitVec 11

/-- ENGp_DEAL_BUSY and ENGp_DEAL_STALL of an engine for a completed deal (R160): microcycles that depend on conflicts and
interlocks, which this model does not count. Arguments: engine, deal, 0 busy or 1 stall. -/
opaque Config.engineCycles : Nat → Nat → Nat → BitVec 32

/-- The bridge clock's frequency in kHz below 388,000 + 12,001 (R333): trimmed at the factory to 388 to 400 MHz. -/
opaque Config.bridgeTrim : Nat

/-- The bridge clock in kHz (R333). -/
def Config.bridgeKhz : Nat := 388000 + Config.bridgeTrim % 12001

/-- A word of the input ring of a physical engine that serves no stream: the spec does not say what stays there. -/
opaque Config.idleRing : Nat → Nat → BitVec 32

/-- The rounding deviation of a bin of a vendor transform (R216, R226), in units of 2^-57: the spec bounds it, the microcode
that fixes it is not in the spec. Arguments: a fresh index, the bin. -/
opaque Config.spectrumNoise : Nat → Nat → Int × Int

/-- The deviation of a spectral kurtosis value (R235): the spec bounds it to ±2. Arguments: a fresh index, the SK bin. -/
opaque Config.kurtosisNoise : Nat → Nat → Int

/-- What a stage of the distributed transform leaves in bank 5 (R228): the spec gives no layout. Arguments: a fresh index, the
byte's offset. -/
opaque Config.exchangeByte : Nat → Nat → BitVec 8

end Sys2Proof
end

