-- ==== Sys2Proof/Machine/Bits.lean ====
section
/-! DEFINITION. Bit fields, signed readings, rounding, saturation, byte order and CRC-32C, shared by every block. -/

namespace Sys2Proof.Machine

/-- Bits `lo + w - 1` to `lo` of a number. -/
def bitsOf (x lo w : Nat) : Nat := (x >>> lo) % 2 ^ w

/-- Bit `i` of a number. -/
def bitOf (x i : Nat) : Bool := Nat.testBit x i

/-- A number with its bits `lo + w - 1` to `lo` replaced by the low `w` bits of `v`. -/
def putBits (x lo w v : Nat) : Nat :=
  x - (bitsOf x lo w) * 2 ^ lo + (v % 2 ^ w) * 2 ^ lo

/-- 1 for true, 0 for false. -/
def b2n (b : Bool) : Nat := if b then 1 else 0

/-- A `w`-bit pattern read as two's complement. -/
def toSigned (w x : Nat) : Int :=
  let y := x % 2 ^ w
  if y < 2 ^ (w - 1) then (y : Int) else (y : Int) - (2 ^ w : Nat)

/-- The `w`-bit two's complement pattern of an integer. -/
def ofSigned (w : Nat) (x : Int) : Nat := (x % ((2 ^ w : Nat) : Int)).toNat

/-- Limit an integer to `lo`..`hi`. -/
def clampInt (lo hi x : Int) : Int := if x < lo then lo else if hi < x then hi else x

/-- Limit an integer to the range of a signed `w`-bit number. -/
def satSigned (w : Nat) (x : Int) : Int :=
  clampInt (-(2 ^ (w - 1) : Nat)) ((2 ^ (w - 1) : Nat) - 1) x

/-- Whether `satSigned` changes the value. -/
def satHit (w : Nat) (x : Int) : Bool := decide (satSigned w x ≠ x)

/-- Round x / d to the nearest integer, ties to even, for a positive divisor. -/
def roundEvenDiv (x : Int) (d : Nat) : Int :=
  let q := x / (d : Int)
  let r := x % (d : Int)
  if 2 * r < (d : Int) then q
  else if (d : Int) < 2 * r then q + 1
  else if q % 2 = 0 then q else q + 1

/-- Round x / 2^k to the nearest integer, ties to even. -/
def roundEven (x : Int) (k : Nat) : Int := roundEvenDiv x (2 ^ k)

/-- x / d rounded up. -/
def ceilDiv (x d : Nat) : Nat := (x + d - 1) / d

/-- Reverse the low `w` bits of a number. -/
def bitReverse : Nat → Nat → Nat
  | 0, _ => 0
  | w + 1, x => (x % 2) * 2 ^ w + bitReverse w (x / 2)

/-- Little-endian reading of a list of bytes (R12). -/
def leNat : List Byte → Nat
  | [] => 0
  | b :: t => b.toNat + 256 * leNat t

/-- The `n` bytes of a number, lowest first (R12). -/
def leBytes : Nat → Nat → List Byte
  | 0, _ => []
  | n + 1, x => BitVec.ofNat 8 x :: leBytes n (x / 256)

/-- The `n` bytes of a number, highest first (headers of published protocols, R12). -/
def beBytes (n x : Nat) : List Byte := (leBytes n x).reverse

/-- One bit step of CRC-32C: polynomial 0x1EDC6F41 reflected. -/
def crcStep (c : BitVec 32) : BitVec 32 :=
  if c.getLsbD 0 then (c >>> 1) ^^^ 0x82F63B78#32 else c >>> 1

/-- One byte step of CRC-32C. -/
def crcByte (c : BitVec 32) (b : Byte) : BitVec 32 :=
  crcStep (crcStep (crcStep (crcStep (crcStep (crcStep (crcStep (crcStep (c ^^^ b.setWidth 32))))))))

/-- CRC-32C over bytes, lowest address first: reflected, initial and final value all ones. -/
def crc32c (bs : List Byte) : BitVec 32 := (bs.foldl crcByte 0xFFFFFFFF#32) ^^^ 0xFFFFFFFF#32

/-- Replace element `i` of a list, if it has one. -/
def listSet {α : Type} (l : List α) (i : Nat) (v : α) : List α := l.set i v

/-- Change element `i` of a list by a function, if it has one. -/
def listModify {α : Type} (l : List α) (i : Nat) (f : α → α) : List α :=
  match l[i]? with
  | some v => l.set i (f v)
  | none => l

/-- Whether a number lies in one of the inclusive ranges; no range at all admits every number. -/
def inRanges (rs : List (Nat × Nat)) (v : Nat) : Bool :=
  rs.isEmpty || rs.any (fun r => decide (r.1 ≤ v) && decide (v ≤ r.2))

/-- An address lies in the span of `n` bytes from a base. -/
def within (base n a : Nat) : Bool := decide (base ≤ a) && decide (a < base + n)

end Sys2Proof.Machine
end

