-- ==== Sys2Proof/Machine/RegTable.lean ====
section
/-! DEFINITION. The register tables of the chapters (R1, R64, R103, R125, R160, R186, R214, R251, R270, R305, R306,
R328, R349, R376, R411, R413, R434, R435, R458, R495, R496, R522, R549): for each register its address, its
instances, and for each field its bits, access code (R9), reset value and permitted values (R551). A reset value the
spec leaves to the image, the store, the fuses or training stands as 0 until the start sequence sets it. -/

namespace Sys2Proof.Machine

/-- The access codes of R9. -/
inductive Access where
  | rw
  | ro
  | wo
  | w1c
  | w1s
  | st
  | lk
  deriving DecidableEq, Repr

/-- One field of a register: bits `hi`:`lo`, access code, reset value, permitted values (inclusive ranges; none = all),
and whether the range check waits for the close point (R551). -/
structure FieldSpec where
  hi    : Nat
  lo    : Nat
  acc   : Access
  reset : Nat
  ok    : List (Nat × Nat) := []
  late  : Bool := false
  deriving DecidableEq, Repr

/-- A register's place in a _LO / _HI pair (R11). -/
inductive Half where
  | single
  | low
  | high
  deriving DecidableEq, Repr

/-- One register of the tables: its device address, its instances as (count, stride) pairs, outermost first, its half,
the offsets of the registers that a read of it captures, whether a read of it returns a captured value, and its
fields. -/
structure RegSpec where
  base     : Nat
  dims     : List (Nat × Nat) := []
  half     : Half := .single
  captures : List Nat := []
  captured : Bool := false
  fields   : List FieldSpec
  deriving DecidableEq, Repr

/-- A field whose every value is permitted. -/
def fld (hi lo : Nat) (acc : Access) (reset : Nat) : FieldSpec := { hi := hi, lo := lo, acc := acc, reset := reset }

/-- A field with permitted values. -/
def fldIn (hi lo : Nat) (acc : Access) (reset : Nat) (ok : List (Nat × Nat)) : FieldSpec :=
  { hi := hi, lo := lo, acc := acc, reset := reset, ok := ok }

/-- A field with permitted values that are checked at the close point. -/
def fldLate (hi lo : Nat) (acc : Access) (reset : Nat) (ok : List (Nat × Nat)) : FieldSpec :=
  { hi := hi, lo := lo, acc := acc, reset := reset, ok := ok, late := true }

/-- The DEAL registers (R64). -/
def regsDEAL : List RegSpec :=
  [ -- DEAL_CFG
    { base := 0x10000, fields := [fld 8 8 .lk 0, fld 7 7 .lk 0, fldIn 4 0 .lk 0x10 [(12, 24)]] }
  , -- DEAL_CTL
    { base := 0x10004, fields := [fld 2 2 .w1s 0, fld 1 1 .w1s 0, fld 0 0 .rw 0] }
  , -- DEAL_STAT
    { base := 0x10008, fields := [fld 11 11 .ro 0, fld 10 10 .ro 0, fld 9 9 .ro 0, fld 8 8 .ro 0, fld 7 7 .ro 0, fld 6 6 .ro 0, fld 5 5 .w1c 0, fld 4 4 .w1c 0, fld 3 3 .w1c 0, fld 2 2 .w1c 0, fld 1 1 .w1c 0, fld 0 0 .w1c 0] }
  , -- DEAL_INT_EN
    { base := 0x1000C, fields := [fld 5 0 .rw 0] }
  , -- DEAL_NUM_LO
    { base := 0x10010, half := .low, captures := [4], fields := [fld 31 0 .ro 0] }
  , -- DEAL_NUM_HI
    { base := 0x10014, half := .high, captured := true, fields := [fld 31 0 .ro 0] }
  , -- DEAL_TO_TICK
    { base := 0x10018, fields := [fld 24 0 .ro 0] }
  , -- DEAL_COMMIT_LEAD
    { base := 0x1001C, fields := [fld 31 0 .ro 0x3e80] }
  , -- DEAL_COMMIT_LO
    { base := 0x10020, half := .low, captures := [4], fields := [fld 31 0 .rw 0] }
  , -- DEAL_COMMIT_HI
    { base := 0x10024, half := .high, captured := true, fields := [fld 31 0 .rw 0] }
  , -- DEAL_AMD_STAT
    { base := 0x10028, fields := [fld 31 16 .ro 0xffff, fld 7 0 .ro 0] }
  , -- DEAL_AMD_APPLIED_LO
    { base := 0x10030, half := .low, captures := [4], fields := [fld 31 0 .ro 0] }
  , -- DEAL_AMD_APPLIED_HI
    { base := 0x10034, half := .high, captured := true, fields := [fld 31 0 .ro 0] }
  , -- DEAL_AMD_SEQ_LO
    { base := 0x10038, half := .low, captures := [4], fields := [fld 31 0 .ro 0] }
  , -- DEAL_AMD_SEQ_HI
    { base := 0x1003C, half := .high, captured := true, fields := [fld 31 0 .ro 0] }
  , -- DEAL_AMD_NONCE_LO
    { base := 0x10040, half := .low, captures := [4], fields := [fld 31 0 .ro 0] }
  , -- DEAL_AMD_NONCE_HI
    { base := 0x10044, half := .high, captured := true, fields := [fld 31 0 .ro 0] }
  , -- DEAL_ALIGN_SEC_LO
    { base := 0x10048, half := .low, captures := [4], fields := [fld 31 0 .lk 0] }
  , -- DEAL_ALIGN_SEC_HI
    { base := 0x1004C, half := .high, captured := true, fields := [fld 31 0 .lk 0] }
  , -- DEAL_BUDGET_AVAIL
    { base := 0x10050, fields := [fld 31 0 .ro 0] }
  , -- DEAL_BUDGET_LIMIT
    { base := 0x10054, fields := [fld 31 0 .ro 0] }
  , -- DEAL_BUDGET_WORST
    { base := 0x10058, fields := [fld 31 0 .ro 0] }
  , -- DEAL_BUDGET_ENG
    { base := 0x1005C, fields := [fld 31 31 .ro 0, fld 30 28 .ro 0, fld 9 0 .ro 0] }
  , -- DEAL_LATE_COUNT
    { base := 0x10060, fields := [fld 31 0 .ro 0] } ]

/-- The CONV registers (R103). -/
def regsCONV : List RegSpec :=
  [ -- CONV_CLK
    { base := 0x40000, fields := [fld 0 0 .lk 0] }
  , -- CONV_CTL
    { base := 0x40004, fields := [fld 11 8 .w1s 0, fld 7 4 .rw 0] }
  , -- CONV_STAT
    { base := 0x40008, fields := [fld 31 28 .ro 0, fld 27 24 .ro 0, fld 23 20 .w1c 0, fld 19 16 .w1c 0, fld 15 12 .w1c 0, fld 11 8 .w1c 0, fld 7 4 .w1c 0, fld 1 1 .ro 0, fld 0 0 .w1c 0] }
  , -- CONV_INT_EN
    { base := 0x4000C, fields := [fld 23 0 .rw 0] }
  , -- CONV_SCLK_MEAS
    { base := 0x40010, fields := [fld 24 0 .ro 0] }
  , -- CONV_CAL_DWELL
    { base := 0x40014, fields := [fldIn 31 16 .rw 2 [(1, 100)], fldIn 15 0 .rw 0xa [(1, 100)]] }
  , -- CONV_TONE_CTL
    { base := 0x40020, fields := [fld 3 2 .rw 0, fld 0 0 .rw 0] }
  , -- CONV_TONE_FREQ
    { base := 0x40024, fields := [fld 14 0 .rw 0] }
  , -- CONVi_FS
    { base := 0x41000, dims := [(4, 0x1000)], fields := [fldIn 7 0 .lk 0x64 [(0, 150)]] }
  , -- CONVi_FMT
    { base := 0x41004, dims := [(4, 0x1000)], fields := [fld 1 1 .lk 0, fld 0 0 .lk 0] }
  , -- CONVi_CMP_HI
    { base := 0x41008, dims := [(4, 0x1000)], fields := [fld 31 31 .st 0, fldIn 13 12 .st 0 [(0, 2)], fld 11 10 .st 0, fld 9 0 .st 0x200] }
  , -- CONVi_CMP_LO
    { base := 0x4100C, dims := [(4, 0x1000)], fields := [fld 31 31 .st 0, fldIn 13 12 .st 0 [(0, 2)], fld 11 10 .st 0, fld 9 0 .st 0x200] }
  , -- CONVi_COMP_SKEW
    { base := 0x41010, dims := [(4, 0x1000)], fields := [fld 31 16 .ro 0, fld 15 0 .ro 0] }
  , -- CONVi_LANE_STAT
    { base := 0x41014, dims := [(4, 0x1000)], fields := [fld 31 30 .ro 0, fld 20 16 .ro 0, fld 13 8 .ro 0, fld 7 0 .ro 0] }
  , -- CONVi_OVR_COUNT
    { base := 0x41018, dims := [(4, 0x1000)], fields := [fld 31 0 .ro 0] }
  , -- CONVi_INJECT
    { base := 0x41020, dims := [(4, 0x1000)], fields := [fld 31 31 .w1s 0, fld 14 0 .rw 0] }
  , -- CONVi_SNAP_STAT
    { base := 0x41024, dims := [(4, 0x1000)], fields := [fld 31 31 .ro 0, fld 30 30 .ro 0, fld 7 0 .ro 0] }
  , -- CONVi_SNAP_ADDR_LO
    { base := 0x41028, dims := [(4, 0x1000)], half := .low, captures := [4], fields := [fld 31 0 .rw 0] }
  , -- CONVi_SNAP_ADDR_HI
    { base := 0x4102C, dims := [(4, 0x1000)], half := .high, captured := true, fields := [fld 31 0 .rw 0] }
  , -- CONVi_SNAP_SAMPLE_LO
    { base := 0x41030, dims := [(4, 0x1000)], half := .low, captures := [4], fields := [fld 31 0 .ro 0] }
  , -- CONVi_SNAP_SAMPLE_HI
    { base := 0x41034, dims := [(4, 0x1000)], half := .high, captured := true, fields := [fld 31 0 .ro 0] }
  , -- CONVi_SLOT_LANE(s)
    { base := 0x41080, dims := [(4, 0x1000), (32, 0x4)], fields := [fld 5 0 .ro 0] }
  , -- CONVi_TRIM_A(l)
    { base := 0x41200, dims := [(4, 0x1000), (33, 0x8)], fields := [fld 31 18 .ro 0, fld 11 0 .ro 0] }
  , -- CONVi_TRIM_B(l)
    { base := 0x41204, dims := [(4, 0x1000), (33, 0x8)], fields := [fld 31 26 .ro 0, fld 9 0 .ro 0] } ]

/-- The CBK registers (R125). -/
def regsCBK : List RegSpec :=
  [ -- CBK_STAT
    { base := 0x50000, fields := [fld 11 8 .ro 0, fld 3 0 .w1c 0] }
  , -- CBK_INT_EN
    { base := 0x50004, fields := [fld 3 0 .rw 0] }
  , -- CBKi_CFG
    { base := 0x51000, dims := [(4, 0x1000)], fields := [fld 8 8 .lk 0, fldIn 5 0 .lk 0x16 [(8, 40)]] }
  , -- CBKi_GD
    { base := 0x51004, dims := [(4, 0x1000)], fields := [fld 20 0 .lk 0xfff80] }
  , -- CBKi_COEF_IDX
    { base := 0x51008, dims := [(4, 0x1000)], fields := [fld 12 0 .rw 0] }
  , -- CBKi_COEF_DATA
    { base := 0x5100C, dims := [(4, 0x1000)], fields := [fld 31 0 .ro 0] }
  , -- CBKi_COEF_CRC
    { base := 0x51010, dims := [(4, 0x1000)], fields := [fld 31 0 .ro 0] }
  , -- CBKi_SAT_COUNT
    { base := 0x51014, dims := [(4, 0x1000)], fields := [fld 8 0 .ro 0] }
  , -- CBKi_SAT_DEAL_LO
    { base := 0x51018, dims := [(4, 0x1000)], half := .low, captures := [4], fields := [fld 31 0 .ro 0] }
  , -- CBKi_SAT_DEAL_HI
    { base := 0x5101C, dims := [(4, 0x1000)], half := .high, captured := true, fields := [fld 31 0 .ro 0] }
  , -- CBKi_SAT(w)
    { base := 0x51040, dims := [(4, 0x1000), (8, 0x4)], fields := [fld 31 0 .ro 0] }
  , -- CBKi_EQ_RE(k)
    { base := 0x51800, dims := [(4, 0x1000), (256, 0x8)], fields := [fld 17 0 .lk 0x10000] }
  , -- CBKi_EQ_IM(k)
    { base := 0x51804, dims := [(4, 0x1000), (256, 0x8)], fields := [fld 17 0 .lk 0] } ]

/-- The ENG registers (R160). -/
def regsENG : List RegSpec :=
  [ -- ENGp_ID
    { base := 0x1000000, dims := [(1088, 0x2000)], fields := [fld 31 21 .ro 0, fld 20 20 .ro 0, fld 16 16 .ro 0, fld 15 10 .ro 0, fld 9 0 .ro 0] }
  , -- ENGp_STAT
    { base := 0x1000004, dims := [(1088, 0x2000)], fields := [fld 31 28 .ro 0, fld 15 15 .w1c 0, fld 14 14 .w1c 0, fld 13 13 .w1c 0, fld 12 12 .w1c 0, fld 11 11 .w1c 0, fld 10 10 .w1c 0, fld 9 9 .w1c 0, fld 8 8 .w1c 0] }
  , -- ENGp_FAULT
    { base := 0x1000008, dims := [(1088, 0x2000)], fields := [fld 31 24 .ro 0, fld 13 0 .ro 0] }
  , -- ENGp_ECC
    { base := 0x100000C, dims := [(1088, 0x2000)], fields := [fld 31 16 .ro 0, fld 15 0 .ro 0] }
  , -- ENGp_ECC_ADDR
    { base := 0x1000010, dims := [(1088, 0x2000)], fields := [fld 31 31 .ro 0, fld 19 0 .ro 0] }
  , -- ENGp_IN_WR_LO
    { base := 0x1000018, dims := [(1088, 0x2000)], half := .low, captures := [4], fields := [fld 31 0 .ro 0] }
  , -- ENGp_IN_WR_HI
    { base := 0x100001C, dims := [(1088, 0x2000)], half := .high, captured := true, fields := [fld 31 0 .ro 0] }
  , -- ENGp_IN_BASE_LO
    { base := 0x1000020, dims := [(1088, 0x2000)], half := .low, captures := [4], fields := [fld 31 0 .ro 0] }
  , -- ENGp_IN_BASE_HI
    { base := 0x1000024, dims := [(1088, 0x2000)], half := .high, captured := true, fields := [fld 31 0 .ro 0] }
  , -- ENGp_IN_LEN
    { base := 0x1000028, dims := [(1088, 0x2000)], fields := [fld 14 0 .ro 0] }
  , -- ENGp_DEAL_BUSY
    { base := 0x1000030, dims := [(1088, 0x2000)], fields := [fld 31 0 .ro 0] }
  , -- ENGp_DEAL_STALL
    { base := 0x1000034, dims := [(1088, 0x2000)], fields := [fld 31 0 .ro 0] }
  , -- ENGp_RESTARTS
    { base := 0x1000038, dims := [(1088, 0x2000)], fields := [fld 31 16 .ro 0, fld 15 0 .ro 0] }
  , -- ENGp_PRELOAD(r)
    { base := 0x1000040, dims := [(1088, 0x2000), (2, 0x4)], fields := [fld 31 31 .lk 0, fldIn 22 16 .lk 0 [(0, 64)], fld 7 0 .lk 0] }
  , -- ENGp_XCNT
    { base := 0x1000048, dims := [(1088, 0x2000)], fields := [fld 15 0 .ro 0] } ]

/-- The CS registers (R186). -/
def regsCS : List RegSpec :=
  [ -- CS_VENDOR_VERSION
    { base := 0x118000, fields := [fld 31 24 .ro 0, fld 23 16 .ro 0, fld 15 0 .ro 0] }
  , -- CS_CUSTOMER_VERSION
    { base := 0x118004, fields := [fld 31 24 .ro 0, fld 23 16 .ro 0, fld 15 0 .ro 0] }
  , -- CS_PATCH_LEVEL
    { base := 0x118008, fields := [fld 31 16 .ro 0, fld 15 0 .ro 0] }
  , -- CS_STAT
    { base := 0x11800C, fields := [fld 3 3 .ro 0, fld 2 2 .ro 0, fld 1 1 .w1c 0, fld 0 0 .w1c 0] }
  , -- CS_VENDOR_CRC
    { base := 0x118010, fields := [fld 31 0 .ro 0] }
  , -- CS_CUSTOMER_CRC
    { base := 0x118014, fields := [fld 31 0 .ro 0] }
  , -- CS_REPAIR_COUNT
    { base := 0x118018, fields := [fld 15 0 .ro 0] }
  , -- CS_REPAIR_ADDR
    { base := 0x11801C, fields := [fld 19 14 .ro 0, fld 13 0 .ro 0] }
  , -- CS_PROG_IDX
    { base := 0x118020, fields := [fld 5 0 .rw 0] }
  , -- CS_PROG_INFO
    { base := 0x118024, fields := [fld 31 31 .ro 0, fld 30 30 .ro 0, fld 27 14 .ro 0, fld 13 0 .ro 0] }
  , -- CS_PROG_F
    { base := 0x118028, fields := [fld 31 0 .ro 0] }
  , -- CS_PROG_P
    { base := 0x11802C, fields := [fld 31 0 .ro 0] }
  , -- CS_PROG_RECOUNT_F
    { base := 0x118030, fields := [fld 31 0 .ro 0] }
  , -- CS_PROG_RECOUNT_P
    { base := 0x118034, fields := [fld 31 0 .ro 0] }
  , -- CS_ROUTINE_MAX
    { base := 0x118038, fields := [fld 16 0 .ro 0] } ]

/-- The HAND registers (R214). -/
def regsHAND : List RegSpec :=
  [ -- HAND_CFG
    { base := 0x110000, fields := [fld 23 16 .rw 0x20, fldIn 11 8 .rw 3 [(1, 15)], fldIn 7 0 .rw 0xa [(1, 255)]] }
  , -- HAND_FORCE
    { base := 0x110004, fields := [fld 31 31 .w1s 0, fld 9 0 .rw 0] }
  , -- HAND_STAT
    { base := 0x110008, fields := [fld 7 7 .ro 0, fld 6 6 .w1c 0, fld 5 5 .ro 0, fld 4 4 .w1c 0, fld 3 3 .w1c 0, fld 2 2 .w1c 0, fld 1 1 .w1c 0, fld 0 0 .ro 0] }
  , -- HAND_INT_EN
    { base := 0x11000C, fields := [fld 7 0 .rw 0] }
  , -- HAND_SUB_COUNT
    { base := 0x110010, fields := [fld 22 16 .ro 0, fld 15 0 .ro 0] }
  , -- HAND_TAKEOVER_MAX
    { base := 0x110014, fields := [fld 31 0 .ro 0] }
  , -- HAND_MARGIN_MIN
    { base := 0x110018, fields := [fld 31 0 .ro 0] }
  , -- HAND_MARGIN_NODE
    { base := 0x11001C, fields := [fld 10 0 .ro 0] }
  , -- HAND_TREE_INFO
    { base := 0x110020, fields := [fld 31 28 .ro 0, fld 22 12 .ro 0, fld 11 0 .ro 0] }
  , -- HAND_NODE_IDX
    { base := 0x110024, fields := [fld 10 0 .rw 0] }
  , -- HAND_NODE
    { base := 0x110028, fields := [fld 31 30 .ro 0, fld 29 29 .ro 0, fld 28 24 .ro 0, fld 23 21 .ro 0, fld 20 10 .ro 0, fld 9 0 .ro 0] }
  , -- HAND_NODE_MARGIN
    { base := 0x11002C, fields := [fld 31 0 .ro 0] }
  , -- HAND_LOG_COUNT
    { base := 0x110030, fields := [fld 31 0 .ro 0] }
  , -- HAND_MAP(L)
    { base := 0x111000, dims := [(1024, 0x4)], fields := [fld 31 31 .ro 0, fld 30 30 .ro 0, fld 29 29 .ro 0, fld 10 0 .ro 0] }
  , -- HAND_CLU(c)
    { base := 0x112000, dims := [(64, 0x4)], fields := [fld 31 28 .ro 0, fld 27 24 .ro 0, fld 20 16 .ro 0x1f, fld 4 0 .ro 0] } ]

/-- The POT registers (R251). -/
def regsPOT : List RegSpec :=
  [ -- POT_CFG
    { base := 0x100000, fields := [fldIn 23 16 .lk 8 [(8, 64)], fld 8 8 .lk 0, fld 0 0 .lk 0] }
  , -- POT_FMT_WIN
    { base := 0x100004, fields := [fldIn 6 0 .lk 4 [(1, 100)]] }
  , -- POT_STAT
    { base := 0x100008, fields := [fld 6 6 .w1c 0, fld 5 5 .w1c 0, fld 4 4 .w1c 0, fld 3 3 .w1c 0, fld 2 2 .w1c 0, fld 1 1 .w1c 0, fld 0 0 .w1c 0] }
  , -- POT_INT_EN
    { base := 0x10000C, fields := [fld 6 0 .rw 0] }
  , -- POT_PROD_IDX
    { base := 0x100010, fields := [fld 7 0 .rw 0] }
  , -- POT_PROD_INFO
    { base := 0x100014, fields := [fld 31 31 .ro 0, fld 30 30 .ro 0, fld 29 26 .ro 0, fld 25 25 .ro 0, fld 24 24 .ro 0, fld 23 23 .ro 0, fld 22 22 .ro 0, fld 21 16 .ro 0, fld 15 8 .ro 0] }
  , -- POT_PROD_BYTES
    { base := 0x100018, fields := [fld 31 0 .ro 0] }
  , -- POT_REC_COUNT_LO
    { base := 0x100020, half := .low, captures := [4], fields := [fld 31 0 .ro 0] }
  , -- POT_REC_COUNT_HI
    { base := 0x100024, half := .high, captured := true, fields := [fld 31 0 .ro 0] }
  , -- POT_LATE_COUNT
    { base := 0x100028, fields := [fld 31 0 .ro 0] }
  , -- POT_ABSENT_COUNT
    { base := 0x10002C, fields := [fld 31 0 .ro 0] }
  , -- POT_FMT_EVENTS
    { base := 0x100030, fields := [fld 31 0 .ro 0] }
  , -- POT_FMT_LOST
    { base := 0x100034, fields := [fld 31 0 .ro 0] }
  , -- POT_Q(q)_STORE
    { base := 0x100040, dims := [(4, 0x4)], fields := [fld 31 16 .ro 0, fld 15 0 .ro 0] }
  , -- POT_Q(q)_VOLUME
    { base := 0x100050, dims := [(4, 0x4)], fields := [fld 31 0 .ro 0] }
  , -- POT_RING_WR_LO
    { base := 0x100060, half := .low, captures := [4], fields := [fld 31 0 .ro 0] }
  , -- POT_RING_WR_HI
    { base := 0x100064, half := .high, captured := true, fields := [fld 31 0 .ro 0] }
  , -- POT_RING_WRAPS
    { base := 0x100068, fields := [fld 31 0 .ro 0] }
  , -- POT_PROD_EN(w)
    { base := 0x100080, dims := [(8, 0x4)], fields := [fld 31 0 .st 0] } ]

/-- The ZC registers (R270). -/
def regsZC : List RegSpec :=
  [ -- ZC_STAT
    { base := 0x60000, fields := [fld 31 31 .w1c 0, fld 15 0 .w1c 0] }
  , -- ZC_INT_EN
    { base := 0x60004, fields := [fld 31 31 .rw 0, fld 15 0 .rw 0] }
  , -- ZC_AGG
    { base := 0x60008, fields := [fld 31 0 .ro 0] }
  , -- ZC_REFUSE
    { base := 0x6000C, fields := [fld 11 8 .ro 0, fld 4 0 .ro 0x1f] }
  , -- ZC_RUN
    { base := 0x60010, fields := [fld 15 0 .ro 0] }
  , -- ZCn_CTL
    { base := 0x61000, dims := [(16, 0x800)], fields := [fld 31 31 .st 0, fld 30 30 .st 0, fld 29 29 .st 0, fld 28 28 .st 0, fld 27 26 .st 0, fld 25 25 .st 0, fldIn 24 20 .st 0x10 [(8, 24)], fldIn 19 16 .st 0 [(0, 9)], fldIn 15 12 .st 1 [(1, 8)], fldIn 11 7 .st 2 [(0, 16)], fld 6 6 .st 0] }
  , -- ZCn_STAT
    { base := 0x61004, dims := [(16, 0x800)], fields := [fld 31 30 .ro 0, fld 2 2 .ro 0, fld 1 1 .w1c 0, fld 0 0 .w1c 0] }
  , -- ZCn_NCO_FREQ_LO
    { base := 0x61008, dims := [(16, 0x800)], half := .low, captures := [4], fields := [fld 31 0 .st 0] }
  , -- ZCn_NCO_FREQ_HI
    { base := 0x6100C, dims := [(16, 0x800)], half := .high, captured := true, fields := [fld 15 0 .st 0] }
  , -- ZCn_NCO_PHASE
    { base := 0x61010, dims := [(16, 0x800)], fields := [fld 15 0 .st 0] }
  , -- ZCn_FIR_CFG
    { base := 0x61014, dims := [(16, 0x800)], fields := [fldIn 8 0 .st 1 [(1, 384)]] }
  , -- ZCn_FIR_GD
    { base := 0x61018, dims := [(16, 0x800)], fields := [fld 31 31 .st 0, fld 16 0 .st 0] }
  , -- ZCn_PWR
    { base := 0x6101C, dims := [(16, 0x800)], fields := [fld 31 31 .rw 0, fld 3 0 .rw 0] }
  , -- ZCn_RATE
    { base := 0x61020, dims := [(16, 0x800)], fields := [fld 31 0 .ro 0] }
  , -- ZCn_GD_TOTAL
    { base := 0x61024, dims := [(16, 0x800)], fields := [fld 31 0 .ro 0x3900] }
  , -- ZCn_SETTLE
    { base := 0x61028, dims := [(16, 0x800)], fields := [fld 31 0 .ro 0] }
  , -- ZCn_OUT_IDX_LO
    { base := 0x61030, dims := [(16, 0x800)], half := .low, captures := [4], fields := [fld 31 0 .ro 0] }
  , -- ZCn_OUT_IDX_HI
    { base := 0x61034, dims := [(16, 0x800)], half := .high, captured := true, fields := [fld 31 0 .ro 0] }
  , -- ZCn_DC_EST
    { base := 0x61038, dims := [(16, 0x800)], fields := [fld 31 16 .ro 0, fld 15 0 .ro 0] }
  , -- ZCn_COEF(t)
    { base := 0x61200, dims := [(16, 0x800)], fields := [fld 17 0 .st 0x1ffff] }
  , -- ZCn_COEF(t)
    { base := 0x61204, dims := [(16, 0x800), (383, 0x4)], fields := [fld 17 0 .st 0] } ]

/-- The TRG registers (R305). -/
def regsTRG : List RegSpec :=
  [ -- TRG_STAT
    { base := 0x70000, fields := [fld 31 28 .w1c 0, fld 25 24 .w1c 0, fld 23 16 .ro 0, fld 15 8 .w1c 0, fld 7 0 .w1c 0] }
  , -- TRG_INT_EN
    { base := 0x70004, fields := [fld 31 0 .rw 0] }
  , -- TRG_FORCE
    { base := 0x70008, fields := [fld 7 0 .w1s 0] }
  , -- TRG_EXTx_DELAY
    { base := 0x70010, dims := [(2, 0x4)], fields := [fld 15 0 .st 0] }
  , -- TRG_OUTo_CFG
    { base := 0x70020, dims := [(2, 0x4)], fields := [fld 31 31 .st 0, fld 30 30 .st 0, fld 29 29 .st 0, fld 26 24 .st 0, fldLate 7 0 .st 0x10 [(1, 255)]] }
  , -- TRG_OUTo_DELAY
    { base := 0x70028, dims := [(2, 0x4)], fields := [fld 23 0 .st 0] }
  , -- TRG_OUT_LATE
    { base := 0x70030, fields := [fld 31 16 .ro 0, fld 15 0 .ro 0] }
  , -- TRG_TODg_CFG
    { base := 0x70100, dims := [(4, 0x20)], fields := [fld 31 31 .st 0, fld 15 0 .st 0] }
  , -- TRG_TODg_SEC_LO
    { base := 0x70104, dims := [(4, 0x20)], half := .low, captures := [4], fields := [fld 31 0 .st 0] }
  , -- TRG_TODg_SEC_HI
    { base := 0x70108, dims := [(4, 0x20)], half := .high, captured := true, fields := [fld 15 0 .st 0] }
  , -- TRG_TODg_IDX_LO
    { base := 0x7010C, dims := [(4, 0x20)], half := .low, captures := [4], fields := [fld 31 0 .st 0] }
  , -- TRG_TODg_IDX_HI
    { base := 0x70110, dims := [(4, 0x20)], half := .high, captured := true, fields := [fld 2 0 .st 0] }
  , -- TRGn_CFG
    { base := 0x71000, dims := [(8, 0x100)], fields := [fld 31 31 .st 0, fld 27 26 .st 0, fldLate 25 24 .st 0 [(0, 2)]] }
  , -- TRGn_WIN
    { base := 0x71004, dims := [(8, 0x100)], fields := [fld 31 0 .st 0] }
  , -- TRGn_HOLD
    { base := 0x71008, dims := [(8, 0x100)], fields := [fld 31 0 .st 0] }
  , -- TRGn_A_CFG
    { base := 0x71010, dims := [(8, 0x100)], fields := [fldLate 31 28 .st 0 [(0, 9)], fld 27 24 .st 0, fld 23 22 .st 0, fld 21 20 .st 0] }
  , -- TRGn_A_T1
    { base := 0x71014, dims := [(8, 0x100)], fields := [fld 31 0 .st 0] }
  , -- TRGn_A_T2
    { base := 0x71018, dims := [(8, 0x100)], fields := [fld 31 0 .st 0] }
  , -- TRGn_B_CFG
    { base := 0x71020, dims := [(8, 0x100)], fields := [fldLate 31 28 .st 0 [(0, 9)], fld 27 24 .st 0, fld 23 22 .st 0, fld 21 20 .st 0] }
  , -- TRGn_B_T1
    { base := 0x71024, dims := [(8, 0x100)], fields := [fld 31 0 .st 0] }
  , -- TRGn_B_T2
    { base := 0x71028, dims := [(8, 0x100)], fields := [fld 31 0 .st 0] }
  , -- TRGn_STAT
    { base := 0x71030, dims := [(8, 0x100)], fields := [fld 4 4 .ro 0, fld 3 3 .ro 0, fld 2 2 .ro 0, fld 1 1 .ro 0, fld 0 0 .ro 0] }
  , -- TRGn_COUNT
    { base := 0x71034, dims := [(8, 0x100)], fields := [fld 31 0 .ro 0] }
  , -- TRGn_HELD
    { base := 0x71038, dims := [(8, 0x100)], fields := [fld 31 0 .ro 0] }
  , -- TRGn_LAST_IDX_LO
    { base := 0x71040, dims := [(8, 0x100)], half := .low, captures := [4, 8], fields := [fld 31 0 .ro 0] }
  , -- TRGn_LAST_IDX_HI
    { base := 0x71044, dims := [(8, 0x100)], half := .high, captured := true, fields := [fld 31 0 .ro 0] }
  , -- TRGn_LAST_INFO
    { base := 0x71048, dims := [(8, 0x100)], captured := true, fields := [fld 31 16 .ro 0, fld 8 8 .ro 0, fld 4 4 .ro 0, fld 3 0 .ro 0] } ]

/-- The CAP registers (R306). -/
def regsCAP : List RegSpec :=
  [ -- CAP_STAT
    { base := 0x80000, fields := [fld 31 24 .w1c 0, fld 23 16 .w1c 0, fld 15 8 .w1c 0, fld 7 0 .w1c 0] }
  , -- CAP_INT_EN
    { base := 0x80004, fields := [fld 31 0 .rw 0] }
  , -- CAP_RUN
    { base := 0x80008, fields := [fld 15 8 .ro 0, fld 7 0 .ro 0] }
  , -- CAPn_CTL
    { base := 0x81000, dims := [(8, 0x100)], fields := [fld 31 31 .st 0, fld 30 30 .st 0, fldIn 29 28 .st 0 [(0, 2)], fld 27 27 .st 0, fld 26 26 .st 0, fld 25 23 .st 0, fld 19 16 .st 0] }
  , -- CAPn_SRC
    { base := 0x81004, dims := [(8, 0x100)], fields := [fld 27 24 .st 0, fld 17 16 .st 0, fld 15 8 .st 0, fld 7 0 .st 0] }
  , -- CAPn_LEN
    { base := 0x81008, dims := [(8, 0x100)], fields := [fld 23 0 .rw 2] }
  , -- CAPn_SEGS
    { base := 0x8100C, dims := [(8, 0x100)], fields := [fld 15 0 .rw 0] }
  , -- CAPn_POST_LO
    { base := 0x81010, dims := [(8, 0x100)], half := .low, captures := [4], fields := [fld 31 0 .rw 1] }
  , -- CAPn_POST_HI
    { base := 0x81014, dims := [(8, 0x100)], half := .high, captured := true, fields := [fld 15 0 .rw 0] }
  , -- CAPn_LEN_ACT
    { base := 0x81018, dims := [(8, 0x100)], fields := [fld 23 0 .ro 0] }
  , -- CAPn_SEGS_ACT
    { base := 0x8101C, dims := [(8, 0x100)], fields := [fld 15 0 .ro 0] }
  , -- CAPn_POST_ACT_LO
    { base := 0x81020, dims := [(8, 0x100)], half := .low, captures := [4], fields := [fld 31 0 .ro 0] }
  , -- CAPn_POST_ACT_HI
    { base := 0x81024, dims := [(8, 0x100)], half := .high, captured := true, fields := [fld 15 0 .ro 0] }
  , -- CAPn_BASE_LO
    { base := 0x81028, dims := [(8, 0x100)], half := .low, captures := [4], fields := [fld 31 0 .ro 0] }
  , -- CAPn_BASE_HI
    { base := 0x8102C, dims := [(8, 0x100)], half := .high, captured := true, fields := [fld 31 0 .ro 0] }
  , -- CAPn_SIZE_LO
    { base := 0x81030, dims := [(8, 0x100)], half := .low, captures := [4], fields := [fld 31 0 .ro 0] }
  , -- CAPn_SIZE_HI
    { base := 0x81034, dims := [(8, 0x100)], half := .high, captured := true, fields := [fld 31 0 .ro 0] }
  , -- CAPn_STAT
    { base := 0x81038, dims := [(8, 0x100)], fields := [fld 31 30 .ro 0, fld 29 29 .ro 0, fld 27 24 .ro 0, fld 23 20 .ro 0, fld 15 0 .ro 0] }
  , -- CAPn_GAP_LOST
    { base := 0x8103C, dims := [(8, 0x100)], fields := [fld 31 0 .ro 0] }
  , -- CAPn_MISSED
    { base := 0x81040, dims := [(8, 0x100)], fields := [fld 31 16 .ro 0, fld 15 0 .ro 0] }
  , -- CAPn_SEG_DONE
    { base := 0x81044, dims := [(8, 0x100)], fields := [fld 31 0 .ro 0] } ]

/-- The TIME registers (R328). -/
def regsTIME : List RegSpec :=
  [ -- TIME_CFG
    { base := 0x30000, fields := [fld 12 8 .ro 0x1f, fldIn 5 4 .lk 0 [(0, 2)], fld 0 0 .lk 0] }
  , -- TIME_CTL
    { base := 0x30004, fields := [fld 0 0 .w1s 0] }
  , -- TIME_STAT
    { base := 0x30008, fields := [fld 11 11 .ro 0, fld 10 10 .ro 0, fld 9 9 .w1c 0, fld 8 8 .w1c 0, fld 7 7 .w1c 0, fld 6 6 .w1c 0, fld 5 5 .w1c 0, fld 4 4 .ro 0, fld 3 3 .ro 0, fld 2 2 .ro 0, fld 1 1 .ro 0, fld 0 0 .ro 0] }
  , -- TIME_INT_EN
    { base := 0x3000C, fields := [fld 9 0 .rw 0] }
  , -- TIME_NSPS_LO
    { base := 0x30010, half := .low, captures := [4], fields := [fld 31 0 .ro 0] }
  , -- TIME_NSPS_HI
    { base := 0x30014, half := .high, captured := true, fields := [fld 31 0 .ro 0] }
  , -- TIME_EPOCH_SEC_LO
    { base := 0x30018, half := .low, captures := [4], fields := [fld 31 0 .ro 0] }
  , -- TIME_EPOCH_SEC_HI
    { base := 0x3001C, half := .high, captured := true, fields := [fld 15 0 .ro 0] }
  , -- TIME_X0_LO
    { base := 0x30020, half := .low, captures := [4, 8], fields := [fld 31 0 .ro 0] }
  , -- TIME_X0_HI
    { base := 0x30024, half := .high, captured := true, fields := [fld 31 0 .ro 0] }
  , -- TIME_X0_FRAC
    { base := 0x30028, captured := true, fields := [fld 15 0 .ro 0] }
  , -- TIME_EPOCH_SET_LO
    { base := 0x30030, half := .low, captures := [4], fields := [fld 31 0 .rw 0] }
  , -- TIME_EPOCH_SET_HI
    { base := 0x30034, half := .high, captured := true, fields := [fld 15 0 .rw 0] }
  , -- TIME_PPS_DELAY
    { base := 0x30038, fields := [fld 15 0 .st 0] }
  , -- TIME_PPS_ERR
    { base := 0x3003C, fields := [fld 31 0 .ro 0] }
  , -- TIME_PPS_TOL
    { base := 0x30040, fields := [fld 31 0 .rw 0x640000] }
  , -- TIME_PPS_MISS
    { base := 0x30044, fields := [fld 31 0 .ro 0] }
  , -- TIME_STEP_LO
    { base := 0x30048, half := .low, captures := [4], fields := [fld 31 0 .ro 0] }
  , -- TIME_STEP_HI
    { base := 0x3004C, half := .high, captured := true, fields := [fld 31 0 .ro 0] }
  , -- TIME_NOW_LO
    { base := 0x30050, half := .low, captures := [4, 8, 12], fields := [fld 31 16 .ro 0, fld 15 0 .ro 0] }
  , -- TIME_NOW_HI
    { base := 0x30054, half := .high, captured := true, fields := [fld 31 0 .ro 0] }
  , -- TIME_NOW_SEC_LO
    { base := 0x30058, half := .low, captured := true, fields := [fld 31 0 .ro 0] }
  , -- TIME_NOW_SEC_HI
    { base := 0x3005C, half := .high, captured := true, fields := [fld 15 0 .ro 0, fld 31 31 .ro 0, fld 30 30 .ro 0] }
  , -- TIME_PIN(x)_CFG
    { base := 0x30060, dims := [(3, 0x4)], fields := [fld 31 31 .st 0, fldIn 13 12 .st 0 [(0, 2)], fld 11 10 .st 0, fldIn 9 0 .st 0x1f4 [(0, 1000)]] }
  , -- TIME_CHc_CFG
    { base := 0x31000, fields := [fld 25 24 .st 2, fldIn 20 16 .st 0 [(0, 19)]] }
  , -- TIME_CHc_CFG
    { base := 0x31040, dims := [(19, 0x40)], fields := [fld 25 24 .st 0, fldIn 20 16 .st 0 [(0, 19)]] }
  , -- TIME_CHc_OPEN
    { base := 0x31004, fields := [fld 31 0 .st 0xfffffc18] }
  , -- TIME_CHc_OPEN
    { base := 0x31044, dims := [(19, 0x40)], fields := [fld 31 0 .st 0] }
  , -- TIME_CHc_CLOSE
    { base := 0x31008, fields := [fld 31 0 .st 0x3e8] }
  , -- TIME_CHc_CLOSE
    { base := 0x31048, dims := [(19, 0x40)], fields := [fld 31 0 .st 0] }
  , -- TIME_CHc_LAST_IDX_LO
    { base := 0x31010, dims := [(20, 0x40)], half := .low, captures := [4, 8, 16, 20], fields := [fld 31 0 .ro 0] }
  , -- TIME_CHc_LAST_IDX_HI
    { base := 0x31014, dims := [(20, 0x40)], half := .high, captured := true, fields := [fld 31 0 .ro 0] }
  , -- TIME_CHc_LAST_INFO
    { base := 0x31018, dims := [(20, 0x40)], captured := true, fields := [fld 31 31 .ro 0, fld 30 30 .ro 0, fld 29 29 .ro 0, fld 15 0 .ro 0] }
  , -- TIME_CHc_IVAL_LO
    { base := 0x31020, dims := [(20, 0x40)], half := .low, captured := true, fields := [fld 31 0 .ro 0] }
  , -- TIME_CHc_IVAL_HI
    { base := 0x31024, dims := [(20, 0x40)], half := .high, captured := true, fields := [fld 15 0 .ro 0] }
  , -- TIME_CHc_COUNT
    { base := 0x31028, dims := [(20, 0x40)], fields := [fld 31 0 .ro 0] }
  , -- TIME_CHc_MISS
    { base := 0x3102C, dims := [(20, 0x40)], fields := [fld 31 0 .ro 0] } ]

/-- The CG registers (R349). -/
def regsCG : List RegSpec :=
  [ -- CG_STAT
    { base := 0x20000, fields := [fld 22 16 .ro 0x7f, fld 11 8 .w1c 0, fld 7 4 .ro 0, fld 3 3 .w1c 0, fld 2 2 .w1c 0, fld 1 1 .ro 0, fld 0 0 .w1c 0] }
  , -- CG_INT_EN
    { base := 0x20004, fields := [fld 11 0 .rw 0] }
  , -- CG_RELOCK_COUNT
    { base := 0x20008, fields := [fld 15 0 .ro 0] }
  , -- CG_RELOCK_MAX
    { base := 0x2000C, fields := [fld 31 0 .ro 0] }
  , -- CG_MDLLm_CFG
    { base := 0x20100, dims := [(2, 0x10)], fields := [fld 31 31 .lk 0, fldIn 27 24 .lk 0 [(1, 15)], fldIn 23 12 .lk 0 [(80, 2048)]] }
  , -- CG_MDLLm_CFG
    { base := 0x20120, fields := [fld 31 31 .rw 0, fldIn 27 24 .rw 0 [(1, 15)], fldIn 23 12 .rw 0 [(80, 2048)]] }
  , -- CG_MDLLm_CFG
    { base := 0x20130, fields := [fld 31 31 .lk 0, fldIn 27 24 .lk 0 [(1, 15)], fldIn 23 12 .lk 0 [(80, 2048)]] }
  , -- CG_MDLLm_STAT
    { base := 0x20104, dims := [(4, 0x10)], fields := [fld 31 31 .ro 0, fld 30 30 .ro 0, fld 29 29 .ro 0, fld 21 16 .ro 0] }
  , -- CG_MDLLm_MEAS
    { base := 0x20108, dims := [(4, 0x10)], fields := [fld 31 0 .ro 0] }
  , -- CG_OUTo_CFG
    { base := 0x20200, fields := [fld 31 31 .ro 1, fld 27 26 .ro 0, fld 15 0 .ro 3] }
  , -- CG_OUTo_CFG
    { base := 0x20210, fields := [fld 31 31 .ro 1, fld 27 26 .ro 0, fld 15 0 .ro 2] }
  , -- CG_OUTo_CFG
    { base := 0x20220, fields := [fld 31 31 .ro 1, fld 27 26 .ro 0, fld 15 0 .ro 0xc] }
  , -- CG_OUTo_CFG
    { base := 0x20230, fields := [fld 31 31 .lk 0, fld 27 26 .ro 0, fld 15 0 .ro 8] }
  , -- CG_OUTo_CFG
    { base := 0x20240, dims := [(3, 0x10)], fields := [fld 31 31 .rw 0, fld 27 26 .rw 0, fld 15 0 .rw 0] }
  , -- CG_OUTo_PHASE
    { base := 0x20204, dims := [(4, 0x10)], fields := [fld 24 24 .ro 0, fld 23 16 .ro 0, fld 7 0 .lk 0] }
  , -- CG_OUTo_PHASE
    { base := 0x20244, dims := [(3, 0x10)], fields := [fld 24 24 .ro 0, fld 23 16 .ro 0, fld 7 0 .rw 0] }
  , -- CG_OUTo_SKEW
    { base := 0x20208, dims := [(7, 0x10)], fields := [fld 15 0 .ro 0] } ]

/-- The MEMC registers (R376). -/
def regsMEMC : List RegSpec :=
  [ -- MEMC_CFG
    { base := 0x90000, fields := [fldIn 31 30 .lk 0 [(0, 2)], fld 2 2 .rw 1, fld 1 1 .rw 1, fld 0 0 .lk 0] }
  , -- MEMC_CTL
    { base := 0x90004, fields := [fld 19 16 .rw 0, fld 1 1 .w1s 0, fld 0 0 .w1s 0] }
  , -- MEMC_STAT
    { base := 0x90008, fields := [fld 11 11 .ro 0, fld 10 10 .w1c 0, fld 9 9 .ro 0, fld 8 8 .w1c 0, fld 7 7 .w1c 0, fld 6 6 .ro 0, fld 5 5 .w1c 0, fld 4 4 .w1c 0, fld 3 3 .w1c 0, fld 2 2 .w1c 0, fld 1 1 .w1c 0, fld 0 0 .w1c 0] }
  , -- MEMC_INT_EN
    { base := 0x9000C, fields := [fld 11 0 .rw 0] }
  , -- MEMC_CAPACITY_LO
    { base := 0x90010, half := .low, captures := [4], fields := [fld 31 0 .ro 0] }
  , -- MEMC_CAPACITY_HI
    { base := 0x90014, half := .high, captured := true, fields := [fld 31 0 .ro 0] }
  , -- MEMC_LIVE
    { base := 0x90018, fields := [fld 31 16 .ro 0, fld 15 0 .ro 0] }
  , -- MEMC_BW_SUST
    { base := 0x9001C, fields := [fld 31 0 .ro 0] }
  , -- MEMC_BW_RSV
    { base := 0x90020, fields := [fld 31 0 .ro 0] }
  , -- MEMC_SCRUB_CFG
    { base := 0x90024, fields := [fldIn 7 0 .rw 0x18 [(2, 168)]] }
  , -- MEMC_SCRUB_STAT
    { base := 0x90028, fields := [fld 31 16 .ro 0, fld 15 0 .ro 0] }
  , -- MEMC_CE_LIMIT
    { base := 0x9002C, fields := [fld 15 0 .rw 0x100] }
  , -- MEMC_EVAC_FRONT_LO
    { base := 0x90030, half := .low, captures := [4], fields := [fld 31 0 .ro 0] }
  , -- MEMC_EVAC_FRONT_HI
    { base := 0x90034, half := .high, captured := true, fields := [fld 31 0 .ro 0] }
  , -- MEMC_EVAC_STAT
    { base := 0x90038, fields := [fld 31 31 .ro 0, fld 19 16 .ro 0, fld 15 0 .ro 0] }
  , -- MEMC_UE_ADDR_LO
    { base := 0x90040, half := .low, captures := [4], fields := [fld 31 0 .ro 0] }
  , -- MEMC_UE_ADDR_HI
    { base := 0x90044, half := .high, captured := true, fields := [fld 31 0 .ro 0] }
  , -- MEMC_LOST
    { base := 0x90048, fields := [fld 31 0 .ro 0] }
  , -- MEMCs_STAT
    { base := 0x91000, dims := [(16, 0x100)], fields := [fld 31 28 .ro 0, fld 23 16 .ro 0, fld 2 0 .ro 0] }
  , -- MEMCs_DIMM
    { base := 0x91004, dims := [(16, 0x100)], fields := [fld 31 24 .ro 0, fld 23 23 .ro 0, fld 22 22 .ro 0, fld 21 20 .ro 0] }
  , -- MEMCs_TEMP
    { base := 0x91008, dims := [(16, 0x100)], fields := [fld 31 24 .ro 0, fld 15 8 .ro 0] }
  , -- MEMCs_ECC
    { base := 0x9100C, dims := [(16, 0x100)], fields := [fld 31 16 .ro 0, fld 15 0 .ro 0] }
  , -- MEMCs_REFRESH
    { base := 0x91010, dims := [(16, 0x100)], fields := [fld 31 16 .ro 0, fld 2 0 .ro 0] }
  , -- MEMCs_QUEUE
    { base := 0x91014, dims := [(16, 0x100)], fields := [fld 31 24 .ro 0, fld 15 0 .ro 0] }
  , -- MEMCs_PD
    { base := 0x91018, dims := [(16, 0x100)], fields := [fld 31 16 .ro 0, fld 15 0 .ro 0] }
  , -- MEMCs_SERIAL
    { base := 0x9101C, dims := [(16, 0x100)], fields := [fld 31 0 .ro 0] }
  , -- MEMCs_CA_DLY
    { base := 0x91020, dims := [(16, 0x100)], fields := [fld 15 8 .ro 0, fld 7 0 .ro 0] }
  , -- MEMCs_LANEl_DLY
    { base := 0x91040, dims := [(16, 0x100), (5, 0x8)], fields := [fld 31 24 .ro 0, fld 23 16 .ro 0, fld 15 8 .ro 0, fld 7 0 .ro 0] }
  , -- MEMCs_LANEl_VREF
    { base := 0x91044, dims := [(16, 0x100), (5, 0x8)], fields := [fld 15 8 .ro 0, fld 7 0 .ro 0] } ]

/-- The ETH registers (R411). -/
def regsETH : List RegSpec :=
  [ -- ETH_STAT
    { base := 0xA0000, fields := [fld 10 10 .w1c 0, fld 9 8 .w1c 0, fld 7 6 .w1c 0, fld 5 4 .ro 0, fld 3 2 .w1c 0, fld 1 0 .ro 0] }
  , -- ETH_INT_EN
    { base := 0xA0004, fields := [fld 10 0 .rw 0] }
  , -- ETHp_CFG
    { base := 0xA0100, dims := [(2, 0x100)], fields := [fld 31 31 .lk 0, fld 30 30 .lk 0, fld 29 24 .lk 0, fld 23 23 .lk 0, fldIn 15 8 .rw 0x40 [(1, 255)], fld 7 0 .rw 0] }
  , -- ETHp_STAT
    { base := 0xA0104, dims := [(2, 0x100)], fields := [fld 31 28 .ro 0, fld 16 0 .ro 0] }
  , -- ETHp_SPILL
    { base := 0xA0108, dims := [(2, 0x100)], fields := [fld 31 0 .ro 0] }
  , -- ETHp_SPILL_RATE
    { base := 0xA010C, dims := [(2, 0x100)], fields := [fld 31 0 .lk 0] }
  , -- ETHp_TX_BYTES_LO
    { base := 0xA0110, dims := [(2, 0x100)], half := .low, captures := [4], fields := [fld 31 0 .ro 0] }
  , -- ETHp_TX_BYTES_HI
    { base := 0xA0114, dims := [(2, 0x100)], half := .high, captured := true, fields := [fld 31 0 .ro 0] }
  , -- ETHp_DROPPED
    { base := 0xA0118, dims := [(2, 0x100)], fields := [fld 31 0 .ro 0] }
  , -- ETHp_RX_DISCARD
    { base := 0xA011C, dims := [(2, 0x100)], fields := [fld 31 0 .ro 0] }
  , -- ETHp_FEC_CORR
    { base := 0xA0120, dims := [(2, 0x100)], fields := [fld 31 0 .ro 0] }
  , -- ETHp_FEC_UNCORR
    { base := 0xA0124, dims := [(2, 0x100)], fields := [fld 31 0 .ro 0] }
  , -- ETHp_Ll_MAC_LO
    { base := 0xA0400, dims := [(2, 0x100), (4, 0x20)], half := .low, captures := [4], fields := [fld 31 0 .lk 0] }
  , -- ETHp_Ll_MAC_HI
    { base := 0xA0404, dims := [(2, 0x100), (4, 0x20)], half := .high, captured := true, fields := [fld 15 0 .lk 0] }
  , -- ETHp_Ll_IP
    { base := 0xA0408, dims := [(2, 0x100), (4, 0x20)], fields := [fld 31 0 .lk 0] }
  , -- ETHp_Ll_STAT
    { base := 0xA040C, dims := [(2, 0x100), (4, 0x20)], fields := [fld 31 30 .ro 0, fld 29 29 .ro 0, fld 28 28 .ro 0, fld 15 0 .ro 0] }
  , -- ETHp_Ss_CFG
    { base := 0xA1000, dims := [(2, 0x1000), (64, 0x40)], fields := [fld 31 31 .st 0, fldIn 30 28 .lk 0 [(0, 5)], fld 27 27 .lk 0, fld 26 25 .lk 0, fld 23 22 .lk 0, fldIn 15 8 .lk 0 [(8, 143)]] }
  , -- ETHp_Ss_SRC
    { base := 0xA1004, dims := [(2, 0x1000), (64, 0x40)], fields := [fld 31 26 .lk 0, fld 24 16 .lk 0, fld 8 8 .lk 0, fld 7 0 .lk 0] }
  , -- ETHp_Ss_DST_MAC_LO
    { base := 0xA1008, dims := [(2, 0x1000), (64, 0x40)], half := .low, captures := [4], fields := [fld 31 0 .st 0] }
  , -- ETHp_Ss_DST_MAC_HI
    { base := 0xA100C, dims := [(2, 0x1000), (64, 0x40)], half := .high, captured := true, fields := [fld 15 0 .st 0] }
  , -- ETHp_Ss_DST_IP
    { base := 0xA1010, dims := [(2, 0x1000), (64, 0x40)], fields := [fld 31 0 .st 0] }
  , -- ETHp_Ss_UDP
    { base := 0xA1014, dims := [(2, 0x1000), (64, 0x40)], fields := [fld 31 16 .st 0, fld 15 0 .st 0] }
  , -- ETHp_Ss_RATE
    { base := 0xA1018, dims := [(2, 0x1000), (64, 0x40)], fields := [fldIn 31 0 .st 0 [(1, 400000)]] }
  , -- ETHp_Ss_BURST
    { base := 0xA101C, dims := [(2, 0x1000), (64, 0x40)], fields := [fldIn 15 0 .st 0x40 [(10, 65535)]] }
  , -- ETHp_Ss_VDIF
    { base := 0xA1020, dims := [(2, 0x1000), (64, 0x40)], fields := [fld 31 16 .lk 0, fld 15 6 .lk 0, fld 5 0 .lk 0] }
  , -- ETHp_Ss_VDIF_LEN
    { base := 0xA1024, dims := [(2, 0x1000), (64, 0x40)], fields := [fld 10 0 .lk 0] }
  , -- ETHp_Ss_VDIF_SEC0_LO
    { base := 0xA1028, dims := [(2, 0x1000), (64, 0x40)], half := .low, captures := [4], fields := [fld 31 0 .lk 0] }
  , -- ETHp_Ss_VDIF_SEC0_HI
    { base := 0xA102C, dims := [(2, 0x1000), (64, 0x40)], half := .high, captured := true, fields := [fld 15 0 .lk 0] }
  , -- ETHp_Ss_STAT
    { base := 0xA1030, dims := [(2, 0x1000), (64, 0x40)], fields := [fld 31 31 .ro 0, fld 30 24 .ro 0, fld 23 0 .ro 0] }
  , -- ETHp_Ss_SENT
    { base := 0xA1034, dims := [(2, 0x1000), (64, 0x40)], fields := [fld 31 0 .ro 0] }
  , -- ETHp_Ss_DROPPED
    { base := 0xA1038, dims := [(2, 0x1000), (64, 0x40)], fields := [fld 31 0 .ro 0] } ]

/-- The KIT registers (R413). -/
def regsKIT : List RegSpec :=
  [ -- KIT_CFG
    { base := 0xB0000, fields := [fld 31 31 .lk 0, fldIn 15 0 .rw 0x64 [(1, 65535)]] }
  , -- KIT_WM
    { base := 0xB0004, fields := [fld 27 16 .rw 0x600, fld 11 0 .rw 0x200] }
  , -- KIT_CTL
    { base := 0xB0008, fields := [fld 0 0 .w1s 0] }
  , -- KIT_STAT
    { base := 0xB000C, fields := [fld 5 5 .ro 0, fld 4 4 .ro 0, fld 3 3 .ro 0, fld 2 2 .w1c 0, fld 1 1 .w1c 0, fld 0 0 .w1c 0] }
  , -- KIT_INT_EN
    { base := 0xB0010, fields := [fld 5 0 .rw 0] }
  , -- KIT_PTR
    { base := 0xB0014, fields := [fld 27 16 .ro 0, fld 11 0 .ro 0] }
  , -- KIT_LEVEL
    { base := 0xB0018, fields := [fld 31 16 .ro 0, fld 15 0 .ro 0] }
  , -- KIT_PKTS
    { base := 0xB001C, fields := [fld 31 0 .ro 0] }
  , -- KIT_LOST_WORDS
    { base := 0xB0020, fields := [fld 31 0 .ro 0] }
  , -- KIT_DROP_ENTRIES
    { base := 0xB0024, fields := [fld 31 0 .ro 0] }
  , -- KIT_TAG
    { base := 0xB0100, fields := [fld 31 16 .ro 0, fld 7 0 .ro 0] }
  , -- KIT_DATA(d)
    { base := 0xB0104, dims := [(8, 0x4)], fields := [fld 31 0 .ro 0] } ]

/-- The HOST registers (R434). -/
def regsHOST : List RegSpec :=
  [ -- HOST_STAT
    { base := 0xC0000, fields := [fld 6 6 .w1c 0, fld 5 5 .w1c 0, fld 4 4 .w1c 0, fld 3 3 .w1c 0, fld 2 2 .ro 0, fld 1 1 .ro 0, fld 0 0 .ro 0] }
  , -- HOST_INT_EN
    { base := 0xC0004, fields := [fld 6 3 .rw 0] }
  , -- HOST_LINK
    { base := 0xC0008, fields := [fld 31 16 .ro 0, fld 11 8 .ro 0, fld 3 0 .ro 0] }
  , -- HOST_PCI_ID
    { base := 0xC000C, fields := [fld 31 16 .ro 0x4820, fld 7 0 .ro 1] }
  , -- HOST_INT_PEND
    { base := 0xC0010, fields := [fld 31 0 .w1c 0] }
  , -- HOST_INT_REQ
    { base := 0xC0014, fields := [fld 31 0 .ro 0] }
  , -- HOST_DMA_DONE
    { base := 0xC0018, fields := [fld 15 0 .w1c 0] }
  , -- HOST_ERRS
    { base := 0xC001C, fields := [fld 31 16 .ro 0, fld 15 0 .ro 0] }
  , -- PORT_ADDR_LO
    { base := 0xC1000, half := .low, captures := [4], fields := [fld 31 2 .rw 0] }
  , -- PORT_ADDR_HI
    { base := 0xC1004, half := .high, captured := true, fields := [fld 15 0 .rw 0] }
  , -- PORT_INC
    { base := 0xC1008, fields := [fld 1 0 .rw 1] }
  , -- PORT_DATA
    { base := 0xC100C, fields := [fld 31 0 .rw 0] } ]

/-- The DMA registers (R435). -/
def regsDMA : List RegSpec :=
  [ -- DMAc_SRC_LO
    { base := 0xD0000, dims := [(16, 0x40)], half := .low, captures := [4], fields := [fld 31 0 .rw 0] }
  , -- DMAc_SRC_HI
    { base := 0xD0004, dims := [(16, 0x40)], half := .high, captured := true, fields := [fld 31 0 .rw 0] }
  , -- DMAc_DST_LO
    { base := 0xD0008, dims := [(16, 0x40)], half := .low, captures := [4], fields := [fld 31 0 .rw 0] }
  , -- DMAc_DST_HI
    { base := 0xD000C, dims := [(16, 0x40)], half := .high, captured := true, fields := [fld 31 0 .rw 0] }
  , -- DMAc_CNT
    { base := 0xD0010, dims := [(16, 0x40)], fields := [fld 31 0 .rw 0] }
  , -- DMAc_CTL
    { base := 0xD0014, dims := [(16, 0x40)], fields := [fld 31 31 .rw 1, fld 30 30 .w1s 0, fld 29 29 .rw 0, fld 28 28 .rw 0] }
  , -- DMAc_STAT
    { base := 0xD0018, dims := [(16, 0x40)], fields := [fld 31 28 .ro 0, fld 27 24 .ro 0, fld 0 0 .ro 0] } ]

/-- The DISP registers (R458). -/
def regsDISP : List RegSpec :=
  [ -- DISP_CFG
    { base := 0xE0000, fields := [fld 31 31 .lk 0, fld 30 30 .lk 0, fld 29 29 .lk 0, fld 28 28 .lk 0, fldIn 27 26 .lk 0 [(0, 2)], fld 25 24 .lk 0, fld 23 23 .lk 0, fld 22 22 .lk 0, fld 19 16 .lk 0] }
  , -- DISP_CTL
    { base := 0xE0004, fields := [fld 1 1 .w1s 0, fld 0 0 .w1s 0] }
  , -- DISP_STAT
    { base := 0xE0008, fields := [fld 19 19 .ro 0, fld 18 16 .ro 0, fld 13 13 .ro 0, fld 12 12 .ro 0, fld 10 10 .w1c 0, fld 9 9 .w1c 0, fld 8 8 .w1c 0, fld 7 7 .w1c 0, fld 6 6 .w1c 0, fld 5 5 .w1c 0, fld 4 4 .w1c 0, fld 3 3 .w1c 0, fld 2 2 .w1c 0, fld 1 1 .w1c 0, fld 0 0 .w1c 0] }
  , -- DISP_INT_EN
    { base := 0xE000C, fields := [fld 10 0 .rw 0] }
  , -- DISP_H_TIMING
    { base := 0xE0010, fields := [fld 31 16 .lk 0, fld 15 0 .lk 0] }
  , -- DISP_H_SYNC
    { base := 0xE0014, fields := [fld 31 16 .lk 0, fld 15 0 .lk 0] }
  , -- DISP_V_TIMING
    { base := 0xE0018, fields := [fld 31 16 .lk 0, fld 15 0 .lk 0] }
  , -- DISP_V_SYNC
    { base := 0xE001C, fields := [fld 31 16 .lk 0, fld 15 0 .lk 0] }
  , -- DISP_COMMIT_LEAD
    { base := 0xE0020, fields := [fldIn 6 0 .rw 2 [(2, 64)]] }
  , -- DISP_LINE_MATCH
    { base := 0xE0024, fields := [fld 11 0 .rw 0] }
  , -- DISP_POS
    { base := 0xE0028, fields := [fld 11 0 .ro 0] }
  , -- DISP_FRAME
    { base := 0xE002C, fields := [fld 31 0 .ro 0] }
  , -- DISP_L0_Y_LO
    { base := 0xE0030, half := .low, captures := [4], fields := [fld 31 12 .rw 0] }
  , -- DISP_L0_Y_HI
    { base := 0xE0034, half := .high, captured := true, fields := [fld 15 0 .rw 0] }
  , -- DISP_L0_C_LO
    { base := 0xE0038, half := .low, captures := [4], fields := [fld 31 12 .rw 0] }
  , -- DISP_L0_C_HI
    { base := 0xE003C, half := .high, captured := true, fields := [fld 15 0 .rw 0] }
  , -- DISP_L0_CUR_LO
    { base := 0xE0040, half := .low, captures := [4], fields := [fld 31 0 .ro 0] }
  , -- DISP_L0_CUR_HI
    { base := 0xE0044, half := .high, captured := true, fields := [fld 15 0 .ro 0] }
  , -- DISP_RETIRED_ADDR_LO
    { base := 0xE0048, half := .low, captures := [4], fields := [fld 31 0 .ro 0] }
  , -- DISP_RETIRED_ADDR_HI
    { base := 0xE004C, half := .high, captured := true, fields := [fld 15 0 .ro 0] }
  , -- DISP_L1_CFG
    { base := 0xE0050, fields := [fld 0 0 .rw 0] }
  , -- DISP_UNDERRUNS
    { base := 0xE0054, fields := [fld 31 0 .ro 0] }
  , -- DISP_LATE_COUNT
    { base := 0xE0058, fields := [fld 31 0 .ro 0] }
  , -- DISP_RND_CFG
    { base := 0xE0060, fields := [fld 31 31 .lk 0, fld 30 30 .lk 0, fld 29 28 .lk 0, fld 27 26 .rw 0, fld 23 16 .lk 0, fld 7 0 .lk 0] }
  , -- DISP_RND_MAP
    { base := 0xE0064, fields := [fld 17 16 .rw 0, fld 15 0 .rw 0] }
  , -- DISP_RND_SCALE
    { base := 0xE0068, fields := [fld 31 16 .rw 0x400, fldIn 15 0 .rw 0x100 [(1, 65535)]] }
  , -- DISP_RND_STAT
    { base := 0xE006C, fields := [fld 31 16 .ro 0, fld 1 0 .ro 0] }
  , -- DISP_RND_DEAL_LO
    { base := 0xE0070, half := .low, captures := [4], fields := [fld 31 0 .ro 0] }
  , -- DISP_RND_DEAL_HI
    { base := 0xE0074, half := .high, captured := true, fields := [fld 31 0 .ro 0] }
  , -- DISP_PAL(i)
    { base := 0xE0100, dims := [(16, 0x4)], fields := [fld 31 24 .rw 0, fld 23 0 .rw 0] }
  , -- DISP_CLUT(i)
    { base := 0xE0400, dims := [(256, 0x4)], fields := [fld 23 16 .rw 0, fld 15 8 .rw 0x80, fld 7 0 .rw 0x80] } ]

/-- The TEST registers (R495, R522). -/
def regsTEST : List RegSpec :=
  [ -- TEST_LC_STAT
    { base := 0xF0000, fields := [fld 31 29 .ro 0, fld 28 26 .ro 0, fld 25 25 .ro 0, fld 24 24 .ro 0, fld 23 23 .ro 0, fld 22 22 .ro 0, fld 21 21 .ro 0, fld 15 12 .ro 0, fld 8 0 .ro 0] }
  , -- TEST_LC_ADV
    { base := 0xF0004, fields := [fld 31 16 .wo 0, fld 2 0 .wo 0] }
  , -- TEST_OTP_CTL
    { base := 0xF0008, fields := [fld 31 31 .w1s 0, fld 1 0 .rw 0] }
  , -- TEST_KEY_CHECK
    { base := 0xF000C, fields := [fld 31 0 .ro 0] }
  , -- TEST_OTP_DATA(w)
    { base := 0xF0010, dims := [(8, 0x4)], fields := [fld 31 0 .wo 0] }
  , -- TEST_PKH(w)
    { base := 0xF0030, dims := [(8, 0x4)], fields := [fld 31 0 .ro 0] }
  , -- TEST_STAT
    { base := 0xF0050, fields := [fld 8 8 .ro 0, fld 7 7 .w1c 0, fld 6 6 .w1c 0, fld 5 5 .w1c 0, fld 4 4 .w1c 0, fld 3 3 .w1c 0, fld 2 2 .w1c 0, fld 1 1 .w1c 0, fld 0 0 .ro 0] }
  , -- TEST_INT_EN
    { base := 0xF0054, fields := [fld 8 0 .rw 0] }
  , -- TEST_BIST_SUM
    { base := 0xF0058, fields := [fld 31 21 .ro 0, fld 20 10 .ro 0, fld 6 0 .ro 0] }
  , -- TEST_BIST_MS
    { base := 0xF005C, fields := [fld 15 0 .ro 0] }
  , -- TEST_IFT_CFG
    { base := 0xF0060, fields := [fld 31 31 .rw 1, fld 30 30 .rw 0, fldIn 7 0 .rw 0x18 [(1, 168)]] }
  , -- TEST_IFT_CTL
    { base := 0xF0064, fields := [fld 31 31 .w1s 0, fldIn 10 0 .rw 0 [(0, 1087)]] }
  , -- TEST_IFT_STAT
    { base := 0xF0068, fields := [fld 31 28 .ro 0, fld 15 0 .ro 0] }
  , -- TEST_IFT_LAST
    { base := 0xF006C, fields := [fld 31 30 .ro 0, fld 10 0 .ro 0] }
  , -- TEST_IFT_COUNT
    { base := 0xF0070, fields := [fld 31 16 .ro 0, fld 15 0 .ro 0] }
  , -- TEST_IFT_SKIPS
    { base := 0xF0074, fields := [fld 31 16 .ro 0, fld 15 0 .ro 0] }
  , -- TEST_MB_IDX
    { base := 0xF0080, fields := [fld 10 0 .rw 0] }
  , -- TEST_MB_COUNT
    { base := 0xF0084, fields := [fld 31 16 .ro 0, fld 11 0 .ro 0] }
  , -- TEST_MB_ENTRY(w)
    { base := 0xF0088, dims := [(4, 0x4)], fields := [fld 31 0 .ro 0] }
  , -- TEST_LB_IDX
    { base := 0xF0098, fields := [fld 12 0 .rw 0] }
  , -- TEST_LB_RESULT
    { base := 0xF009C, fields := [fld 31 30 .ro 0, fld 29 29 .ro 0] }
  , -- TEST_LB_SIG_LO
    { base := 0xF00A0, half := .low, captures := [4], fields := [fld 31 0 .ro 0] }
  , -- TEST_LB_SIG_HI
    { base := 0xF00A4, half := .high, captured := true, fields := [fld 31 0 .ro 0] }
  , -- TEST_LB_EXP_LO
    { base := 0xF00A8, half := .low, captures := [4], fields := [fld 31 0 .ro 0] }
  , -- TEST_LB_EXP_HI
    { base := 0xF00AC, half := .high, captured := true, fields := [fld 31 0 .ro 0] }
  , -- TEST_CAL_CFG
    { base := 0xF00B0, fields := [fldIn 7 0 .rw 0x18 [(1, 168)]] }
  , -- TEST_CAL_CTL
    { base := 0xF00B4, fields := [fld 31 31 .w1s 0, fld 30 30 .w1s 0, fld 29 29 .rw 0, fld 3 0 .rw 0] }
  , -- TEST_CAL_STAT
    { base := 0xF00B8, fields := [fld 31 31 .ro 0, fld 30 28 .ro 0, fld 15 0 .ro 0] }
  , -- TEST_CAL_WRITES
    { base := 0xF00BC, fields := [fld 31 0 .ro 0] }
  , -- TEST_JMAP_EDIT
    { base := 0xF00C0, fields := [fld 31 31 .w1s 0, fld 30 30 .rw 0, fldIn 10 0 .rw 0 [(0, 1087)]] }
  , -- TEST_CS_ADDR
    { base := 0xF00C4, fields := [fld 23 0 .rw 0] }
  , -- TEST_CS_DATA
    { base := 0xF00C8, fields := [fld 31 0 .ro 0] }
  , -- TEST_CS_WEAR
    { base := 0xF00CC, fields := [fld 31 0 .ro 0] }
  , -- TEST_BIST_CLU(c)
    { base := 0xF0100, dims := [(64, 0x4)], fields := [fld 31 31 .ro 0, fld 30 27 .ro 0, fld 21 17 .ro 0, fld 16 0 .ro 0] } ]

/-- The SUP registers (R1, R496). -/
def regsSUP : List RegSpec :=
  [ -- SUP_DEV_ID
    { base := 0x0, fields := [fld 31 16 .ro 0x4820, fld 15 8 .ro 0, fld 7 0 .ro 1] }
  , -- SUP_STAT
    { base := 0x4, fields := [fld 31 28 .ro 0, fld 27 25 .ro 0, fld 24 24 .ro 0, fld 23 23 .ro 0, fld 22 22 .ro 0, fld 3 3 .w1c 0, fld 2 2 .w1c 0, fld 1 1 .w1c 0, fld 0 0 .w1c 0] }
  , -- SUP_INT_EN
    { base := 0x8, fields := [fld 3 0 .rw 0] }
  , -- SUP_BOOT_STAT
    { base := 0xC, fields := [fld 31 24 .ro 0, fld 23 16 .ro 0xff, fld 15 4 .ro 0xfff, fld 3 0 .ro 0] }
  , -- SUP_BOOT_A_STAT
    { base := 0x10, fields := [fld 31 24 .ro 0, fld 23 16 .ro 0xff, fld 15 4 .ro 0xfff, fld 3 0 .ro 0] }
  , -- SUP_BOOT_INFO
    { base := 0x14, fields := [fld 31 31 .ro 0, fld 30 30 .ro 0, fld 29 29 .ro 0, fld 28 28 .ro 0, fld 11 0 .ro 0] }
  , -- SUP_BOOT_NEXT
    { base := 0x18, fields := [fld 8 8 .rw 0, fldIn 1 0 .rw 0 [(0, 2)]] }
  , -- SUP_RESET_CAUSE
    { base := 0x1C, fields := [fld 31 16 .ro 0, fld 3 3 .ro 0, fld 2 2 .ro 0, fld 1 1 .ro 0, fld 0 0 .ro 1] }
  , -- SUP_START_MS
    { base := 0x20, fields := [fld 31 0 .ro 0] }
  , -- SUP_ROM_VERSION
    { base := 0x24, fields := [fld 31 24 .ro 0, fld 23 16 .ro 0, fld 15 0 .ro 0] }
  , -- SUP_IMAGE_BUILD_LO
    { base := 0x28, half := .low, captures := [4], fields := [fld 31 0 .ro 0] }
  , -- SUP_IMAGE_BUILD_HI
    { base := 0x2C, half := .high, captured := true, fields := [fld 31 0 .ro 0] }
  , -- SUP_IMAGE_CRC
    { base := 0x30, fields := [fld 31 0 .ro 0] }
  , -- SUP_LAST_FATAL
    { base := 0x34, fields := [fld 15 0 .ro 0] }
  , -- SUP_LAST_FATAL_ARG
    { base := 0x38, fields := [fld 31 0 .ro 0] }
  , -- SUP_FLASH_INFO
    { base := 0x40, fields := [fld 31 31 .ro 0, fld 30 30 .ro 0, fld 15 0 .ro 0] }
  , -- SUP_FLASH_ADDR
    { base := 0x44, fields := [fld 31 0 .rw 0] }
  , -- SUP_FLASH_CMD
    { base := 0x48, fields := [fld 31 31 .w1s 0, fld 30 30 .ro 0, fld 29 28 .ro 0, fld 1 0 .rw 0] }
  , -- SUP_FLASH_BUF(w)
    { base := 0x100, dims := [(64, 0x4)], fields := [fld 31 0 .rw 0] } ]

/-- The VREG registers (R549). -/
def regsVREG : List RegSpec :=
  [ -- VREG_STAT
    { base := 0x120000, fields := [fld 8 8 .ro 0, fld 6 6 .ro 0, fld 5 5 .w1c 0, fld 4 4 .w1c 0, fld 3 3 .w1c 0, fld 2 2 .w1c 0, fld 1 1 .w1c 0, fld 0 0 .w1c 0] }
  , -- VREG_INT_EN
    { base := 0x120004, fields := [fld 5 0 .rw 0] }
  , -- VREG_ALERT_CFG
    { base := 0x120008, fields := [fld 29 24 .rw 0x3f, fldIn 23 16 .rw 0x64 [(60, 104)], fldIn 8 0 .rw 0xf0 [(100, 250)]] }
  , -- VREG_VIN
    { base := 0x12000C, fields := [fld 15 0 .ro 0] }
  , -- VREG_IIN
    { base := 0x120010, fields := [fld 15 0 .ro 0] }
  , -- VREG_PIN
    { base := 0x120014, fields := [fld 31 16 .ro 0, fld 15 0 .ro 0] }
  , -- VREG_ENERGY_LO
    { base := 0x120018, half := .low, captures := [4], fields := [fld 31 0 .ro 0] }
  , -- VREG_ENERGY_HI
    { base := 0x12001C, half := .high, captured := true, fields := [fld 31 0 .ro 0] }
  , -- VREG_TEMP_MAX
    { base := 0x120020, fields := [fld 31 16 .ro 0, fld 15 0 .ro 0] }
  , -- VREG_TEMP(d)
    { base := 0x120024, dims := [(5, 0x4)], fields := [fld 15 0 .ro 0] } ]

/-- The registers of block `nn` (R29); the CS registers lie in the HAND block (R186). -/
def regsOfBlock (nn : Nat) : List RegSpec :=
  match nn with
  | 0 => regsSUP
  | 1 => regsDEAL
  | 2 => regsCG
  | 3 => regsTIME
  | 4 => regsCONV
  | 5 => regsCBK
  | 6 => regsZC
  | 7 => regsTRG
  | 8 => regsCAP
  | 9 => regsMEMC
  | 10 => regsETH
  | 11 => regsKIT
  | 12 => regsHOST
  | 13 => regsDMA
  | 14 => regsDISP
  | 15 => regsTEST
  | 16 => regsPOT
  | 17 => regsHAND ++ regsCS
  | 18 => regsVREG
  | _ => []

/-- The instance numbers of a register whose first instance is `d` bytes below, outermost first, when `d` is one of its
instances' offsets. -/
def instOf : List (Nat × Nat) → Nat → Option (List Nat)
  | [], d => if d = 0 then some [] else none
  | (c, st) :: t, d =>
    let i := d / st
    if i < c then (instOf t (d - i * st)).map (fun l => i :: l) else none

/-- The instance numbers of a register at a device address, when the address is one of its instances. -/
def RegSpec.inst? (r : RegSpec) (a : Nat) : Option (List Nat) :=
  if r.base ≤ a then instOf r.dims (a - r.base) else none

/-- The first register of a list that has an instance at an address. -/
def findReg : List RegSpec → Nat → Option (RegSpec × List Nat)
  | [], _ => none
  | r :: t, a =>
    match r.inst? a with
    | some l => some (r, l)
    | none => findReg t a

/-- The register at a device address, with its instance numbers (R29, R160). -/
def regAt (a : Nat) : Option (RegSpec × List Nat) :=
  if a < 0x130000 then findReg (regsOfBlock (a / 0x10000)) a
  else if 0x1000000 ≤ a ∧ a < 0x1880000 then findReg regsENG a
  else none

/-- The reset value of a register's fields. -/
def fieldsReset : List FieldSpec → Nat
  | [] => 0
  | f :: t => f.reset <<< f.lo + fieldsReset t

/-- What a register reads as after reset. ENGp_ID holds p, its cluster and whether it is a joker (R160); the luma of
DISP_CLUT(i) is 16 + floor(219 i / 255) (R458). -/
def regReset (a : Nat) : Word :=
  match regAt a with
  | none => 0
  | some (r, inst) =>
    let base := fieldsReset r.fields
    let i := inst.headD 0
    if r.base = 0x1000000 then
      BitVec.ofNat 32 (i <<< 21 + (if i % 17 = 16 then 1 else 0) <<< 16 + (i / 17) <<< 10)
    else if r.base = 0xE0400 then BitVec.ofNat 32 (base + (16 + 219 * i / 255) <<< 16)
    else BitVec.ofNat 32 base

/-- The bits of a register that fields of an access code hold. -/
def accessMask (c : Access) : List FieldSpec → Nat
  | [] => 0
  | f :: t =>
    if f.acc = c then ((2 ^ (f.hi - f.lo + 1) - 1) <<< f.lo) ||| accessMask c t else accessMask c t

/-- Whether a write holds a value outside a field's permitted values (R551). Reserved bits, LK bits and bits that a
write cannot set do not make it out of range; `late` picks the fields whose check waits for the close point. -/
def outOfRange (late : Bool) : List FieldSpec → Nat → Bool
  | [], _ => false
  | f :: t, v =>
    (((f.acc = .rw ∨ f.acc = .st) ∧ f.late = late ∧ !f.ok.isEmpty) &&
      !(f.ok.any (fun r => decide (r.1 ≤ (v >>> f.lo) % 2 ^ (f.hi - f.lo + 1)) &&
        decide ((v >>> f.lo) % 2 ^ (f.hi - f.lo + 1) ≤ r.2)))) || outOfRange late t v

end Sys2Proof.Machine
end

