-- ==== Sys2Proof/Machine/Fields.lean ====
section
/-! DEFINITION. Names for the register fields that the model reads and writes, in the manual's spelling: register, then field,
with the instance numbers as arguments. A 64-bit quantity in a _LO / _HI pair has the pair's name (R11). -/

namespace Sys2Proof.Machine

/-- A field of a register: device address, lowest bit, width. -/
structure Field where
  addr  : Nat
  lo    : Nat
  width : Nat
  deriving DecidableEq, Repr

/-- Bit `i` of a field of flags. -/
def Field.bit (f : Field) (i : Nat) : Field := { addr := f.addr, lo := f.lo + i, width := 1 }

/-- A 64-bit quantity in two registers (R11): the address of its _LO register. -/
structure Pair where
  addr : Nat
  deriving DecidableEq, Repr

/-- DEAL_CFG.AMD_AUTH_REQ. -/
def DEAL_CFG_AMD_AUTH_REQ : Field := ⟨0x10000, 8, 1⟩

/-- DEAL_CFG.ALIGN. -/
def DEAL_CFG_ALIGN : Field := ⟨0x10000, 7, 1⟩

/-- DEAL_CFG.K. -/
def DEAL_CFG_K : Field := ⟨0x10000, 0, 5⟩

/-- The register DEAL_CTL. -/
def DEAL_CTL : Field := ⟨0x10004, 0, 32⟩

/-- DEAL_CTL.AMD_CANCEL. -/
def DEAL_CTL_AMD_CANCEL : Field := ⟨0x10004, 2, 1⟩

/-- DEAL_CTL.STAGE_GATE. -/
def DEAL_CTL_STAGE_GATE : Field := ⟨0x10004, 0, 1⟩

/-- The register DEAL_STAT. -/
def DEAL_STAT : Field := ⟨0x10008, 0, 32⟩

/-- DEAL_STAT.UNALIGNED. -/
def DEAL_STAT_UNALIGNED : Field := ⟨0x10008, 11, 1⟩

/-- DEAL_STAT.CLASS_W. -/
def DEAL_STAT_CLASS_W : Field := ⟨0x10008, 10, 1⟩

/-- DEAL_STAT.GATE_HELD. -/
def DEAL_STAT_GATE_HELD : Field := ⟨0x10008, 9, 1⟩

/-- DEAL_STAT.STAGED_PENDING. -/
def DEAL_STAT_STAGED_PENDING : Field := ⟨0x10008, 8, 1⟩

/-- DEAL_STAT.AMD_PENDING. -/
def DEAL_STAT_AMD_PENDING : Field := ⟨0x10008, 7, 1⟩

/-- DEAL_STAT.AMD_BUSY. -/
def DEAL_STAT_AMD_BUSY : Field := ⟨0x10008, 6, 1⟩

/-- DEAL_STAT.AMD_REFUSED. -/
def DEAL_STAT_AMD_REFUSED : Field := ⟨0x10008, 5, 1⟩

/-- DEAL_STAT.AMD_DONE. -/
def DEAL_STAT_AMD_DONE : Field := ⟨0x10008, 4, 1⟩

/-- DEAL_STAT.OVERRUN. -/
def DEAL_STAT_OVERRUN : Field := ⟨0x10008, 3, 1⟩

/-- DEAL_STAT.WORK_LATE. -/
def DEAL_STAT_WORK_LATE : Field := ⟨0x10008, 2, 1⟩

/-- DEAL_STAT.LATE. -/
def DEAL_STAT_LATE : Field := ⟨0x10008, 1, 1⟩

/-- DEAL_STAT.TICK. -/
def DEAL_STAT_TICK : Field := ⟨0x10008, 0, 1⟩

/-- The register DEAL_INT_EN. -/
def DEAL_INT_EN : Field := ⟨0x1000C, 0, 32⟩

/-- The pair DEAL_NUM. -/
def DEAL_NUM : Pair := ⟨0x10010⟩

/-- The register DEAL_TO_TICK. -/
def DEAL_TO_TICK : Field := ⟨0x10018, 0, 32⟩

/-- DEAL_TO_TICK.COUNT. -/
def DEAL_TO_TICK_COUNT : Field := ⟨0x10018, 0, 25⟩

/-- The pair DEAL_COMMIT. -/
def DEAL_COMMIT : Pair := ⟨0x10020⟩

/-- The register DEAL_COMMIT_HI. -/
def DEAL_COMMIT_HI : Field := ⟨0x10024, 0, 32⟩

/-- DEAL_AMD_STAT.RECORD. -/
def DEAL_AMD_STAT_RECORD : Field := ⟨0x10028, 16, 16⟩

/-- DEAL_AMD_STAT.CODE. -/
def DEAL_AMD_STAT_CODE : Field := ⟨0x10028, 0, 8⟩

/-- The pair DEAL_AMD_APPLIED. -/
def DEAL_AMD_APPLIED : Pair := ⟨0x10030⟩

/-- The pair DEAL_AMD_SEQ. -/
def DEAL_AMD_SEQ : Pair := ⟨0x10038⟩

/-- The pair DEAL_AMD_NONCE. -/
def DEAL_AMD_NONCE : Pair := ⟨0x10040⟩

/-- The pair DEAL_ALIGN_SEC. -/
def DEAL_ALIGN_SEC : Pair := ⟨0x10048⟩

/-- The register DEAL_BUDGET_AVAIL. -/
def DEAL_BUDGET_AVAIL : Field := ⟨0x10050, 0, 32⟩

/-- The register DEAL_BUDGET_LIMIT. -/
def DEAL_BUDGET_LIMIT : Field := ⟨0x10054, 0, 32⟩

/-- The register DEAL_BUDGET_WORST. -/
def DEAL_BUDGET_WORST : Field := ⟨0x10058, 0, 32⟩

/-- The register DEAL_BUDGET_ENG. -/
def DEAL_BUDGET_ENG : Field := ⟨0x1005C, 0, 32⟩

/-- DEAL_BUDGET_ENG.FAIL. -/
def DEAL_BUDGET_ENG_FAIL : Field := ⟨0x1005C, 31, 1⟩

/-- The register DEAL_LATE_COUNT. -/
def DEAL_LATE_COUNT : Field := ⟨0x10060, 0, 32⟩

/-- DEAL_LATE_COUNT.COUNT. -/
def DEAL_LATE_COUNT_COUNT : Field := ⟨0x10060, 0, 32⟩

/-- CONV_CLK.SRC. -/
def CONV_CLK_SRC : Field := ⟨0x40000, 0, 1⟩

/-- The register CONV_CTL. -/
def CONV_CTL : Field := ⟨0x40004, 0, 32⟩

/-- CONV_CTL.CAL_REQ. -/
def CONV_CTL_CAL_REQ : Field := ⟨0x40004, 8, 4⟩

/-- CONV_CTL.CAL_HOLD. -/
def CONV_CTL_CAL_HOLD : Field := ⟨0x40004, 4, 4⟩

/-- The register CONV_STAT. -/
def CONV_STAT : Field := ⟨0x40008, 0, 32⟩

/-- CONV_STAT.SPARE_USED. -/
def CONV_STAT_SPARE_USED : Field := ⟨0x40008, 28, 4⟩

/-- CONV_STAT.CAL_STOPPED. -/
def CONV_STAT_CAL_STOPPED : Field := ⟨0x40008, 24, 4⟩

/-- CONV_STAT.LANE_FAIL. -/
def CONV_STAT_LANE_FAIL : Field := ⟨0x40008, 20, 4⟩

/-- CONV_STAT.SWAP. -/
def CONV_STAT_SWAP : Field := ⟨0x40008, 16, 4⟩

/-- CONV_STAT.OVR. -/
def CONV_STAT_OVR : Field := ⟨0x40008, 12, 4⟩

/-- CONV_STAT.CAL_DONE. -/
def CONV_STAT_CAL_DONE : Field := ⟨0x40008, 8, 4⟩

/-- CONV_STAT.SNAP_DONE. -/
def CONV_STAT_SNAP_DONE : Field := ⟨0x40008, 4, 4⟩

/-- CONV_STAT.SCLK_LOST. -/
def CONV_STAT_SCLK_LOST : Field := ⟨0x40008, 1, 1⟩

/-- CONV_STAT.TRIM_APPLIED. -/
def CONV_STAT_TRIM_APPLIED : Field := ⟨0x40008, 0, 1⟩

/-- The register CONV_INT_EN. -/
def CONV_INT_EN : Field := ⟨0x4000C, 0, 32⟩

/-- CONV_SCLK_MEAS.FREQ_KHZ. -/
def CONV_SCLK_MEAS_FREQ_KHZ : Field := ⟨0x40010, 0, 25⟩

/-- CONV_CAL_DWELL.FAST_DWELL. -/
def CONV_CAL_DWELL_FAST_DWELL : Field := ⟨0x40014, 16, 16⟩

/-- CONV_CAL_DWELL.DWELL. -/
def CONV_CAL_DWELL_DWELL : Field := ⟨0x40014, 0, 16⟩

/-- CONV_TONE_CTL.LEVEL. -/
def CONV_TONE_CTL_LEVEL : Field := ⟨0x40020, 2, 2⟩

/-- CONV_TONE_CTL.EN. -/
def CONV_TONE_CTL_EN : Field := ⟨0x40020, 0, 1⟩

/-- CONV_TONE_FREQ.N. -/
def CONV_TONE_FREQ_N : Field := ⟨0x40024, 0, 15⟩

/-- CONVi_FS.CODE. -/
def CONVI_FS_CODE (i : Nat) : Field := ⟨0x41000 + i * 0x1000, 0, 8⟩

/-- CONVi_FMT.CODE. -/
def CONVI_FMT_CODE (i : Nat) : Field := ⟨0x41004 + i * 0x1000, 1, 1⟩

/-- CONVi_FMT.ALIGN. -/
def CONVI_FMT_ALIGN (i : Nat) : Field := ⟨0x41004 + i * 0x1000, 0, 1⟩

/-- CONVi_CMP_HI.EN. -/
def CONVI_CMP_HI_EN (i : Nat) : Field := ⟨0x41008 + i * 0x1000, 31, 1⟩

/-- CONVi_CMP_HI.SLOPE. -/
def CONVI_CMP_HI_SLOPE (i : Nat) : Field := ⟨0x41008 + i * 0x1000, 12, 2⟩

/-- CONVi_CMP_HI.HYST. -/
def CONVI_CMP_HI_HYST (i : Nat) : Field := ⟨0x41008 + i * 0x1000, 10, 2⟩

/-- CONVi_CMP_HI.THRESH. -/
def CONVI_CMP_HI_THRESH (i : Nat) : Field := ⟨0x41008 + i * 0x1000, 0, 10⟩

/-- CONVi_CMP_LO.EN. -/
def CONVI_CMP_LO_EN (i : Nat) : Field := ⟨0x4100C + i * 0x1000, 31, 1⟩

/-- CONVi_CMP_LO.SLOPE. -/
def CONVI_CMP_LO_SLOPE (i : Nat) : Field := ⟨0x4100C + i * 0x1000, 12, 2⟩

/-- CONVi_CMP_LO.HYST. -/
def CONVI_CMP_LO_HYST (i : Nat) : Field := ⟨0x4100C + i * 0x1000, 10, 2⟩

/-- CONVi_CMP_LO.THRESH. -/
def CONVI_CMP_LO_THRESH (i : Nat) : Field := ⟨0x4100C + i * 0x1000, 0, 10⟩

/-- CONVi_COMP_SKEW.HI. -/
def CONVI_COMP_SKEW_HI (i : Nat) : Field := ⟨0x41010 + i * 0x1000, 16, 16⟩

/-- CONVi_COMP_SKEW.LO. -/
def CONVI_COMP_SKEW_LO (i : Nat) : Field := ⟨0x41010 + i * 0x1000, 0, 16⟩

/-- CONVi_LANE_STAT.MODE. -/
def CONVI_LANE_STAT_MODE (i : Nat) : Field := ⟨0x41014 + i * 0x1000, 30, 2⟩

/-- CONVi_LANE_STAT.SHADOW_SLOT. -/
def CONVI_LANE_STAT_SHADOW_SLOT (i : Nat) : Field := ⟨0x41014 + i * 0x1000, 16, 5⟩

/-- CONVi_LANE_STAT.SPARE_LANE. -/
def CONVI_LANE_STAT_SPARE_LANE (i : Nat) : Field := ⟨0x41014 + i * 0x1000, 8, 6⟩

/-- CONVi_LANE_STAT.ROTATIONS. -/
def CONVI_LANE_STAT_ROTATIONS (i : Nat) : Field := ⟨0x41014 + i * 0x1000, 0, 8⟩

/-- CONVi_OVR_COUNT.COUNT. -/
def CONVI_OVR_COUNT_COUNT (i : Nat) : Field := ⟨0x41018 + i * 0x1000, 0, 32⟩

/-- The register CONVi_INJECT. -/
def CONVI_INJECT (i : Nat) : Field := ⟨0x41020 + i * 0x1000, 0, 32⟩

/-- CONVi_INJECT.LEN_M1. -/
def CONVI_INJECT_LEN_M1 (i : Nat) : Field := ⟨0x41020 + i * 0x1000, 0, 15⟩

/-- CONVi_SNAP_STAT.BUSY. -/
def CONVI_SNAP_STAT_BUSY (i : Nat) : Field := ⟨0x41024 + i * 0x1000, 31, 1⟩

/-- CONVi_SNAP_STAT.OVR. -/
def CONVI_SNAP_STAT_OVR (i : Nat) : Field := ⟨0x41024 + i * 0x1000, 30, 1⟩

/-- CONVi_SNAP_STAT.ERR. -/
def CONVI_SNAP_STAT_ERR (i : Nat) : Field := ⟨0x41024 + i * 0x1000, 0, 8⟩

/-- The pair CONVi_SNAP_ADDR. -/
def CONVI_SNAP_ADDR (i : Nat) : Pair := ⟨0x41028 + i * 0x1000⟩

/-- The pair CONVi_SNAP_SAMPLE. -/
def CONVI_SNAP_SAMPLE (i : Nat) : Pair := ⟨0x41030 + i * 0x1000⟩

/-- CONVi_SLOT_LANE(s).LANE. -/
def CONVI_SLOT_LANE_LANE (i a : Nat) : Field := ⟨0x41080 + i * 0x1000 + a * 0x4, 0, 6⟩

/-- The register CONVi_TRIM_A(l). -/
def CONVI_TRIM_A (i a : Nat) : Field := ⟨0x41200 + i * 0x1000 + a * 0x8, 0, 32⟩

/-- CONVi_TRIM_A(l).GAIN. -/
def CONVI_TRIM_A_GAIN (i a : Nat) : Field := ⟨0x41200 + i * 0x1000 + a * 0x8, 18, 14⟩

/-- CONVi_TRIM_A(l).OFFSET. -/
def CONVI_TRIM_A_OFFSET (i a : Nat) : Field := ⟨0x41200 + i * 0x1000 + a * 0x8, 0, 12⟩

/-- The register CONVi_TRIM_B(l). -/
def CONVI_TRIM_B (i a : Nat) : Field := ⟨0x41204 + i * 0x1000 + a * 0x8, 0, 32⟩

/-- CONVi_TRIM_B(l).BW. -/
def CONVI_TRIM_B_BW (i a : Nat) : Field := ⟨0x41204 + i * 0x1000 + a * 0x8, 26, 6⟩

/-- CONVi_TRIM_B(l).SKEW. -/
def CONVI_TRIM_B_SKEW (i a : Nat) : Field := ⟨0x41204 + i * 0x1000 + a * 0x8, 0, 10⟩

/-- The register CBK_STAT. -/
def CBK_STAT : Field := ⟨0x50000, 0, 32⟩

/-- CBK_STAT.COEF_DEFAULT. -/
def CBK_STAT_COEF_DEFAULT : Field := ⟨0x50000, 8, 4⟩

/-- CBK_STAT.SAT. -/
def CBK_STAT_SAT : Field := ⟨0x50000, 0, 4⟩

/-- The register CBK_INT_EN. -/
def CBK_INT_EN : Field := ⟨0x50004, 0, 32⟩

/-- CBKi_CFG.ZONE. -/
def CBKI_CFG_ZONE (i : Nat) : Field := ⟨0x51000 + i * 0x1000, 8, 1⟩

/-- CBKi_CFG.SHIFT. -/
def CBKI_CFG_SHIFT (i : Nat) : Field := ⟨0x51000 + i * 0x1000, 0, 6⟩

/-- CBKi_GD.GD. -/
def CBKI_GD_GD (i : Nat) : Field := ⟨0x51004 + i * 0x1000, 0, 21⟩

/-- CBKi_COEF_IDX.IDX. -/
def CBKI_COEF_IDX_IDX (i : Nat) : Field := ⟨0x51008 + i * 0x1000, 0, 13⟩

/-- CBKi_COEF_DATA.COEF. -/
def CBKI_COEF_DATA_COEF (i : Nat) : Field := ⟨0x5100C + i * 0x1000, 0, 32⟩

/-- The register CBKi_COEF_CRC. -/
def CBKI_COEF_CRC (i : Nat) : Field := ⟨0x51010 + i * 0x1000, 0, 32⟩

/-- CBKi_SAT_COUNT.COUNT. -/
def CBKI_SAT_COUNT_COUNT (i : Nat) : Field := ⟨0x51014 + i * 0x1000, 0, 9⟩

/-- The pair CBKi_SAT_DEAL. -/
def CBKI_SAT_DEAL (i : Nat) : Pair := ⟨0x51018 + i * 0x1000⟩

/-- CBKi_SAT(w).FLAGS. -/
def CBKI_SAT_FLAGS (i a : Nat) : Field := ⟨0x51040 + i * 0x1000 + a * 0x4, 0, 32⟩

/-- CBKi_EQ_RE(k).RE. -/
def CBKI_EQ_RE_RE (i a : Nat) : Field := ⟨0x51800 + i * 0x1000 + a * 0x8, 0, 18⟩

/-- CBKi_EQ_IM(k).IM. -/
def CBKI_EQ_IM_IM (i a : Nat) : Field := ⟨0x51804 + i * 0x1000 + a * 0x8, 0, 18⟩

/-- ENGp_ID.ACTIVE. -/
def ENG_ID_ACTIVE (i : Nat) : Field := ⟨0x1000000 + i * 0x2000, 20, 1⟩

/-- ENGp_ID.LOGICAL. -/
def ENG_ID_LOGICAL (i : Nat) : Field := ⟨0x1000000 + i * 0x2000, 0, 10⟩

/-- The register ENGp_STAT. -/
def ENG_STAT (i : Nat) : Field := ⟨0x1000004 + i * 0x2000, 0, 32⟩

/-- ENGp_STAT.STATE. -/
def ENG_STAT_STATE (i : Nat) : Field := ⟨0x1000004 + i * 0x2000, 28, 4⟩

/-- ENGp_STAT.PROG_FAULT. -/
def ENG_STAT_PROG_FAULT (i : Nat) : Field := ⟨0x1000004 + i * 0x2000, 15, 1⟩

/-- ENGp_STAT.IN_LAP. -/
def ENG_STAT_IN_LAP (i : Nat) : Field := ⟨0x1000004 + i * 0x2000, 14, 1⟩

/-- ENGp_STAT.ECC_UNC. -/
def ENG_STAT_ECC_UNC (i : Nat) : Field := ⟨0x1000004 + i * 0x2000, 13, 1⟩

/-- ENGp_STAT.ECC_CORR. -/
def ENG_STAT_ECC_CORR (i : Nat) : Field := ⟨0x1000004 + i * 0x2000, 12, 1⟩

/-- ENGp_STAT.RESTART. -/
def ENG_STAT_RESTART (i : Nat) : Field := ⟨0x1000004 + i * 0x2000, 8, 1⟩

/-- ENGp_FAULT.CODE. -/
def ENG_FAULT_CODE (i : Nat) : Field := ⟨0x1000008 + i * 0x2000, 24, 8⟩

/-- ENGp_FAULT.PC. -/
def ENG_FAULT_PC (i : Nat) : Field := ⟨0x1000008 + i * 0x2000, 0, 14⟩

/-- ENGp_ECC.UNC. -/
def ENG_ECC_UNC (i : Nat) : Field := ⟨0x100000C + i * 0x2000, 16, 16⟩

/-- ENGp_ECC.CORR. -/
def ENG_ECC_CORR (i : Nat) : Field := ⟨0x100000C + i * 0x2000, 0, 16⟩

/-- ENGp_ECC_ADDR.UNC. -/
def ENG_ECC_ADDR_UNC (i : Nat) : Field := ⟨0x1000010 + i * 0x2000, 31, 1⟩

/-- ENGp_ECC_ADDR.ADDR. -/
def ENG_ECC_ADDR_ADDR (i : Nat) : Field := ⟨0x1000010 + i * 0x2000, 0, 20⟩

/-- The pair ENGp_IN_WR. -/
def ENG_IN_WR (i : Nat) : Pair := ⟨0x1000018 + i * 0x2000⟩

/-- The pair ENGp_IN_BASE. -/
def ENG_IN_BASE (i : Nat) : Pair := ⟨0x1000020 + i * 0x2000⟩

/-- ENGp_IN_LEN.LEN. -/
def ENG_IN_LEN_LEN (i : Nat) : Field := ⟨0x1000028 + i * 0x2000, 0, 15⟩

/-- ENGp_DEAL_BUSY.CYCLES. -/
def ENG_DEAL_BUSY_CYCLES (i : Nat) : Field := ⟨0x1000030 + i * 0x2000, 0, 32⟩

/-- ENGp_DEAL_STALL.CYCLES. -/
def ENG_DEAL_STALL_CYCLES (i : Nat) : Field := ⟨0x1000034 + i * 0x2000, 0, 32⟩

/-- ENGp_RESTARTS.FAULT. -/
def ENG_RESTARTS_FAULT (i : Nat) : Field := ⟨0x1000038 + i * 0x2000, 16, 16⟩

/-- ENGp_RESTARTS.PREEMPT. -/
def ENG_RESTARTS_PREEMPT (i : Nat) : Field := ⟨0x1000038 + i * 0x2000, 0, 16⟩

/-- The register ENGp_PRELOAD(r). -/
def ENG_PRELOAD (i a : Nat) : Field := ⟨0x1000040 + i * 0x2000 + a * 0x4, 0, 32⟩

/-- ENGp_PRELOAD(r).EN. -/
def ENG_PRELOAD_EN (i a : Nat) : Field := ⟨0x1000040 + i * 0x2000 + a * 0x4, 31, 1⟩

/-- ENGp_PRELOAD(r).LEN4K. -/
def ENG_PRELOAD_LEN4K (i a : Nat) : Field := ⟨0x1000040 + i * 0x2000 + a * 0x4, 16, 7⟩

/-- ENGp_PRELOAD(r).BASE4K. -/
def ENG_PRELOAD_BASE4K (i a : Nat) : Field := ⟨0x1000040 + i * 0x2000 + a * 0x4, 0, 8⟩

/-- ENGp_XCNT.XCNT. -/
def ENG_XCNT_XCNT (i : Nat) : Field := ⟨0x1000048 + i * 0x2000, 0, 16⟩

/-- The register CS_VENDOR_VERSION. -/
def CS_VENDOR_VERSION : Field := ⟨0x118000, 0, 32⟩

/-- CS_VENDOR_VERSION.MAJOR. -/
def CS_VENDOR_VERSION_MAJOR : Field := ⟨0x118000, 24, 8⟩

/-- The register CS_CUSTOMER_VERSION. -/
def CS_CUSTOMER_VERSION : Field := ⟨0x118004, 0, 32⟩

/-- CS_CUSTOMER_VERSION.MAJOR. -/
def CS_CUSTOMER_VERSION_MAJOR : Field := ⟨0x118004, 24, 8⟩

/-- CS_PATCH_LEVEL.LEVEL. -/
def CS_PATCH_LEVEL_LEVEL : Field := ⟨0x118008, 16, 16⟩

/-- CS_PATCH_LEVEL.WORDS. -/
def CS_PATCH_LEVEL_WORDS : Field := ⟨0x118008, 0, 16⟩

/-- CS_STAT.CUST_LOADED. -/
def CS_STAT_CUST_LOADED : Field := ⟨0x11800C, 3, 1⟩

/-- CS_STAT.PATCHED. -/
def CS_STAT_PATCHED : Field := ⟨0x11800C, 2, 1⟩

/-- CS_STAT.REPAIR_FAIL. -/
def CS_STAT_REPAIR_FAIL : Field := ⟨0x11800C, 1, 1⟩

/-- CS_STAT.REPAIR. -/
def CS_STAT_REPAIR : Field := ⟨0x11800C, 0, 1⟩

/-- The register CS_VENDOR_CRC. -/
def CS_VENDOR_CRC : Field := ⟨0x118010, 0, 32⟩

/-- The register CS_CUSTOMER_CRC. -/
def CS_CUSTOMER_CRC : Field := ⟨0x118014, 0, 32⟩

/-- CS_REPAIR_COUNT.COUNT. -/
def CS_REPAIR_COUNT_COUNT : Field := ⟨0x118018, 0, 16⟩

/-- CS_REPAIR_ADDR.CLUSTER. -/
def CS_REPAIR_ADDR_CLUSTER : Field := ⟨0x11801C, 14, 6⟩

/-- CS_REPAIR_ADDR.WORD. -/
def CS_REPAIR_ADDR_WORD : Field := ⟨0x11801C, 0, 14⟩

/-- CS_PROG_IDX.IDX. -/
def CS_PROG_IDX_IDX : Field := ⟨0x118020, 0, 6⟩

/-- The register CS_PROG_INFO. -/
def CS_PROG_INFO : Field := ⟨0x118024, 0, 32⟩

/-- CS_PROG_INFO.VALID. -/
def CS_PROG_INFO_VALID : Field := ⟨0x118024, 31, 1⟩

/-- The register CS_PROG_RECOUNT_F. -/
def CS_PROG_RECOUNT_F : Field := ⟨0x118030, 0, 32⟩

/-- CS_PROG_RECOUNT_P.P. -/
def CS_PROG_RECOUNT_P_P : Field := ⟨0x118034, 0, 32⟩

/-- The register CS_ROUTINE_MAX. -/
def CS_ROUTINE_MAX : Field := ⟨0x118038, 0, 32⟩

/-- CS_ROUTINE_MAX.COUNT. -/
def CS_ROUTINE_MAX_COUNT : Field := ⟨0x118038, 0, 17⟩

/-- The register HAND_CFG. -/
def HAND_CFG : Field := ⟨0x110000, 0, 32⟩

/-- HAND_CFG.RATE_LIMIT. -/
def HAND_CFG_RATE_LIMIT : Field := ⟨0x110000, 16, 8⟩

/-- HAND_CFG.CONSEC_LIMIT. -/
def HAND_CFG_CONSEC_LIMIT : Field := ⟨0x110000, 8, 4⟩

/-- HAND_CFG.WATCHDOG. -/
def HAND_CFG_WATCHDOG : Field := ⟨0x110000, 0, 8⟩

/-- The register HAND_FORCE. -/
def HAND_FORCE : Field := ⟨0x110004, 0, 32⟩

/-- HAND_FORCE.LOGICAL. -/
def HAND_FORCE_LOGICAL : Field := ⟨0x110004, 0, 10⟩

/-- The register HAND_STAT. -/
def HAND_STAT : Field := ⟨0x110008, 0, 32⟩

/-- HAND_STAT.LOG_FATAL. -/
def HAND_STAT_LOG_FATAL : Field := ⟨0x110008, 7, 1⟩

/-- HAND_STAT.LOG_ATTN. -/
def HAND_STAT_LOG_ATTN : Field := ⟨0x110008, 6, 1⟩

/-- HAND_STAT.MARGIN_LOW. -/
def HAND_STAT_MARGIN_LOW : Field := ⟨0x110008, 5, 1⟩

/-- HAND_STAT.SHARED_FAIL. -/
def HAND_STAT_SHARED_FAIL : Field := ⟨0x110008, 4, 1⟩

/-- HAND_STAT.JOKER_FAIL. -/
def HAND_STAT_JOKER_FAIL : Field := ⟨0x110008, 3, 1⟩

/-- HAND_STAT.NO_JOKER. -/
def HAND_STAT_NO_JOKER : Field := ⟨0x110008, 2, 1⟩

/-- HAND_STAT.SUB. -/
def HAND_STAT_SUB : Field := ⟨0x110008, 1, 1⟩

/-- HAND_STAT.STANDIN. -/
def HAND_STAT_STANDIN : Field := ⟨0x110008, 0, 1⟩

/-- The register HAND_INT_EN. -/
def HAND_INT_EN : Field := ⟨0x11000C, 0, 32⟩

/-- The register HAND_SUB_COUNT. -/
def HAND_SUB_COUNT : Field := ⟨0x110010, 0, 32⟩

/-- HAND_SUB_COUNT.IN_USE. -/
def HAND_SUB_COUNT_IN_USE : Field := ⟨0x110010, 16, 7⟩

/-- HAND_SUB_COUNT.COUNT. -/
def HAND_SUB_COUNT_COUNT : Field := ⟨0x110010, 0, 16⟩

/-- The register HAND_TAKEOVER_MAX. -/
def HAND_TAKEOVER_MAX : Field := ⟨0x110014, 0, 32⟩

/-- HAND_TAKEOVER_MAX.NS. -/
def HAND_TAKEOVER_MAX_NS : Field := ⟨0x110014, 0, 32⟩

/-- The register HAND_MARGIN_MIN. -/
def HAND_MARGIN_MIN : Field := ⟨0x110018, 0, 32⟩

/-- HAND_MARGIN_MIN.NS. -/
def HAND_MARGIN_MIN_NS : Field := ⟨0x110018, 0, 32⟩

/-- The register HAND_MARGIN_NODE. -/
def HAND_MARGIN_NODE : Field := ⟨0x11001C, 0, 32⟩

/-- The register HAND_TREE_INFO. -/
def HAND_TREE_INFO : Field := ⟨0x110020, 0, 32⟩

/-- HAND_TREE_INFO.DEPTH. -/
def HAND_TREE_INFO_DEPTH : Field := ⟨0x110020, 28, 4⟩

/-- HAND_NODE_IDX.IDX. -/
def HAND_NODE_IDX_IDX : Field := ⟨0x110024, 0, 11⟩

/-- The register HAND_NODE. -/
def HAND_NODE : Field := ⟨0x110028, 0, 32⟩

/-- HAND_NODE.KIND. -/
def HAND_NODE_KIND : Field := ⟨0x110028, 30, 2⟩

/-- HAND_NODE_MARGIN.NS. -/
def HAND_NODE_MARGIN_NS : Field := ⟨0x11002C, 0, 32⟩

/-- The register HAND_LOG_COUNT. -/
def HAND_LOG_COUNT : Field := ⟨0x110030, 0, 32⟩

/-- HAND_LOG_COUNT.COUNT. -/
def HAND_LOG_COUNT_COUNT : Field := ⟨0x110030, 0, 32⟩

/-- The register HAND_MAP(L). -/
def HAND_MAP (i : Nat) : Field := ⟨0x111000 + i * 0x4, 0, 32⟩

/-- HAND_MAP(L).VALID. -/
def HAND_MAP_VALID (i : Nat) : Field := ⟨0x111000 + i * 0x4, 31, 1⟩

/-- HAND_MAP(L).SUB. -/
def HAND_MAP_SUB (i : Nat) : Field := ⟨0x111000 + i * 0x4, 30, 1⟩

/-- HAND_MAP(L).PENDING. -/
def HAND_MAP_PENDING (i : Nat) : Field := ⟨0x111000 + i * 0x4, 29, 1⟩

/-- HAND_MAP(L).PHYS. -/
def HAND_MAP_PHYS (i : Nat) : Field := ⟨0x111000 + i * 0x4, 0, 11⟩

/-- HAND_CLU(c).JSTATE. -/
def HAND_CLU_JSTATE (i : Nat) : Field := ⟨0x112000 + i * 0x4, 28, 4⟩

/-- HAND_CLU(c).FAILRES. -/
def HAND_CLU_FAILRES (i : Nat) : Field := ⟨0x112000 + i * 0x4, 24, 4⟩

/-- HAND_CLU(c).JFOR. -/
def HAND_CLU_JFOR (i : Nat) : Field := ⟨0x112000 + i * 0x4, 16, 5⟩

/-- HAND_CLU(c).RETIRED. -/
def HAND_CLU_RETIRED (i : Nat) : Field := ⟨0x112000 + i * 0x4, 0, 5⟩

/-- POT_CFG.PKS_NTOP. -/
def POT_CFG_PKS_NTOP : Field := ⟨0x100000, 16, 8⟩

/-- POT_CFG.PKS_SCOPE. -/
def POT_CFG_PKS_SCOPE : Field := ⟨0x100000, 8, 1⟩

/-- POT_CFG.FMT_SCOPE. -/
def POT_CFG_FMT_SCOPE : Field := ⟨0x100000, 0, 1⟩

/-- The register POT_STAT. -/
def POT_STAT : Field := ⟨0x100008, 0, 32⟩

/-- POT_STAT.MERGE_DEG. -/
def POT_STAT_MERGE_DEG : Field := ⟨0x100008, 6, 1⟩

/-- POT_STAT.FMT_LOST. -/
def POT_STAT_FMT_LOST : Field := ⟨0x100008, 5, 1⟩

/-- POT_STAT.FMT_EVENT. -/
def POT_STAT_FMT_EVENT : Field := ⟨0x100008, 4, 1⟩

/-- POT_STAT.ABSENT. -/
def POT_STAT_ABSENT : Field := ⟨0x100008, 3, 1⟩

/-- POT_STAT.LATE. -/
def POT_STAT_LATE : Field := ⟨0x100008, 2, 1⟩

/-- POT_STAT.STORE_HIGH. -/
def POT_STAT_STORE_HIGH : Field := ⟨0x100008, 1, 1⟩

/-- POT_STAT.RING_WRAP. -/
def POT_STAT_RING_WRAP : Field := ⟨0x100008, 0, 1⟩

/-- The register POT_INT_EN. -/
def POT_INT_EN : Field := ⟨0x10000C, 0, 32⟩

/-- POT_PROD_IDX.IDX. -/
def POT_PROD_IDX_IDX : Field := ⟨0x100010, 0, 8⟩

/-- The register POT_PROD_INFO. -/
def POT_PROD_INFO : Field := ⟨0x100014, 0, 32⟩

/-- POT_PROD_INFO.VALID. -/
def POT_PROD_INFO_VALID : Field := ⟨0x100014, 31, 1⟩

/-- The register POT_PROD_BYTES. -/
def POT_PROD_BYTES : Field := ⟨0x100018, 0, 32⟩

/-- POT_PROD_BYTES.BYTES64. -/
def POT_PROD_BYTES_BYTES64 : Field := ⟨0x100018, 0, 32⟩

/-- The pair POT_REC_COUNT. -/
def POT_REC_COUNT : Pair := ⟨0x100020⟩

/-- The register POT_LATE_COUNT. -/
def POT_LATE_COUNT : Field := ⟨0x100028, 0, 32⟩

/-- POT_LATE_COUNT.COUNT. -/
def POT_LATE_COUNT_COUNT : Field := ⟨0x100028, 0, 32⟩

/-- POT_ABSENT_COUNT.COUNT. -/
def POT_ABSENT_COUNT_COUNT : Field := ⟨0x10002C, 0, 32⟩

/-- The register POT_FMT_EVENTS. -/
def POT_FMT_EVENTS : Field := ⟨0x100030, 0, 32⟩

/-- POT_FMT_EVENTS.COUNT. -/
def POT_FMT_EVENTS_COUNT : Field := ⟨0x100030, 0, 32⟩

/-- The register POT_FMT_LOST. -/
def POT_FMT_LOST : Field := ⟨0x100034, 0, 32⟩

/-- POT_FMT_LOST.COUNT. -/
def POT_FMT_LOST_COUNT : Field := ⟨0x100034, 0, 32⟩

/-- POT_Q(q)_STORE.MAX. -/
def POT_Q_STORE_MAX (i : Nat) : Field := ⟨0x100040 + i * 0x4, 16, 16⟩

/-- POT_Q(q)_STORE.CUR. -/
def POT_Q_STORE_CUR (i : Nat) : Field := ⟨0x100040 + i * 0x4, 0, 16⟩

/-- POT_Q(q)_VOLUME.KIB. -/
def POT_Q_VOLUME_KIB (i : Nat) : Field := ⟨0x100050 + i * 0x4, 0, 32⟩

/-- The pair POT_RING_WR. -/
def POT_RING_WR : Pair := ⟨0x100060⟩

/-- POT_RING_WRAPS.COUNT. -/
def POT_RING_WRAPS_COUNT : Field := ⟨0x100068, 0, 32⟩

/-- The register POT_PROD_EN(w). -/
def POT_PROD_EN (i : Nat) : Field := ⟨0x100080 + i * 0x4, 0, 32⟩

/-- POT_PROD_EN(w).EN. -/
def POT_PROD_EN_EN (i : Nat) : Field := ⟨0x100080 + i * 0x4, 0, 32⟩

/-- The register ZC_STAT. -/
def ZC_STAT : Field := ⟨0x60000, 0, 32⟩

/-- ZC_STAT.REFUSED. -/
def ZC_STAT_REFUSED : Field := ⟨0x60000, 31, 1⟩

/-- ZC_STAT.OVF. -/
def ZC_STAT_OVF : Field := ⟨0x60000, 0, 16⟩

/-- The register ZC_INT_EN. -/
def ZC_INT_EN : Field := ⟨0x60004, 0, 32⟩

/-- The register ZC_AGG. -/
def ZC_AGG : Field := ⟨0x60008, 0, 32⟩

/-- ZC_AGG.KBPS. -/
def ZC_AGG_KBPS : Field := ⟨0x60008, 0, 32⟩

/-- The register ZC_REFUSE. -/
def ZC_REFUSE : Field := ⟨0x6000C, 0, 32⟩

/-- ZC_REFUSE.CAUSE. -/
def ZC_REFUSE_CAUSE : Field := ⟨0x6000C, 8, 4⟩

/-- ZC_REFUSE.CHAIN. -/
def ZC_REFUSE_CHAIN : Field := ⟨0x6000C, 0, 5⟩

/-- The register ZC_RUN. -/
def ZC_RUN : Field := ⟨0x60010, 0, 32⟩

/-- ZC_RUN.RUN. -/
def ZC_RUN_RUN : Field := ⟨0x60010, 0, 16⟩

/-- ZCn_CTL.EN. -/
def ZCN_CTL_EN (i : Nat) : Field := ⟨0x61000 + i * 0x800, 31, 1⟩

/-- ZCn_CTL.PMODE. -/
def ZCN_CTL_PMODE (i : Nat) : Field := ⟨0x61000 + i * 0x800, 30, 1⟩

/-- ZCn_CTL.DC_EN. -/
def ZCN_CTL_DC_EN (i : Nat) : Field := ⟨0x61000 + i * 0x800, 29, 1⟩

/-- ZCn_CTL.FREEZE. -/
def ZCN_CTL_FREEZE (i : Nat) : Field := ⟨0x61000 + i * 0x800, 28, 1⟩

/-- ZCn_CTL.INPUT. -/
def ZCN_CTL_INPUT (i : Nat) : Field := ⟨0x61000 + i * 0x800, 26, 2⟩

/-- ZCn_CTL.WIDTH. -/
def ZCN_CTL_WIDTH (i : Nat) : Field := ⟨0x61000 + i * 0x800, 25, 1⟩

/-- ZCn_CTL.DC_K. -/
def ZCN_CTL_DC_K (i : Nat) : Field := ⟨0x61000 + i * 0x800, 20, 5⟩

/-- ZCn_CTL.M. -/
def ZCN_CTL_M (i : Nat) : Field := ⟨0x61000 + i * 0x800, 16, 4⟩

/-- ZCn_CTL.DF. -/
def ZCN_CTL_DF (i : Nat) : Field := ⟨0x61000 + i * 0x800, 12, 4⟩

/-- ZCn_CTL.OSHIFT. -/
def ZCN_CTL_OSHIFT (i : Nat) : Field := ⟨0x61000 + i * 0x800, 7, 5⟩

/-- ZCn_CTL.CONJ. -/
def ZCN_CTL_CONJ (i : Nat) : Field := ⟨0x61000 + i * 0x800, 6, 1⟩

/-- ZCn_STAT.STATE. -/
def ZCN_STAT_STATE (i : Nat) : Field := ⟨0x61004 + i * 0x800, 30, 2⟩

/-- ZCn_STAT.DEG. -/
def ZCN_STAT_DEG (i : Nat) : Field := ⟨0x61004 + i * 0x800, 2, 1⟩

/-- ZCn_STAT.TRUNC. -/
def ZCN_STAT_TRUNC (i : Nat) : Field := ⟨0x61004 + i * 0x800, 1, 1⟩

/-- ZCn_STAT.OVF. -/
def ZCN_STAT_OVF (i : Nat) : Field := ⟨0x61004 + i * 0x800, 0, 1⟩

/-- The pair ZCn_NCO_FREQ. -/
def ZCN_NCO_FREQ (i : Nat) : Pair := ⟨0x61008 + i * 0x800⟩

/-- ZCn_NCO_PHASE.PHASE. -/
def ZCN_NCO_PHASE_PHASE (i : Nat) : Field := ⟨0x61010 + i * 0x800, 0, 16⟩

/-- ZCn_FIR_CFG.TAPS. -/
def ZCN_FIR_CFG_TAPS (i : Nat) : Field := ⟨0x61014 + i * 0x800, 0, 9⟩

/-- ZCn_FIR_GD.MODE. -/
def ZCN_FIR_GD_MODE (i : Nat) : Field := ⟨0x61018 + i * 0x800, 31, 1⟩

/-- ZCn_FIR_GD.GD. -/
def ZCN_FIR_GD_GD (i : Nat) : Field := ⟨0x61018 + i * 0x800, 0, 17⟩

/-- ZCn_PWR.EN. -/
def ZCN_PWR_EN (i : Nat) : Field := ⟨0x6101C + i * 0x800, 31, 1⟩

/-- ZCn_PWR.LOG_AVG. -/
def ZCN_PWR_LOG_AVG (i : Nat) : Field := ⟨0x6101C + i * 0x800, 0, 4⟩

/-- ZCn_RATE.KBPS. -/
def ZCN_RATE_KBPS (i : Nat) : Field := ⟨0x61020 + i * 0x800, 0, 32⟩

/-- ZCn_GD_TOTAL.G256. -/
def ZCN_GD_TOTAL_G256 (i : Nat) : Field := ⟨0x61024 + i * 0x800, 0, 32⟩

/-- ZCn_SETTLE.LEFT. -/
def ZCN_SETTLE_LEFT (i : Nat) : Field := ⟨0x61028 + i * 0x800, 0, 32⟩

/-- The pair ZCn_OUT_IDX. -/
def ZCN_OUT_IDX (i : Nat) : Pair := ⟨0x61030 + i * 0x800⟩

/-- ZCn_DC_EST.Q. -/
def ZCN_DC_EST_Q (i : Nat) : Field := ⟨0x61038 + i * 0x800, 16, 16⟩

/-- ZCn_DC_EST.I. -/
def ZCN_DC_EST_I (i : Nat) : Field := ⟨0x61038 + i * 0x800, 0, 16⟩

/-- ZCn_COEF(t).C. -/
def ZCN_COEF_C (i a : Nat) : Field := ⟨0x61200 + i * 0x800 + a * 0x4, 0, 18⟩

/-- The register TRG_STAT. -/
def TRG_STAT : Field := ⟨0x70000, 0, 32⟩

/-- TRG_STAT.TOD_PAST. -/
def TRG_STAT_TOD_PAST : Field := ⟨0x70000, 28, 4⟩

/-- TRG_STAT.OUT_LATE. -/
def TRG_STAT_OUT_LATE : Field := ⟨0x70000, 24, 2⟩

/-- TRG_STAT.SRC_OFF. -/
def TRG_STAT_SRC_OFF : Field := ⟨0x70000, 16, 8⟩

/-- TRG_STAT.HELD. -/
def TRG_STAT_HELD : Field := ⟨0x70000, 8, 8⟩

/-- TRG_STAT.FIRED. -/
def TRG_STAT_FIRED : Field := ⟨0x70000, 0, 8⟩

/-- The register TRG_INT_EN. -/
def TRG_INT_EN : Field := ⟨0x70004, 0, 32⟩

/-- The register TRG_FORCE. -/
def TRG_FORCE : Field := ⟨0x70008, 0, 32⟩

/-- TRG_FORCE.SLOT. -/
def TRG_FORCE_SLOT : Field := ⟨0x70008, 0, 8⟩

/-- TRG_EXTx_DELAY.DELAY. -/
def TRG_EXT_DELAY_DELAY (i : Nat) : Field := ⟨0x70010 + i * 0x4, 0, 16⟩

/-- TRG_OUTo_CFG.EN. -/
def TRG_OUT_CFG_EN (i : Nat) : Field := ⟨0x70020 + i * 0x4, 31, 1⟩

/-- TRG_OUTo_CFG.WIDTH. -/
def TRG_OUT_CFG_WIDTH (i : Nat) : Field := ⟨0x70020 + i * 0x4, 0, 8⟩

/-- TRG_OUTo_DELAY.DELAY. -/
def TRG_OUT_DELAY_DELAY (i : Nat) : Field := ⟨0x70028 + i * 0x4, 0, 24⟩

/-- The register TRG_OUT_LATE. -/
def TRG_OUT_LATE : Field := ⟨0x70030, 0, 32⟩

/-- TRG_OUT_LATE.OUT1. -/
def TRG_OUT_LATE_OUT1 : Field := ⟨0x70030, 16, 16⟩

/-- TRG_OUT_LATE.OUT0. -/
def TRG_OUT_LATE_OUT0 : Field := ⟨0x70030, 0, 16⟩

/-- TRG_TODg_CFG.EN. -/
def TRG_TOD_CFG_EN (i : Nat) : Field := ⟨0x70100 + i * 0x20, 31, 1⟩

/-- TRG_TODg_CFG.PERIOD. -/
def TRG_TOD_CFG_PERIOD (i : Nat) : Field := ⟨0x70100 + i * 0x20, 0, 16⟩

/-- The pair TRG_TODg_SEC. -/
def TRG_TOD_SEC (i : Nat) : Pair := ⟨0x70104 + i * 0x20⟩

/-- The pair TRG_TODg_IDX. -/
def TRG_TOD_IDX (i : Nat) : Pair := ⟨0x7010C + i * 0x20⟩

/-- TRGn_CFG.EN. -/
def TRGS_CFG_EN (i : Nat) : Field := ⟨0x71000 + i * 0x100, 31, 1⟩

/-- TRGn_CFG.MODE. -/
def TRGS_CFG_MODE (i : Nat) : Field := ⟨0x71000 + i * 0x100, 26, 2⟩

/-- TRGn_CFG.HOLD_MODE. -/
def TRGS_CFG_HOLD_MODE (i : Nat) : Field := ⟨0x71000 + i * 0x100, 24, 2⟩

/-- TRGn_WIN.NS. -/
def TRGS_WIN_NS (i : Nat) : Field := ⟨0x71004 + i * 0x100, 0, 32⟩

/-- TRGn_HOLD.HOLD. -/
def TRGS_HOLD_HOLD (i : Nat) : Field := ⟨0x71008 + i * 0x100, 0, 32⟩

/-- TRGn_A_CFG.TYPE. -/
def TRGS_A_CFG_TYPE (i : Nat) : Field := ⟨0x71010 + i * 0x100, 28, 4⟩

/-- TRGn_A_CFG.SRC. -/
def TRGS_A_CFG_SRC (i : Nat) : Field := ⟨0x71010 + i * 0x100, 24, 4⟩

/-- TRGn_A_CFG.SLOPE. -/
def TRGS_A_CFG_SLOPE (i : Nat) : Field := ⟨0x71010 + i * 0x100, 22, 2⟩

/-- TRGn_A_CFG.CMP. -/
def TRGS_A_CFG_CMP (i : Nat) : Field := ⟨0x71010 + i * 0x100, 20, 2⟩

/-- TRGn_A_T1.VALUE. -/
def TRGS_A_T1_VALUE (i : Nat) : Field := ⟨0x71014 + i * 0x100, 0, 32⟩

/-- TRGn_A_T2.VALUE. -/
def TRGS_A_T2_VALUE (i : Nat) : Field := ⟨0x71018 + i * 0x100, 0, 32⟩

/-- TRGn_B_CFG.TYPE. -/
def TRGS_B_CFG_TYPE (i : Nat) : Field := ⟨0x71020 + i * 0x100, 28, 4⟩

/-- TRGn_B_CFG.SRC. -/
def TRGS_B_CFG_SRC (i : Nat) : Field := ⟨0x71020 + i * 0x100, 24, 4⟩

/-- TRGn_B_CFG.SLOPE. -/
def TRGS_B_CFG_SLOPE (i : Nat) : Field := ⟨0x71020 + i * 0x100, 22, 2⟩

/-- TRGn_B_CFG.CMP. -/
def TRGS_B_CFG_CMP (i : Nat) : Field := ⟨0x71020 + i * 0x100, 20, 2⟩

/-- TRGn_B_T1.VALUE. -/
def TRGS_B_T1_VALUE (i : Nat) : Field := ⟨0x71024 + i * 0x100, 0, 32⟩

/-- TRGn_B_T2.VALUE. -/
def TRGS_B_T2_VALUE (i : Nat) : Field := ⟨0x71028 + i * 0x100, 0, 32⟩

/-- TRGn_STAT.HOLDING. -/
def TRGS_STAT_HOLDING (i : Nat) : Field := ⟨0x71030 + i * 0x100, 4, 1⟩

/-- TRGn_STAT.B_PENDING. -/
def TRGS_STAT_B_PENDING (i : Nat) : Field := ⟨0x71030 + i * 0x100, 3, 1⟩

/-- TRGn_STAT.A_PENDING. -/
def TRGS_STAT_A_PENDING (i : Nat) : Field := ⟨0x71030 + i * 0x100, 2, 1⟩

/-- TRGn_STAT.SRC_OFF_B. -/
def TRGS_STAT_SRC_OFF_B (i : Nat) : Field := ⟨0x71030 + i * 0x100, 1, 1⟩

/-- TRGn_STAT.SRC_OFF_A. -/
def TRGS_STAT_SRC_OFF_A (i : Nat) : Field := ⟨0x71030 + i * 0x100, 0, 1⟩

/-- TRGn_COUNT.COUNT. -/
def TRGS_COUNT_COUNT (i : Nat) : Field := ⟨0x71034 + i * 0x100, 0, 32⟩

/-- TRGn_HELD.COUNT. -/
def TRGS_HELD_COUNT (i : Nat) : Field := ⟨0x71038 + i * 0x100, 0, 32⟩

/-- The pair TRGn_LAST_IDX. -/
def TRGS_LAST_IDX (i : Nat) : Pair := ⟨0x71040 + i * 0x100⟩

/-- The register TRGn_LAST_INFO. -/
def TRGS_LAST_INFO (i : Nat) : Field := ⟨0x71048 + i * 0x100, 0, 32⟩

/-- The register CAP_STAT. -/
def CAP_STAT : Field := ⟨0x80000, 0, 32⟩

/-- CAP_STAT.ARM_ERR. -/
def CAP_STAT_ARM_ERR : Field := ⟨0x80000, 24, 8⟩

/-- CAP_STAT.MISSED. -/
def CAP_STAT_MISSED : Field := ⟨0x80000, 16, 8⟩

/-- CAP_STAT.GAP. -/
def CAP_STAT_GAP : Field := ⟨0x80000, 8, 8⟩

/-- CAP_STAT.SEG_DONE. -/
def CAP_STAT_SEG_DONE : Field := ⟨0x80000, 0, 8⟩

/-- The register CAP_INT_EN. -/
def CAP_INT_EN : Field := ⟨0x80004, 0, 32⟩

/-- The register CAP_RUN. -/
def CAP_RUN : Field := ⟨0x80008, 0, 32⟩

/-- CAP_RUN.TRIGGERED. -/
def CAP_RUN_TRIGGERED : Field := ⟨0x80008, 8, 8⟩

/-- CAP_RUN.ARMED. -/
def CAP_RUN_ARMED : Field := ⟨0x80008, 0, 8⟩

/-- The register CAPn_CTL. -/
def CAPU_CTL (i : Nat) : Field := ⟨0x81000 + i * 0x100, 0, 32⟩

/-- CAPn_CTL.ARM. -/
def CAPU_CTL_ARM (i : Nat) : Field := ⟨0x81000 + i * 0x100, 31, 1⟩

/-- CAPn_CTL.MODE. -/
def CAPU_CTL_MODE (i : Nat) : Field := ⟨0x81000 + i * 0x100, 30, 1⟩

/-- CAPn_CTL.SRC_TYPE. -/
def CAPU_CTL_SRC_TYPE (i : Nat) : Field := ⟨0x81000 + i * 0x100, 28, 2⟩

/-- CAPn_CTL.PACK. -/
def CAPU_CTL_PACK (i : Nat) : Field := ⟨0x81000 + i * 0x100, 27, 1⟩

/-- CAPn_CTL.REC. -/
def CAPU_CTL_REC (i : Nat) : Field := ⟨0x81000 + i * 0x100, 26, 1⟩

/-- CAPn_CTL.TRIG. -/
def CAPU_CTL_TRIG (i : Nat) : Field := ⟨0x81000 + i * 0x100, 23, 3⟩

/-- CAPn_CTL.INPUTS. -/
def CAPU_CTL_INPUTS (i : Nat) : Field := ⟨0x81000 + i * 0x100, 16, 4⟩

/-- CAPn_SRC.CHAIN. -/
def CAPU_SRC_CHAIN (i : Nat) : Field := ⟨0x81004 + i * 0x100, 24, 4⟩

/-- CAPn_SRC.INPUT. -/
def CAPU_SRC_INPUT (i : Nat) : Field := ⟨0x81004 + i * 0x100, 16, 2⟩

/-- CAPn_SRC.NCH_M1. -/
def CAPU_SRC_NCH_M1 (i : Nat) : Field := ⟨0x81004 + i * 0x100, 8, 8⟩

/-- CAPn_SRC.FIRST. -/
def CAPU_SRC_FIRST (i : Nat) : Field := ⟨0x81004 + i * 0x100, 0, 8⟩

/-- CAPn_LEN.LEN. -/
def CAPU_LEN_LEN (i : Nat) : Field := ⟨0x81008 + i * 0x100, 0, 24⟩

/-- CAPn_SEGS.SEGS_M1. -/
def CAPU_SEGS_SEGS_M1 (i : Nat) : Field := ⟨0x8100C + i * 0x100, 0, 16⟩

/-- The pair CAPn_POST. -/
def CAPU_POST (i : Nat) : Pair := ⟨0x81010 + i * 0x100⟩

/-- CAPn_LEN_ACT.LEN. -/
def CAPU_LEN_ACT_LEN (i : Nat) : Field := ⟨0x81018 + i * 0x100, 0, 24⟩

/-- CAPn_SEGS_ACT.SEGS_M1. -/
def CAPU_SEGS_ACT_SEGS_M1 (i : Nat) : Field := ⟨0x8101C + i * 0x100, 0, 16⟩

/-- The pair CAPn_POST_ACT. -/
def CAPU_POST_ACT (i : Nat) : Pair := ⟨0x81020 + i * 0x100⟩

/-- The pair CAPn_BASE. -/
def CAPU_BASE (i : Nat) : Pair := ⟨0x81028 + i * 0x100⟩

/-- The pair CAPn_SIZE. -/
def CAPU_SIZE (i : Nat) : Pair := ⟨0x81030 + i * 0x100⟩

/-- CAPn_STAT.STATE. -/
def CAPU_STAT_STATE (i : Nat) : Field := ⟨0x81038 + i * 0x100, 30, 2⟩

/-- CAPn_STAT.DEG. -/
def CAPU_STAT_DEG (i : Nat) : Field := ⟨0x81038 + i * 0x100, 29, 1⟩

/-- CAPn_STAT.ARMSEQ. -/
def CAPU_STAT_ARMSEQ (i : Nat) : Field := ⟨0x81038 + i * 0x100, 24, 4⟩

/-- CAPn_STAT.ERR. -/
def CAPU_STAT_ERR (i : Nat) : Field := ⟨0x81038 + i * 0x100, 20, 4⟩

/-- CAPn_STAT.SEG. -/
def CAPU_STAT_SEG (i : Nat) : Field := ⟨0x81038 + i * 0x100, 0, 16⟩

/-- CAPn_GAP_LOST.COUNT. -/
def CAPU_GAP_LOST_COUNT (i : Nat) : Field := ⟨0x8103C + i * 0x100, 0, 32⟩

/-- CAPn_MISSED.STALE. -/
def CAPU_MISSED_STALE (i : Nat) : Field := ⟨0x81040 + i * 0x100, 16, 16⟩

/-- CAPn_MISSED.BUSY. -/
def CAPU_MISSED_BUSY (i : Nat) : Field := ⟨0x81040 + i * 0x100, 0, 16⟩

/-- CAPn_SEG_DONE.COUNT. -/
def CAPU_SEG_DONE_COUNT (i : Nat) : Field := ⟨0x81044 + i * 0x100, 0, 32⟩

/-- TIME_CFG.SPARE_FOR. -/
def TIME_CFG_SPARE_FOR : Field := ⟨0x30000, 8, 5⟩

/-- TIME_CFG.EPOCH_SRC. -/
def TIME_CFG_EPOCH_SRC : Field := ⟨0x30000, 4, 2⟩

/-- TIME_CFG.REFSEL. -/
def TIME_CFG_REFSEL : Field := ⟨0x30000, 0, 1⟩

/-- The register TIME_CTL. -/
def TIME_CTL : Field := ⟨0x30004, 0, 32⟩

/-- TIME_CTL.RESYNC. -/
def TIME_CTL_RESYNC : Field := ⟨0x30004, 0, 1⟩

/-- The register TIME_STAT. -/
def TIME_STAT : Field := ⟨0x30008, 0, 32⟩

/-- TIME_STAT.EPOCH_WAIT. -/
def TIME_STAT_EPOCH_WAIT : Field := ⟨0x30008, 11, 1⟩

/-- TIME_STAT.CH_SPARED. -/
def TIME_STAT_CH_SPARED : Field := ⟨0x30008, 10, 1⟩

/-- TIME_STAT.PPS. -/
def TIME_STAT_PPS : Field := ⟨0x30008, 9, 1⟩

/-- TIME_STAT.EPOCH_NOPPS. -/
def TIME_STAT_EPOCH_NOPPS : Field := ⟨0x30008, 8, 1⟩

/-- TIME_STAT.GRID_ERR. -/
def TIME_STAT_GRID_ERR : Field := ⟨0x30008, 7, 1⟩

/-- TIME_STAT.STEP. -/
def TIME_STAT_STEP : Field := ⟨0x30008, 6, 1⟩

/-- TIME_STAT.PPS_DRIFT. -/
def TIME_STAT_PPS_DRIFT : Field := ⟨0x30008, 5, 1⟩

/-- TIME_STAT.PPS_LOST. -/
def TIME_STAT_PPS_LOST : Field := ⟨0x30008, 4, 1⟩

/-- TIME_STAT.EPOCH_SET. -/
def TIME_STAT_EPOCH_SET : Field := ⟨0x30008, 3, 1⟩

/-- TIME_STAT.REQUAL. -/
def TIME_STAT_REQUAL : Field := ⟨0x30008, 2, 1⟩

/-- TIME_STAT.REF_LOST. -/
def TIME_STAT_REF_LOST : Field := ⟨0x30008, 1, 1⟩

/-- TIME_STAT.REF_PRESENT. -/
def TIME_STAT_REF_PRESENT : Field := ⟨0x30008, 0, 1⟩

/-- The register TIME_INT_EN. -/
def TIME_INT_EN : Field := ⟨0x3000C, 0, 32⟩

/-- The pair TIME_NSPS. -/
def TIME_NSPS : Pair := ⟨0x30010⟩

/-- The pair TIME_EPOCH_SEC. -/
def TIME_EPOCH_SEC : Pair := ⟨0x30018⟩

/-- The pair TIME_X0. -/
def TIME_X0 : Pair := ⟨0x30020⟩

/-- TIME_X0_FRAC.FRAC. -/
def TIME_X0_FRAC_FRAC : Field := ⟨0x30028, 0, 16⟩

/-- The pair TIME_EPOCH_SET. -/
def TIME_EPOCH_SET : Pair := ⟨0x30030⟩

/-- The register TIME_EPOCH_SET_HI. -/
def TIME_EPOCH_SET_HI : Field := ⟨0x30034, 0, 32⟩

/-- TIME_PPS_DELAY.DELAY. -/
def TIME_PPS_DELAY_DELAY : Field := ⟨0x30038, 0, 16⟩

/-- TIME_PPS_ERR.E. -/
def TIME_PPS_ERR_E : Field := ⟨0x3003C, 0, 32⟩

/-- TIME_PPS_TOL.TOL. -/
def TIME_PPS_TOL_TOL : Field := ⟨0x30040, 0, 32⟩

/-- The register TIME_PPS_MISS. -/
def TIME_PPS_MISS : Field := ⟨0x30044, 0, 32⟩

/-- TIME_PPS_MISS.COUNT. -/
def TIME_PPS_MISS_COUNT : Field := ⟨0x30044, 0, 32⟩

/-- The pair TIME_STEP. -/
def TIME_STEP : Pair := ⟨0x30048⟩

/-- The register TIME_NOW_LO. -/
def TIME_NOW_LO : Field := ⟨0x30050, 0, 32⟩

/-- The pair TIME_NOW. -/
def TIME_NOW : Pair := ⟨0x30050⟩

/-- The register TIME_NOW_SEC_LO. -/
def TIME_NOW_SEC_LO : Field := ⟨0x30058, 0, 32⟩

/-- TIME_PIN(x)_CFG.EN. -/
def TIME_PIN_CFG_EN (i : Nat) : Field := ⟨0x30060 + i * 0x4, 31, 1⟩

/-- TIME_PIN(x)_CFG.SLOPE. -/
def TIME_PIN_CFG_SLOPE (i : Nat) : Field := ⟨0x30060 + i * 0x4, 12, 2⟩

/-- TIME_PIN(x)_CFG.HYST. -/
def TIME_PIN_CFG_HYST (i : Nat) : Field := ⟨0x30060 + i * 0x4, 10, 2⟩

/-- TIME_PIN(x)_CFG.THRESH. -/
def TIME_PIN_CFG_THRESH (i : Nat) : Field := ⟨0x30060 + i * 0x4, 0, 10⟩

/-- The register TIME_CHc_CFG. -/
def TIME_CH_CFG (i : Nat) : Field := ⟨0x31000 + i * 0x40, 0, 32⟩

/-- TIME_CHc_CFG.ANCHOR. -/
def TIME_CH_CFG_ANCHOR (i : Nat) : Field := ⟨0x31000 + i * 0x40, 24, 2⟩

/-- TIME_CHc_CFG.START_CH. -/
def TIME_CH_CFG_START_CH (i : Nat) : Field := ⟨0x31000 + i * 0x40, 16, 5⟩

/-- The register TIME_CHc_OPEN. -/
def TIME_CH_OPEN (i : Nat) : Field := ⟨0x31004 + i * 0x40, 0, 32⟩

/-- TIME_CHc_OPEN.NS. -/
def TIME_CH_OPEN_NS (i : Nat) : Field := ⟨0x31004 + i * 0x40, 0, 32⟩

/-- The register TIME_CHc_CLOSE. -/
def TIME_CH_CLOSE (i : Nat) : Field := ⟨0x31008 + i * 0x40, 0, 32⟩

/-- TIME_CHc_CLOSE.NS. -/
def TIME_CH_CLOSE_NS (i : Nat) : Field := ⟨0x31008 + i * 0x40, 0, 32⟩

/-- The pair TIME_CHc_LAST_IDX. -/
def TIME_CH_LAST_IDX (i : Nat) : Pair := ⟨0x31010 + i * 0x40⟩

/-- The register TIME_CHc_LAST_INFO. -/
def TIME_CH_LAST_INFO (i : Nat) : Field := ⟨0x31018 + i * 0x40, 0, 32⟩

/-- The pair TIME_CHc_IVAL. -/
def TIME_CH_IVAL (i : Nat) : Pair := ⟨0x31020 + i * 0x40⟩

/-- TIME_CHc_COUNT.COUNT. -/
def TIME_CH_COUNT_COUNT (i : Nat) : Field := ⟨0x31028 + i * 0x40, 0, 32⟩

/-- TIME_CHc_MISS.COUNT. -/
def TIME_CH_MISS_COUNT (i : Nat) : Field := ⟨0x3102C + i * 0x40, 0, 32⟩

/-- The register CG_STAT. -/
def CG_STAT : Field := ⟨0x20000, 0, 32⟩

/-- CG_STAT.BRIDGE. -/
def CG_STAT_BRIDGE : Field := ⟨0x20000, 16, 7⟩

/-- CG_STAT.UNLOCK. -/
def CG_STAT_UNLOCK : Field := ⟨0x20000, 8, 4⟩

/-- CG_STAT.LOCKED. -/
def CG_STAT_LOCKED : Field := ⟨0x20000, 4, 4⟩

/-- CG_STAT.SSYN_GAP. -/
def CG_STAT_SSYN_GAP : Field := ⟨0x20000, 3, 1⟩

/-- CG_STAT.RELOCK. -/
def CG_STAT_RELOCK : Field := ⟨0x20000, 2, 1⟩

/-- CG_STAT.COAST. -/
def CG_STAT_COAST : Field := ⟨0x20000, 1, 1⟩

/-- CG_STAT.BAND_SEARCH. -/
def CG_STAT_BAND_SEARCH : Field := ⟨0x20000, 0, 1⟩

/-- The register CG_INT_EN. -/
def CG_INT_EN : Field := ⟨0x20004, 0, 32⟩

/-- CG_RELOCK_COUNT.COUNT. -/
def CG_RELOCK_COUNT_COUNT : Field := ⟨0x20008, 0, 16⟩

/-- CG_RELOCK_MAX.NS. -/
def CG_RELOCK_MAX_NS : Field := ⟨0x2000C, 0, 32⟩

/-- The register CG_MDLLm_CFG. -/
def CG_MDLL_CFG (i : Nat) : Field := ⟨0x20100 + i * 0x10, 0, 32⟩

/-- CG_MDLLm_CFG.EN. -/
def CG_MDLL_CFG_EN (i : Nat) : Field := ⟨0x20100 + i * 0x10, 31, 1⟩

/-- CG_MDLLm_CFG.REFDIV. -/
def CG_MDLL_CFG_REFDIV (i : Nat) : Field := ⟨0x20100 + i * 0x10, 24, 4⟩

/-- CG_MDLLm_CFG.MULT. -/
def CG_MDLL_CFG_MULT (i : Nat) : Field := ⟨0x20100 + i * 0x10, 12, 12⟩

/-- CG_MDLLm_STAT.LOCKED. -/
def CG_MDLL_STAT_LOCKED (i : Nat) : Field := ⟨0x20104 + i * 0x10, 31, 1⟩

/-- CG_MDLLm_STAT.COAST. -/
def CG_MDLL_STAT_COAST (i : Nat) : Field := ⟨0x20104 + i * 0x10, 30, 1⟩

/-- CG_MDLLm_STAT.RELOCK. -/
def CG_MDLL_STAT_RELOCK (i : Nat) : Field := ⟨0x20104 + i * 0x10, 29, 1⟩

/-- CG_MDLLm_STAT.BAND. -/
def CG_MDLL_STAT_BAND (i : Nat) : Field := ⟨0x20104 + i * 0x10, 16, 6⟩

/-- The register CG_MDLLm_MEAS. -/
def CG_MDLL_MEAS (i : Nat) : Field := ⟨0x20108 + i * 0x10, 0, 32⟩

/-- The register CG_OUTo_CFG. -/
def CG_OUT_CFG (i : Nat) : Field := ⟨0x20200 + i * 0x10, 0, 32⟩

/-- CG_OUTo_CFG.EN. -/
def CG_OUT_CFG_EN (i : Nat) : Field := ⟨0x20200 + i * 0x10, 31, 1⟩

/-- CG_OUTo_CFG.SRC. -/
def CG_OUT_CFG_SRC (i : Nat) : Field := ⟨0x20200 + i * 0x10, 26, 2⟩

/-- CG_OUTo_CFG.DIV. -/
def CG_OUT_CFG_DIV (i : Nat) : Field := ⟨0x20200 + i * 0x10, 0, 16⟩

/-- The register CG_OUTo_PHASE. -/
def CG_OUT_PHASE (i : Nat) : Field := ⟨0x20204 + i * 0x10, 0, 32⟩

/-- CG_OUTo_PHASE.STEPPING. -/
def CG_OUT_PHASE_STEPPING (i : Nat) : Field := ⟨0x20204 + i * 0x10, 24, 1⟩

/-- CG_OUTo_PHASE.CUR. -/
def CG_OUT_PHASE_CUR (i : Nat) : Field := ⟨0x20204 + i * 0x10, 16, 8⟩

/-- CG_OUTo_PHASE.TGT. -/
def CG_OUT_PHASE_TGT (i : Nat) : Field := ⟨0x20204 + i * 0x10, 0, 8⟩

/-- CG_OUTo_SKEW.PS. -/
def CG_OUT_SKEW_PS (i : Nat) : Field := ⟨0x20208 + i * 0x10, 0, 16⟩

/-- The register MEMC_CFG. -/
def MEMC_CFG : Field := ⟨0x90000, 0, 32⟩

/-- MEMC_CFG.SPEED. -/
def MEMC_CFG_SPEED : Field := ⟨0x90000, 30, 2⟩

/-- MEMC_CFG.SR_EN. -/
def MEMC_CFG_SR_EN : Field := ⟨0x90000, 2, 1⟩

/-- MEMC_CFG.PD_EN. -/
def MEMC_CFG_PD_EN : Field := ⟨0x90000, 1, 1⟩

/-- MEMC_CFG.SWEEP. -/
def MEMC_CFG_SWEEP : Field := ⟨0x90000, 0, 1⟩

/-- The register MEMC_CTL. -/
def MEMC_CTL : Field := ⟨0x90004, 0, 32⟩

/-- MEMC_CTL.SC. -/
def MEMC_CTL_SC : Field := ⟨0x90004, 16, 4⟩

/-- MEMC_CTL.RETRAIN. -/
def MEMC_CTL_RETRAIN : Field := ⟨0x90004, 0, 1⟩

/-- The register MEMC_STAT. -/
def MEMC_STAT : Field := ⟨0x90008, 0, 32⟩

/-- MEMC_STAT.ALL_RETIRED. -/
def MEMC_STAT_ALL_RETIRED : Field := ⟨0x90008, 11, 1⟩

/-- MEMC_STAT.HOT. -/
def MEMC_STAT_HOT : Field := ⟨0x90008, 10, 1⟩

/-- MEMC_STAT.DEG. -/
def MEMC_STAT_DEG : Field := ⟨0x90008, 9, 1⟩

/-- MEMC_STAT.OVERCOMMIT. -/
def MEMC_STAT_OVERCOMMIT : Field := ⟨0x90008, 8, 1⟩

/-- MEMC_STAT.LOST. -/
def MEMC_STAT_LOST : Field := ⟨0x90008, 7, 1⟩

/-- MEMC_STAT.EVAC. -/
def MEMC_STAT_EVAC : Field := ⟨0x90008, 6, 1⟩

/-- MEMC_STAT.RETIRE. -/
def MEMC_STAT_RETIRE : Field := ⟨0x90008, 5, 1⟩

/-- MEMC_STAT.TRAIN_FAIL. -/
def MEMC_STAT_TRAIN_FAIL : Field := ⟨0x90008, 4, 1⟩

/-- MEMC_STAT.RETRAIN. -/
def MEMC_STAT_RETRAIN : Field := ⟨0x90008, 3, 1⟩

/-- MEMC_STAT.REFRESH_FORCED. -/
def MEMC_STAT_REFRESH_FORCED : Field := ⟨0x90008, 2, 1⟩

/-- MEMC_STAT.UE. -/
def MEMC_STAT_UE : Field := ⟨0x90008, 1, 1⟩

/-- MEMC_STAT.CE. -/
def MEMC_STAT_CE : Field := ⟨0x90008, 0, 1⟩

/-- The register MEMC_INT_EN. -/
def MEMC_INT_EN : Field := ⟨0x9000C, 0, 32⟩

/-- The pair MEMC_CAPACITY. -/
def MEMC_CAPACITY : Pair := ⟨0x90010⟩

/-- MEMC_LIVE.RETIRED. -/
def MEMC_LIVE_RETIRED : Field := ⟨0x90018, 16, 16⟩

/-- MEMC_LIVE.LIVE. -/
def MEMC_LIVE_LIVE : Field := ⟨0x90018, 0, 16⟩

/-- The register MEMC_BW_SUST. -/
def MEMC_BW_SUST : Field := ⟨0x9001C, 0, 32⟩

/-- MEMC_BW_SUST.MBPS. -/
def MEMC_BW_SUST_MBPS : Field := ⟨0x9001C, 0, 32⟩

/-- MEMC_BW_RSV.MBPS. -/
def MEMC_BW_RSV_MBPS : Field := ⟨0x90020, 0, 32⟩

/-- The register MEMC_SCRUB_CFG. -/
def MEMC_SCRUB_CFG : Field := ⟨0x90024, 0, 32⟩

/-- MEMC_SCRUB_CFG.HOURS. -/
def MEMC_SCRUB_CFG_HOURS : Field := ⟨0x90024, 0, 8⟩

/-- MEMC_SCRUB_STAT.PASSES. -/
def MEMC_SCRUB_STAT_PASSES : Field := ⟨0x90028, 16, 16⟩

/-- MEMC_SCRUB_STAT.PROGRESS. -/
def MEMC_SCRUB_STAT_PROGRESS : Field := ⟨0x90028, 0, 16⟩

/-- MEMC_CE_LIMIT.PER_HOUR. -/
def MEMC_CE_LIMIT_PER_HOUR : Field := ⟨0x9002C, 0, 16⟩

/-- The pair MEMC_EVAC_FRONT. -/
def MEMC_EVAC_FRONT : Pair := ⟨0x90030⟩

/-- MEMC_EVAC_STAT.ACTIVE. -/
def MEMC_EVAC_STAT_ACTIVE : Field := ⟨0x90038, 31, 1⟩

/-- MEMC_EVAC_STAT.SC. -/
def MEMC_EVAC_STAT_SC : Field := ⟨0x90038, 16, 4⟩

/-- MEMC_EVAC_STAT.LEFT_GIB. -/
def MEMC_EVAC_STAT_LEFT_GIB : Field := ⟨0x90038, 0, 16⟩

/-- The pair MEMC_UE_ADDR. -/
def MEMC_UE_ADDR : Pair := ⟨0x90040⟩

/-- MEMC_LOST.GRANULES. -/
def MEMC_LOST_GRANULES : Field := ⟨0x90048, 0, 32⟩

/-- MEMCs_STAT.STATE. -/
def MEMCS_STAT_STATE (i : Nat) : Field := ⟨0x91000 + i * 0x100, 28, 4⟩

/-- MEMCs_STAT.TRAINS. -/
def MEMCS_STAT_TRAINS (i : Nat) : Field := ⟨0x91000 + i * 0x100, 16, 8⟩

/-- MEMCs_STAT.CAUSE. -/
def MEMCS_STAT_CAUSE (i : Nat) : Field := ⟨0x91000 + i * 0x100, 0, 3⟩

/-- MEMCs_DIMM.CAP_GIB. -/
def MEMCS_DIMM_CAP_GIB (i : Nat) : Field := ⟨0x91004 + i * 0x100, 24, 8⟩

/-- MEMCs_DIMM.RANKS. -/
def MEMCS_DIMM_RANKS (i : Nat) : Field := ⟨0x91004 + i * 0x100, 23, 1⟩

/-- MEMCs_DIMM.X4. -/
def MEMCS_DIMM_X4 (i : Nat) : Field := ⟨0x91004 + i * 0x100, 22, 1⟩

/-- MEMCs_DIMM.MAXBIN. -/
def MEMCS_DIMM_MAXBIN (i : Nat) : Field := ⟨0x91004 + i * 0x100, 20, 2⟩

/-- MEMCs_TEMP.TRAINED. -/
def MEMCS_TEMP_TRAINED (i : Nat) : Field := ⟨0x91008 + i * 0x100, 24, 8⟩

/-- MEMCs_TEMP.NOW. -/
def MEMCS_TEMP_NOW (i : Nat) : Field := ⟨0x91008 + i * 0x100, 8, 8⟩

/-- MEMCs_ECC.UE. -/
def MEMCS_ECC_UE (i : Nat) : Field := ⟨0x9100C + i * 0x100, 16, 16⟩

/-- MEMCs_ECC.CE. -/
def MEMCS_ECC_CE (i : Nat) : Field := ⟨0x9100C + i * 0x100, 0, 16⟩

/-- MEMCs_REFRESH.FORCED. -/
def MEMCS_REFRESH_FORCED (i : Nat) : Field := ⟨0x91010 + i * 0x100, 16, 16⟩

/-- MEMCs_REFRESH.MAX_DEBT. -/
def MEMCS_REFRESH_MAX_DEBT (i : Nat) : Field := ⟨0x91010 + i * 0x100, 0, 3⟩

/-- MEMCs_QUEUE.MAX. -/
def MEMCS_QUEUE_MAX (i : Nat) : Field := ⟨0x91014 + i * 0x100, 24, 8⟩

/-- MEMCs_QUEUE.INORDER. -/
def MEMCS_QUEUE_INORDER (i : Nat) : Field := ⟨0x91014 + i * 0x100, 0, 16⟩

/-- The register MEMCs_PD. -/
def MEMCS_PD (i : Nat) : Field := ⟨0x91018 + i * 0x100, 0, 32⟩

/-- The register MEMCs_SERIAL. -/
def MEMCS_SERIAL (i : Nat) : Field := ⟨0x9101C + i * 0x100, 0, 32⟩

/-- The register MEMCs_CA_DLY. -/
def MEMCS_CA_DLY (i : Nat) : Field := ⟨0x91020 + i * 0x100, 0, 32⟩

/-- The register MEMCs_LANEl_DLY. -/
def MEMC_LANE_DLY (i a : Nat) : Field := ⟨0x91040 + i * 0x100 + a * 0x8, 0, 32⟩

/-- The register MEMCs_LANEl_VREF. -/
def MEMC_LANE_VREF (i a : Nat) : Field := ⟨0x91044 + i * 0x100 + a * 0x8, 0, 32⟩

/-- The register ETH_STAT. -/
def ETH_STAT : Field := ⟨0xA0000, 0, 32⟩

/-- ETH_STAT.REFUSED. -/
def ETH_STAT_REFUSED : Field := ⟨0xA0000, 10, 1⟩

/-- ETH_STAT.LINK_CHG. -/
def ETH_STAT_LINK_CHG : Field := ⟨0xA0000, 8, 2⟩

/-- ETH_STAT.SPILL_LOST. -/
def ETH_STAT_SPILL_LOST : Field := ⟨0xA0000, 6, 2⟩

/-- ETH_STAT.OVERSUB. -/
def ETH_STAT_OVERSUB : Field := ⟨0xA0000, 4, 2⟩

/-- ETH_STAT.DROP. -/
def ETH_STAT_DROP : Field := ⟨0xA0000, 2, 2⟩

/-- ETH_STAT.UP. -/
def ETH_STAT_UP : Field := ⟨0xA0000, 0, 2⟩

/-- The register ETH_INT_EN. -/
def ETH_INT_EN : Field := ⟨0xA0004, 0, 32⟩

/-- ETHp_CFG.EN. -/
def ETHP_CFG_EN (i : Nat) : Field := ⟨0xA0100 + i * 0x100, 31, 1⟩

/-- ETHp_CFG.MODE. -/
def ETHP_CFG_MODE (i : Nat) : Field := ⟨0xA0100 + i * 0x100, 30, 1⟩

/-- ETHp_CFG.SSTREAM. -/
def ETHP_CFG_SSTREAM (i : Nat) : Field := ⟨0xA0100 + i * 0x100, 24, 6⟩

/-- ETHp_CFG.SS_EN. -/
def ETHP_CFG_SS_EN (i : Nat) : Field := ⟨0xA0100 + i * 0x100, 23, 1⟩

/-- ETHp_CFG.AGE. -/
def ETHP_CFG_AGE (i : Nat) : Field := ⟨0xA0100 + i * 0x100, 8, 8⟩

/-- ETHp_CFG.STATP. -/
def ETHP_CFG_STATP (i : Nat) : Field := ⟨0xA0100 + i * 0x100, 0, 8⟩

/-- ETHp_STAT.UP. -/
def ETHP_STAT_UP (i : Nat) : Field := ⟨0xA0104 + i * 0x100, 28, 4⟩

/-- ETHp_STAT.STORE_KIB. -/
def ETHP_STAT_STORE_KIB (i : Nat) : Field := ⟨0xA0104 + i * 0x100, 0, 17⟩

/-- ETHp_SPILL.KIB. -/
def ETHP_SPILL_KIB (i : Nat) : Field := ⟨0xA0108 + i * 0x100, 0, 32⟩

/-- ETHp_SPILL_RATE.MBPS. -/
def ETHP_SPILL_RATE_MBPS (i : Nat) : Field := ⟨0xA010C + i * 0x100, 0, 32⟩

/-- The pair ETHp_TX_BYTES. -/
def ETHP_TX_BYTES (i : Nat) : Pair := ⟨0xA0110 + i * 0x100⟩

/-- ETHp_DROPPED.COUNT. -/
def ETHP_DROPPED_COUNT (i : Nat) : Field := ⟨0xA0118 + i * 0x100, 0, 32⟩

/-- ETHp_RX_DISCARD.COUNT. -/
def ETHP_RX_DISCARD_COUNT (i : Nat) : Field := ⟨0xA011C + i * 0x100, 0, 32⟩

/-- ETHp_FEC_CORR.COUNT. -/
def ETHP_FEC_CORR_COUNT (i : Nat) : Field := ⟨0xA0120 + i * 0x100, 0, 32⟩

/-- ETHp_FEC_UNCORR.COUNT. -/
def ETHP_FEC_UNCORR_COUNT (i : Nat) : Field := ⟨0xA0124 + i * 0x100, 0, 32⟩

/-- The pair ETHp_Ll_MAC. -/
def ETH_L_MAC (i a : Nat) : Pair := ⟨0xA0400 + i * 0x100 + a * 0x20⟩

/-- ETHp_Ll_IP.ADDR. -/
def ETH_L_IP_ADDR (i a : Nat) : Field := ⟨0xA0408 + i * 0x100 + a * 0x20, 0, 32⟩

/-- ETHp_Ll_STAT.STATE. -/
def ETH_L_STAT_STATE (i a : Nat) : Field := ⟨0xA040C + i * 0x100 + a * 0x20, 30, 2⟩

/-- ETHp_Ll_STAT.RFAULT. -/
def ETH_L_STAT_RFAULT (i a : Nat) : Field := ⟨0xA040C + i * 0x100 + a * 0x20, 29, 1⟩

/-- ETHp_Ll_STAT.LFAULT. -/
def ETH_L_STAT_LFAULT (i a : Nat) : Field := ⟨0xA040C + i * 0x100 + a * 0x20, 28, 1⟩

/-- ETHp_Ll_STAT.DOWNS. -/
def ETH_L_STAT_DOWNS (i a : Nat) : Field := ⟨0xA040C + i * 0x100 + a * 0x20, 0, 16⟩

/-- ETHp_Ss_CFG.EN. -/
def ETH_S_CFG_EN (i a : Nat) : Field := ⟨0xA1000 + i * 0x1000 + a * 0x40, 31, 1⟩

/-- ETHp_Ss_CFG.KIND. -/
def ETH_S_CFG_KIND (i a : Nat) : Field := ⟨0xA1000 + i * 0x1000 + a * 0x40, 28, 3⟩

/-- ETHp_Ss_CFG.VDIF. -/
def ETH_S_CFG_VDIF (i a : Nat) : Field := ⟨0xA1000 + i * 0x1000 + a * 0x40, 27, 1⟩

/-- ETHp_Ss_CFG.LINK. -/
def ETH_S_CFG_LINK (i a : Nat) : Field := ⟨0xA1000 + i * 0x1000 + a * 0x40, 25, 2⟩

/-- ETHp_Ss_CFG.VBITS. -/
def ETH_S_CFG_VBITS (i a : Nat) : Field := ⟨0xA1000 + i * 0x1000 + a * 0x40, 22, 2⟩

/-- ETHp_Ss_CFG.FRAG. -/
def ETH_S_CFG_FRAG (i a : Nat) : Field := ⟨0xA1000 + i * 0x1000 + a * 0x40, 8, 8⟩

/-- ETHp_Ss_SRC.DSCP. -/
def ETH_S_SRC_DSCP (i a : Nat) : Field := ⟨0xA1004 + i * 0x1000 + a * 0x40, 26, 6⟩

/-- ETHp_Ss_SRC.RAWENT_M1. -/
def ETH_S_SRC_RAWENT_M1 (i a : Nat) : Field := ⟨0xA1004 + i * 0x1000 + a * 0x40, 16, 9⟩

/-- ETHp_Ss_SRC.RFMT. -/
def ETH_S_SRC_RFMT (i a : Nat) : Field := ⟨0xA1004 + i * 0x1000 + a * 0x40, 8, 1⟩

/-- ETHp_Ss_SRC.SEL. -/
def ETH_S_SRC_SEL (i a : Nat) : Field := ⟨0xA1004 + i * 0x1000 + a * 0x40, 0, 8⟩

/-- The pair ETHp_Ss_DST_MAC. -/
def ETH_S_DST_MAC (i a : Nat) : Pair := ⟨0xA1008 + i * 0x1000 + a * 0x40⟩

/-- ETHp_Ss_DST_IP.ADDR. -/
def ETH_S_DST_IP_ADDR (i a : Nat) : Field := ⟨0xA1010 + i * 0x1000 + a * 0x40, 0, 32⟩

/-- ETHp_Ss_UDP.DST. -/
def ETH_S_UDP_DST (i a : Nat) : Field := ⟨0xA1014 + i * 0x1000 + a * 0x40, 16, 16⟩

/-- ETHp_Ss_UDP.SRC. -/
def ETH_S_UDP_SRC (i a : Nat) : Field := ⟨0xA1014 + i * 0x1000 + a * 0x40, 0, 16⟩

/-- ETHp_Ss_RATE.MBPS. -/
def ETH_S_RATE_MBPS (i a : Nat) : Field := ⟨0xA1018 + i * 0x1000 + a * 0x40, 0, 32⟩

/-- ETHp_Ss_BURST.KIB. -/
def ETH_S_BURST_KIB (i a : Nat) : Field := ⟨0xA101C + i * 0x1000 + a * 0x40, 0, 16⟩

/-- ETHp_Ss_VDIF.STATION. -/
def ETH_S_VDIF_STATION (i a : Nat) : Field := ⟨0xA1020 + i * 0x1000 + a * 0x40, 16, 16⟩

/-- ETHp_Ss_VDIF.THREAD. -/
def ETH_S_VDIF_THREAD (i a : Nat) : Field := ⟨0xA1020 + i * 0x1000 + a * 0x40, 6, 10⟩

/-- ETHp_Ss_VDIF.REFEP. -/
def ETH_S_VDIF_REFEP (i a : Nat) : Field := ⟨0xA1020 + i * 0x1000 + a * 0x40, 0, 6⟩

/-- ETHp_Ss_VDIF_LEN.VLEN. -/
def ETH_S_VDIF_LEN_VLEN (i a : Nat) : Field := ⟨0xA1024 + i * 0x1000 + a * 0x40, 0, 11⟩

/-- The pair ETHp_Ss_VDIF_SEC0. -/
def ETH_S_VDIF_SEC0 (i a : Nat) : Pair := ⟨0xA1028 + i * 0x1000 + a * 0x40⟩

/-- ETHp_Ss_STAT.OVERSUB. -/
def ETH_S_STAT_OVERSUB (i a : Nat) : Field := ⟨0xA1030 + i * 0x1000 + a * 0x40, 31, 1⟩

/-- ETHp_Ss_STAT.LATE_SMP. -/
def ETH_S_STAT_LATE_SMP (i a : Nat) : Field := ⟨0xA1030 + i * 0x1000 + a * 0x40, 24, 7⟩

/-- ETHp_Ss_STAT.OFFERED. -/
def ETH_S_STAT_OFFERED (i a : Nat) : Field := ⟨0xA1030 + i * 0x1000 + a * 0x40, 0, 24⟩

/-- ETHp_Ss_SENT.COUNT. -/
def ETH_S_SENT_COUNT (i a : Nat) : Field := ⟨0xA1034 + i * 0x1000 + a * 0x40, 0, 32⟩

/-- ETHp_Ss_DROPPED.COUNT. -/
def ETH_S_DROPPED_COUNT (i a : Nat) : Field := ⟨0xA1038 + i * 0x1000 + a * 0x40, 0, 32⟩

/-- KIT_CFG.CONSUMER. -/
def KIT_CFG_CONSUMER : Field := ⟨0xB0000, 31, 1⟩

/-- The register KIT_WM. -/
def KIT_WM : Field := ⟨0xB0004, 0, 32⟩

/-- KIT_WM.HWM. -/
def KIT_WM_HWM : Field := ⟨0xB0004, 16, 12⟩

/-- KIT_WM.LWM. -/
def KIT_WM_LWM : Field := ⟨0xB0004, 0, 12⟩

/-- The register KIT_CTL. -/
def KIT_CTL : Field := ⟨0xB0008, 0, 32⟩

/-- KIT_CTL.DROP. -/
def KIT_CTL_DROP : Field := ⟨0xB0008, 0, 1⟩

/-- The register KIT_STAT. -/
def KIT_STAT : Field := ⟨0xB000C, 0, 32⟩

/-- KIT_STAT.CLK. -/
def KIT_STAT_CLK : Field := ⟨0xB000C, 5, 1⟩

/-- KIT_STAT.HOLD. -/
def KIT_STAT_HOLD : Field := ⟨0xB000C, 4, 1⟩

/-- KIT_STAT.OPEN. -/
def KIT_STAT_OPEN : Field := ⟨0xB000C, 3, 1⟩

/-- KIT_STAT.OVERFLOW. -/
def KIT_STAT_OVERFLOW : Field := ⟨0xB000C, 2, 1⟩

/-- KIT_STAT.CUT. -/
def KIT_STAT_CUT : Field := ⟨0xB000C, 1, 1⟩

/-- KIT_STAT.DROPPED. -/
def KIT_STAT_DROPPED : Field := ⟨0xB000C, 0, 1⟩

/-- The register KIT_INT_EN. -/
def KIT_INT_EN : Field := ⟨0xB0010, 0, 32⟩

/-- KIT_PTR.WR. -/
def KIT_PTR_WR : Field := ⟨0xB0014, 16, 12⟩

/-- KIT_PTR.RD. -/
def KIT_PTR_RD : Field := ⟨0xB0014, 0, 12⟩

/-- KIT_LEVEL.MAX. -/
def KIT_LEVEL_MAX : Field := ⟨0xB0018, 16, 16⟩

/-- KIT_LEVEL.CUR. -/
def KIT_LEVEL_CUR : Field := ⟨0xB0018, 0, 16⟩

/-- The register KIT_PKTS. -/
def KIT_PKTS : Field := ⟨0xB001C, 0, 32⟩

/-- KIT_PKTS.COUNT. -/
def KIT_PKTS_COUNT : Field := ⟨0xB001C, 0, 32⟩

/-- KIT_LOST_WORDS.COUNT. -/
def KIT_LOST_WORDS_COUNT : Field := ⟨0xB0020, 0, 32⟩

/-- KIT_DROP_ENTRIES.COUNT. -/
def KIT_DROP_ENTRIES_COUNT : Field := ⟨0xB0024, 0, 32⟩

/-- The register KIT_TAG. -/
def KIT_TAG : Field := ⟨0xB0100, 0, 32⟩

/-- KIT_TAG.PKT. -/
def KIT_TAG_PKT : Field := ⟨0xB0100, 16, 16⟩

/-- KIT_TAG.TAG. -/
def KIT_TAG_TAG : Field := ⟨0xB0100, 0, 8⟩

/-- The register KIT_DATA(d). -/
def KIT_DATA (i : Nat) : Field := ⟨0xB0104 + i * 0x4, 0, 32⟩

/-- The register HOST_STAT. -/
def HOST_STAT : Field := ⟨0xC0000, 0, 32⟩

/-- HOST_STAT.LINK_DOWN. -/
def HOST_STAT_LINK_DOWN : Field := ⟨0xC0000, 6, 1⟩

/-- HOST_STAT.HOT_RESET. -/
def HOST_STAT_HOT_RESET : Field := ⟨0xC0000, 5, 1⟩

/-- HOST_STAT.CPL_LATE. -/
def HOST_STAT_CPL_LATE : Field := ⟨0xC0000, 4, 1⟩

/-- HOST_STAT.PORT_ERR. -/
def HOST_STAT_PORT_ERR : Field := ⟨0xC0000, 3, 1⟩

/-- HOST_STAT.FAULT. -/
def HOST_STAT_FAULT : Field := ⟨0xC0000, 2, 1⟩

/-- HOST_STAT.CFG_ERR. -/
def HOST_STAT_CFG_ERR : Field := ⟨0xC0000, 1, 1⟩

/-- HOST_STAT.READY. -/
def HOST_STAT_READY : Field := ⟨0xC0000, 0, 1⟩

/-- The register HOST_INT_EN. -/
def HOST_INT_EN : Field := ⟨0xC0004, 0, 32⟩

/-- HOST_INT_EN.EN. -/
def HOST_INT_EN_EN : Field := ⟨0xC0004, 3, 4⟩

/-- The register HOST_LINK. -/
def HOST_LINK : Field := ⟨0xC0008, 0, 32⟩

/-- HOST_LINK.DOWNS. -/
def HOST_LINK_DOWNS : Field := ⟨0xC0008, 16, 16⟩

/-- HOST_LINK.SPEED. -/
def HOST_LINK_SPEED : Field := ⟨0xC0008, 8, 4⟩

/-- HOST_LINK.WIDTH. -/
def HOST_LINK_WIDTH : Field := ⟨0xC0008, 0, 4⟩

/-- The register HOST_INT_PEND. -/
def HOST_INT_PEND : Field := ⟨0xC0010, 0, 32⟩

/-- HOST_INT_PEND.PEND. -/
def HOST_INT_PEND_PEND : Field := ⟨0xC0010, 0, 32⟩

/-- The register HOST_INT_REQ. -/
def HOST_INT_REQ : Field := ⟨0xC0014, 0, 32⟩

/-- HOST_INT_REQ.REQ. -/
def HOST_INT_REQ_REQ : Field := ⟨0xC0014, 0, 32⟩

/-- HOST_DMA_DONE.DONE. -/
def HOST_DMA_DONE_DONE : Field := ⟨0xC0018, 0, 16⟩

/-- The register HOST_ERRS. -/
def HOST_ERRS : Field := ⟨0xC001C, 0, 32⟩

/-- HOST_ERRS.CPL_LATE. -/
def HOST_ERRS_CPL_LATE : Field := ⟨0xC001C, 16, 16⟩

/-- HOST_ERRS.PORT. -/
def HOST_ERRS_PORT : Field := ⟨0xC001C, 0, 16⟩

/-- PORT_ADDR_LO.ADDR. -/
def PORT_ADDR_LO_ADDR : Field := ⟨0xC1000, 2, 30⟩

/-- The pair PORT_ADDR. -/
def PORT_ADDR : Pair := ⟨0xC1000⟩

/-- PORT_ADDR_HI.ADDR. -/
def PORT_ADDR_HI_ADDR : Field := ⟨0xC1004, 0, 16⟩

/-- The register PORT_INC. -/
def PORT_INC : Field := ⟨0xC1008, 0, 32⟩

/-- PORT_INC.INC. -/
def PORT_INC_INC : Field := ⟨0xC1008, 0, 2⟩

/-- The register PORT_DATA. -/
def PORT_DATA : Field := ⟨0xC100C, 0, 32⟩

/-- The pair DMAc_SRC. -/
def DMA_SRC (i : Nat) : Pair := ⟨0xD0000 + i * 0x40⟩

/-- The pair DMAc_DST. -/
def DMA_DST (i : Nat) : Pair := ⟨0xD0008 + i * 0x40⟩

/-- DMAc_CNT.BYTES. -/
def DMA_CNT_BYTES (i : Nat) : Field := ⟨0xD0010 + i * 0x40, 0, 32⟩

/-- The register DMAc_CTL. -/
def DMA_CTL (i : Nat) : Field := ⟨0xD0014 + i * 0x40, 0, 32⟩

/-- DMAc_CTL.EN. -/
def DMA_CTL_EN (i : Nat) : Field := ⟨0xD0014 + i * 0x40, 31, 1⟩

/-- DMAc_CTL.IE. -/
def DMA_CTL_IE (i : Nat) : Field := ⟨0xD0014 + i * 0x40, 29, 1⟩

/-- DMAc_CTL.DIR. -/
def DMA_CTL_DIR (i : Nat) : Field := ⟨0xD0014 + i * 0x40, 28, 1⟩

/-- DMAc_STAT.STATE. -/
def DMA_STAT_STATE (i : Nat) : Field := ⟨0xD0018 + i * 0x40, 28, 4⟩

/-- DMAc_STAT.ERR. -/
def DMA_STAT_ERR (i : Nat) : Field := ⟨0xD0018 + i * 0x40, 24, 4⟩

/-- DMAc_STAT.CLIPPED. -/
def DMA_STAT_CLIPPED (i : Nat) : Field := ⟨0xD0018 + i * 0x40, 0, 1⟩

/-- DISP_CFG.EN. -/
def DISP_CFG_EN : Field := ⟨0xE0000, 31, 1⟩

/-- DISP_CFG.XFADE. -/
def DISP_CFG_XFADE : Field := ⟨0xE0000, 29, 1⟩

/-- DISP_CFG.SCALE. -/
def DISP_CFG_SCALE : Field := ⟨0xE0000, 28, 1⟩

/-- DISP_CFG.LANES. -/
def DISP_CFG_LANES : Field := ⟨0xE0000, 26, 2⟩

/-- DISP_CFG.RATE. -/
def DISP_CFG_RATE : Field := ⟨0xE0000, 24, 2⟩

/-- DISP_CFG.PDIV_M1. -/
def DISP_CFG_PDIV_M1 : Field := ⟨0xE0000, 16, 4⟩

/-- The register DISP_CTL. -/
def DISP_CTL : Field := ⟨0xE0004, 0, 32⟩

/-- The register DISP_STAT. -/
def DISP_STAT : Field := ⟨0xE0008, 0, 32⟩

/-- DISP_STAT.HPD. -/
def DISP_STAT_HPD : Field := ⟨0xE0008, 19, 1⟩

/-- DISP_STAT.LINK. -/
def DISP_STAT_LINK : Field := ⟨0xE0008, 16, 3⟩

/-- DISP_STAT.NEXT. -/
def DISP_STAT_NEXT : Field := ⟨0xE0008, 13, 1⟩

/-- DISP_STAT.PEND. -/
def DISP_STAT_PEND : Field := ⟨0xE0008, 12, 1⟩

/-- DISP_STAT.RND_DEG. -/
def DISP_STAT_RND_DEG : Field := ⟨0xE0008, 10, 1⟩

/-- DISP_STAT.LINK_FAIL. -/
def DISP_STAT_LINK_FAIL : Field := ⟨0xE0008, 9, 1⟩

/-- DISP_STAT.CLIPPED. -/
def DISP_STAT_CLIPPED : Field := ⟨0xE0008, 8, 1⟩

/-- DISP_STAT.ADDR_ERR. -/
def DISP_STAT_ADDR_ERR : Field := ⟨0xE0008, 7, 1⟩

/-- DISP_STAT.RENDERED. -/
def DISP_STAT_RENDERED : Field := ⟨0xE0008, 6, 1⟩

/-- DISP_STAT.RETIRED. -/
def DISP_STAT_RETIRED : Field := ⟨0xE0008, 5, 1⟩

/-- DISP_STAT.LATE. -/
def DISP_STAT_LATE : Field := ⟨0xE0008, 4, 1⟩

/-- DISP_STAT.UNDERRUN. -/
def DISP_STAT_UNDERRUN : Field := ⟨0xE0008, 3, 1⟩

/-- DISP_STAT.FRAME_DONE. -/
def DISP_STAT_FRAME_DONE : Field := ⟨0xE0008, 2, 1⟩

/-- DISP_STAT.LINE_MATCH. -/
def DISP_STAT_LINE_MATCH : Field := ⟨0xE0008, 1, 1⟩

/-- DISP_STAT.VBLANK_START. -/
def DISP_STAT_VBLANK_START : Field := ⟨0xE0008, 0, 1⟩

/-- The register DISP_INT_EN. -/
def DISP_INT_EN : Field := ⟨0xE000C, 0, 32⟩

/-- DISP_H_TIMING.TOTAL. -/
def DISP_H_TIMING_TOTAL : Field := ⟨0xE0010, 16, 16⟩

/-- DISP_H_TIMING.ACT. -/
def DISP_H_TIMING_ACT : Field := ⟨0xE0010, 0, 16⟩

/-- DISP_H_SYNC.SW. -/
def DISP_H_SYNC_SW : Field := ⟨0xE0014, 16, 16⟩

/-- DISP_H_SYNC.FP. -/
def DISP_H_SYNC_FP : Field := ⟨0xE0014, 0, 16⟩

/-- DISP_V_TIMING.TOTAL. -/
def DISP_V_TIMING_TOTAL : Field := ⟨0xE0018, 16, 16⟩

/-- DISP_V_TIMING.ACT. -/
def DISP_V_TIMING_ACT : Field := ⟨0xE0018, 0, 16⟩

/-- DISP_V_SYNC.SW. -/
def DISP_V_SYNC_SW : Field := ⟨0xE001C, 16, 16⟩

/-- DISP_V_SYNC.FP. -/
def DISP_V_SYNC_FP : Field := ⟨0xE001C, 0, 16⟩

/-- The register DISP_COMMIT_LEAD. -/
def DISP_COMMIT_LEAD : Field := ⟨0xE0020, 0, 32⟩

/-- DISP_COMMIT_LEAD.LINES. -/
def DISP_COMMIT_LEAD_LINES : Field := ⟨0xE0020, 0, 7⟩

/-- DISP_LINE_MATCH.LINE. -/
def DISP_LINE_MATCH_LINE : Field := ⟨0xE0024, 0, 12⟩

/-- The register DISP_POS. -/
def DISP_POS : Field := ⟨0xE0028, 0, 32⟩

/-- DISP_POS.LINE. -/
def DISP_POS_LINE : Field := ⟨0xE0028, 0, 12⟩

/-- The register DISP_FRAME. -/
def DISP_FRAME : Field := ⟨0xE002C, 0, 32⟩

/-- DISP_FRAME.COUNT. -/
def DISP_FRAME_COUNT : Field := ⟨0xE002C, 0, 32⟩

/-- The pair DISP_L0_Y. -/
def DISP_L0_Y : Pair := ⟨0xE0030⟩

/-- The pair DISP_L0_C. -/
def DISP_L0_C : Pair := ⟨0xE0038⟩

/-- The pair DISP_L0_CUR. -/
def DISP_L0_CUR : Pair := ⟨0xE0040⟩

/-- The pair DISP_RETIRED_ADDR. -/
def DISP_RETIRED_ADDR : Pair := ⟨0xE0048⟩

/-- DISP_L1_CFG.EN. -/
def DISP_L1_CFG_EN : Field := ⟨0xE0050, 0, 1⟩

/-- The register DISP_UNDERRUNS. -/
def DISP_UNDERRUNS : Field := ⟨0xE0054, 0, 32⟩

/-- DISP_UNDERRUNS.COUNT. -/
def DISP_UNDERRUNS_COUNT : Field := ⟨0xE0054, 0, 32⟩

/-- DISP_LATE_COUNT.COUNT. -/
def DISP_LATE_COUNT_COUNT : Field := ⟨0xE0058, 0, 32⟩

/-- DISP_RND_CFG.EN. -/
def DISP_RND_CFG_EN : Field := ⟨0xE0060, 31, 1⟩

/-- DISP_RND_CFG.AUTO. -/
def DISP_RND_CFG_AUTO : Field := ⟨0xE0060, 30, 1⟩

/-- DISP_RND_CFG.NBUF. -/
def DISP_RND_CFG_NBUF : Field := ⟨0xE0060, 28, 2⟩

/-- DISP_RND_CFG.DST. -/
def DISP_RND_CFG_DST : Field := ⟨0xE0060, 26, 2⟩

/-- DISP_RND_CFG.N. -/
def DISP_RND_CFG_N : Field := ⟨0xE0060, 16, 8⟩

/-- DISP_RND_CFG.PROD. -/
def DISP_RND_CFG_PROD : Field := ⟨0xE0060, 0, 8⟩

/-- DISP_RND_MAP.INPUT. -/
def DISP_RND_MAP_INPUT : Field := ⟨0xE0064, 16, 2⟩

/-- DISP_RND_MAP.G0. -/
def DISP_RND_MAP_G0 : Field := ⟨0xE0064, 0, 16⟩

/-- DISP_RND_SCALE.GAIN. -/
def DISP_RND_SCALE_GAIN : Field := ⟨0xE0068, 16, 16⟩

/-- DISP_RND_SCALE.STEP. -/
def DISP_RND_SCALE_STEP : Field := ⟨0xE0068, 0, 16⟩

/-- DISP_RND_STAT.SKIPS. -/
def DISP_RND_STAT_SKIPS : Field := ⟨0xE006C, 16, 16⟩

/-- DISP_RND_STAT.LAST_BUF. -/
def DISP_RND_STAT_LAST_BUF : Field := ⟨0xE006C, 0, 2⟩

/-- The pair DISP_RND_DEAL. -/
def DISP_RND_DEAL : Pair := ⟨0xE0070⟩

/-- The register DISP_PAL(i). -/
def DISP_PAL (i : Nat) : Field := ⟨0xE0100 + i * 0x4, 0, 32⟩

/-- The register DISP_CLUT(i). -/
def DISP_CLUT (i : Nat) : Field := ⟨0xE0400 + i * 0x4, 0, 32⟩

/-- TEST_LC_STAT.STATE. -/
def TEST_LC_STAT_STATE : Field := ⟨0xF0000, 29, 3⟩

/-- TEST_LC_STAT.FUSED. -/
def TEST_LC_STAT_FUSED : Field := ⟨0xF0000, 26, 3⟩

/-- TEST_LC_STAT.KEY_SET. -/
def TEST_LC_STAT_KEY_SET : Field := ⟨0xF0000, 25, 1⟩

/-- TEST_LC_STAT.KEY_ZERO. -/
def TEST_LC_STAT_KEY_ZERO : Field := ⟨0xF0000, 24, 1⟩

/-- TEST_LC_STAT.PKH_SET. -/
def TEST_LC_STAT_PKH_SET : Field := ⟨0xF0000, 23, 1⟩

/-- TEST_LC_STAT.SECURE_BOOT. -/
def TEST_LC_STAT_SECURE_BOOT : Field := ⟨0xF0000, 22, 1⟩

/-- TEST_LC_STAT.BUSY. -/
def TEST_LC_STAT_BUSY : Field := ⟨0xF0000, 21, 1⟩

/-- TEST_LC_STAT.ERR. -/
def TEST_LC_STAT_ERR : Field := ⟨0xF0000, 12, 4⟩

/-- TEST_LC_STAT.KEY_BITS_LEFT. -/
def TEST_LC_STAT_KEY_BITS_LEFT : Field := ⟨0xF0000, 0, 9⟩

/-- The register TEST_LC_ADV. -/
def TEST_LC_ADV : Field := ⟨0xF0004, 0, 32⟩

/-- The register TEST_OTP_CTL. -/
def TEST_OTP_CTL : Field := ⟨0xF0008, 0, 32⟩

/-- TEST_OTP_CTL.OP. -/
def TEST_OTP_CTL_OP : Field := ⟨0xF0008, 0, 2⟩

/-- The register TEST_KEY_CHECK. -/
def TEST_KEY_CHECK : Field := ⟨0xF000C, 0, 32⟩

/-- The register TEST_OTP_DATA(w). -/
def TEST_OTP_DATA (i : Nat) : Field := ⟨0xF0010 + i * 0x4, 0, 32⟩

/-- The register TEST_PKH(w). -/
def TEST_PKH (i : Nat) : Field := ⟨0xF0030 + i * 0x4, 0, 32⟩

/-- The register SUP_DEV_ID. -/
def SUP_DEV_ID : Field := ⟨0x0, 0, 32⟩

/-- The register SUP_STAT. -/
def SUP_STAT : Field := ⟨0x4, 0, 32⟩

/-- SUP_STAT.STATE. -/
def SUP_STAT_STATE : Field := ⟨0x4, 28, 4⟩

/-- SUP_STAT.LC. -/
def SUP_STAT_LC : Field := ⟨0x4, 25, 3⟩

/-- SUP_STAT.SECURE_BOOT. -/
def SUP_STAT_SECURE_BOOT : Field := ⟨0x4, 24, 1⟩

/-- SUP_STAT.WDOG. -/
def SUP_STAT_WDOG : Field := ⟨0x4, 23, 1⟩

/-- SUP_STAT.FAULT. -/
def SUP_STAT_FAULT : Field := ⟨0x4, 22, 1⟩

/-- SUP_STAT.LC_DONE. -/
def SUP_STAT_LC_DONE : Field := ⟨0x4, 3, 1⟩

/-- SUP_STAT.FLASH_DONE. -/
def SUP_STAT_FLASH_DONE : Field := ⟨0x4, 2, 1⟩

/-- SUP_STAT.CFG_ERROR. -/
def SUP_STAT_CFG_ERROR : Field := ⟨0x4, 1, 1⟩

/-- SUP_STAT.FIRST_DEAL. -/
def SUP_STAT_FIRST_DEAL : Field := ⟨0x4, 0, 1⟩

/-- The register SUP_INT_EN. -/
def SUP_INT_EN : Field := ⟨0x8, 0, 32⟩

/-- SUP_BOOT_STAT.CAUSE. -/
def SUP_BOOT_STAT_CAUSE : Field := ⟨0xC, 24, 8⟩

/-- SUP_BOOT_A_STAT.CAUSE. -/
def SUP_BOOT_A_STAT_CAUSE : Field := ⟨0x10, 24, 8⟩

/-- SUP_BOOT_INFO.SLOT. -/
def SUP_BOOT_INFO_SLOT : Field := ⟨0x14, 31, 1⟩

/-- SUP_BOOT_INFO.FALLBACK. -/
def SUP_BOOT_INFO_FALLBACK : Field := ⟨0x14, 30, 1⟩

/-- SUP_BOOT_INFO.SIGNED. -/
def SUP_BOOT_INFO_SIGNED : Field := ⟨0x14, 29, 1⟩

/-- SUP_BOOT_INFO.ADDR4. -/
def SUP_BOOT_INFO_ADDR4 : Field := ⟨0x14, 28, 1⟩

/-- SUP_BOOT_INFO.RECORDS. -/
def SUP_BOOT_INFO_RECORDS : Field := ⟨0x14, 0, 12⟩

/-- The register SUP_BOOT_NEXT. -/
def SUP_BOOT_NEXT : Field := ⟨0x18, 0, 32⟩

/-- SUP_BOOT_NEXT.ONCE. -/
def SUP_BOOT_NEXT_ONCE : Field := ⟨0x18, 8, 1⟩

/-- SUP_BOOT_NEXT.SEL. -/
def SUP_BOOT_NEXT_SEL : Field := ⟨0x18, 0, 2⟩

/-- The register SUP_RESET_CAUSE. -/
def SUP_RESET_CAUSE : Field := ⟨0x1C, 0, 32⟩

/-- SUP_RESET_CAUSE.COUNT. -/
def SUP_RESET_CAUSE_COUNT : Field := ⟨0x1C, 16, 16⟩

/-- The register SUP_START_MS. -/
def SUP_START_MS : Field := ⟨0x20, 0, 32⟩

/-- SUP_START_MS.MS. -/
def SUP_START_MS_MS : Field := ⟨0x20, 0, 32⟩

/-- SUP_ROM_VERSION.MAJOR. -/
def SUP_ROM_VERSION_MAJOR : Field := ⟨0x24, 24, 8⟩

/-- The pair SUP_IMAGE_BUILD. -/
def SUP_IMAGE_BUILD : Pair := ⟨0x28⟩

/-- The register SUP_IMAGE_CRC. -/
def SUP_IMAGE_CRC : Field := ⟨0x30, 0, 32⟩

/-- The register SUP_LAST_FATAL. -/
def SUP_LAST_FATAL : Field := ⟨0x34, 0, 32⟩

/-- SUP_LAST_FATAL.CODE. -/
def SUP_LAST_FATAL_CODE : Field := ⟨0x34, 0, 16⟩

/-- The register SUP_LAST_FATAL_ARG. -/
def SUP_LAST_FATAL_ARG : Field := ⟨0x38, 0, 32⟩

/-- SUP_LAST_FATAL_ARG.ARG. -/
def SUP_LAST_FATAL_ARG_ARG : Field := ⟨0x38, 0, 32⟩

/-- SUP_FLASH_INFO.VALID. -/
def SUP_FLASH_INFO_VALID : Field := ⟨0x40, 31, 1⟩

/-- SUP_FLASH_INFO.ERASE64. -/
def SUP_FLASH_INFO_ERASE64 : Field := ⟨0x40, 30, 1⟩

/-- SUP_FLASH_INFO.SIZE_MIB. -/
def SUP_FLASH_INFO_SIZE_MIB : Field := ⟨0x40, 0, 16⟩

/-- The register SUP_FLASH_ADDR. -/
def SUP_FLASH_ADDR : Field := ⟨0x44, 0, 32⟩

/-- SUP_FLASH_ADDR.ADDR. -/
def SUP_FLASH_ADDR_ADDR : Field := ⟨0x44, 0, 32⟩

/-- The register SUP_FLASH_CMD. -/
def SUP_FLASH_CMD : Field := ⟨0x48, 0, 32⟩

/-- SUP_FLASH_CMD.BUSY. -/
def SUP_FLASH_CMD_BUSY : Field := ⟨0x48, 30, 1⟩

/-- SUP_FLASH_CMD.ERR. -/
def SUP_FLASH_CMD_ERR : Field := ⟨0x48, 28, 2⟩

/-- SUP_FLASH_CMD.OP. -/
def SUP_FLASH_CMD_OP : Field := ⟨0x48, 0, 2⟩

/-- The register SUP_FLASH_BUF(w). -/
def SUP_FLASH_BUF (i : Nat) : Field := ⟨0x100 + i * 0x4, 0, 32⟩

/-- The register TEST_STAT. -/
def TEST_STAT : Field := ⟨0xF0050, 0, 32⟩

/-- TEST_STAT.DIE_FAIL. -/
def TEST_STAT_DIE_FAIL : Field := ⟨0xF0050, 8, 1⟩

/-- TEST_STAT.CAL_WRITE_FAIL. -/
def TEST_STAT_CAL_WRITE_FAIL : Field := ⟨0xF0050, 7, 1⟩

/-- TEST_STAT.CAL_MISSING. -/
def TEST_STAT_CAL_MISSING : Field := ⟨0xF0050, 6, 1⟩

/-- TEST_STAT.CAL_SAVED. -/
def TEST_STAT_CAL_SAVED : Field := ⟨0xF0050, 5, 1⟩

/-- TEST_STAT.CAL_LOADED. -/
def TEST_STAT_CAL_LOADED : Field := ⟨0xF0050, 4, 1⟩

/-- TEST_STAT.IFT_SKIP. -/
def TEST_STAT_IFT_SKIP : Field := ⟨0xF0050, 3, 1⟩

/-- TEST_STAT.IFT_FAIL. -/
def TEST_STAT_IFT_FAIL : Field := ⟨0xF0050, 2, 1⟩

/-- TEST_STAT.IFT_DONE. -/
def TEST_STAT_IFT_DONE : Field := ⟨0xF0050, 1, 1⟩

/-- TEST_STAT.BIST_FAIL. -/
def TEST_STAT_BIST_FAIL : Field := ⟨0xF0050, 0, 1⟩

/-- The register TEST_INT_EN. -/
def TEST_INT_EN : Field := ⟨0xF0054, 0, 32⟩

/-- TEST_BIST_SUM.ENG_FAIL. -/
def TEST_BIST_SUM_ENG_FAIL : Field := ⟨0xF0058, 21, 11⟩

/-- TEST_BIST_SUM.ENG_REPAIRED. -/
def TEST_BIST_SUM_ENG_REPAIRED : Field := ⟨0xF0058, 10, 11⟩

/-- TEST_BIST_SUM.CLU_FAIL. -/
def TEST_BIST_SUM_CLU_FAIL : Field := ⟨0xF0058, 0, 7⟩

/-- TEST_BIST_MS.MS. -/
def TEST_BIST_MS_MS : Field := ⟨0xF005C, 0, 16⟩

/-- TEST_IFT_CFG.EN. -/
def TEST_IFT_CFG_EN : Field := ⟨0xF0060, 31, 1⟩

/-- TEST_IFT_CFG.FORCE_LOW. -/
def TEST_IFT_CFG_FORCE_LOW : Field := ⟨0xF0060, 30, 1⟩

/-- TEST_IFT_CFG.HOURS. -/
def TEST_IFT_CFG_HOURS : Field := ⟨0xF0060, 0, 8⟩

/-- The register TEST_IFT_CTL. -/
def TEST_IFT_CTL : Field := ⟨0xF0064, 0, 32⟩

/-- TEST_IFT_CTL.PHYS. -/
def TEST_IFT_CTL_PHYS : Field := ⟨0xF0064, 0, 11⟩

/-- TEST_IFT_STAT.ACTIVE. -/
def TEST_IFT_STAT_ACTIVE : Field := ⟨0xF0068, 28, 4⟩

/-- TEST_IFT_STAT.ROUNDS. -/
def TEST_IFT_STAT_ROUNDS : Field := ⟨0xF0068, 0, 16⟩

/-- The register TEST_IFT_LAST. -/
def TEST_IFT_LAST : Field := ⟨0xF006C, 0, 32⟩

/-- TEST_IFT_LAST.RESULT. -/
def TEST_IFT_LAST_RESULT : Field := ⟨0xF006C, 30, 2⟩

/-- TEST_IFT_LAST.PHYS. -/
def TEST_IFT_LAST_PHYS : Field := ⟨0xF006C, 0, 11⟩

/-- TEST_IFT_COUNT.FAIL. -/
def TEST_IFT_COUNT_FAIL : Field := ⟨0xF0070, 16, 16⟩

/-- TEST_IFT_COUNT.PASS. -/
def TEST_IFT_COUNT_PASS : Field := ⟨0xF0070, 0, 16⟩

/-- TEST_IFT_SKIPS.MARGIN. -/
def TEST_IFT_SKIPS_MARGIN : Field := ⟨0xF0074, 16, 16⟩

/-- TEST_IFT_SKIPS.JOKER. -/
def TEST_IFT_SKIPS_JOKER : Field := ⟨0xF0074, 0, 16⟩

/-- TEST_MB_IDX.IDX. -/
def TEST_MB_IDX_IDX : Field := ⟨0xF0080, 0, 11⟩

/-- TEST_MB_COUNT.LOST. -/
def TEST_MB_COUNT_LOST : Field := ⟨0xF0084, 16, 16⟩

/-- TEST_MB_COUNT.COUNT. -/
def TEST_MB_COUNT_COUNT : Field := ⟨0xF0084, 0, 12⟩

/-- TEST_MB_ENTRY(w).DATA. -/
def TEST_MB_ENTRY_DATA (i : Nat) : Field := ⟨0xF0088 + i * 0x4, 0, 32⟩

/-- TEST_LB_IDX.IDX. -/
def TEST_LB_IDX_IDX : Field := ⟨0xF0098, 0, 13⟩

/-- The register TEST_LB_RESULT. -/
def TEST_LB_RESULT : Field := ⟨0xF009C, 0, 32⟩

/-- TEST_LB_RESULT.RESULT. -/
def TEST_LB_RESULT_RESULT : Field := ⟨0xF009C, 30, 2⟩

/-- The pair TEST_LB_SIG. -/
def TEST_LB_SIG : Pair := ⟨0xF00A0⟩

/-- The pair TEST_LB_EXP. -/
def TEST_LB_EXP : Pair := ⟨0xF00A8⟩

/-- The register TEST_CAL_CFG. -/
def TEST_CAL_CFG : Field := ⟨0xF00B0, 0, 32⟩

/-- TEST_CAL_CFG.HOURS. -/
def TEST_CAL_CFG_HOURS : Field := ⟨0xF00B0, 0, 8⟩

/-- The register TEST_CAL_CTL. -/
def TEST_CAL_CTL : Field := ⟨0xF00B4, 0, 32⟩

/-- TEST_CAL_CTL.SRC. -/
def TEST_CAL_CTL_SRC : Field := ⟨0xF00B4, 29, 1⟩

/-- TEST_CAL_CTL.INPUTS. -/
def TEST_CAL_CTL_INPUTS : Field := ⟨0xF00B4, 0, 4⟩

/-- The register TEST_CAL_STAT. -/
def TEST_CAL_STAT : Field := ⟨0xF00B8, 0, 32⟩

/-- TEST_CAL_STAT.BUSY. -/
def TEST_CAL_STAT_BUSY : Field := ⟨0xF00B8, 31, 1⟩

/-- TEST_CAL_STAT.ERR. -/
def TEST_CAL_STAT_ERR : Field := ⟨0xF00B8, 28, 3⟩

/-- TEST_CAL_STAT.MISSING. -/
def TEST_CAL_STAT_MISSING : Field := ⟨0xF00B8, 0, 16⟩

/-- TEST_CAL_WRITES.COUNT. -/
def TEST_CAL_WRITES_COUNT : Field := ⟨0xF00BC, 0, 32⟩

/-- The register TEST_JMAP_EDIT. -/
def TEST_JMAP_EDIT : Field := ⟨0xF00C0, 0, 32⟩

/-- TEST_JMAP_EDIT.OP. -/
def TEST_JMAP_EDIT_OP : Field := ⟨0xF00C0, 30, 1⟩

/-- TEST_JMAP_EDIT.PHYS. -/
def TEST_JMAP_EDIT_PHYS : Field := ⟨0xF00C0, 0, 11⟩

/-- TEST_CS_ADDR.ADDR. -/
def TEST_CS_ADDR_ADDR : Field := ⟨0xF00C4, 0, 24⟩

/-- The register TEST_CS_DATA. -/
def TEST_CS_DATA : Field := ⟨0xF00C8, 0, 32⟩

/-- TEST_CS_DATA.DATA. -/
def TEST_CS_DATA_DATA : Field := ⟨0xF00C8, 0, 32⟩

/-- The register TEST_CS_WEAR. -/
def TEST_CS_WEAR : Field := ⟨0xF00CC, 0, 32⟩

/-- TEST_BIST_CLU(c).RSTORE. -/
def TEST_BIST_CLU_RSTORE (i : Nat) : Field := ⟨0xF0100 + i * 0x4, 31, 1⟩

/-- TEST_BIST_CLU(c).FAILRES. -/
def TEST_BIST_CLU_FAILRES (i : Nat) : Field := ⟨0xF0100 + i * 0x4, 27, 4⟩

/-- TEST_BIST_CLU(c).ENG_FAIL. -/
def TEST_BIST_CLU_ENG_FAIL (i : Nat) : Field := ⟨0xF0100 + i * 0x4, 17, 5⟩

/-- TEST_BIST_CLU(c).FAILMAP. -/
def TEST_BIST_CLU_FAILMAP (i : Nat) : Field := ⟨0xF0100 + i * 0x4, 0, 17⟩

/-- The register VREG_STAT. -/
def VREG_STAT : Field := ⟨0x120000, 0, 32⟩

/-- VREG_STAT.ALERT. -/
def VREG_STAT_ALERT : Field := ⟨0x120000, 8, 1⟩

/-- VREG_STAT.HOT. -/
def VREG_STAT_HOT : Field := ⟨0x120000, 6, 1⟩

/-- VREG_STAT.RAIL_FAULT. -/
def VREG_STAT_RAIL_FAULT : Field := ⟨0x120000, 5, 1⟩

/-- VREG_STAT.ILIMIT. -/
def VREG_STAT_ILIMIT : Field := ⟨0x120000, 4, 1⟩

/-- VREG_STAT.PIN_WARN. -/
def VREG_STAT_PIN_WARN : Field := ⟨0x120000, 3, 1⟩

/-- VREG_STAT.TEMP_HIGH. -/
def VREG_STAT_TEMP_HIGH : Field := ⟨0x120000, 2, 1⟩

/-- VREG_STAT.TEMP_WARN. -/
def VREG_STAT_TEMP_WARN : Field := ⟨0x120000, 1, 1⟩

/-- VREG_STAT.VIN_LOW. -/
def VREG_STAT_VIN_LOW : Field := ⟨0x120000, 0, 1⟩

/-- The register VREG_INT_EN. -/
def VREG_INT_EN : Field := ⟨0x120004, 0, 32⟩

/-- The register VREG_ALERT_CFG. -/
def VREG_ALERT_CFG : Field := ⟨0x120008, 0, 32⟩

/-- VREG_ALERT_CFG.SMB_EN. -/
def VREG_ALERT_CFG_SMB_EN : Field := ⟨0x120008, 24, 6⟩

/-- VREG_ALERT_CFG.TEMP_WARN. -/
def VREG_ALERT_CFG_TEMP_WARN : Field := ⟨0x120008, 16, 8⟩

/-- VREG_ALERT_CFG.PIN_WARN. -/
def VREG_ALERT_CFG_PIN_WARN : Field := ⟨0x120008, 0, 9⟩

/-- VREG_VIN.MV. -/
def VREG_VIN_MV : Field := ⟨0x12000C, 0, 16⟩

/-- VREG_IIN.MA. -/
def VREG_IIN_MA : Field := ⟨0x120010, 0, 16⟩

/-- VREG_PIN.PEAK. -/
def VREG_PIN_PEAK : Field := ⟨0x120014, 16, 16⟩

/-- VREG_PIN.NOW. -/
def VREG_PIN_NOW : Field := ⟨0x120014, 0, 16⟩

/-- The pair VREG_ENERGY. -/
def VREG_ENERGY : Pair := ⟨0x120018⟩

/-- VREG_TEMP_MAX.PEAK. -/
def VREG_TEMP_MAX_PEAK : Field := ⟨0x120020, 16, 16⟩

/-- VREG_TEMP_MAX.NOW. -/
def VREG_TEMP_MAX_NOW : Field := ⟨0x120020, 0, 16⟩

/-- VREG_TEMP(d).T. -/
def VREG_TEMP_T (i : Nat) : Field := ⟨0x120024 + i * 0x4, 0, 16⟩

end Sys2Proof.Machine
end

