-- ==== Sys2Proof/Machine/Sparse.lean ====
section
/-! DEFINITION. Sparse maps as plain data: a list of (key, value) pairs with the keys strictly rising and no entry
equal to what an unlisted key reads as. `d` is what an unlisted key reads as. Registers, SDRAM, engine memory, the
overlay buffer, the flash and the stores are all held this way. -/

namespace Sys2Proof.Machine

/-- The value at a key; an unlisted key reads as `d`. -/
def sparseGet {α : Type} (d : Nat → α) : List (Nat × α) → Nat → α
  | [], k => d k
  | (a, v) :: t, k => if k = a then v else sparseGet d t k

/-- Put a value in key order, in place of an entry of the same key. -/
def sparseInsert {α : Type} (k : Nat) (v : α) : List (Nat × α) → List (Nat × α)
  | [] => [(k, v)]
  | (a, w) :: t =>
    if k < a then (k, v) :: (a, w) :: t
    else if k = a then (k, v) :: t
    else (a, w) :: sparseInsert k v t

/-- Take a key out. -/
def sparseErase {α : Type} (k : Nat) (m : List (Nat × α)) : List (Nat × α) :=
  m.filter (fun p => !(p.1 == k))

/-- Write a key. Writing what an unlisted key reads as removes the entry. -/
def sparseSet {α : Type} [DecidableEq α] (d : Nat → α) (m : List (Nat × α)) (k : Nat) (v : α) :
    List (Nat × α) :=
  if v = d k then sparseErase k m else sparseInsert k v m

/-- Every key of the list is above `b`, and the keys rise strictly. -/
def risingFrom {α : Type} : Nat → List (Nat × α) → Bool
  | _, [] => true
  | b, (a, _) :: t => decide (b ≤ a) && risingFrom (a + 1) t

/-- The canonical form: keys strictly rising, and no entry equal to the default. -/
def sparseWf {α : Type} [DecidableEq α] (d : Nat → α) (m : List (Nat × α)) : Bool :=
  risingFrom 0 m && m.all (fun p => !decide (p.2 = d p.1))

/-- `n` consecutive keys from `k` on, lowest first. -/
def sparseRead {α : Type} (d : Nat → α) (m : List (Nat × α)) (k n : Nat) : List α :=
  (List.range n).map (fun i => sparseGet d m (k + i))

/-- Consecutive keys from `k` on take the values of a list, lowest first. -/
def sparseWrite {α : Type} [DecidableEq α] (d : Nat → α) (m : List (Nat × α)) (k : Nat) :
    List α → List (Nat × α)
  | [] => m
  | v :: t => sparseWrite d (sparseSet d m k v) (k + 1) t

end Sys2Proof.Machine
end

