-- ==== Sys2Proof/Machine/State.lean ====
section
/-! DEFINITION. The state of the KRV-4820 as plain data, and the state right after reset. Registers live in one sparse
map keyed by device address (`regs`); what a register reads as when it is not listed is its reset value, given by
the register table (Machine/RegTable.lean). Everything else the spec gives a block stands in that block's own record. -/

namespace Sys2Proof.Machine

/-! ### Deal, commit and amendments (02_deal_commit_determinism.md) -/

/-- One write to staged (ST) fields of a register (R9, R10): the address, the bits written, their value, and its place in
the order of arrival. -/
structure StagedWrite where
  addr  : Nat
  mask  : Word
  value : Word
  seq   : Nat := 0
  deriving DecidableEq, Repr

/-- The states of an amendment (R56). -/
inductive AmdState where
  | idle
  | check
  | pending
  deriving DecidableEq, Repr

/-- One record of a boot image or an amendment, header fields and payload (R476). -/
structure ImageRecord where
  kind    : Nat
  version : Nat
  flags   : Nat
  target  : Nat
  body    : List Byte
  deriving DecidableEq, Repr

/-- The DEAL block's own state beyond its registers. -/
structure DealState where
  /-- Ticks have begun (the first tick of R38 has passed). -/
  running   : Bool
  /-- The number of the deal that the next tick begins (R37, R38), and of the first deal. -/
  next      : Nat
  first     : Nat
  /-- The close point of the next tick has passed (R47). -/
  closed    : Bool
  /-- Staged writes taken so far: the next one's place in the order of arrival. -/
  writes    : Nat
  /-- Staged writes that take effect at the next tick (R47). -/
  due       : List StagedWrite
  /-- Staged writes that arrived after the next tick's close point, due at the tick after it (R47). -/
  later     : List StagedWrite
  /-- The held (gated) set (R48). -/
  held      : List StagedWrite
  /-- The held set that a submitted amendment has taken with it (R48). -/
  amdHeld   : List StagedWrite
  amdState  : AmdState
  /-- A cancel held while the amendment is in CHECK (R56). -/
  amdCancel : Bool
  /-- The first tick whose close point lay at or after the DEAL_COMMIT_HI arrival (R56). -/
  amdEarly  : Nat
  /-- The records of the accepted amendment, in supervisor RAM (R56). -/
  amdRecs   : List ImageRecord
  /-- The amendment buffer at 0x0000_00F1_0000 (R28): bytes by offset. -/
  amdBuf    : List (Nat × Byte)
  /-- The SCLK has stopped: no further tick occurs (R71). -/
  stopped   : Bool
  /-- Deals whose records carry LATE because an amendment came after its target (R58), newest first. -/
  lateDeals : List Nat
  deriving DecidableEq, Repr

/-- No deal yet, nothing staged, no amendment (R64). -/
def DealState.reset : DealState :=
  { running := false, next := 0, first := 0, closed := false, writes := 0, due := [], later := [], held := [], amdHeld := [],
    amdState := .idle, amdCancel := false, amdEarly := 0, amdRecs := [], amdBuf := [], stopped := false,
    lateDeals := [] }

/-! ### Converters (03_wideband_converters.md) -/

/-- The four trims of a lane (R75), as the fields of CONVi_TRIM_A and CONVi_TRIM_B hold them. -/
structure TrimVals where
  gain   : Nat
  offset : Nat
  skew   : Nat
  bw     : Nat
  deriving DecidableEq, Repr

/-- One calibration change that takes effect at a tick, and that a snapshot of the die holds (R77, R79, R84, R91). -/
structure CalChange where
  /-- (lane, gain, offset, skew, bandwidth) for each lane that changes. -/
  trims    : List (Nat × TrimVals)
  /-- (slot, failed lane) when the ruler takes over a slot (R84). -/
  swap     : Option (Nat × Nat)
  /-- The change is a load of stored trims (R520). -/
  load     : Bool
  deriving DecidableEq, Repr

/-- Where the calibrator goes at the tick that ends a dwell (R76, R86, R87), whatever a snapshot holds: the slot visited next,
the mode, a lane that failed after a swap, and whether a rotation and a recalibration end here. -/
structure CalMove where
  slot     : Nat
  mode     : Nat
  laneFail : Option Nat
  rotation : Bool
  calDone  : Bool
  deriving DecidableEq, Repr

/-- One input's calibrator (R76, R84, R87). -/
structure Calib where
  /-- Deals left of the running dwell (R76); 0 = the dwell ends at the next tick. -/
  dwellLeft : Nat
  /-- Consecutive visits at a trim limit, by slot (R84). -/
  limits    : List (Nat × Nat)
  /-- Those counts as CAL_HOLD found them: what was measured under the hold is discarded when it clears (R80). -/
  kept      : List (Nat × Nat)
  /-- Changes staged for the next tick, or held over a snapshot, oldest first (R77, R91). -/
  staged    : List CalChange
  /-- The dwell that ends at the next tick has been judged: where the calibrator goes then. -/
  move      : Option CalMove
  /-- CAL_HOLD has been cleared; the next dwell begins at the next tick (R80). -/
  restart   : Bool
  /-- A forced recalibration waits for the first tick (R82). -/
  forced    : Bool
  deriving DecidableEq, Repr

/-- A calibrator at reset: dwelling on slot 0, nothing staged. -/
def Calib.reset : Calib :=
  { dwellLeft := 0, limits := [], kept := [], staged := [], move := none, restart := false, forced := false }

/-- The snapshot engine of a converter die (R88 to R91). -/
inductive SnapState where
  | idle
  | waiting
  | filling
  | draining
  deriving DecidableEq, Repr

/-- One converter die's injected-snapshot engine and its store. -/
structure Snapshot where
  phase   : SnapState
  input   : Nat
  /-- The first raw index of the entry that begins the snapshot: the first at least 64 sample periods after GO (R89). -/
  first   : Int
  /-- The device address the entries drain to. -/
  dest    : Nat
  entries : Nat
  /-- The entries taken, oldest first, each as its 32 bytes (R89, R93). -/
  store   : List (List Byte)
  /-- A trim set or swap held over the snapshot waits for its tick (R83, R88). -/
  held    : Bool
  deriving DecidableEq, Repr

/-- The snapshot engine at reset. -/
def Snapshot.reset : Snapshot :=
  { phase := .idle, input := 0, first := 0, dest := 0, entries := 0, store := [], held := false }

/-- A raw tap entry: 16 containers in 32 bytes, and its side tag (R93). -/
structure TapEntry where
  input : Nat
  /-- The entry number e: it holds raw samples 16e to 16e + 15. -/
  index : Int
  data  : List Byte
  tag   : Nat
  deriving DecidableEq, Repr

/-- One input's raw tap queue (R94). -/
structure TapQueue where
  /-- Entries waiting for the link, oldest first. -/
  queue  : List TapEntry
  /-- The next entry delivered marks GAP. -/
  gap    : Bool
  /-- The raw index of the latest tick at which a trim set or swap took effect (R93). -/
  trim   : Option Int
  /-- Entries delivered to the capture writers and not yet packed, oldest first. -/
  given  : List TapEntry
  deriving DecidableEq, Repr

/-- The tap queue at reset. -/
def TapQueue.reset : TapQueue := { queue := [], gap := false, trim := none, given := [] }

/-- The converters' state beyond the CONV registers. -/
structure ConvState where
  /-- Calibrators by input. -/
  calib  : List (Nat × Calib)
  /-- Snapshot engines by converter die. -/
  snap   : List (Nat × Snapshot)
  /-- Raw tap queues by input. -/
  tap    : List (Nat × TapQueue)
  /-- Inputs whose products carry DEGRADED after a lane failure (R86), as a bit mask. -/
  degraded : Nat
  /-- Comparators (2i + j) whose edges are suppressed at the start of the deal (R96), as a bit mask. -/
  settling : Nat
  /-- Inputs whose lane map waits to be written to the calibration store (R84). -/
  saveQ  : List Nat
  deriving DecidableEq, Repr

/-- The converters at reset. -/
def ConvState.reset : ConvState :=
  { calib := [], snap := [], tap := [], degraded := 0, settling := 0, saveQ := [] }

/-! ### Dealers (04_dealer_coarse_bank.md) -/

/-- The 256 coarse samples of one hop, channel 0 first, as words (R117); whether they carry the deal tick's mark (R17), the
channels saturated in them as a bit mask (R115), and the analysis dies that the input's links delivered them to, bit 0 =
ADIE0 (R14, R16). -/
structure CoarseHop where
  j     : Int
  z     : List Word
  tick  : Bool
  sat   : Nat
  dies  : Nat
  deriving DecidableEq, Repr

/-- One input's Dealer. -/
structure Dealer where
  /-- The index of the next coarse sample to be emitted (R105, R38). -/
  j      : Int
  /-- Output is enabled: step 11 of the start has begun (R467). -/
  on     : Bool
  /-- The index counts from a PPS (R38), whether or not samples are emitted yet. -/
  aligned : Bool
  /-- The last 8,192 raw samples, newest first, since converter start (R105, R121). -/
  raw    : List Int
  /-- Channels saturated in the running deal (R115), as a bit mask. -/
  sat    : Nat
  /-- Full-scale samples of the running deal (R68). -/
  ovr    : Nat
  /-- The last 32,768 hops delivered, newest first: what input rings and replay rings hold (R132, R197). -/
  ring   : List CoarseHop
  /-- Saturation masks of recent deals, newest first, as the replay ring keeps them (R115). -/
  flags  : List (Nat × Nat)
  /-- The prototype coefficients loaded from the image, or none for the vendor default (R110). -/
  coef   : Option (List Int)
  deriving DecidableEq, Repr

/-- A Dealer at reset. -/
def Dealer.reset : Dealer :=
  { j := 0, on := false, aligned := false, raw := [], sat := 0, ovr := 0, ring := [], flags := [], coef := none }

/-! ### Engines (05_engine_datapath.md, 06_control_store_microcode.md) -/

/-- A complex integer, one lane's value. -/
structure Cx where
  re : Int
  im : Int
  deriving DecidableEq, Repr

/-- Zero. -/
def Cx.zero : Cx := { re := 0, im := 0 }

/-- Four lanes, lane 0 first (R127). -/
structure Quad where
  l0 : Cx
  l1 : Cx
  l2 : Cx
  l3 : Cx
  deriving DecidableEq, Repr

/-- All lanes zero. -/
def Quad.zero : Quad := { l0 := .zero, l1 := .zero, l2 := .zero, l3 := .zero }

/-- An address generator (R127, R155, R156). -/
structure AddrGen where
  base : Nat
  off  : Nat
  step : Int
  lstr : Int
  mod  : Nat
  br   : Nat
  deriving DecidableEq, Repr

/-- A generator at routine entry: all 0. -/
def AddrGen.zero : AddrGen := { base := 0, off := 0, step := 0, lstr := 0, mod := 0, br := 0 }

/-- One level of the loop stack (R157). -/
structure Loop where
  start : Nat
  stop  : Nat
  left  : Nat
  deriving DecidableEq, Repr

/-- A task descriptor (R171). -/
structure Descriptor where
  entry  : Nat
  isDeal : Bool
  prog   : Nat
  first  : Bool
  last   : Bool
  face   : Nat
  frame  : Nat
  deal   : Nat
  inBase : Int
  inLen  : Nat
  xs     : Nat
  carry  : Nat
  param  : List Nat
  deriving DecidableEq, Repr

/-- What stands in a result FIFO: a 64-bit entry with its OVF mark, or the opening or closing of a record (R174, R176). A
record open when its hand lost work is marked (R193). -/
inductive FifoItem where
  | opens (prog : Nat) (loc : Nat) (deal : Nat) (frame : Nat) (degr : Bool)
  | entry (data : Nat) (fmt : Nat) (ovf : Bool)
  | closes
  deriving DecidableEq, Repr

/-- A record on a hand's result channel (R174, R176): who made it, the program and its local product number, the deal and
the frame of the task that opened it, its payload's 64-bit entries in order, whether an entry carried the OVF tag, and
whether its hand lost work before it was delivered (R193). -/
structure ResultRecord where
  logical : Nat
  prog    : Nat
  loc     : Nat
  deal    : Nat
  frame   : Nat
  /-- The payload's entries, each with the FMT code it was pushed in. -/
  words   : List (Nat × Nat)
  ovf     : Bool
  degr    : Bool
  deriving DecidableEq, Repr

/-- One working word of the accumulator store (R134, R135): whether a plain store wrote it since the last commit, and whether
it was built from a word that carries the OVF tag. -/
structure WorkWord where
  value : Nat
  plain : Bool
  taint : Bool
  deriving DecidableEq, Repr

/-- A PUSH or a wait that stalls the engine (R139, R175). -/
inductive Stall where
  | xwait (sigma : Nat) (v : Nat)
  | push
  deriving DecidableEq, Repr

/-- The state a microword reads and writes (R127, R141), with what the routine has not yet committed. -/
structure EngCore where
  v      : List (Nat × Quad)
  /-- The A history H1 to H8, H1 first (R170). -/
  hist   : List Quad
  sc     : Int
  bexp   : Nat
  expacc : Int
  ag     : List (Nat × AddrGen)
  tw     : Nat
  twInc  : Nat
  idxr   : Nat
  hb     : Int
  hm     : Nat
  hl     : Nat
  loops  : List Loop
  ovf    : Bool
  xpub   : Nat
  carry  : Nat
  pc     : Nat
  cc     : Nat
  /-- Data SRAM banks 2 to 5, bytes by program address (R129). -/
  sram   : List (Nat × Byte)
  /-- The working layer of the accumulator store (R134), by word index. -/
  work   : List (Nat × Option WorkWord)
  /-- Working FIFO items, oldest first (R174). -/
  fifoW  : List FifoItem
  /-- The open record: its product and the entries it holds (R176). -/
  orec   : Option (Nat × Nat)
  /-- The operations of the fetched microword that have not issued yet, in the order in which they issue (R167). -/
  todo   : List SlotOp
  /-- What the microword has used so far: the memory words reached (R142), a trick-window load, and sticky status bits to set. -/
  words  : List Nat
  window : Bool
  sticky : Nat
  /-- Logical engines read through the trick window or awaited in the running routine (R179). -/
  reads  : List Nat
  /-- What is built from an accumulator word that carries the OVF tag (R135): V registers, the A history, and 2-byte
  granules of data SRAM. -/
  vTag   : List Nat
  hTag   : List Bool
  memTag : List Nat
  /-- For a member of a gang, the blocks of the frame that its bank 5 stands for, by member, as C16 samples (R228); 16 more for
  what a stage has read and not yet written back. The model's own: the spec gives no layout of bank 5 between stages. -/
  gang   : List (Nat × List Nat)
  deriving DecidableEq, Repr

/-- An engine's core before any routine has run. -/
def EngCore.reset : EngCore :=
  { v := [], hist := List.replicate 8 Quad.zero, sc := 0, bexp := 47, expacc := 0, ag := [], tw := 0, twInc := 0,
    idxr := 0, hb := 0, hm := 0, hl := 0, loops := [], ovf := false, xpub := 0, carry := 0, pc := 0, cc := 0,
    sram := [], work := [], fifoW := [], orec := none, todo := [], words := [], window := false, sticky := 0, reads := [],
    vTag := [], hTag := List.replicate 8 false, memTag := [], gang := [] }

/-- What was loaded into a preload region of an engine: the region, the program address, the length in bytes, and the record
that it came from (R137, R241). -/
structure Load where
  region : Nat
  base   : Nat
  len    : Nat
  src    : Nat
  deriving DecidableEq, Repr

/-- One physical engine. -/
structure Engine where
  /-- The state before the microword being issued, which every slot reads (R141). -/
  pre    : EngCore
  /-- The state its slots write. -/
  cur    : EngCore
  /-- The committed layer of the accumulator store and its OVF tags (R134, R135). -/
  acc    : List (Nat × Nat)
  tag    : List (Nat × Bool)
  /-- XCNT at the start of the running task; XCNT itself is ENGp_XCNT (R139). -/
  xstart : Nat
  task   : Option Descriptor
  stall  : Option Stall
  /-- The routine was abandoned and waits for ROUTINE_RESTART (R179). -/
  halted : Bool
  /-- The logical engine whose substitute the restart waits for, after a hand interrupt (R179). -/
  await  : Option Nat
  /-- Committed FIFO items, oldest first, and the record open state at the last commit (R174, R177). -/
  fifo   : List FifoItem
  openC  : Option (Nat × Nat)
  /-- The record being drained to the result channel. -/
  drain  : Option ResultRecord
  /-- Addresses that have had an uncorrectable error since reset (R199). -/
  eccAt  : List Nat
  /-- Transient restarts of the running task, and the coarse times of those of the last second (R199). -/
  consec : Nat
  times  : List Int
  /-- What was loaded into the preload regions, newest first (R137). -/
  loads  : List Load
  deriving DecidableEq, Repr

/-- An engine at reset. -/
def Engine.reset : Engine :=
  { pre := .reset, cur := .reset, acc := [], tag := [], xstart := 0, task := none, stall := none, halted := false, await := none,
    fifo := [], openC := none, drain := none, eccAt := [], consec := 0, times := [], loads := [] }

/-! ### The image's programs, products and hand tree (17_start_reset_life_cycle.md R484 to R486) -/

/-- A PROGRAM record (R484). -/
structure Program where
  prog       : Nat
  customer   : Bool
  frameEntry : Nat
  dealEntry  : Nat
  hop        : Nat
  wlen       : Nat
  xpubF      : Nat
  xpubD      : Nat
  woff       : Nat
  f          : Nat
  p          : Nat
  param      : List Nat
  deriving DecidableEq, Repr

/-- An entry of the PRODUCT record (R485). -/
structure Product where
  number  : Nat
  prog    : Nat
  loc     : Nat
  rtype   : Nat
  stream  : Bool
  ring    : Bool
  render  : Bool
  merge   : Bool
  classW  : Bool
  port    : Nat
  strm    : Nat
  kind    : Nat
  deriving DecidableEq, Repr

/-- A node of the hand tree (R187, R486). -/
structure HandNode where
  kind    : Nat
  parent  : Nat
  place   : Nat
  progs   : List Nat
  cbase   : Nat
  clen    : Nat
  cprod   : List Nat
  deriving DecidableEq, Repr

/-- The configuration taken from the boot image (R475 to R488). -/
structure ImageCfg where
  programs : List Program
  products : List Product
  /-- The hand tree, node 0 first; empty = the default tree of R188 with no programs. -/
  nodes    : List HandNode
  /-- Regions: (USE, base, size) (R488). -/
  regions  : List (Nat × Nat × Nat)
  epochWaitMs : Nat
  ethWaitMs   : Nat
  /-- The EPOCH record's second (R482). -/
  epochSec    : Option Nat
  /-- The programs' recounts F and P (R43), by program number. -/
  recount     : List (Nat × Nat × Nat)
  /-- The data of preload records and mask records, by record: what a repair restores (R137, R241). -/
  blocks      : List (Nat × List Byte)
  deriving DecidableEq, Repr

/-- Nothing loaded. -/
def ImageCfg.reset : ImageCfg :=
  { programs := [], products := [], nodes := [], regions := [], epochWaitMs := 0, ethWaitMs := 0, epochSec := none,
    recount := [], blocks := [] }

/-! ### Hands, jokers and recovery (07_hands_jokers_recovery.md) -/

/-- One entry of the event log (R210). -/
structure LogEntry where
  seq    : Nat
  code   : Nat
  sev    : Nat
  merged : Nat
  deal   : Nat
  arg    : Nat
  deriving DecidableEq, Repr

/-- The mirror control record of a logical engine (R196): descriptor, XCNT, XCNT at the task's start, and the task ring's
position. -/
structure MirrorCtl where
  task   : Option Descriptor
  xcnt   : Nat
  xstart : Nat
  ring   : Nat
  deriving DecidableEq, Repr

/-- The control record before a task has started. -/
def MirrorCtl.reset : MirrorCtl := { task := none, xcnt := 0, xstart := 0, ring := 0 }

/-- A leaf's task ring and progress (R172, R194), by logical engine. -/
structure Leaf where
  /-- Ready descriptors in order of readiness, and the ring's position: the tasks taken from it since reset. -/
  ring   : List Descriptor
  taken  : Nat
  /-- (program, deal, frame tasks that have ended or been dropped). -/
  ended  : List (Nat × Nat × Nat)
  /-- DEAL tasks that have become ready: (program, deal). -/
  dealt  : List (Nat × Nat)
  /-- DEAL tasks that have ended or been dropped: (program, deal) (R218). -/
  dealEnd : List (Nat × Nat)
  /-- Deals whose records carry DEGRADED (R193); `always` until a full reset (R207, R201). -/
  degr   : List Nat
  always : Bool
  /-- Deals whose records carry LATE, and deals the leaf has abandoned (R41). -/
  late   : List Nat
  gone   : List Nat
  /-- The mask faces that descriptors name: (from deal, face), newest first (R182). -/
  faces  : List (Nat × Nat)
  deriving DecidableEq, Repr

/-- A leaf at reset. -/
def Leaf.reset : Leaf :=
  { ring := [], taken := 0, ended := [], dealt := [], dealEnd := [], degr := [], always := false, late := [], gone := [],
    faces := [] }

/-- A takeover in progress (R200, R203): the logical engine, the engine that stops, the engine that takes up the work,
the cause of R199 (0 when a tested engine takes its own work back). -/
structure Takeover where
  logical : Nat
  failed : Nat
  taker  : Nat
  cause  : Nat
  deriving DecidableEq, Repr

/-- One combination of a GROUP's members (R192): the node, the product and the deal; the members (logical engines) that
have settled, the records waiting for their turn, the formats of the first record added, and whether the combined
record carries DEGRADED. -/
structure Combine where
  node    : Nat
  product : Nat
  deal    : Nat
  settled : List Nat
  waiting : List ResultRecord
  first   : Option (List Nat)
  degr    : Bool
  deriving DecidableEq, Repr

/-- The HAND block's own state. -/
structure HandState where
  /-- Engines by physical index. -/
  eng      : List (Nat × Engine)
  /-- Leaves by logical engine. -/
  leaf     : List (Nat × Leaf)
  /-- Accumulator mirrors: 64-bit words and OVF tags by logical engine × 8,192 + word (R196). -/
  mirror   : List (Nat × Nat)
  mirTag   : List (Nat × Bool)
  mirCtl   : List (Nat × MirrorCtl)
  /-- Control store words (the same in all 64 stores), by word address (R161, R162). -/
  cstore   : List (Nat × Nat)
  /-- Copies that no longer hold the broadcast word: by cluster × 16,384 + word, what the copy holds (R166). -/
  copies   : List (Nat × Option Nat)
  /-- Shared resources and addresses with an uncorrectable error since reset: (cluster, address) (R198). -/
  shared   : List (Nat × Nat)
  /-- Clusters whose coarse channels' products carry DEGRADED (R209, R163): from the next tick, and now. -/
  cluNext  : List Nat
  cluDegr  : List Nat
  takeover : List Takeover
  /-- In-field stand-ins in progress: (engine under test, joker) (R203, R509). -/
  standin  : List (Nat × Nat)
  combine  : List Combine
  /-- Physical engines that wait to be recorded in the joker map of the calibration store (R202). -/
  jmapQ    : List Nat
  /-- Dropped tasks: (logical engine, program, deal, is a DEAL task) (R193). -/
  lost     : List (Nat × Nat × Nat × Bool)
  /-- Records that have left their hands and wait for the pot, oldest first. -/
  done     : List ResultRecord
  /-- The 256 slots of the event log, in slot order (R210). -/
  log      : List LogEntry
  deriving DecidableEq, Repr

/-- Hands at reset. -/
def HandState.reset : HandState :=
  { eng := [], leaf := [], mirror := [], mirTag := [], mirCtl := [], cstore := [], copies := [], shared := [],
    cluNext := [], cluDegr := [], takeover := [], standin := [], combine := [], jmapQ := [], lost := [], done := [], log := [] }

/-! ### Host port (15_host_port_dma.md) -/

/-- The PCIe endpoint's own state (R415, R418, R425, R426). -/
structure HostState where
  linkUp   : Bool
  msixEn   : Bool
  funcMask : Bool
  /-- The MSI-X table, words by offset from 0x4000. -/
  table    : List (Nat × Word)
  /-- The pending-bit array. -/
  pba      : Nat
  deriving DecidableEq, Repr

/-- The endpoint at reset. -/
def HostState.reset : HostState := { linkUp := false, msixEn := false, funcMask := false, table := [], pba := 0 }

/-! ### Timekeeping (11_timekeeping_tdc.md) -/

/-- An epoch in force from a deal on (R321, R323, R324, R326): X0 in 1/65,536 sample, SEC_AT, whether an epoch is set, and
the change of timestamps that the deal's TIME_STEP reports. -/
structure Epoch where
  since : Nat
  x0    : Int
  secAt : Int
  isSet : Bool
  step  : Option Int
  deriving DecidableEq, Repr

/-- No epoch (R321). -/
def Epoch.none : Epoch := { since := 0, x0 := 0, secAt := 0, isSet := false, step := Option.none }

/-- A TDC channel's acceptance window (R314): the setting in effect and the raw index from which it holds, the anchors
whose windows accepted an edge and have not closed, newest first, the last anchor whose window closed, and the start edge of a CHANNEL window (in units of
the event time). -/
structure ChanWin where
  cfg    : Nat × Nat × Nat
  since  : Int
  hits   : List Int
  closed : Option Int
  start  : Option Int
  deriving DecidableEq, Repr

/-- A channel's window at reset. -/
def ChanWin.reset : ChanWin := { cfg := (0, 0, 0), since := 0, hits := [], closed := none, start := none }

/-- A die's grid tracker (R312): the last 64 markers, newest first, as raw index and channel time, or nothing where the marker
was left out of the fit; consecutive markers left out, consecutive markers that agree, and whether results carry REF_LOST for it. -/
structure GridFit where
  marks : List (Option (Int × Nat))
  out   : Nat
  agree : Nat
  bad   : Bool
  deriving DecidableEq, Repr

/-- A grid tracker at reset. -/
def GridFit.reset : GridFit := { marks := [], out := 0, agree := 0, bad := false }

/-- The TIME block's own state. -/
structure TimeState where
  /-- Epochs, newest first; none at all means no epoch has ever been set. -/
  epochs   : List Epoch
  /-- Deals whose timestamps carry REF_LOST, as (first, last) spans, newest first; no last while one is open (R317). -/
  refSpans : List (Nat × Option Nat)
  /-- The converters have started: the sample grid exists. -/
  grid     : Bool
  /-- The epoch value that the first PPS accepted after converter start takes (R323), and the edges counted since it
  was written, with the time of the last one in ns. -/
  setSec   : Option Nat
  counted  : Nat
  lastEdge : Option Nat
  /-- Step 7 has begun and the converters have not started: PPS edges are counted (R323). -/
  counting : Bool
  /-- The epoch PPS has been taken. -/
  taken    : Bool
  /-- ALIGN = 1 and the device waits for the first PPS after converter start (R38). -/
  waitAlign : Bool
  /-- An epoch waiting for the next tick, or for the tick after it (R323): X0 and SEC_AT. -/
  epochDue : Option (Int × Int)
  epochLater : Option (Int × Int)
  /-- A step of R326 waiting for the next tick, or for the tick after it. -/
  stepDue  : Option Int
  stepLater : Option Int
  /-- The latest accepted PPS: its time (event units) and its position in 1/65,536 sample. -/
  lastPps  : Option (Int × Int)
  /-- The position of the latest accepted PPS at or before the close point of the coming tick (R324). -/
  closePps : Option Int
  /-- The latest error e of R325. -/
  lastErr  : Option Int
  /-- Consecutive windows of channel 0 without an edge, and consecutive seconds out of tolerance. -/
  missRun  : Nat
  driftRun : Nat
  /-- A PPS has been accepted since the last second boundary. -/
  inSecond : Bool
  /-- The position in 1/65,536 sample of the last second boundary that has been judged (R325). -/
  second   : Int
  /-- Windows by channel. -/
  chan     : List (Nat × ChanWin)
  /-- Grid trackers by converter die. -/
  fit      : List (Nat × GridFit)
  /-- Linearisation tables by channel (R311). -/
  tables   : List (Nat × List Nat)
  /-- Failed channels that no spare replaces (R309), as a bit mask. -/
  failed   : Nat
  /-- Pins whose edges are suppressed at the start of the deal (R315), as a bit mask. -/
  settling : Nat
  deriving DecidableEq, Repr

/-- The TIME block at reset. -/
def TimeState.reset : TimeState :=
  { epochs := [], refSpans := [], grid := false, setSec := none, counted := 0, lastEdge := none, counting := false,
    taken := false, waitAlign := false, epochDue := none, epochLater := none, stepDue := none, stepLater := none, lastPps := none, closePps := none,
    lastErr := none, missRun := 0, driftRun := 0, inSecond := false, second := 0, chan := [], fit := [], tables := [], failed := 0,
    settling := 0 }

/-! ### Triggers (10_triggers_capture.md) -/

/-- One condition of a slot as its registers hold it (R276, R277). -/
structure CondCfg where
  ty    : Nat
  src   : Nat
  slope : Nat
  cmp   : Nat
  t1    : Nat
  t2    : Nat
  deriving DecidableEq, Repr

/-- A condition that is off. -/
def CondCfg.off : CondCfg := { ty := 0, src := 0, slope := 0, cmp := 0, t1 := 0, t2 := 0 }

/-- A slot's settings (R284, R285). -/
structure SlotCfg where
  en   : Bool
  mode : Nat
  holdMode : Nat
  win  : Nat
  hold : Nat
  a    : CondCfg
  b    : CondCfg
  deriving DecidableEq, Repr

/-- A slot that is off. -/
def SlotCfg.off : SlotCfg :=
  { en := false, mode := 0, holdMode := 0, win := 0, hold := 0, a := .off, b := .off }

/-- What a condition remembers (R278 to R282): an open pulse, runt or transit; TIMEOUT's t_last while it can fire; LEVEL's
state. Times are in units of the event time. -/
structure CondRun where
  opened : Option (Int × Bool)
  last : Option (Int × Bool)
  high : Option Bool
  deriving DecidableEq, Repr

/-- Nothing remembered. -/
def CondRun.reset : CondRun := { opened := none, last := none, high := none }

/-- A condition event (R276): its time, whether it carries REF_LOST, and the condition that made it. -/
structure TrigEvent where
  time : Int
  ref  : Bool
  isB  : Bool
  ty   : Nat
  src  : Nat
  deriving DecidableEq, Repr

/-- What a slot remembers under one setting (R284, R285): conditions, pending events, the fire that hold-off counts from,
and the combined events still to be held. -/
structure SlotRun where
  a    : CondRun
  b    : CondRun
  pa   : Option TrigEvent
  pb   : Option TrigEvent
  held : Option Int
  left : Nat
  deriving DecidableEq, Repr

/-- Nothing remembered. -/
def SlotRun.reset : SlotRun := { a := .reset, b := .reset, pa := none, pb := none, held := none, left := 0 }

/-- A trigger slot: its settings now, those of the deals before, and the time from which the new ones hold (R287). -/
structure Slot where
  cfg   : SlotCfg
  run   : SlotRun
  cfg0  : SlotCfg
  run0  : SlotRun
  since : Int
  /-- The time of the last fire. -/
  fired : Option Int
  /-- Whether the sources of A and B are off (R277), as the last tick that changed it found and as the ticks before did, with
  that tick's time. -/
  off   : Bool × Bool
  off0  : Bool × Bool
  offAt : Int
  deriving DecidableEq, Repr

/-- A slot at reset. -/
def Slot.reset : Slot :=
  { cfg := .off, run := .reset, cfg0 := .off, run0 := .reset, since := 0, fired := none, off := (false, false),
    off0 := (false, false), offAt := 0 }

/-- A TOD generator: the instant it waits for (second, index) and its period (R305). -/
structure TodGen where
  cfg     : Nat × Nat × Nat
  waiting : Option Nat
  deriving DecidableEq, Repr

/-- A generator at reset. -/
def TodGen.reset : TodGen := { cfg := (0, 0, 0), waiting := none }

/-- The settings that no one slot owns: the external path delays (R273) and the outputs' registers TRG_OUTo_CFG and
TRG_OUTo_DELAY (R288). -/
structure TrigCfg where
  ext   : List Int
  out   : List (Nat × Nat)
  deriving DecidableEq, Repr

/-- Those settings at reset. -/
def TrigCfg.reset : TrigCfg := { ext := [0, 0], out := [(0x10, 0), (0x10, 0)] }

/-- The trigger engine's own state. -/
structure TrigState where
  slots : List (Nat × Slot)
  tod   : List (Nat × TodGen)
  /-- The shared settings now, those of the deals before, and the time from which the new ones hold (R287). -/
  cfg   : TrigCfg
  cfg0  : TrigCfg
  since : Int
  /-- Fixed-delay assertions that wait for their core-clock edges, by output (R288): edge instants, oldest first. -/
  outQ  : List (Nat × List Int)
  /-- The instants at which asserted outputs release (R288). -/
  pulse : List (Nat × Option Int)
  deriving DecidableEq, Repr

/-- The trigger engine at reset. -/
def TrigState.reset : TrigState :=
  { slots := [], tod := [], cfg := .reset, cfg0 := .reset, since := 0, outQ := [], pulse := [] }

/-! ### Capture (10_triggers_capture.md) -/

/-- A trigger decision on its way to a capture unit (R286). -/
structure Decision where
  slot : Nat
  ev   : TrigEvent
  deriving DecidableEq, Repr

/-- A written row of the current segment (R291, R292): its first stream index, the slot of its stream 0, its valid samples, and
whether a block of it carries DEGRADED or OVR. -/
structure CapRow where
  first : Int
  slot  : Nat
  count : Nat
  degr  : Bool
  ovr   : Bool
  deriving DecidableEq, Repr

/-- A capture unit's source as it was at the arm (R289, R290). -/
structure CapSource where
  ty     : Nat
  pack   : Bool
  inputs : List Nat
  input  : Nat
  chan0  : Nat
  nch    : Nat
  chain  : Nat
  wide8  : Bool
  deriving DecidableEq, Repr

/-- No source. -/
def CapSource.none : CapSource :=
  { ty := 0, pack := false, inputs := [], input := 0, chan0 := 0, nch := 0, chain := 0, wide8 := false }

/-- A capture unit's current arm and segment (R295 to R301). -/
structure CapUnit where
  src    : CapSource
  /-- The first stream index of the segment, and of the row being filled. -/
  start  : Int
  row    : Int
  /-- The slot of the row being filled. -/
  slot   : Nat
  /-- Written rows of the segment, oldest first, at most LEN / S. -/
  rows   : List CapRow
  /-- Samples per stream lost since the last written row, in the segment, and the lost index ranges. -/
  gapNow : Nat
  gapSeg : Nat
  gaps   : List (Int × Int)
  /-- The accepted trigger: decision, x_t, latency in ns; the first index of the stop row; PRE_SHORT. -/
  trig   : Option (Decision × Int × Nat)
  stop   : Int
  short  : Bool
  /-- The stop row has been taken; the descriptor waits. -/
  ended  : Bool
  /-- Decisions on their way. -/
  queue  : List Decision
  /-- Blocks in the staging buffer that memory has not acknowledged, of 512 (R301). -/
  staged : Nat
  deriving DecidableEq, Repr

/-- An idle unit. -/
def CapUnit.reset : CapUnit :=
  { src := .none, start := 0, row := 0, slot := 0, rows := [], gapNow := 0, gapSeg := 0, gaps := [], trig := none,
    stop := 0, short := false, ended := false, queue := [], staged := 0 }

/-- The capture writers' own state. -/
structure CapState where
  units : List (Nat × CapUnit)
  /-- A memory subchannel has been retired since reset: blocks carry DEGRADED (R302). -/
  retired : Bool
  deriving DecidableEq, Repr

/-- The capture writers at reset. -/
def CapState.reset : CapState := { units := [], retired := false }

/-! ### Zoom chains (09_zoom_chains.md) -/

/-- A chain's settings in effect (R252 to R265). -/
structure ZoomCfg where
  en     : Bool
  pmode  : Bool
  dcEn   : Bool
  freeze : Bool
  input  : Nat
  wide8  : Bool
  dcK    : Nat
  m      : Nat
  df     : Nat
  oshift : Nat
  conj   : Bool
  freq   : Nat
  phase  : Nat
  taps   : Nat
  gdMode : Bool
  gd     : Nat
  coef   : List Nat
  deriving DecidableEq, Repr

/-- A chain that is off, at its registers' reset values. -/
def ZoomCfg.off : ZoomCfg :=
  { en := false, pmode := false, dcEn := false, freeze := false, input := 0, wide8 := false, dcK := 16, m := 0, df := 1,
    oshift := 2, conj := false, freq := 0, phase := 0, taps := 1, gdMode := false, gd := 0, 
    coef := 0x1FFFF :: List.replicate 383 0 }

/-- An output sample: its index u, its word as requantised, and its OVF mark (R255, R260). -/
structure ZoomSample where
  u    : Int
  word : Nat
  ovf  : Bool
  degr : Bool
  deriving DecidableEq, Repr

/-- A segment (R263): the deal, its first index, its samples in order, TRUNC, DEGRADED, the outputs skipped before it
(R343), and the chain's R, G256 and width when it was formed. -/
structure ZoomSeg where
  deal  : Nat
  u     : Int
  data  : List ZoomSample
  trunc : Bool
  degr  : Bool
  skip  : Nat
  r     : Nat
  g256  : Nat
  wide8 : Bool
  input : Nat
  deriving DecidableEq, Repr

/-- A zoom chain. -/
structure ZoomChain where
  cfg    : ZoomCfg
  /-- In PMODE 1, the phase at a raw index (R256). -/
  theta  : Nat
  thetaAt : Int
  /-- Each filter stage's inputs, newest first: F1, F2, H1 to Hm, FIR, with the OVF mark of each. -/
  hist   : List (List (Cx × Bool))
  /-- The DC estimate E (R259). -/
  est    : Cx
  /-- The first output to be delivered after the last restart (R266), and the next output (R270). -/
  uFirst : Int
  uNext  : Int
  /-- The open segment's samples, oldest first, the deal they belong to, and the outputs skipped before them. -/
  opened : List ZoomSample
  odeal  : Nat
  skip   : Nat
  /-- Closed segments not yet handed on. -/
  ready  : List ZoomSeg
  /-- The last 8,192 delivered samples, newest first, for the capture units. -/
  given  : List ZoomSample
  /-- The power block in progress (R269): its L, its first output, the sum so far; and values not yet delivered: the value
  and its timestamp in 1/65,536 sample. -/
  power  : Option (Nat × Int × Nat)
  values : List (Nat × Int)
  deriving DecidableEq, Repr

/-- A chain at reset. -/
def ZoomChain.reset : ZoomChain :=
  { cfg := .off, theta := 0, thetaAt := 0, hist := [], est := .zero, uFirst := 0, uNext := 0, opened := [], odeal := 0,
    skip := 0, ready := [], given := [], power := none, values := [] }

/-- The zoom chains' own state. -/
structure ZoomState where
  chains : List (Nat × ZoomChain)
  deriving DecidableEq, Repr

/-- The zoom chains at reset. -/
def ZoomState.reset : ZoomState := { chains := [] }

/-! ### Streaming (14_streaming_kitty.md) -/

/-- A stream's destination and enable as an amendment may change them (R386). -/
structure Dest where
  en   : Bool
  mac  : Nat
  ip   : Nat
  dst  : Nat
  src  : Nat
  deriving DecidableEq, Repr

/-- No destination. -/
def Dest.none : Dest := { en := false, mac := 0, ip := 0, dst := 0, src := 0 }

/-- Drops not yet reported (R394). -/
structure GapAcc where
  cause   : Nat
  records : Nat
  bytes   : Nat
  first   : Nat
  last    : Nat
  rseq    : Nat
  deriving DecidableEq, Repr

/-- A record or VDIF frame in a stream's queue (R400): its bytes in the egress store, or its place and length in spill;
its DEAL, RSEQ, the destination it keeps, the bytes already sent; whether it is a VDIF frame; of a GAP record, the stream whose drops it reports, and
those; and for a KITTY record, its packet and whether that goes on after it. -/
structure QRec where
  bytes : List Byte
  spill : Option Nat
  size  : Nat
  deal  : Nat
  rseq  : Nat
  dest  : Dest
  sent  : Nat
  vdif  : Bool
  gap   : Option (Nat × GapAcc)
  kpkt  : Option (Nat × Bool)
  deriving DecidableEq, Repr

/-- A sample on its way into a VDIF frame (R395 to R397): its second, frame and position, its code, whether it makes the
frame Invalid, and its deal and epoch. -/
structure VdifIn where
  sec     : Int
  frame   : Nat
  pos     : Nat
  code    : Nat
  invalid : Bool
  deal    : Nat
  epoch   : Nat
  deriving DecidableEq, Repr

/-- A raw block under construction (R390): its deal, first raw index, and samples in order, with DEGRADED, and the
samples lost before it. -/
structure RawAcc where
  deal  : Nat
  first : Int
  data  : List Int
  degr  : Bool
  lost  : Nat
  deriving DecidableEq, Repr

/-- A stream. -/
structure Stream where
  queue   : List QRec
  /-- Records offered, packets sent, records sent, records dropped, bytes dropped (R385, R393). -/
  rseq    : Nat
  pseq    : Nat
  sent    : Nat
  dropped : Nat
  lostB   : Nat
  /-- The token bucket, in 1/1,000 bit (R398). -/
  tokens  : Nat
  gap     : Option GapAcc
  /-- Samples that wait for their VDIF frame, and the last frame that left; for a raw stream, the last raw index taken. -/
  vdif    : List VdifIn
  gone    : Option (Int × Nat)
  raw     : Option RawAcc
  /-- Destinations by the deal from which they hold, newest first (R386). -/
  dests   : List (Nat × Dest)
  deriving DecidableEq, Repr

/-- A stream at reset. -/
def Stream.reset : Stream :=
  { queue := [], rseq := 0, pseq := 0, sent := 0, dropped := 0, lostB := 0, tokens := 0, gap := none, vdif := [],
    gone := none, raw := none, dests := [] }

/-- The ETH block's own state. -/
structure EthState where
  /-- Streams by port × 64 + stream. -/
  streams : List (Nat × Stream)
  /-- Records in a port's spill buffer, in the order written: port, stream, offset, bytes (R400). -/
  spill   : List (Nat × Nat × Nat × Nat)
  /-- The offset at which the next spilled record goes, by port. -/
  spillAt : List (Nat × Nat)
  /-- The stream served last on a link, by 4 × port + link (R398). -/
  served  : List (Nat × Nat)
  /-- The deal after the last one at which a STAT record was sent, by port (R393). -/
  statAt  : List (Nat × Nat)
  deriving DecidableEq, Repr

/-- The ETH block at reset. -/
def EthState.reset : EthState := { streams := [], spill := [], spillAt := [], served := [], statAt := [] }

/-- An entry of the kitty queue (R405): 32 bytes, tag, packet number. -/
structure KitEntry where
  data : List Byte
  tag  : Nat
  pkt  : Nat
  deriving DecidableEq, Repr

/-- The kitty port's own state. -/
structure KitState where
  /-- Entries in the queue, oldest first. -/
  queue  : List KitEntry
  /-- The open packet's number, the words of the entry under construction in order, and the raw index and deal of each
  packet's first word not yet taken by the consumer. -/
  pkt    : Option Nat
  words  : List Nat
  starts : List (Nat × Int × Nat)
  /-- The rest of the open packet is discarded after an overflow, with the words discarded in it; a CUT entry waits for a
  slot (R408). -/
  spoiled : Bool
  lost   : Nat
  held   : Option KitEntry
  /-- The packet number being discarded by DROP, and the packet of the last entry popped if that entry was DATA (R410). -/
  drop   : Option Nat
  last   : Option Nat
  /-- Entries of the KITTY record under construction, and whether it begins its packet (R392). -/
  acc    : List KitEntry
  accFirst : Bool
  deriving DecidableEq, Repr

/-- The kitty port at reset. -/
def KitState.reset : KitState :=
  { queue := [], pkt := none, words := [], starts := [], spoiled := false, lost := 0, held := none, drop := none,
    last := none, acc := [], accFirst := true }

/-! ### Capture memory (13_capture_memory.md) -/

/-- A 64-byte request (R356): the SDRAM offset of its burst, the bytes of a write, its class in the order of R358 (8 =
background), and what the check bits will show: 0 clean, 1 corrected, 2 uncorrectable. -/
structure MemReq where
  off   : Nat
  write : Option (List Byte)
  cls   : Nat
  ecc   : Nat
  deriving DecidableEq, Repr

/-- A retraining in progress (R365): the lane and its windows so far. -/
structure Retrain where
  lane    : Nat
  windows : Nat
  deriving DecidableEq, Repr

/-- A memory subchannel. -/
structure SubState where
  queue   : List MemReq
  /-- Requests that found the queue full (R356). -/
  wait    : List MemReq
  /-- Refreshes owed, by 4 × rank + bank address (R361). -/
  debt    : List (Nat × Nat)
  /-- The local granule that patrol scrub reads next, and the refresh intervals since it last read one (R59, R370). -/
  scrub   : Nat
  since   : Nat
  retrain : Option Retrain
  /-- A retraining is wanted and has not begun. -/
  wanted  : Bool
  /-- Coarse times of the corrected errors of the last hour. -/
  ceTimes : List Int
  /-- The states of the last second, newest first: the coarse time at which each was entered (MEMCs_PD, R376). -/
  hist    : List (Int × Nat)
  deriving DecidableEq, Repr

/-- A subchannel at reset. -/
def SubState.reset : SubState :=
  { queue := [], wait := [], debt := [], scrub := 0, since := 0, retrain := none, wanted := false, ceTimes := [], hist := [] }

/-- A re-striping (R366): the subchannel, and the capacity before and after it in granules. -/
structure Restripe where
  sub  : Nat
  old  : Nat
  new  : Nat
  deriving DecidableEq, Repr

/-- The memory controllers' own state. -/
structure MemState where
  subs     : List (Nat × SubState)
  /-- The live subchannels at start in striping order (R354), the bytes of one subchannel, ranks, and 8 KiB rows. -/
  stripe   : List Nat
  csub     : Nat
  ranks    : Nat
  row8     : Bool
  /-- Re-stripings so far, newest first. -/
  retired  : List Restripe
  /-- Subchannels that wait for their re-striping tick, and those whose cause came after its close point. -/
  due      : List Nat
  later    : List Nat
  /-- Granules (subchannel, local granule) with an uncorrectable error since start (R360). -/
  ueSeen   : List (Nat × Nat)
  /-- DIMM channels above 85 °C (R372), as a bit mask. -/
  hot      : Nat
  /-- DIMM channels whose training tables are to be written to the calibration store. -/
  store    : List Nat
  /-- DIMM channels where a retraining has changed a delay since their table was last due (R517). -/
  moved    : List Nat
  /-- Every subchannel is parked for a relock (R342). -/
  parked   : Bool
  /-- The temperature limits of the DIMMs' SPDs in °C, by channel (R362). -/
  limits   : List (Nat × Int)
  /-- The coarse time from which the next pass of the patrol scrub may begin (R370). -/
  passAt   : Option Int
  deriving DecidableEq, Repr

/-- The memory controllers at reset. -/
def MemState.reset : MemState :=
  { subs := [], stripe := [], csub := 0, ranks := 1, row8 := false, retired := [], due := [], later := [], ueSeen := [],
    hot := 0, store := [], moved := [], parked := false, limits := [], passAt := none }

/-! ### Clock generation (12_clock_generation.md) -/

/-- A CLKOUT write that waits for its edge or for the end of the bridge (R336): output, value, and the raw index that must
have passed. -/
structure OutWrite where
  out   : Nat
  value : Word
  after : Int
  deriving DecidableEq, Repr

/-- The clock generator's own state. -/
structure ClockState where
  /-- MDLLs that are relocking, and that have failed (R346), as bit masks. -/
  relocking : Nat
  failed    : Nat
  /-- A relock of all MDLLs after requalification is in progress (R342), or waits for one. -/
  allLock   : Bool
  /-- Coarse times of the unlocks of the last second, by MDLL (R346). -/
  unlocks   : List (Nat × List Int)
  /-- The raw index at which MDLL 3's word was released in a relock, and the intervals that relocks marked with GAP (R344). -/
  released  : Option Int
  gaps      : List (Int × Int)
  /-- CLKOUT writes that have not taken effect. -/
  writes    : List OutWrite
  /-- The divider D_b of the bridge clock by output (R341). -/
  bridgeDiv : List (Nat × Nat)
  /-- MDLL 2's rate before its setting was changed while the clocks coast (R347), in kHz as a fraction. -/
  was2      : Option (Nat × Nat)
  /-- Bands found by searches that wait to be stored (R340): MDLL and band. -/
  bands     : List (Nat × Nat)
  /-- The clocks step of start has passed. -/
  started   : Bool
  deriving DecidableEq, Repr

/-- The clock generator at reset. -/
def ClockState.reset : ClockState :=
  { relocking := 0, failed := 0, allLock := false, unlocks := [], released := none, gaps := [],
    writes := [], bridgeDiv := [], was2 := none, bands := [], started := false }

/-! ### The pot (08_analysis_programs.md R246 to R250) -/

/-- A record in a pot section: its key (R247), who made it, its payload as the header states it, its flags so far, and the
timestamp's instant in 1/65,536 sample. -/
structure PotRec where
  deal    : Nat
  product : Nat
  channel : Nat
  input   : Nat
  member  : Nat
  part    : Nat
  logical : Nat
  kind    : Nat
  rtype   : Nat
  payload : List Byte
  ovf     : Bool
  late    : Bool
  degr    : Bool
  classW  : Bool
  /-- Formed in the top merge (R239). -/
  merged  : Bool
  pos     : Int
  /-- The destinations that have had the record (R247, R249): 0 and 1 the stream formatter of a port, 2 the product ring, 3 the
  render helper, 4 the top merge. -/
  sent    : List Nat
  deriving DecidableEq, Repr

/-- An FMT event on its way to the arbiter or in a window (R244): input, SIDE, trigger time in 1/65,536 sample. -/
structure FmtEvent where
  input : Nat
  side  : Nat
  pos   : Int
  deriving DecidableEq, Repr

/-- A channel list that has reached the top merge (R239). -/
structure PksList where
  product : Nat
  deal    : Nat
  input   : Nat
  channel : Nat
  payload : List Byte
  late    : Bool
  ovf     : Bool
  degr    : Bool
  deriving DecidableEq, Repr

/-- The pot's own state. -/
structure PotState where
  /-- Records not yet released, in the order in which they came. -/
  wait   : List PotRec
  /-- Enables of products by the deal from which they hold: (product, deal, on), newest first (R250). -/
  en     : List (Nat × Nat × Bool)
  /-- Records of a product that a leaf has delivered for a deal: (leaf, product, deal, count) (R247). -/
  parts  : List (Nat × Nat × Nat × Nat)
  /-- FMT events that have not reached the arbiter, and the open windows by scope (input, or 4 for the device). -/
  events : List FmtEvent
  windows : List (Nat × List FmtEvent)
  /-- Channel lists in the top merge, and merged lists already built: (product, deal, input) (R239). -/
  lists  : List PksList
  merged : List (Nat × Nat × Nat)
  /-- DENS records at the render helper (R455), the newest last. -/
  dens   : List PotRec
  /-- Leaves and deals whose missing records have been counted as absent (R248). -/
  absent : List (Nat × Nat)
  deriving DecidableEq, Repr

/-- The pot at reset. -/
def PotState.reset : PotState :=
  { wait := [], en := [], parts := [], events := [], windows := [], lists := [], merged := [], dens := [], absent := [] }

/-! ### Display (16_display_scanout.md) -/

/-- What a commit shows (R450): the planes of L0, the overlay's enable, the palette (index to A, R, G, B word). -/
structure Planes where
  y   : Nat
  c   : Nat
  l1  : Bool
  pal : List Nat
  deriving DecidableEq, Repr

/-- No planes. -/
def Planes.none : Planes := { y := 0, c := 0, l1 := false, pal := [] }

/-- The render helper's settings for one period (R455, R456): the period, the input, first column, columns per pixel × 256,
gain and the CLUT's words. -/
structure RenderCfg where
  period : Nat
  input  : Nat
  g0     : Nat
  step   : Nat
  gain   : Nat
  clut   : List Nat
  deriving DecidableEq, Repr

/-- A render in progress (R455, R457): its settings, its buffer, the summed counters by 128 × column + level, and whether
a record was absent or carried DEGRADED. -/
structure Render where
  cfg  : RenderCfg
  buf  : Nat
  sums : List (Nat × Nat)
  degr : Bool
  deriving DecidableEq, Repr

/-- The display's own state. -/
structure DispState where
  /-- The planes in effect, and those before them until they retire (R453). -/
  eff    : Planes
  old    : Option Planes
  /-- The two slots (R452). -/
  pend   : Option Planes
  next   : Option Planes
  /-- The line whose pixel 0 comes next; none where a frame is to begin (R441). -/
  due    : Option Nat
  /-- Which of its events the frame has had: 1 its close point, 2 FRAME_DONE, 3 VBLANK_START; 4 before the first frame (R441). -/
  phase  : Nat
  /-- The line being sent has raised LINE_MATCH. -/
  matched : Bool
  /-- DISP_COMMIT_LEAD as it holds in the current frame. -/
  lead   : Nat
  /-- Video is sent: a line 0 has passed since training (R438). -/
  sending : Bool
  /-- The link rate being trained or in use. -/
  rate   : Nat
  /-- Luma lines of the frame requested from memory so far (R444). -/
  asked  : Nat
  /-- The line buffer: 16 luma and 8 chroma slots (R444, R445). -/
  luma   : List (Nat × List Nat)
  chroma : List (Nat × List Nat)
  /-- The overlay buffer's bytes by offset (R448). -/
  overlay : List (Nat × Byte)
  /-- Render periods begun and not yet rendered, oldest first, and the render in progress (R455). -/
  periods : List RenderCfg
  render : Option Render
  deriving DecidableEq, Repr

/-- The display at reset. -/
def DispState.reset : DispState :=
  { eff := .none, old := Option.none, pend := Option.none, next := Option.none, due := Option.none, phase := 4,
    matched := false, lead := 2, sending := false,
    rate := 0, asked := 0, luma := [], chroma := [], overlay := [], periods := [], render := Option.none }

/-! ### Start, fuses and flash (17_start_reset_life_cycle.md) -/

/-- The fuses and the OTP (R490 to R494): state fuse pairs LC1 to LC4 as bits 0 to 3, the flags, the device secret and the
public-key hash as 256-bit numbers (byte 0 lowest), and the key bits that a zeroisation left unblown. -/
structure Fuses where
  lc      : Nat
  keySet  : Bool
  keyZero : Bool
  pkhSet  : Bool
  secure  : Bool
  secret  : Nat
  pkh     : Nat
  keyLeft : Nat
  deriving DecidableEq, Repr

/-- The fuses as every part ships (R492): DEPLOYED, nothing programmed. -/
def Fuses.shipped : Fuses :=
  { lc := 3, keySet := false, keyZero := false, pkhSet := false, secure := false, secret := 0, pkh := 0, keyLeft := 0 }

/-- The start sequence, the fuses and the flash service. -/
structure BootState where
  fuses   : Fuses
  /-- The boot flash's bytes by offset (R471); an unlisted byte is erased. -/
  flash   : List (Nat × Byte)
  /-- A flash command in progress (R474): operation and address. -/
  flashOp : Option (Nat × Nat)
  /-- A life-cycle transition in progress: the target (R492). -/
  lcOp    : Option Nat
  /-- An OTP operation in progress (R494). -/
  otpOp   : Option Nat
  /-- Why the rails are off: 0 = they are not, 1 = thermal shutdown, 2 = overvoltage (R465, R525), 3 = VIN too low. -/
  off     : Nat
  /-- What SUP_RESET_CAUSE shows from step 2 on: bits 3:0 of it. -/
  cause   : Nat
  /-- The flash slot being read or in use, and the slots still to be tried (R473). -/
  slot    : Nat
  slots   : List Nat
  deriving DecidableEq, Repr

/-- A part as shipped, with an empty flash, before its first start. -/
def BootState.reset : BootState :=
  { fuses := .shipped, flash := [], flashOp := none, lcOp := none, otpOp := none, off := 0, cause := 1, slot := 0, slots := [] }

/-! ### Self-test and the calibration store (18_self_test_calibration.md) -/

/-- An in-field test in a quadrant (R508, R509): the place in the order whose turn is next (0 to 271), engines asked for by
TEST_IFT_CTL (oldest first), turns that wait for the running test, the engine under test, and whether its test has ended
and its work waits to return. -/
structure IftQuad where
  next    : Nat
  asked   : List Nat
  waiting : Nat
  run     : Option Nat
  ended   : Bool
  visits  : Nat
  /-- The coarse time of the first tick, or at which a test last fell due (R508). -/
  since   : Int
  deriving DecidableEq, Repr

/-- A quadrant's tests at reset. -/
def IftQuad.reset : IftQuad := { next := 0, asked := [], waiting := 0, run := none, ended := false, visits := 0, since := 0 }

/-- Trims of one input as a record of the calibration store holds them (R514): TRIM_A and TRIM_B words of 33 lanes, lane
map, ruler lane, SPARE_USED. -/
structure TrimSet where
  trims : List (Nat × Nat)
  lanes : List Nat
  ruler : Nat
  spare : Nat
  deriving DecidableEq, Repr

/-- Self-test, reports and the calibration store. -/
structure TestState where
  /-- The memory BIST report's entries (R505). -/
  report  : List (List Byte)
  /-- Logic BIST results by partition: (result, in-field) and the signature (R507). -/
  lbist   : List (Nat × (Nat × Bool))
  lbSig   : List (Nat × BitVec 64)
  /-- Boot BIST has run: a partition with no entry passed. -/
  bistRun : Bool
  ift     : List (Nat × IftQuad)
  /-- The calibration store's bytes by offset (R513). -/
  store   : List (Nat × Byte)
  /-- Writes made to each slot, and bad slots, by store offset (R518). -/
  wear    : List (Nat × Nat)
  bad     : List Nat
  /-- Records to be written: (KIND, KEY), oldest first, and trims taken for CONV_TRIM records (R517). -/
  queue   : List (Nat × Nat)
  saved   : List (Nat × TrimSet)
  /-- Repairs found, not yet in the map: (UNIT, MEM, row, spare) (R501); joker map edits: (remove, PHYS) (R522). -/
  repairs : List (Nat × Nat × Nat × Nat)
  edits   : List (Bool × Nat)
  /-- A load of stored trims waits for its tick: INPUTS and SRC (R520). -/
  load    : Option (Nat × Nat)
  /-- Every record carries DEGRADED: a die-level failure at boot (R503). -/
  dieFail : Bool
  /-- Serial numbers of DIMMs, most recently seen first (R514). -/
  seen    : List Nat
  /-- The coarse time of the first tick or of the last periodic save, and of the last write of each KIND and KEY (R517). -/
  savedAt : Int
  wrote   : List ((Nat × Nat) × Int)
  deriving DecidableEq, Repr

/-- Self-test at reset. -/
def TestState.reset : TestState :=
  { report := [], lbist := [], lbSig := [], bistRun := false, ift := [], store := [], wear := [], bad := [], queue := [], saved := [],
    repairs := [], edits := [], load := none, dieFail := false, seen := [], savedAt := 0, wrote := [] }

/-! ### SMBus and the test access port (19_power_package_pins.md) -/

/-- The SMBus target's pointer (R535), the TAP's instruction, and whether it has the pins (R547, R548). -/
structure PortState where
  smbPtr : Nat
  tap    : TapInstr
  seized : Bool
  deriving DecidableEq, Repr

/-- The ports at reset: IDCODE in the instruction register, as IEEE 1149.1 lays down. -/
def PortState.reset : PortState := { smbPtr := 0, tap := .idcode, seized := false }

/-- What leaves the device. -/
inductive Out where
  /-- The MSI-X message of a vector (R425). -/
  | msix (vector : Nat)
  /-- An Ethernet frame, destination MAC through FCS, on a port's link (R384). -/
  | frame (port link : Nat) (bytes : List Byte)
  /-- A word returned over SMBus, with its address answer for the Alert Response Address. -/
  | smbus (word : Word)
  /-- What the TAP shows at TDO for IDCODE (R547). -/
  | tdo (word : Word)
  /-- One line of the picture, as 24-bit pixels (R443, R448). -/
  | line (n : Nat) (pixels : List Nat)
  /-- A DMA write to host memory at a bus address (R428). -/
  | dma (addr : Nat) (bytes : List Byte)
  deriving DecidableEq, Repr

/-! ### What leaves the device, the pins, and the whole state -/

/-- The device's output pins (R539): true = asserted. -/
structure Pins where
  ready     : Bool
  fault     : Bool
  kittyHold : Bool
  trigOut0  : Bool
  trigOut1  : Bool
  smbAlert  : Bool
  deriving DecidableEq, Repr

/-- The pins under a full reset: only KITTY_HOLD is asserted (R463). -/
def Pins.reset : Pins :=
  { ready := false, fault := false, kittyHold := true, trigOut0 := false, trigOut1 := false, smbAlert := false }

/-- The state of the device. -/
structure State where
  /-- Every register, by device address, where it differs from its reset value. -/
  regs    : List (Nat × Word)
  /-- The holding register of each _LO register, by its address (R11). -/
  holdLo  : List (Nat × Word)
  /-- The captured value of each register that a _LO read captures, by its address (R11). -/
  capture : List (Nat × Word)
  /-- What the last read command returned. -/
  rdata   : List Word
  /-- What has left the device, oldest first. -/
  out     : List Out
  pins    : Pins
  img     : ImageCfg
  deal    : DealState
  conv    : ConvState
  /-- Dealers by input. -/
  dealer  : List (Nat × Dealer)
  hand    : HandState
  host    : HostState
  imgDone : Bool
  halted  : Bool
  railsBad : Bool
  lastFatal : Nat × Nat
  links   : Nat
  sdram   : List (Nat × Byte)
  time    : TimeState
  trig    : TrigState
  cap     : CapState
  zoom    : ZoomState
  eth     : EthState
  kit     : KitState
  mem     : MemState
  pot     : PotState
  clk     : ClockState
  linkDegr : Nat
  disp    : DispState
  boot    : BootState
  test    : TestState
  ports   : PortState
  dmaTurn : Nat
  /-- The model's own counter: the index of the next free value (values the spec leaves open). -/
  free    : Nat
  /-- Commands waiting, first in, first out. -/
  pending : List Instr
  deriving DecidableEq, Repr

/-- The machine right after reset: every register at its reset value (nothing listed), every block idle, memory with
nothing listed, no command waiting. -/
def State.reset : State :=
  { regs := [], holdLo := [], capture := [], rdata := [], out := [], pins := .reset, img := .reset, deal := .reset,
    conv := .reset, dealer := [], hand := .reset,
    host := .reset,
    imgDone := false,
    halted := false,
    railsBad := false,
    lastFatal := (0, 0),
    links := 0,
    sdram := [],
    time := .reset,
    trig := .reset,
    cap := .reset,
    zoom := .reset,
    eth := .reset,
    kit := .reset,
    mem := .reset,
    pot := .reset,
    clk := .reset,
    linkDegr := 0,
    disp := .reset,
    boot := .reset,
    test := .reset,
    ports := .reset,
    dmaTurn := 0,
    free := 0, pending := [] }

/-- Why the machine stops. -/
inductive Fault where
  /-- VIN passed its absolute maximum of 20 V: damage may result and no behaviour is given. Raised by OVERVOLTAGE_STOP.
  Safe: the model stops where the hardware's behaviour is not given. -/
  | absoluteMaximum
  deriving DecidableEq, Repr

/-- Why a command is refused. -/
inductive Refusal where
  /-- The command has no meaning yet. Safe. -/
  | notModelled (mnemonic : String)
  /-- A private scan instruction of the test access port, whose effect the spec does not give. Raised by
  TAP_INSTRUCTION. Safe. -/
  | privateScan
  deriving DecidableEq, Repr

end Sys2Proof.Machine
end

