-- ==== Sys2Proof/Machine/Ops.lean ====
section
/-! DEFINITION. The operations every block uses: register fields, sticky bits and counters, the event log (R210 to
R212), FAULT_N, the interrupt vectors (R424 to R426), SMB_ALERT_N (R537), and free values. -/

namespace Sys2Proof.Machine

/-! ### Registers -/

/-- A register's value in effect. -/
def State.reg (s : State) (a : Nat) : Word := sparseGet regReset s.regs a

/-- Give a register a value in effect, whoever may write it. -/
def State.setReg (s : State) (a : Nat) (v : Word) : State := { s with regs := sparseSet regReset s.regs a v }

/-- The `w` bits of a word from bit `lo` up, as a number. -/
def wordBits (v : Word) (lo w : Nat) : Nat := (v.toNat >>> lo) % 2 ^ w

/-- The bits that a field takes in a word. -/
def fieldMask (lo w : Nat) : Word := BitVec.ofNat 32 ((2 ^ w - 1) <<< lo)

/-- A word with the bits of `mask` taken from `v`. -/
def mergeBits (old mask v : Word) : Word := (old &&& ~~~mask) ||| (v &&& mask)

/-- A field's value in effect. -/
def State.fld (s : State) (f : Field) : Nat := wordBits (s.reg f.addr) f.lo f.width

/-- Give a field a value in effect. -/
def State.setFld (s : State) (f : Field) (x : Nat) : State :=
  s.setReg f.addr (mergeBits (s.reg f.addr) (fieldMask f.lo f.width) (BitVec.ofNat 32 (x <<< f.lo)))

/-- Whether a one-bit field is 1. -/
def State.flag (s : State) (f : Field) : Bool := decide (s.fld f = 1)

/-- Set a one-bit field when a condition holds; it stays as it is otherwise. -/
def State.setIf (s : State) (b : Bool) (f : Field) : State := if b then s.setFld f 1 else s

/-- A 64-bit quantity in a _LO / _HI pair. -/
def State.pair (s : State) (p : Pair) : Nat := (s.reg p.addr).toNat + 2 ^ 32 * (s.reg (p.addr + 4)).toNat

/-- Give a 64-bit quantity a value, modulo 2^64. -/
def State.setPair (s : State) (p : Pair) (x : Nat) : State :=
  (s.setReg p.addr (BitVec.ofNat 32 x)).setReg (p.addr + 4) (BitVec.ofNat 32 (x / 2 ^ 32))

/-- Add to a counter field that saturates at all ones. -/
def State.addSat (s : State) (f : Field) (n : Nat) : State := s.setFld f (min (s.fld f + n) (2 ^ f.width - 1))

/-- Add to a counter field that wraps. -/
def State.addWrap (s : State) (f : Field) (n : Nat) : State := s.setFld f ((s.fld f + n) % 2 ^ f.width)

/-- Let a field hold the larger of its value and `x`. -/
def State.maxFld (s : State) (f : Field) (x : Nat) : State := s.setFld f (max (s.fld f) (min x (2 ^ f.width - 1)))

/-- Set bit `i` of a field of flags to `b`. -/
def State.putBit (s : State) (f : Field) (i : Nat) (b : Bool) : State := s.setFld (f.bit i) (b2n b)

/-- Set sticky bit `i` of a field of flags. -/
def State.stick (s : State) (f : Field) (i : Nat) : State := s.setFld (f.bit i) 1

/-- Whether bit `i` of a field of flags is 1. -/
def State.bitSet (s : State) (f : Field) (i : Nat) : Bool := decide (s.fld (f.bit i) = 1)

/-- Do an update when a condition holds. -/
def State.when (s : State) (b : Bool) (f : State → State) : State := if b then f s else s

/-- Do an update for each element of a list, in order. -/
def State.each {α : Type} (s : State) (l : List α) (f : α → State → State) : State := l.foldl (fun t x => f x t) s

/-! ### The event log (R210 to R212) -/

/-- Severities (R210). -/
def sevInfo : Nat := 0

/-- ATTENTION. -/
def sevAttention : Nat := 1

/-- FATAL. -/
def sevFatal : Nat := 2

/-- An entry's age: (HAND_LOG_COUNT − SEQ) modulo 2^32 (R211). -/
def logAge (count : Nat) (e : LogEntry) : Nat := (count + 2 ^ 32 - e.seq) % 2 ^ 32

/-- The position of the oldest entry that a test admits, with its age. -/
def oldestOf (count : Nat) (ok : LogEntry → Bool) : List LogEntry → Nat → Option (Nat × Nat) → Option (Nat × Nat)
  | [], _, best => best
  | e :: t, i, best =>
    let better : Bool := match best with
      | none => true
      | some (_, age) => decide (age < logAge count e)
    oldestOf count ok t (i + 1) (if ok e && better then some (i, logAge count e) else best)

/-- The log with an event written into the slot that R211 gives it. -/
def logInsert (count : Nat) (log : List LogEntry) (e : LogEntry) : List LogEntry :=
  if log.length < 256 then log ++ [e]
  else
    match oldestOf count (fun x => decide (e.sev ≠ sevInfo) || decide (x.sev = sevInfo)) log 0 none with
    | some (i, _) => log.set i e
    | none => log

/-- Log an event (R210 to R212): an INFO event equal to the newest entry is merged into it; any other advances
HAND_LOG_COUNT and takes a slot. ATTENTION and FATAL set their bits of HAND_STAT. While SUP_STAT.WDOG is set nothing is
logged (R466). -/
def State.logEvent (s : State) (code sev arg : Nat) : State :=
  if s.flag SUP_STAT_WDOG then s else
  let count := s.fld HAND_LOG_COUNT_COUNT
  let merges := fun (e : LogEntry) =>
    decide (logAge count e = 0) && decide (e.code = code) && decide (e.arg = arg % 2 ^ 32)
  if sev = sevInfo ∧ s.hand.log.any merges = true then
    { s with hand := { s.hand with log := s.hand.log.map (fun e =>
        if merges e then { e with merged := min (e.merged + 1) 255 } else e) } }
  else
    let count' := if count = 2 ^ 32 - 1 then 1 else count + 1
    let e : LogEntry :=
      { seq := count', code := code, sev := sev, merged := 0, deal := s.pair DEAL_NUM % 2 ^ 32, arg := arg % 2 ^ 32 }
    let s := s.setFld HAND_LOG_COUNT_COUNT count'
    let s := { s with hand := { s.hand with log := logInsert count' s.hand.log e } }
    if sev = sevAttention then s.setFld HAND_STAT_LOG_ATTN 1
    else if sev = sevFatal then { s.setFld HAND_STAT_LOG_FATAL 1 with lastFatal := (code, arg % 2 ^ 32) }
    else s

/-- An access or write that the manual records at INFO when its block has no code for it (R497). -/
def State.ignored (s : State) (addr : Nat) : State := s.logEvent 0x0009 sevInfo (addr % 2 ^ 32)

/-! ### Free values -/

/-- The next free value, and the state with its index advanced. -/
def State.fresh (s : State) : BitVec 64 × State := (Config.freeValue s.free, { s with free := s.free + 1 })

/-! ### FAULT_N, interrupts and the SMBus alert -/

/-- FAULT_N asserts while one of the five conditions of R212 holds. -/
def State.faultCond (s : State) : Bool :=
  s.flag HAND_STAT_LOG_ATTN || s.flag HAND_STAT_LOG_FATAL || s.flag SUP_STAT_WDOG || s.halted || s.railsBad

/-- The status and enable registers of each interrupt source beyond DMA, with its vector (R424). -/
def intSources : List (Nat × Nat × Nat) :=
  [ (16, DEAL_STAT.addr, DEAL_INT_EN.addr), (17, SUP_STAT.addr, SUP_INT_EN.addr),
    (18, HAND_STAT.addr, HAND_INT_EN.addr), (19, CG_STAT.addr, CG_INT_EN.addr),
    (20, TIME_STAT.addr, TIME_INT_EN.addr), (21, CONV_STAT.addr, CONV_INT_EN.addr),
    (22, CBK_STAT.addr, CBK_INT_EN.addr), (23, ZC_STAT.addr, ZC_INT_EN.addr),
    (24, TRG_STAT.addr, TRG_INT_EN.addr), (25, CAP_STAT.addr, CAP_INT_EN.addr),
    (26, MEMC_STAT.addr, MEMC_INT_EN.addr), (27, ETH_STAT.addr, ETH_INT_EN.addr),
    (28, KIT_STAT.addr, KIT_INT_EN.addr), (29, DISP_STAT.addr, DISP_INT_EN.addr),
    (30, POT_STAT.addr, POT_INT_EN.addr), (31, TEST_STAT.addr, TEST_INT_EN.addr),
    (31, VREG_STAT.addr, VREG_INT_EN.addr), (31, HOST_STAT.addr, HOST_INT_EN.addr) ]

/-- Whether vector v is active: some source of it has a status bit set that its enable selects (R424). -/
def State.vectorActive (s : State) (v : Nat) : Bool :=
  if v < 16 then s.bitSet HOST_DMA_DONE_DONE v && s.flag (DMA_CTL_IE v)
  else intSources.any (fun x => decide (x.1 = v) && decide (s.reg x.2.1 &&& s.reg x.2.2 ≠ 0))

/-- What an unlisted word of the MSI-X table reads as: PCIe leaves every vector masked after reset. -/
def msixDefault (o : Nat) : Word := if o % 16 = 12 then 1 else 0

/-- Send the MSI-X message of a vector, or note it in the pending-bit array while it is masked (R425, R426). -/
def State.sendMsix (s : State) (v : Nat) : State :=
  if s.host.msixEn && s.host.linkUp then
    if s.host.funcMask || (sparseGet msixDefault s.host.table (16 * v + 12)).getLsbD 0 then
      { s with host := { s.host with pba := s.host.pba ||| 2 ^ v } }
    else { s with out := s.out ++ [.msix v] }
  else s

/-- HOST_INT_PEND bit v sets when vector v becomes active, and its message is sent (R425). -/
def State.settleVector (s : State) (v : Nat) : State :=
  let now := s.vectorActive v
  let was := s.bitSet HOST_INT_REQ_REQ v
  if now = was then s
  else
    let s := s.putBit HOST_INT_REQ_REQ v now
    if now && !s.bitSet HOST_INT_PEND_PEND v then (s.stick HOST_INT_PEND_PEND v).sendMsix v else s

/-- FAULT_N and the bits that show it (R212); SMB_ALERT_N asserts when it asserts (R537). -/
def State.settleFault (s : State) : State :=
  let f := s.faultCond
  let rise := f && !s.pins.fault
  let s := (s.setFld SUP_STAT_FAULT (b2n f)).setFld HOST_STAT_FAULT (b2n f)
  { s with pins := { s.pins with fault := f, smbAlert := s.pins.smbAlert || rise } }

/-- SMB_ALERT_N releases when no selected VREG_STAT bit is set and FAULT_N is released; VREG_STAT.ALERT shows it (R537). -/
def State.settleAlert (s : State) : State :=
  let sel := s.fld VREG_ALERT_CFG_SMB_EN
  let on := s.pins.smbAlert && (s.pins.fault || decide ((s.reg VREG_STAT.addr).toNat &&& sel ≠ 0))
  let s := s.setFld VREG_STAT_ALERT (b2n on)
  { s with pins := { s.pins with smbAlert := on } }

/-- Bring the derived signals up to date after a change of status: FAULT_N, SMB_ALERT_N and the interrupt vectors. -/
def State.settle (s : State) : State :=
  (List.range 32).foldl (fun t v => t.settleVector v) s.settleFault.settleAlert

/-- The next state of a command, with the derived signals up to date. -/
def done (s : State) : Host.Outcome State Fault Refusal := .next s.settle

/-! ### The deal grid -/

/-- The deal length exponent k (R36). -/
def State.k (s : State) : Nat := s.fld DEAL_CFG_K

/-- Coarse samples per deal (R36). -/
def State.dealLen (s : State) : Nat := 2 ^ s.k

/-- The raw sample index at the first sample of deal n (R73). -/
def State.dealRaw (s : State) (n : Nat) : Int := ((400 * n * s.dealLen : Nat) : Int)

/-- The declared sample rate in samples per second (R319). -/
def State.nsps (s : State) : Nat := s.pair TIME_NSPS

/-- Read an instance of a family of records. -/
def instGet {α : Type} (d : α) (m : List (Nat × α)) (i : Nat) : α := sparseGet (fun _ => d) m i

/-- Write an instance of a family of records. -/
def instSet {α : Type} [DecidableEq α] (d : α) (m : List (Nat × α)) (i : Nat) (v : α) : List (Nat × α) :=
  sparseSet (fun _ => d) m i v

/-- A Dealer. -/
def State.dealerOf (s : State) (i : Nat) : Dealer := instGet .reset s.dealer i

/-- Change a Dealer. -/
def State.setDealer (s : State) (i : Nat) (d : Dealer) : State := { s with dealer := instSet .reset s.dealer i d }

/-- The coarse index that the Dealers emit next; the device's clock for rules that count coarse samples. -/
def State.now (s : State) : Int := (s.dealerOf 0).j

/-- Coarse samples in one second. -/
def State.second (s : State) : Int := (s.nsps : Int) / 400

/-- The raw sample index that the next hop begins with. -/
def State.rawNow (s : State) : Int := 400 * s.now

/-! ### Capture SDRAM (R28, R33, R354) -/

/-- The device address of the first byte of capture SDRAM (R28). -/
def sdramBase : Nat := 0x100000000000

/-- What a byte of SDRAM that nothing has written reads as. DESIGN CHOICE (unsafe): the spec gives RAM no content at
power-on; it reads 0. -/
def sdramDefault (_ : Nat) : Byte := 0

/-- The canonical form of the SDRAM's contents: offsets strictly rising, no byte listed that reads as an unlisted one does. -/
def Memory.wf (m : List Host.Cell) : Bool := sparseWf sdramDefault m

/-- The installed capacity in bytes (R33, R354). -/
def State.capacity (s : State) : Nat := s.pair MEMC_CAPACITY

/-- A byte of capture SDRAM by its offset; beyond the installed capacity it reads 0 (R33). -/
def State.sdByte (s : State) (o : Nat) : Byte := if o < s.capacity then sparseGet sdramDefault s.sdram o else 0

/-- `n` bytes of capture SDRAM from a device address on. -/
def State.sdRead (s : State) (a n : Nat) : List Byte := (List.range n).map (fun i => s.sdByte (a + i - sdramBase))

/-- One byte written to capture SDRAM; beyond the installed capacity the write is ignored (R33). -/
def State.sdPut (s : State) (o : Nat) (b : Byte) : State :=
  if o < s.capacity then { s with sdram := sparseSet sdramDefault s.sdram o b } else s

/-- Bytes written to capture SDRAM from a device address on. -/
def State.sdWrite (s : State) (a : Nat) : List Byte → State
  | [] => s
  | b :: t => State.sdWrite (if sdramBase ≤ a then s.sdPut (a - sdramBase) b else s) (a + 1) t

/-! ### Die links (R14, R16) -/

/-- Whether a die link has failed; links are numbered as LINK_FAIL's ARG (R497). -/
def State.linkFailed (s : State) (l : Nat) : Bool := bitOf s.links l

end Sys2Proof.Machine
end

