-- ==== Sys2Proof/Machine/TimeBase.lean ====
section
/-! DEFINITION. The time base: event times, deals by time, epochs and timestamps (R73, R272, R308, R320, R321).
An event time is an integer in units in which a raw sample, a TDC LSB, a nanosecond and a core-clock cycle are all whole
(R308, R319): one sample is 4,096 × 10^9, one LSB is 5 × NSPS. -/

namespace Sys2Proof.Machine

/-- Event time units in one raw sample. -/
def unitSample : Int := 4096000000000

/-- Event time units in 1/65,536 sample. -/
def unitFrac : Int := 62500000

/-- Event time units in one TDC LSB, 1.220703125 ps (R308). -/
def State.unitLsb (s : State) : Int := 5 * s.nsps

/-- Event time units in one nanosecond. -/
def State.unitNs (s : State) : Int := 4096 * s.nsps

/-- Event time units in one core-clock cycle, 625 ps. -/
def State.unitCore (s : State) : Int := 2560 * s.nsps

/-- The time of a TDC result: raw index n and offset o in LSB (R308). -/
def State.edgeTime (s : State) (n : Int) (o : Nat) : Int := n * unitSample + o * s.unitLsb

/-! ### The grid tracker (R310 to R312) -/

/-- TDC LSB in one sample at 1 sample per second (R310): 512 codes of 625 ps. -/
def lsbRate : Nat := 819200000000

/-- The signed difference of two channel times, which wrap after 2^57 LSB (R310). -/
def timeDiff (t t0 : Nat) : Int := toSigned 57 (((t : Int) - t0) % 2 ^ 57).toNat

/-- A line from raw index to channel time (R312): index n0 + x lies at t0 + (a + b x) / d. -/
structure GridLine where
  n0 : Int
  t0 : Nat
  a  : Int
  b  : Int
  d  : Int
  deriving DecidableEq, Repr

/-- The markers that the fit holds. -/
def GridFit.points (f : GridFit) : List (Int × Nat) := f.marks.filterMap (fun m => m)

/-- The same markers when raw indices go up. -/
def GridFit.shift (f : GridFit) (by' : Int) : GridFit :=
  { f with marks := f.marks.map (fun (m : Option (Int × Nat)) => m.map (fun p => (p.1 + by', p.2))) }

/-- The least-squares line over the markers of the fit; through the newest, or the origin, at the declared rate while they do not
give one. -/
def GridFit.line (f : GridFit) (nsps : Nat) : GridLine :=
  let p0 := f.points.headD (0, 0)
  let ps := f.points.map (fun p => (p.1 - p0.1, timeDiff p.2 p0.2))
  let m : Int := ps.length
  let sx := (ps.map (fun p => p.1)).sum
  let st := (ps.map (fun p => p.2)).sum
  let d := m * (ps.map (fun p => p.1 * p.1)).sum - sx * sx
  let b := m * (ps.map (fun p => p.1 * p.2)).sum - sx * st
  if 0 < d ∧ 0 < b then { n0 := p0.1, t0 := p0.2, a := st * d - b * sx, b := m * b, d := m * d }
  else { n0 := p0.1, t0 := p0.2, a := 0, b := lsbRate, d := nsps }

/-- The raw index and the offset in LSB at which a channel time lies (R308). -/
def GridLine.place (l : GridLine) (nsps t : Nat) : Int × Nat :=
  let v := timeDiff t l.t0 * l.d - l.a
  (l.n0 + v / l.b, min (v % l.b / l.d).toNat (ceilDiv lsbRate nsps - 1))

/-- Whether a marker of raw index n lies within 4 LSB of the line at channel time t (R312). -/
def GridLine.agrees (l : GridLine) (n : Int) (t : Nat) : Bool :=
  decide ((timeDiff t l.t0 * l.d - (l.a + l.b * (n - l.n0))).natAbs ≤ 4 * l.d.natAbs)

/-- The linearised value of a raw code (R311): half the hits of the code and all those below it, of 512. -/
def linearTable (hits : List Nat) : List Nat :=
  (hits.foldl (fun (acc : Nat × List Nat) h => (acc.1 + h, 512 * (2 * acc.1 + h) / (2 * hits.sum) :: acc.2)) (0, [])).2.reverse

/-- A channel's interpolator code through its table; a channel without a table takes the code as it is. Channel 19 times
the edges of the channel that it replaces (R309). -/
def State.linear (s : State) (c code : Nat) : Nat :=
  (instGet [] s.time.tables (if s.fld TIME_CFG_SPARE_FOR = c then 19 else c)).getD code code

/-- The converter die whose markers a channel's results are placed by. -/
def chanDie (c : Nat) : Nat := if 11 ≤ c ∧ c < 19 then 1 else 0

/-- Where an edge lies that a channel times at a count of core cycles and a code (R308, R310, R312). -/
def State.gridPlace (s : State) (c count code : Nat) : Int × Nat :=
  ((instGet .reset s.time.fit (chanDie c)).line s.nsps).place s.nsps (512 * count + s.linear c code)

/-- The time of an instant in 1/65,536 sample (R321). -/
def timeOfPos (y : Int) : Int := y * unitFrac

/-- TIDX and TFRAC of a time (R273). -/
def trigIndex (t : Int) : Int × Nat :=
  let n := t / unitSample
  let f := roundEvenDiv (t % unitSample) unitFrac.toNat
  if f = 65536 then (n + 1, 0) else (n, f.toNat)

/-- The first sampling instant of deal n, as an event time. -/
def State.dealTime (s : State) (n : Nat) : Int := s.dealRaw n * unitSample

/-- The deal that an event time lies in; 0 before the first. -/
def State.dealOfTime (s : State) (t : Int) : Nat := (t / unitSample / ((400 * s.dealLen : Nat) : Int)).toNat

/-- The close point of tick n in 1/65,536 sample, rounded down: 16 µs before the deal's first sample (R47). -/
def State.closePos (s : State) (n : Nat) : Int :=
  65536 * s.dealRaw n - ((16 * s.nsps * 65536 : Nat) : Int) / 1000000

/-! ### Epochs and timestamps (R320, R321) -/

/-- The epoch in force now. -/
def State.epoch (s : State) : Epoch := s.time.epochs.headD .none

/-- The epoch under which records of deal n are stamped. -/
def State.epochAt (s : State) (n : Nat) : Epoch := (s.time.epochs.find? (fun e => decide (e.since ≤ n))).getD .none

/-- SEC, IDX and FRAC of an instant under an epoch (R321). -/
def Epoch.stamp (e : Epoch) (nsps : Nat) (y : Int) : Int × Nat × Nat :=
  let per := ((65536 * nsps : Nat) : Int)
  let d := y - e.x0
  let rem := (d % per).toNat
  (e.secAt + d / per, rem / 65536, rem % 65536)

/-- Whether timestamps of records of deal n carry REF_LOST (R317). -/
def State.refLostDeal (s : State) (n : Nat) : Bool :=
  s.time.refSpans.any (fun r => decide (r.1 ≤ n) && (match r.2 with
    | some b => decide (n ≤ b)
    | none => true))

/-- A 16-byte timestamp of an instant, for a record of deal n (R320). -/
def State.stampBytes (s : State) (n : Nat) (y : Int) : List Byte :=
  let e := s.epochAt n
  let (sec, idx, frac) := e.stamp s.nsps y
  leBytes 6 (ofSigned 48 sec) ++ leBytes 2 (b2n e.isSet + 2 * b2n (s.refLostDeal n)) ++ leBytes 2 frac ++ leBytes 6 idx

/-- Whether deal n carries TIME_STEP, and the change it reports (R324, R326). -/
def State.stepOf (s : State) (n : Nat) : Option Int :=
  match s.time.epochs.find? (fun e => decide (e.since = n)) with
  | some e => e.step
  | none => none

/-- A change saturated to a signed 64-bit number, ±(2^63 − 1) (R324). -/
def satStep (x : Int) : Int := clampInt (-9223372036854775807) 9223372036854775807 x

/-- The first sample whose timestamp is at or after a second and an index within it (R305). -/
def State.rawOfStamp (s : State) (sec idx : Nat) : Int :=
  let e := s.epoch
  let y := e.x0 + ((sec : Int) - e.secAt) * ((65536 * s.nsps : Nat) : Int) + 65536 * (idx : Int)
  (y + 65535) / 65536

/-- Show the epoch in force in the registers (R328). -/
def State.showEpoch (s : State) : State :=
  let e := s.epoch
  let s := (s.setPair TIME_X0 (ofSigned 64 (e.x0 / 65536))).setFld TIME_X0_FRAC_FRAC (e.x0 % 65536).toNat
  let s := s.setPair TIME_EPOCH_SEC (ofSigned 48 e.secAt)
  s.setFld TIME_STAT_EPOCH_SET (b2n e.isSet)

/-- A new epoch in force from deal n (R323, R324, R326): SECOND windows follow its boundaries. Changes on one tick add up. `told` says whether the deal carries
TIME_STEP for it. -/
def State.putEpoch (s : State) (n : Nat) (x0 secAt : Int) (change : Int) (told : Bool) : State :=
  let old := s.stepOf n
  let step : Option Int := match old with
    | some x => some (satStep (x + change))
    | none => if told then some (satStep change) else none
  let e : Epoch := { since := n, x0 := x0, secAt := secAt, isSet := true, step := step }
  let chan := s.time.chan.map (fun (w : Nat × ChanWin) =>
    if s.fld (TIME_CH_CFG_ANCHOR w.1) = 2 then (w.1, { w.2 with hits := [], closed := none, since := max w.2.since (s.dealRaw n) }) else w)
  let s := { s with time := { s.time with
    chan := chan, epochs := (e :: s.time.epochs.filter (fun x => decide (x.since ≠ n))).take 4096 } }
  let s : State := match step with
    | some x => s.setPair TIME_STEP (ofSigned 64 x)
    | none => s
  s.showEpoch

/-- The change that a new epoch makes to every timestamp (R324). -/
def State.epochChange (s : State) (x0 secAt : Int) : Int :=
  let o := s.epoch
  let o := if o.isSet then o else .none
  (secAt - o.secAt) * ((65536 * s.nsps : Nat) : Int) - (x0 - o.x0)

/-! ### Coasting (R317) -/

/-- Whether TDC results carry REF_LOST (R312, R317). -/
def State.resultsLost (s : State) : Bool := s.flag TIME_STAT_REF_LOST || s.time.fit.any (fun f => f.2.bad)

/-- From now on timestamps carry REF_LOST (R317). -/
def State.openRefSpan (s : State) : State :=
  match s.time.refSpans with
  | (_, none) :: _ => s
  | l => { s with time := { s.time with refSpans := ((s.pair DEAL_NUM, none) :: l).take 256 } }

/-- The period that carries REF_LOST ends within the current deal (R317, R318). -/
def State.closeRefSpan (s : State) : State :=
  match s.time.refSpans with
  | (a, none) :: t => { s with time := { s.time with refSpans := (a, some (s.pair DEAL_NUM)) :: t } }
  | _ => s

end Sys2Proof.Machine
end

