-- ==== Sys2Proof/Machine/Memory.lean ====
section
/-! DEFINITION. Capture memory: striping (R354, R355, R366), requests and their order (R356 to R360), refresh (R361),
training and temperature (R362 to R365), retirement and evacuation (R366 to R369), patrol scrub (R370), power-down
(R371) and the rates of R372 to R375. -/

namespace Sys2Proof.Machine

/-! ### Striping (R354, R366) -/

/-- A subchannel. -/
def State.subOf (s : State) (i : Nat) : SubState := instGet .reset s.mem.subs i

/-- Change a subchannel. -/
def State.setSub (s : State) (i : Nat) (x : SubState) : State :=
  { s with mem := { s.mem with subs := instSet .reset s.mem.subs i x } }

/-- Where a granule of SDRAM lies after a list of re-stripings, newest first: subchannel and local granule. The k-th
retiring granule has taken the k-th freed granule. -/
def placeOf (stripe : List Nat) : List Restripe → Nat → Nat × Nat
  | [], g => (stripe.getD (g % max 1 stripe.length) 0, g / max 1 stripe.length)
  | r :: t, g =>
    let p := placeOf stripe t g
    if p.1 = r.sub then
      let k := (List.range g).countP (fun h => decide ((placeOf stripe t h).1 = r.sub))
      let freed := (List.range (r.old - r.new)).filter (fun i => decide ((placeOf stripe t (r.new + i)).1 ≠ r.sub))
      placeOf stripe t (r.new + freed.getD k 0)
    else p

/-- Whether a subchannel's evacuation is in progress. -/
def State.evacuating (s : State) : Bool := s.flag MEMC_STAT_EVAC

/-- Where the granule of an SDRAM offset lies: while it has not been evacuated, on the retiring subchannel. -/
def State.place (s : State) (off : Nat) : Nat × Nat :=
  let g := off / 4096
  match s.mem.retired with
  | r :: t =>
    if s.evacuating ∧ s.pair MEMC_EVAC_FRONT ≤ off then placeOf s.mem.stripe t g else placeOf s.mem.stripe (r :: t) g
  | [] => placeOf s.mem.stripe [] g

/-- A local granule's bank and row (R354). -/
def State.bankRow (s : State) (l : Nat) : Nat × Nat :=
  let banks := 32 * max 1 s.mem.ranks
  (l % banks, if s.mem.row8 then l / banks / 2 else l / banks)

/-- A subchannel's STATE (R376). -/
def State.subState (s : State) (i : Nat) : Nat := s.fld (MEMCS_STAT_STATE i)

/-- Whether a subchannel is live: it serves requests (R371). -/
def State.subLive (s : State) (i : Nat) : Bool := decide (2 ≤ s.subState i) && decide (s.subState i ≤ 8)

/-- A subchannel that answers no request: retired under cause 5 (R367). -/
def State.subDumb (s : State) (i : Nat) : Bool := s.subLive i && decide (s.fld (MEMCS_STAT_CAUSE i) = 5)

/-- Whether an SDRAM offset lies on a subchannel that does not answer: it reads 0 (R367). -/
def State.sdDumb (s : State) (off : Nat) : Bool := s.subDumb (s.place off).1

/-- The states of the last second: the entries within it, and the newest before it. -/
def pruneHist (from' : Int) : List (Int × Nat) → List (Int × Nat)
  | [] => []
  | e :: t => if e.1 ≤ from' then [e] else e :: pruneHist from' t

/-- A subchannel enters a state (R371). -/
def State.enterSub (s : State) (i st : Nat) : State :=
  let x := s.subOf i
  (s.setSub i { x with hist := (s.now, st) :: pruneHist (s.now - s.second) x.hist }).setFld (MEMCS_STAT_STATE i) st

/-- The time spent in a state from `from'` to `till`, of a history newest first. -/
def timeIn (st : Nat) (from' : Int) : Int → List (Int × Nat) → Int
  | _, [] => 0
  | till, e :: t => (if e.2 = st then max 0 (till - max e.1 from') else 0) + timeIn st from' (min till e.1) t

/-- A subchannel's residency in a state in the last second, in thousandths (R376). -/
def State.residency (s : State) (i st : Nat) : Nat :=
  (timeIn st (s.now - s.second) s.now (s.subOf i).hist * 1000 / max 1 s.second).toNat

/-- MEMCs_PD: the residency in self-refresh, parked or not, and in power-down. -/
def State.shownResidency (s : State) (i : Nat) : Word :=
  BitVec.ofNat 32 ((s.residency i 4 + s.residency i 5) <<< 16 + s.residency i 3)

/-- A subchannel leaves power-down or self-refresh; after self-refresh it owes no refresh (R371). -/
def State.wakeSub (s : State) (i : Nat) : State :=
  if s.subState i = 3 then s.enterSub i 2
  else if s.subState i = 4 then (s.setSub i { s.subOf i with debt := [] }).enterSub i 2
  else s

/-- Every subchannel leaves self-refresh (R371). -/
def State.wakeAll (s : State) : State :=
  (List.range 16).foldl (fun s i => if s.subState i = 4 then s.wakeSub i else s) s

/-! ### Rates (R372, R375) -/

/-- A live subchannel's sustained rate in MB/s: 0.85 of its peak, 0.80 above 85 °C. -/
def State.subRate (s : State) (i : Nat) : Nat :=
  let peak := match s.fld MEMC_CFG_SPEED with
    | 0 => 19200
    | 1 => 22400
    | _ => 25600
  if bitOf s.mem.hot (i / 2) then peak * 80 / 100 else peak * 85 / 100

/-- The sum of the sustained rates of the live subchannels. -/
def State.sustained (s : State) : Nat := (((List.range 16).filter (fun i => s.subLive i)).map s.subRate).sum

/-- MEMC_BW_SUST follows, and OVERCOMMIT is raised when the reservation comes to exceed it (R375). -/
def State.judgeRates (s : State) : State :=
  let was := s.fld MEMC_BW_SUST_MBPS
  let now := s.sustained
  let rsv := s.fld MEMC_BW_RSV_MBPS
  let s := s.setFld MEMC_BW_SUST_MBPS now
  if now < rsv ∧ rsv ≤ was then (s.setFld MEMC_STAT_OVERCOMMIT 1).logEvent 0x0909 sevAttention (rsv - now) else s

/-! ### Retirement (R366) -/

/-- A retirement cause arises: the subchannel waits for its re-striping tick. -/
def State.retireSub (s : State) (i cause : Nat) : State :=
  if 2 ≤ s.subState i ∧ s.subState i ≤ 6 then
    let s := (s.enterSub i 7).setFld (MEMCS_STAT_CAUSE i) cause
    let s := s.setSub i { s.subOf i with retrain := none, wanted := false }
    let s := (s.setFld MEMC_STAT_RETIRE 1).logEvent 0x0904 sevAttention (i + cause <<< 8)
    if s.deal.closed then { s with mem := { s.mem with later := s.mem.later ++ [i] } }
    else { s with mem := { s.mem with due := s.mem.due ++ [i] } }
  else s

/-! ### Check bits (R359, R360) -/

/-- A corrected error: counted, and above the hourly limit a retraining is wanted (R359, R365). -/
def State.memCe (s : State) (i : Nat) : State :=
  let s := (s.addSat (MEMCS_ECC_CE i) 1).setFld MEMC_STAT_CE 1
  let x := s.subOf i
  let hour : Int := 3600 * s.second
  let limit := s.fld MEMC_CE_LIMIT_PER_HOUR
  let times := ((s.now :: x.ceTimes).filter (fun t => decide (s.now - t ≤ hour))).take 65536
  let excess := decide (0 < limit) && decide (limit < times.length)
  let want := excess && decide (2 ≤ s.subState i) && decide (s.subState i ≤ 6) && x.retrain.isNone
  s.setSub i { x with ceTimes := if excess then [] else times, wanted := x.wanted || want }

/-- An uncorrectable error at an SDRAM offset: the second within one granule since start retires the subchannel (R360). -/
def State.memUe (s : State) (off : Nat) : State :=
  let p := s.place off
  let s := (s.addSat (MEMCS_ECC_UE p.1) 1).setFld MEMC_STAT_UE 1
  let s := (s.setPair MEMC_UE_ADDR (sdramBase + off)).logEvent 0x0907 sevAttention (off / 64)
  if p ∈ s.mem.ueSeen then s.retireSub p.1 4
  else { s with mem := { s.mem with ueSeen := s.mem.ueSeen ++ [p] } }

/-! ### Requests (R356 to R358) -/

/-- Whether two requests of one subchannel meet in bank and row. -/
def State.sameRow (s : State) (a b : MemReq) : Bool :=
  decide (s.bankRow (s.place a.off).2 = s.bankRow (s.place b.off).2)

/-- Whether two requests of one subchannel meet in their bank. -/
def State.sameBank (s : State) (a b : MemReq) : Bool :=
  decide ((s.bankRow (s.place a.off).2).1 = (s.bankRow (s.place b.off).2).1)

/-- Whether a bank is in in-order mode: a read waits behind a write of its bank and row (R357). -/
def State.inOrder (s : State) (x : MemReq) : List MemReq → Bool
  | [] => false
  | w :: t =>
    (w.write.isSome && s.sameBank w x && t.any (fun r => r.write.isNone && s.sameRow w r)) || s.inOrder x t

/-- The position of the request that a subchannel serves next: not behind one to the same 64-byte address, nor behind
one of its bank while that is in in-order mode; then the class of R358, then arrival. -/
def State.nextReq (s : State) (q : List MemReq) : Option Nat :=
  let ok := fun (i : Nat) (r : MemReq) =>
    (q.take i).all (fun e => decide (e.off ≠ r.off) && !(s.sameBank e r && s.inOrder r q))
  let cands := (q.zipIdx).filter (fun x => ok x.2 x.1)
  (cands.foldl (fun best x =>
    match best with
    | none => some x
    | some b => if x.1.cls < b.1.cls then some x else some b) (none : Option (MemReq × Nat))).map (fun x => x.2)

/-- 64 bytes as an uncorrectable error leaves them: nothing says which bits are wrong (R360). -/
def State.spoilBytes (s : State) (bs : List Byte) : List Byte × State :=
  let (v, s) := (List.range 8).foldl (fun (acc : List Byte × State) _ =>
    let (x, s) := acc.2.fresh
    (acc.1 ++ leBytes 8 x.toNat, s)) ([], s)
  (bs.zipWith (fun a b => a ^^^ b) v, s)

/-- One request is served: a write stores its bytes; a read returns the data as read, its errors corrected or counted. -/
def State.serveReq (s : State) (i : Nat) (r : MemReq) : State :=
  match r.write with
  | some bs => s.sdWrite (sdramBase + r.off) (bs.take 64)
  | none =>
    let dumb := s.subDumb i
    let good := s.sdRead (sdramBase + r.off) 64
    let (bytes, s) := if dumb then (List.replicate 64 (0 : Byte), s) else if r.ecc = 2 then s.spoilBytes good else (good, s)
    let s := { s with rdata := (List.range 16).map (fun w => BitVec.ofNat 32 (leNat ((bytes.drop (4 * w)).take 4))) }
    if dumb || decide (r.ecc = 2) then s.memUe r.off else if r.ecc = 1 then s.memCe i else s

/-- The position of the request that takes a slot next: of the lowest class of R358, then the oldest. -/
def nextWaiting (q : List MemReq) : Option Nat :=
  ((q.zipIdx).foldl (fun best x =>
    match best with
    | none => some x
    | some b => if x.1.cls < b.1.cls then some x else some b) (none : Option (MemReq × Nat))).map (fun x => x.2)

/-- A request takes a slot of the queue: entries into in-order mode and the occupancy are counted (R356, R357, R376). -/
def State.enqueue (s : State) (i : Nat) (r : MemReq) : State :=
  let x := s.subOf i
  let entered := !s.inOrder r x.queue && s.inOrder r (x.queue ++ [r])
  let s := s.setSub i { x with queue := x.queue ++ [r] }
  let s := s.when entered (fun s => s.addSat (MEMCS_QUEUE_INORDER i) 1)
  s.maxFld (MEMCS_QUEUE_MAX i) (x.queue.length + 1)

/-- Up to `n` waiting requests take the free slots of the queue of 64 (R356, R358). -/
def State.fillQueue (s : State) (i : Nat) : Nat → State
  | 0 => s
  | n + 1 =>
    let x := s.subOf i
    if 64 ≤ x.queue.length then s
    else
      match nextWaiting x.wait with
      | some k =>
        match x.wait[k]? with
        | some r => State.fillQueue ((s.setSub i { x with wait := x.wait.eraseIdx k }).enqueue i r) i n
        | none => s
      | none => s

/-- A subchannel serves up to `n` requests of its queue; waiting ones move up. -/
def State.serveQueue (s : State) (i : Nat) : Nat → State
  | 0 => s
  | n + 1 =>
    let q := (s.subOf i).queue
    match s.nextReq q with
    | some k =>
      match q[k]? with
      | some r => State.serveQueue (((s.setSub i { s.subOf i with queue := q.eraseIdx k }).serveReq i r).fillQueue i 1) i n
      | none => s
    | none => s

/-- A request comes to the subchannel of its offset, where it waits for a slot. -/
def State.askMem (s : State) (r : MemReq) : State :=
  let i := (s.place r.off).1
  (s.setSub i { s.subOf i with wait := (s.subOf i).wait ++ [r] }).fillQueue i 1

/-- A 64-byte request reaches its subchannel, and the subchannel serves `served` of its requests (R356 to R358). A request wakes
a subchannel from PD or SR, and one of another class than the display's wakes all from SR; a parked one, and one in a retraining
window, serves nothing (R371). -/
def State.memRequest (s : State) (r : MemReq) (served : Nat) : State :=
  if s.capacity ≤ r.off ∨ r.off % 64 ≠ 0 then s
  else
    let i := (s.place r.off).1
    if !s.subLive i then s
    else
      let s := if r.cls = 1 ∨ r.cls = 6 then s.wakeSub i else s.wakeAll.wakeSub i
      let s := s.askMem r
      if s.mem.parked ∨ s.subState i = 6 then s else s.serveQueue i served

/-! ### Refresh (R361) -/

/-- A same-bank refresh of a bank address falls due. It is issued when no request is queued for those banks; a debt of 4
forces it ahead of them. -/
def State.refreshDue (s : State) (i rank ba : Nat) : State :=
  let st := s.subState i
  if !s.subLive i || decide (st = 4) || s.mem.parked then s
  else
    let s := s.wakeSub i
    let x := s.subOf i
    let x := if rank = 0 ∧ ba = 0 then { x with since := x.since + 1 } else x
    let key := 4 * rank + ba
    let debt := min 4 (instGet 0 x.debt key + 1)
    let s := s.maxFld (MEMCS_REFRESH_MAX_DEBT i) debt
    let busy := x.queue.any (fun r =>
      let b := (s.bankRow (s.place r.off).2).1
      decide (b / 32 = rank) && decide (b % 32 / 8 = ba))
    if !busy then s.setSub i { x with debt := instSet 0 x.debt key 0 }
    else if debt = 4 then
      let s := s.setSub i { x with debt := instSet 0 x.debt key 3 }
      ((s.addSat (MEMCS_REFRESH_FORCED i) 1).setFld MEMC_STAT_REFRESH_FORCED 1).logEvent 0x0908 sevInfo i
    else s.setSub i { x with debt := instSet 0 x.debt key debt }

/-! ### Power-down (R371) -/

/-- Some class other than the display is active (R371): a capture unit armed, requests waiting, products written to the
product ring, spilled records, or a DMA channel that transfers. The smallest latency tolerance of these classes is 0, so
self-refresh needs the display to be the only active class. -/
def State.othersActive (s : State) : Bool :=
  decide (s.fld CAP_RUN_ARMED ≠ 0) || (List.range 16).any (fun i => !(s.subOf i).queue.isEmpty || !(s.subOf i).wait.isEmpty) ||
  s.evacuating || s.img.products.any (fun p => p.ring && s.bitSet (POT_PROD_EN_EN (p.number / 32)) (p.number % 32)) || !s.eth.spill.isEmpty || (List.range 16).any (fun c => decide (s.fld (DMA_STAT_STATE c) = 1) || decide (s.fld (DMA_STAT_STATE c) = 2))

/-- A class with tolerance 0 that becomes active takes every subchannel out of self-refresh (R371). -/
def State.wakeSr (s : State) : State := if s.othersActive then s.wakeAll else s

/-- The display is active and states a tolerance of at least 2 µs: 6 line times of HTOTAL pixels at 600 MHz / PDIV (R439,
R444). -/
def State.displayTolerant (s : State) : Bool :=
  s.flag DISP_CFG_EN && decide (1200 ≤ 6 * s.fld DISP_H_TIMING_TOTAL * (s.fld DISP_CFG_PDIV_M1 + 1))

/-- An idle subchannel enters power-down, or self-refresh when the display is the one active class (R371). -/
def State.powerDown (s : State) (i : Nat) (sr : Bool) : State :=
  let st := s.subState i
  if !(s.subOf i).queue.isEmpty then s
  else if sr then
    if (st = 2 ∨ st = 3) ∧ s.flag MEMC_CFG_SR_EN = true ∧ s.othersActive = false ∧ s.displayTolerant = true then
      s.enterSub i 4
    else s
  else if st = 2 ∧ s.flag MEMC_CFG_PD_EN = true then s.enterSub i 3
  else s

/-- Every live subchannel is parked in self-refresh for a relock (R342, R371), a window in progress cut short (R365); or leaves it. -/
def State.park (s : State) (on : Bool) : State :=
  let s := { s with mem := { s.mem with parked := on } }
  (List.range 16).foldl (fun s i =>
    let st := s.subState i
    if on then (if 2 ≤ st ∧ st ≤ 6 then s.enterSub i 5 else s)
    else
      let s := s.setSub i { s.subOf i with debt := [] }
      if st = 5 then s.enterSub i 2 else s) s

/-! ### Temperature and training (R362, R364, R365) -/

/-- A signed 8-bit temperature. -/
def temp8 (x : Int) : Nat := ofSigned 8 (clampInt (-128) 127 x)

/-- A DIMM's temperature is read (R362, R365). -/
def State.dimmTemp (s : State) (ch : Nat) (t : Int) : State :=
  let hot := decide (instGet 85 s.mem.limits ch < t)
  let subs := [2 * ch, 2 * ch + 1].filter (fun i => s.subLive i)
  if subs.isEmpty then s
  else
    let s := subs.foldl (fun s i =>
      let s := s.setFld (MEMCS_TEMP_NOW i) (temp8 t)
      let x := s.subOf i
      let drift := decide (10 < (t - toSigned 8 (s.fld (MEMCS_TEMP_TRAINED i))).natAbs)
      if drift && x.retrain.isNone && decide (s.subState i ≤ 6) then s.setSub i { x with wanted := true } else s) s
    let s := if hot then (s.setFld MEMC_STAT_HOT 1).logEvent 0x090B sevAttention (ch + temp8 t <<< 8) else s
    let mask := if 85 < t then s.mem.hot ||| 2 ^ ch else s.mem.hot - (if bitOf s.mem.hot ch then 2 ^ ch else 0)
    { s with mem := { s.mem with hot := mask } }.judgeRates


/-- The centre of an eye or a Vref window. -/
def centre (w : BitVec 8 × BitVec 8) : BitVec 8 := BitVec.ofNat 8 ((w.1.toNat + w.2.toNat) / 2)

/-- A lane has a working setting: both eyes at least 16/64 UI wide, both Vref windows at least 6 codes (R364). -/
def eyeWorks (e : Eye) : Bool :=
  decide (e.read.1.toNat + 16 ≤ e.read.2.toNat) && decide (e.write.1.toNat + 16 ≤ e.write.2.toNat) &&
  decide (e.wvref.1.toNat + 6 ≤ e.wvref.2.toNat + 1) && decide (e.rvref.1.toNat + 6 ≤ e.rvref.2.toNat + 1)

/-- MEMCs_LANEl_DLY with every delay centred in its eye (R364, R376). -/
def eyeDly (e : Eye) : Word := e.wrlvl ++ e.rden ++ centre e.read ++ centre e.write

/-- MEMCs_LANEl_VREF with both codes centred in their windows. -/
def eyeVref (e : Eye) : Word := (0 : BitVec 16) ++ centre e.wvref ++ centre e.rvref

/-- A retraining window begins (R365): of the retraining in progress, or of a wanted one when the other subchannel of the DIMM is
not being retrained; not with a refresh debt of 3, nor while the subchannel is parked or retires, nor under WDOG (R466). -/
def State.windowBegin (s : State) (i : Nat) : State :=
  let x := s.subOf i
  let owed := x.debt.any (fun d => decide (3 ≤ d.2))
  let mate := if i % 2 = 0 then i + 1 else i - 1
  let cur := match x.retrain with
    | some r => some r
    | none => if x.wanted && (s.subOf mate).retrain.isNone then some { lane := 0, windows := 0 : Retrain } else none
  match cur with
  | none => s
  | some r =>
    if !(decide (2 ≤ s.subState i) && decide (s.subState i ≤ 4)) || owed || s.flag SUP_STAT_WDOG then s
    else
      let s := if x.retrain.isNone ∧ s.fld MEMC_CTL_SC = i then s.setFld MEMC_CTL_RETRAIN 0 else s
      let s := s.wakeSub i
      (s.setSub i { s.subOf i with retrain := some r, wanted := false }).enterSub i 6

/-- A retraining window ends (R365): the lane's 256th applies the new setting, or, when none works, retires the subchannel
(R364, R366). A window that a park cut short does not count. -/
def State.windowEnd (s : State) (i : Nat) (found : Eye) : State :=
  match (s.subOf i).retrain with
  | none => s
  | some r =>
    if s.subState i ≠ 6 then s
    else
      let s := s.enterSub i 2
      let x := s.subOf i
      if r.windows < 255 then s.setSub i { x with retrain := some { r with windows := r.windows + 1 } }
      else if !eyeWorks found then
        ((s.setSub i { x with retrain := none }).setFld MEMC_STAT_TRAIN_FAIL 1).retireSub i 2
      else
        let moves := decide (s.reg (MEMC_LANE_DLY i r.lane).addr ≠ eyeDly found)
        let s := (s.setReg (MEMC_LANE_DLY i r.lane).addr (eyeDly found)).setReg (MEMC_LANE_VREF i r.lane).addr (eyeVref found)
        let s := s.when moves (fun s => { s with mem := { s.mem with moved := s.mem.moved ++ [i / 2] } })
        let s := s.logEvent 0x0903 sevInfo (i + r.lane <<< 8)
        if r.lane < 4 then s.setSub i { x with retrain := some { lane := r.lane + 1, windows := 0 } }
        else
          let s := s.setSub i { x with retrain := none }
          let s := (s.addSat (MEMCS_STAT_TRAINS i) 1).setFld MEMC_STAT_RETRAIN 1
          s.setFld (MEMCS_TEMP_TRAINED i) (s.fld (MEMCS_TEMP_NOW i))

/-- MEMC_CTL names a subchannel for retraining (R365): ignored when it is not live. Under WDOG the request stays (R466). -/
def State.memcRetrain (s : State) (i : Nat) : State :=
  let s := s.setFld MEMC_CTL_SC i
  if 2 ≤ s.subState i ∧ s.subState i ≤ 6 then
    (s.setFld MEMC_CTL_RETRAIN 1).setSub i { s.subOf i with wanted := true }
  else s.ignored MEMC_CTL.addr

/-- The training tables are queued for the calibration store (R363, R376). -/
def State.memcStore (s : State) : State := { s with mem := { s.mem with store := List.range 8 } }

/-! ### Re-striping and evacuation (R366, R367) -/

/-- The next retiring granule at or above an SDRAM offset, of a re-striping. -/
def State.nextRetiring (s : State) (r : Restripe) (from' : Nat) : Option Nat :=
  ((List.range (r.new - from' / 4096)).map (fun i => from' / 4096 + i)).find? (fun g =>
    decide ((placeOf s.mem.stripe (s.mem.retired.drop 1) g).1 = r.sub)) |>.map (fun g => 4096 * g)

/-- The retiring granules still to be copied. -/
def State.retiringLeft (s : State) (r : Restripe) (from' : Nat) : Nat :=
  (List.range r.new).countP (fun g =>
    decide (from' ≤ 4096 * g) && decide ((placeOf s.mem.stripe (s.mem.retired.drop 1) g).1 = r.sub))

/-- The last granule has been copied: the subchannel is retired (R366 step 4), and requests that still wait in it go to the
destinations of their granules. -/
def State.retiredDone (s : State) (i : Nat) : State :=
  let left := (s.subOf i).queue ++ (s.subOf i).wait
  let s := ((s.setFld (MEMCS_STAT_STATE i) 9).putBit MEMC_LIVE_LIVE i false).putBit MEMC_LIVE_RETIRED i true
  let s := ((s.setFld MEMC_STAT_EVAC 0).setFld MEMC_EVAC_STAT_ACTIVE 0).setFld MEMC_EVAC_STAT_LEFT_GIB 0
  let s := (s.setSub i .reset).logEvent 0x0905 sevInfo i
  let s := left.foldl (fun s r => if r.off < s.capacity then s.askMem r else s) s
  let s := if s.fld MEMC_LIVE_LIVE = 0 then (s.setFld MEMC_STAT_ALL_RETIRED 1).logEvent 0x090A sevAttention 0 else s
  s.judgeRates

/-- Show the evacuation's front and what is left (R376). -/
def State.showEvac (s : State) (r : Restripe) (front : Nat) : State :=
  (s.setPair MEMC_EVAC_FRONT front).setFld MEMC_EVAC_STAT_LEFT_GIB (ceilDiv (s.retiringLeft r front * 4096) (2 ^ 30))

/-- Step 1 of R49: the oldest pending subchannel is re-striped, unless an evacuation is in progress (R366, R369). -/
def State.restripe (s : State) : State :=
  match s.mem.due with
  | i :: t =>
    if s.evacuating then s
    else
      let old := s.capacity
      let new := old - s.mem.csub
      let r : Restripe := { sub := i, old := old / 4096, new := new / 4096 }
      let s := { s with
        mem := { s.mem with due := t, retired := r :: s.mem.retired }, cap := { s.cap with retired := true },
        sdram := s.sdram.filter (fun x => decide (x.1 < new)) }
      let s := (s.setPair MEMC_CAPACITY new).setFld MEMC_STAT_DEG 1
      let s := (s.enterSub i 8).setFld MEMC_STAT_EVAC 1
      let s := (s.setFld MEMC_EVAC_STAT_ACTIVE 1).setFld MEMC_EVAC_STAT_SC i
      let s := s.setSub i { s.subOf i with retrain := none, wanted := false }
      match s.nextRetiring r 0 with
      | some f => s.showEvac r f
      | none => s.retiredDone i
  | [] => s

/-- Causes that came after the close point wait for the next tick. -/
def State.restripeLater (s : State) : State :=
  { s with mem := { s.mem with due := s.mem.due ++ s.mem.later, later := [] } }

/-- One retiring granule is copied (R366); `ue` lists the offsets in it whose words are uncorrectable. A subchannel that
does not answer leaves every granule not yet copied zero at its destination (R367). -/
def State.evacCopy (s : State) (answers : Bool) (ue : List Nat) : State :=
  match s.mem.retired with
  | [] => s
  | r :: _ =>
    if !s.evacuating || s.mem.parked then s
    else
      let front := s.pair MEMC_EVAC_FRONT
      if !answers || s.subDumb r.sub then
        let n := s.retiringLeft r front
        let gone := fun (o : Nat) => decide (front ≤ o) && decide (o < 4096 * r.new) &&
          decide ((placeOf s.mem.stripe (s.mem.retired.drop 1) (o / 4096)).1 = r.sub)
        let s := { s with sdram := s.sdram.filter (fun x => !gone x.1) }
        let s := ((s.addSat MEMC_LOST_GRANULES n).setFld MEMC_STAT_LOST 1).logEvent 0x0906 sevAttention n
        s.retiredDone r.sub
      else
        let s := (ue.filter (fun o => decide (o / 4096 = front / 4096))).foldl (fun s o => s.memUe o) s
        match s.nextRetiring r (front + 4096) with
        | some f => s.showEvac r f
        | none => s.retiredDone r.sub

/-! ### Patrol scrub (R370) -/

/-- Patrol scrub may read a granule: no foreground request waits in the subchannel, or the slot that every 64 refresh
intervals guarantee has come (R59, R370). -/
def SubState.scrubTurn (x : SubState) : Bool := x.queue.isEmpty || decide (64 ≤ x.since)

/-- Patrol scrub reads one granule: corrected words are written back, which changes no data; uncorrectable ones are
counted. It pauses in parks, windows and evacuation, and a pass begins once per MEMC_SCRUB_CFG.HOURS. Under WDOG nothing
schedules it (R466). -/
def State.scrubStep (s : State) (i ces : Nat) (ue : List Nat) : State :=
  if s.evacuating ∨ s.flag SUP_STAT_WDOG = true ∨ !(decide (2 ≤ s.subState i) && decide (s.subState i ≤ 4)) ∨ s.mem.csub = 0 ∨ (s.subOf i).scrubTurn = false then s
  else
    let x := { s.subOf i with since := 0 }
    let total := s.mem.csub / 4096
    let fresh := (List.range 16).all (fun j => decide ((s.subOf j).scrub = 0))
    let early := fresh && (match s.mem.passAt with
      | some a => decide (s.now < a)
      | none => false)
    if total ≤ x.scrub ∨ early = true then s
    else
      let s := if fresh then { s with mem := { s.mem with passAt := some (s.now + 3600 * s.fld MEMC_SCRUB_CFG_HOURS * s.second) } } else s
      let s := s.setSub i { x with scrub := x.scrub + 1 }
      let s := (List.range ces).foldl (fun s _ => s.memCe i) s
      let s := (ue.filter (fun o => decide ((s.place o).1 = i))).foldl (fun s o => s.memUe o) s
      let live := (List.range 16).filter (fun j => s.subLive j && decide (s.subState j ≤ 6))
      let sum := (live.map (fun j => (s.subOf j).scrub)).sum
      if sum = live.length * total then
        let s := live.foldl (fun s j => s.setSub j { s.subOf j with scrub := 0 }) s
        (s.addSat MEMC_SCRUB_STAT_PASSES 1).setFld MEMC_SCRUB_STAT_PROGRESS 0
      else s.setFld MEMC_SCRUB_STAT_PROGRESS (sum * 65536 / (max 1 (live.length * total)))

/-! ### Meanings -/

/-- MEMORY_REQUEST (R356). -/
def execMemoryRequest (off : Nat) (write : Option (List Byte)) (cls : Fin 8) (ecc : Fin 3) (served : Nat) (s : State) :
    Host.Outcome State Fault Refusal :=
  done (s.memRequest { off := off, write := write, cls := cls + 1, ecc := ecc } served)

/-- REFRESH_DUE (R361). -/
def execRefreshDue (sub : Fin 16) (rank : Fin 2) (bank : Fin 4) (s : State) : Host.Outcome State Fault Refusal :=
  done (s.refreshDue sub rank bank)

/-- POWER_DOWN_ENTRY (R371). -/
def execPowerDownEntry (sub : Fin 16) (sr : Bool) (s : State) : Host.Outcome State Fault Refusal :=
  done (s.powerDown sub sr)

/-- DIMM_TEMP_POLL (R365). -/
def execDimmTempPoll (ch : Fin 8) (t : Int) (s : State) : Host.Outcome State Fault Refusal := done (s.dimmTemp ch t)

/-- RETRAIN_WINDOW (R365): it begins, or it ends with what the lane's tests have found so far. -/
def execRetrainWindow (sub : Fin 16) (ends : Option Eye) (s : State) : Host.Outcome State Fault Refusal :=
  match ends with
  | none => done (s.windowBegin sub)
  | some found => done (s.windowEnd sub found)

/-- MEMC_RETRAIN (R365). -/
def execMemcRetrain (sub : Fin 16) (s : State) : Host.Outcome State Fault Refusal := done (s.memcRetrain sub)

/-- MEMC_STORE (R363). -/
def execMemcStore (s : State) : Host.Outcome State Fault Refusal := done s.memcStore

/-- EVACUATION_GRANULE_COPY (R366). -/
def execEvacuationGranuleCopy (answers : Bool) (ue : List Nat) (s : State) : Host.Outcome State Fault Refusal :=
  done (s.evacCopy answers ue)

/-- SCRUB_STEP (R370). -/
def execScrubStep (sub : Fin 16) (ces : Nat) (ue : List Nat) (s : State) : Host.Outcome State Fault Refusal :=
  done (s.scrubStep sub ces ue)

/-- SUBCHANNEL_PHY_FAILURE (R366). -/
def execSubchannelPhyFailure (sub : Fin 16) (s : State) : Host.Outcome State Fault Refusal := done (s.retireSub sub 5)

end Sys2Proof.Machine
end

