-- ==== Sys2Proof/Machine/Clock.lean ====
section
/-! DEFINITION. Clock generation: coasting and relocks through the bridge clock (R341 to R347), band searches (R340,
R346), CLKOUT settings (R335, R336), fine phases (R337), and the die links (R14, R16). -/

namespace Sys2Proof.Machine

/-- REFCLK's declared frequency in MHz (R330). -/
def State.refMhz (s : State) : Nat := if s.flag TIME_CFG_REFSEL then 100 else 10

/-- An MDLL's programmed frequency in kHz, as a fraction (R330). -/
def State.mdllRate (s : State) (m : Nat) : Nat × Nat :=
  (s.refMhz * 1000 * s.fld (CG_MDLL_CFG_MULT m), max 1 (s.fld (CG_MDLL_CFG_REFDIV m)))

/-- The same in whole kHz. -/
def State.mdllKhz (s : State) (m : Nat) : Nat := (s.mdllRate m).1 / (s.mdllRate m).2

/-- CG_MDLLm_MEAS: the frequency measured against REFCLK, within 2 kHz of the programmed one (R349); which value is left open. -/
def State.measure (s : State) (m : Nat) : State :=
  let (f, s) := s.fresh
  s.setReg (CG_MDLL_MEAS m).addr (BitVec.ofNat 32 (s.mdllKhz m + f.toNat % 5 - 2))

/-- The MDLL that an output takes its clock from, if any (R334, R335). -/
def State.outMdll (s : State) (o : Nat) : Option Nat :=
  if o = 1 then some 1
  else if o < 4 then some 0
  else match s.fld (CG_OUT_CFG_SRC o) with
    | 0 => some 0
    | 1 => some 2
    | _ => none

/-- Whether an MDLL is enabled. -/
def State.mdllOn (s : State) (m : Nat) : Bool := s.flag (CG_MDLL_CFG_EN m)

/-- An output's divider: 0 stands for 65,536 (R334). -/
def State.outDiv (s : State) (o : Nat) : Nat :=
  let d := s.fld (CG_OUT_CFG_DIV o)
  if d = 0 then 65536 else d

/-- D_b of an output with divider `div` whose MDLL moves from one rate to another: 400 MHz over the higher frequency, rounded
up (R341). -/
def bridgeDivider (div : Nat) (old new : Nat × Nat) : Nat :=
  let d := fun (r : Nat × Nat) => ceilDiv (400000 * r.2 * div) (max 1 r.1)
  max 1 (min (d old) (d new))

/-- The outputs of an MDLL run on the bridge clock, or leave it (R341); `old` is the rate that the MDLL leaves. MDLL 3 is never
bridged (R344). -/
def State.bridge (s : State) (m : Nat) (on : Bool) (old : Nat × Nat) : State :=
  if m = 3 then s
  else (List.range 7).foldl (fun s o =>
    if s.outMdll o = some m then
      let s := if on then { s with clk := { s.clk with
          bridgeDiv := instSet 1 s.clk.bridgeDiv o (bridgeDivider (s.outDiv o) old (s.mdllRate m)) } } else s
      s.putBit CG_STAT_BRIDGE o on
    else s) s

/-- The frequency of an output in kHz, as a fraction; none while it stands still (R333 to R336, R341). -/
def State.outRate (s : State) (o : Nat) : Option (Nat × Nat) :=
  if !s.flag (CG_OUT_CFG_EN o) then none
  else match s.outMdll o with
    | some m =>
      let r := s.mdllRate m
      if s.bitSet CG_STAT_BRIDGE o then
        some (Config.bridgeKhz, if s.clk.started then instGet 1 s.clk.bridgeDiv o else bridgeDivider (s.outDiv o) r r)
      else some (r.1, r.2 * s.outDiv o)
    | none =>
      if s.fld (CG_OUT_CFG_SRC o) = 2 then (if s.time.grid && !s.deal.stopped then some (s.nsps, 1000 * s.outDiv o) else none)
      else if s.flag TIME_STAT_REF_PRESENT then some (s.refMhz * 1000, s.outDiv o) else none

/-- Whether an output that takes the sample clock rises, CGo_SKEW and the fine phase later, for raw index n (R335). -/
def State.outMarks (s : State) (o : Nat) (n : Int) : Bool :=
  s.flag (CG_OUT_CFG_EN o) && (s.outMdll o).isNone && decide (s.fld (CG_OUT_CFG_SRC o) = 2) &&
  decide (n % ((s.outDiv o : Nat) : Int) = 0)

/-- An MDLL begins to relock from a rate (R341, R344): a relock of MDLL 1 parks the memory (R342). -/
def State.startRelock (s : State) (m : Nat) (old : Nat × Nat) : State :=
  let s := { s with clk := { s.clk with relocking := s.clk.relocking ||| 2 ^ m } }
  let s := ((s.setFld (CG_MDLL_STAT_RELOCK m) 1).setFld (CG_MDLL_STAT_LOCKED m) 0).putBit CG_STAT_LOCKED m false
  let s := (s.setFld (CG_MDLL_STAT_COAST m) 0).bridge m true old
  let s := if m = 1 then s.park true else s
  if m = 3 then { s with clk := { s.clk with released := some s.rawNow } } else s

/-- A CLKOUT setting takes effect: a change of DIV or SRC sets the phase to 0 (R336). -/
def State.putOut (s : State) (o : Nat) (v : Word) : State :=
  let same := decide (s.fld (CG_OUT_CFG_DIV o) = wordBits v 0 16) && decide (s.fld (CG_OUT_CFG_SRC o) = wordBits v 26 2)
  let s := s.setReg (CG_OUT_CFG o).addr (v &&& 0x8C00FFFF)
  let s := if same then s else s.setReg (CG_OUT_PHASE o).addr 0
  match s.outMdll o with
  | some m => s.putBit CG_STAT_BRIDGE o (bitOf (s.clk.relocking ||| s.clk.failed) m)
  | none => s.putBit CG_STAT_BRIDGE o false

/-- Whether a CLKOUT write takes effect: its output is not on the bridge clock, and its raw index has passed (R336). -/
def State.outReady (s : State) (w : OutWrite) : Bool := !s.bitSet CG_STAT_BRIDGE w.out && decide (w.after < s.rawNow)

/-- CLKOUT writes whose time has come take effect (R336). -/
def State.releaseOuts (s : State) : State :=
  let ready := s.clk.writes.filter (fun w => s.outReady w)
  let s := { s with clk := { s.clk with writes := s.clk.writes.filter (fun w => !s.outReady w) } }
  ready.foldl (fun s w => s.putOut w.out w.value) s

/-- The interval in which MDLL 3 moved the sample clock ends: deals that overlap it carry GAP (R344). -/
def State.endGap (s : State) : State :=
  match s.clk.released with
  | some a =>
    let s := { s with clk := { s.clk with released := none } }
    if s.flag CONV_CLK_SRC then
      { s with clk := { s.clk with gaps := ((a, s.rawNow) :: s.clk.gaps).take 64 } }.setFld CG_STAT_SSYN_GAP 1
    else s
  | none => s

/-- An MDLL is locked again: its outputs return (R341); MDLL 3's relock interval ends (R344). -/
def State.endRelock (s : State) (m : Nat) : State :=
  let s := { s with clk := { s.clk with relocking := s.clk.relocking - (if bitOf s.clk.relocking m then 2 ^ m else 0) } }
  let s := ((s.setFld (CG_MDLL_STAT_RELOCK m) 0).setFld (CG_MDLL_STAT_LOCKED m) 1).putBit CG_STAT_LOCKED m true
  let s := s.bridge m false (0, 1)
  let s := if m = 1 then s.park false else s
  let s := if m = 3 then s.endGap else s
  (if s.flag TIME_STAT_REF_PRESENT then s.measure m else s).releaseOuts

/-- A relock that no MDLL is in any longer: after a common one the clocks coast no more, and REF_LOST clears (R318, R342). -/
def State.relockOver (s : State) : State :=
  if s.clk.allLock && decide (s.clk.relocking = 0) then
    (({ s with clk := { s.clk with allLock := false } }.setFld CG_STAT_COAST 0).setFld TIME_STAT_REF_LOST 0).closeRefSpan
  else s

/-- MDLLs end their relock, `ns` ns after their outputs went to the bridge clock; when none is left the relock is complete,
counted and logged (R349, R350). -/
def State.endRelocks (s : State) (ms : List Nat) (ns : Nat) : State :=
  let s := (ms.foldl (fun s m => s.endRelock m) s).maxFld CG_RELOCK_MAX_NS ns
  if s.clk.relocking = 0 then
    (((s.setFld CG_STAT_RELOCK 1).addSat CG_RELOCK_COUNT_COUNT 1).logEvent 0x0202 sevInfo ns).relockOver
  else s

/-- The sample clock is gone (R71): no further tick occurs. -/
def State.clockGone (s : State) : State :=
  let s := (s.setFld CONV_STAT_SCLK_LOST 1).logEvent 0x0402 sevFatal 0
  { s with deal := { s.deal with stopped := true } }

/-- An MDLL fails (R346): its outputs stay on the bridge clock until a full reset. -/
def State.mdllFail (s : State) (m : Nat) : State :=
  let s := { s with clk := { s.clk with
    failed := s.clk.failed ||| 2 ^ m, relocking := s.clk.relocking - (if bitOf s.clk.relocking m then 2 ^ m else 0) } }
  let s := ((s.setFld (CG_MDLL_STAT_RELOCK m) 0).setFld (CG_MDLL_STAT_LOCKED m) 0).putBit CG_STAT_LOCKED m false
  let s := (if s.clk.started then s.bridge m true (s.mdllRate m) else s).logEvent 0x0203 sevFatal m
  let s := if m = 3 ∧ s.flag CONV_CLK_SRC = true then s.clockGone else s
  s.relockOver

/-! ### Reference (R317, R318, R342, R345, R347) -/

/-- The edges of REFCLK in 100 µs at its declared frequency. -/
def State.refEdges (s : State) : Nat := 100 * s.refMhz

/-- REFCLK is declared lost (R317, R345): every MDLL coasts and is locked to nothing, and a relock in progress stops. -/
def State.coastAll (s : State) : State :=
  let was := s.flag TIME_STAT_REF_LOST
  let s := s.setFld TIME_STAT_REF_LOST 1
  let s := if was then s else (s.logEvent 0x0301 sevAttention 0).openRefSpan
  let busy := s.clk.relocking
  let s := (List.range 4).foldl (fun s m =>
    if bitOf busy m then
      let s := ((s.setFld (CG_MDLL_STAT_RELOCK m) 0).bridge m false (0, 1))
      if m = 1 then s.park false else s
    else s) s
  let s := s.endGap
  let s := { s with clk := { s.clk with relocking := 0, allLock := false } }
  let s := (List.range 4).foldl (fun s m =>
    let s := if s.mdllOn m && !bitOf s.clk.failed m then s.setFld (CG_MDLL_STAT_COAST m) 1 else s
    ((s.setFld (CG_MDLL_STAT_LOCKED m) 0).putBit CG_STAT_LOCKED m false).setReg (CG_MDLL_MEAS m).addr 0) s
  (s.setFld CG_STAT_COAST 1).releaseOuts

/-- The detector's reading of REFCLK (R317): no edge for `quiet` ns, and `edges` edges in the last 100 µs. It declares REFCLK
lost after 1 µs without an edge, or when the count is more than 1 % from nominal. -/
def State.refLost (s : State) (quiet edges : Nat) : State :=
  let n := s.refEdges
  let off := if edges < n then n - edges else edges - n
  if !s.clk.started then s
  else
    let s := s.setFld TIME_STAT_REF_PRESENT (b2n (decide (quiet < 1000)))
    if (decide (1000 ≤ quiet) || decide (n < 100 * off)) && (!s.flag TIME_STAT_REF_LOST || s.clk.allLock) then s.coastAll else s

/-- REFCLK has been watched for `windows` windows of 100 µs without a break, with `fewest` to `most` edges each: after 1 s within
1 % it is requalified (R318). PPS goes to REQUAL (R325), and all MDLLs relock together (R342). -/
def State.refRequal (s : State) (windows fewest most : Nat) : State :=
  let n := s.refEdges
  let good := decide (10000 ≤ windows) && decide (99 * n ≤ 100 * fewest) && decide (100 * most ≤ 101 * n)
  if !good || !s.flag TIME_STAT_REF_LOST || s.clk.allLock then s
  else
    let s := ((s.setFld TIME_STAT_REF_PRESENT 1).setFld TIME_STAT_REQUAL 1).setFld TIME_STAT_PPS_LOST 0
    let s := s.logEvent 0x0302 sevInfo 0
    let was := s.clk.was2.getD (s.mdllRate 2)
    let s := { s with clk := { s.clk with allLock := true, was2 := none } }
    (List.range 4).foldl (fun s m =>
      if s.mdllOn m && !bitOf s.clk.failed m then s.startRelock m (if m = 2 then was else s.mdllRate m) else s) s

/-- Relocks complete of the MDLLs of a mask, `ns` ns after their outputs went to the bridge clock. -/
def State.relockDone (s : State) (locked : BitVec 4) (ns : Nat) : State :=
  let ms := (List.range 4).filter (fun m => bitOf s.clk.relocking m && locked.getLsbD m)
  if ms.isEmpty then s else s.endRelocks ms ns

/-! ### Unlock and band search (R340, R346) -/

/-- An MDLL loses lock with REFCLK present; the third time within 1 s it fails. -/
def State.unlock (s : State) (m : Nat) : State :=
  if !s.mdllOn m || !s.flag (CG_MDLL_STAT_LOCKED m) || s.flag TIME_STAT_REF_LOST && !s.clk.allLock then s
  else
    let s := (s.stick CG_STAT_UNLOCK m).logEvent 0x0201 sevAttention m
    let sec : Int := (s.nsps : Int) / 400
    let times := (s.now :: instGet [] s.clk.unlocks m).filter (fun t => decide (s.now - t ≤ sec))
    let s := { s with clk := { s.clk with unlocks := instSet [] s.clk.unlocks m (times.take 3) } }
    if 3 ≤ times.length then s.mdllFail m else s.startRelock m (s.mdllRate m)

/-- A band search ends (R340, R346) with a band, or without one; `ns` is the time on the bridge clock. -/
def State.bandSearch (s : State) (m : Nat) (band : Option (BitVec 6)) (ns : Nat) : State :=
  if s.clk.started ∧ bitOf s.clk.relocking m = false then s
  else
    let code := match band with
      | some b => b.toNat
      | none => 0x3F
    let s := (s.setFld CG_STAT_BAND_SEARCH 1).logEvent 0x0204 sevInfo (m + code <<< 8)
    match band with
    | some b =>
      let s := s.setFld (CG_MDLL_STAT_BAND m) b.toNat
      let s := { s with clk := { s.clk with bands := s.clk.bands ++ [(m, b.toNat)] } }
      if s.clk.started then s.endRelocks [m] ns else s
    | none => if s.clk.started then s.mdllFail m else s

/-! ### Settings (R331, R335 to R337) -/

/-- Whether a setting of MDLL 2 lies in the ranges of R330 and R331. -/
def State.mdll2Legal (s : State) (v : Word) : Bool :=
  let d := wordBits v 24 4
  let n := wordBits v 12 12
  let f := s.refMhz
  decide (1 ≤ d) && decide (80 ≤ n) && decide (n ≤ 2048) && decide (10 * d ≤ f) && decide (f ≤ 25 * d) &&
  decide (2000 * d ≤ f * n) && decide (f * n ≤ 6400 * d)

/-- CG_MDLL2_CFG is written (R341, R347, R349). -/
def State.mdll2Write (s : State) (v : Word) : State :=
  if !s.mdll2Legal v || bitOf s.clk.relocking 2 then s.ignored (CG_MDLL_CFG 2).addr
  else
    let old := s.mdllRate 2
    let s := s.setReg (CG_MDLL_CFG 2).addr (v &&& 0x8FFFF000)
    if s.flag CG_STAT_COAST then { s with clk := { s.clk with was2 := some (s.clk.was2.getD old) } }
    else if v.getLsbD 31 then (if bitOf s.clk.failed 2 then s else s.startRelock 2 old)
    else ((s.setFld (CG_MDLL_STAT_LOCKED 2) 0).putBit CG_STAT_LOCKED 2 false).setReg (CG_MDLL_MEAS 2).addr 0

/-- Whether a CLKOUT setting is legal (R335): at most 1,000 MHz, and a DIV that its source admits. -/
def State.outLegal (s : State) (v : Word) : Bool :=
  let div := wordBits v 0 16
  match wordBits v 26 2 with
  | 0 => decide (5 ≤ div)
  | 1 =>
    let c := s.reg (CG_MDLL_CFG 2).addr
    decide (1 ≤ div) && decide (s.refMhz * wordBits c 12 12 ≤ 1000 * div * wordBits c 24 4)
  | 2 => decide (div = 0) || (List.range 11).any (fun d => decide (div = 2 ^ (d + 5)))
  | _ => decide (1 ≤ div)

/-- The raw index that must have passed before a CLKOUT write takes effect: with SRC = 2, the first from now on that is a multiple
of the larger of the old and the new DIV; otherwise one that has passed (R336). -/
def State.outAfter (s : State) (o : Nat) (v : Word) : Int :=
  let new := if wordBits v 0 16 = 0 then 65536 else wordBits v 0 16
  let d : Int := ((max (s.outDiv o) new : Nat) : Int)
  if wordBits v 26 2 = 2 then -((-s.rawNow) / d) * d else s.rawNow - 1

/-- CGo_CFG of CLKOUT0 to CLKOUT2 is written (R336): it waits for its raw index, and while the output runs on the bridge clock. -/
def State.outWrite (s : State) (o : Nat) (v : Word) : State :=
  if !s.outLegal v then s.ignored (CG_OUT_CFG o).addr
  else
    let w : OutWrite := { out := o, value := v, after := s.outAfter o v }
    if s.outReady w then s.putOut o v else { s with clk := { s.clk with writes := s.clk.writes ++ [w] } }

/-- An output steps its phase toward the target, by the shorter way round (R337). -/
def State.phaseStep (s : State) (o : Nat) : State :=
  if s.flag CG_STAT_COAST || s.bitSet CG_STAT_BRIDGE o then s
  else
    let cur := s.fld (CG_OUT_PHASE_CUR o)
    let tgt := s.fld (CG_OUT_PHASE_TGT o)
    let d := (tgt + 256 - cur) % 256
    let new := if d = 0 then cur else if d ≤ 128 then (cur + 1) % 256 else (cur + 255) % 256
    (s.setFld (CG_OUT_PHASE_CUR o) new).setFld (CG_OUT_PHASE_STEPPING o) (b2n (decide (new ≠ tgt)))

/-- A die link fails (R16): products that depend on it carry DEGRADED from the next tick. -/
def State.linkFail (s : State) (l : Nat) : State :=
  if s.linkFailed l then s
  else { s with links := s.links ||| 2 ^ l }.logEvent 0x000B sevFatal l

/-! ### Meanings -/

/-- REF_LOST (R317, R345). -/
def execRefLost (quiet edges : Nat) (s : State) : Host.Outcome State Fault Refusal := done (s.refLost quiet edges)

/-- REF_REQUAL (R318, R342). -/
def execRefRequal (windows fewest most : Nat) (s : State) : Host.Outcome State Fault Refusal :=
  done (s.refRequal windows fewest most)

/-- RELOCK_COMPLETE (R342). -/
def execRelockComplete (locked : BitVec 4) (ns : Nat) (s : State) : Host.Outcome State Fault Refusal :=
  done (s.relockDone locked ns)

/-- CG_UNLOCK (R346). -/
def execCgUnlock (m : Fin 4) (s : State) : Host.Outcome State Fault Refusal := done (s.unlock m)

/-- CG_BAND_SEARCH (R340, R346). -/
def execCgBandSearch (m : Fin 4) (band : Option (BitVec 6)) (ns : Nat) (s : State) : Host.Outcome State Fault Refusal :=
  done (s.bandSearch m band ns)

/-- CG_MDLL2_CFG_WRITE (R341). -/
def execCgMdll2CfgWrite (v : Word) (s : State) : Host.Outcome State Fault Refusal := done (s.mdll2Write v)

/-- CLKOUT_CFG_WRITE (R336). -/
def execClkoutCfgWrite (o : Fin 3) (v : Word) (s : State) : Host.Outcome State Fault Refusal := done (s.outWrite (o + 4) v)

/-- PHASE_STEP (R337). -/
def execPhaseStep (o : Fin 7) (s : State) : Host.Outcome State Fault Refusal := done (s.phaseStep o)

/-- DIE_LINK_RETRANSMIT (R14): a delay within the link, which changes no data and no order. -/
def execDieLinkRetransmit (_ : Fin 6) (s : State) : Host.Outcome State Fault Refusal := done s

/-- LINK_FAIL (R16). -/
def execLinkFail (l : Fin 6) (s : State) : Host.Outcome State Fault Refusal := done (s.linkFail l)

end Sys2Proof.Machine
end

