-- ==== Sys2Proof/Machine/Conv.lean ====
section
/-! DEFINITION. The converters: calibration dwells, trim sets and lane swaps (R75 to R87), injected snapshots (R88 to
R91), raw tap entries (R92 to R94), and loss of the sample clock (R71). -/

namespace Sys2Proof.Machine

/-- The converter die of an input (R13). -/
def dieOf (input : Nat) : Nat := input / 2

/-- An input's calibrator. -/
def State.calibOf (s : State) (i : Nat) : Calib := instGet .reset s.conv.calib i

/-- Change an input's calibrator. -/
def State.setCalib (s : State) (i : Nat) (c : Calib) : State :=
  { s with conv := { s.conv with calib := instSet .reset s.conv.calib i c } }

/-- A converter die's snapshot engine. -/
def State.snapOf (s : State) (d : Nat) : Snapshot := instGet .reset s.conv.snap d

/-- Change a converter die's snapshot engine. -/
def State.setSnap (s : State) (d : Nat) (x : Snapshot) : State :=
  { s with conv := { s.conv with snap := instSet .reset s.conv.snap d x } }

/-- An input's raw tap queue. -/
def State.tapOf (s : State) (i : Nat) : TapQueue := instGet .reset s.conv.tap i

/-- Change an input's raw tap queue. -/
def State.setTap (s : State) (i : Nat) (q : TapQueue) : State :=
  { s with conv := { s.conv with tap := instSet .reset s.conv.tap i q } }

/-- Calibrator modes as CONVi_LANE_STAT.MODE codes them (R87). -/
def modeRotate : Nat := 0

/-- Full recalibration. -/
def modeRecal : Nat := 1

/-- No ruler left. -/
def modeBlind : Nat := 2

/-- The ruler failed. -/
def modeStopped : Nat := 3

/-- Whether a snapshot of a converter die is in progress (R91). -/
def State.snapBusy (s : State) (d : Nat) : Bool := decide ((s.snapOf d).phase ≠ .idle)

/-- The deals of a dwell of `ms` ms: rounded up, at least one (R76). -/
def State.dwellDeals (s : State) (ms : Nat) : Nat := max 1 (ceilDiv (ms * s.nsps) (1000 * 400 * s.dealLen))

/-- The deals of the next dwell of an input in a mode (R76, R81, R85). -/
def State.nextDwell (s : State) (mode : Nat) : Nat :=
  if mode = modeRecal then s.dwellDeals (s.fld CONV_CAL_DWELL_FAST_DWELL)
  else if mode = modeBlind then 8 * s.dwellDeals (s.fld CONV_CAL_DWELL_DWELL)
  else s.dwellDeals (s.fld CONV_CAL_DWELL_DWELL)

/-- Whether the trims a lane needs lie at the limit of a range (R75, R84). -/
def atLimit (m : CalMeasure) : Bool :=
  decide (m.gain = 0 ∨ m.gain = 0x3FFF) || decide (m.offset = 0x800 ∨ m.offset = 0x7FF) ||
  decide (m.skew = 0x200 ∨ m.skew = 0x1FF) || decide (m.bw = 0 ∨ m.bw = 63)

/-- Where the calibrator goes when a dwell on a slot ends (R86, R87): a failed lane ends rotation, or is left in place when
no ruler remains. -/
def dwellMove (mode slot lane : Nat) (failed : Bool) : CalMove :=
  let wraps := decide (slot = 31)
  { slot := (slot + 1) % 32
    mode := if failed then modeBlind else if wraps && decide (mode = modeRecal) then modeRotate else mode
    laneFail := if failed && decide (mode = modeBlind) then some lane else none
    rotation := wraps && !failed
    calDone := wraps && !failed && decide (mode = modeRecal) }

/-- What a dwell's measurement changes at the tick (R77, R84): the ruler takes over a failed lane's slot; otherwise the
visited lane takes its new trims, unless CAL_HOLD forbids a trim set (R80). -/
def dwellChange (mode slot lane : Nat) (failed hold : Bool) (m : CalMeasure) : List CalChange :=
  let trims : TrimVals := { gain := m.gain.toNat, offset := m.offset.toNat, skew := m.skew.toNat, bw := m.bw.toNat }
  if failed then (if mode = modeBlind then [] else [{ trims := [], swap := some (slot, lane), load := false }])
  else if hold then []
  else [{ trims := [(lane, trims)], swap := none, load := false }]

/-- A dwell ends: what the calibrator stages for the tick that ends it (R77, R84, R86, R87). A ruler that fails stops
calibration, with the trims in force held. -/
def State.dwellEnd (s : State) (i : Nat) (m : CalMeasure) : State :=
  let c := s.calibOf i
  let mode := s.fld (CONVI_LANE_STAT_MODE i)
  let slot := s.fld (CONVI_LANE_STAT_SHADOW_SLOT i)
  let lane := s.fld (CONVI_SLOT_LANE_LANE i slot)
  if mode = modeStopped ∨ c.dwellLeft ≠ 1 ∨ c.move.isSome = true then s
  else if m.rulerFail ∧ (mode = modeRotate ∨ mode = modeRecal) then
    let s := s.setCalib i { c with staged := c.staged.filter (fun x => x.load) }
    ((s.setFld (CONVI_LANE_STAT_MODE i) modeStopped).stick CONV_STAT_CAL_STOPPED i).logEvent 0x0406 sevAttention i
  else
    let hits := if atLimit m then instGet 0 c.limits slot + 1 else 0
    let failed := m.residual || decide (3 ≤ hits)
    s.setCalib i { c with
      limits := instSet 0 c.limits slot (if failed then 0 else hits)
      staged := c.staged ++ dwellChange mode slot lane failed (s.bitSet CONV_CTL_CAL_HOLD i) m
      move := some (dwellMove mode slot lane failed) }

/-- Write one lane's trims to the registers (R75). -/
def State.putTrim (s : State) (i lane : Nat) (t : TrimVals) : State :=
  (((s.setFld (CONVI_TRIM_A_GAIN i lane) t.gain).setFld (CONVI_TRIM_A_OFFSET i lane) t.offset).setFld
    (CONVI_TRIM_B_SKEW i lane) t.skew).setFld (CONVI_TRIM_B_BW i lane) t.bw

/-- Apply one staged calibration change at a tick, step 2 of R49 (R77, R79, R84). -/
def State.applyCal (s : State) (i : Nat) (c : CalChange) : State :=
  let s := s.each c.trims (fun t s => s.putTrim i t.1 t.2)
  let s := s.setIf (!c.trims.isEmpty) CONV_STAT_TRIM_APPLIED
  let s := match c.swap with
    | some (slot, lane) =>
      let s := s.setFld (CONVI_SLOT_LANE_LANE i slot) (s.fld (CONVI_LANE_STAT_SPARE_LANE i))
      let s := s.setFld (CONVI_LANE_STAT_SPARE_LANE i) 0x3F
      let s := (s.stick CONV_STAT_SWAP i).stick CONV_STAT_SPARE_USED i
      let s := { s with conv := { s.conv with saveQ := s.conv.saveQ ++ [i] } }
      s.logEvent 0x0404 sevAttention (i + lane <<< 8 + slot <<< 16)
    | none => s
  s.setTap i { s.tapOf i with trim := some (s.dealRaw (s.pair DEAL_NUM)) }

/-- The calibrator moves on at the tick that ends a dwell (R76, R86, R87). -/
def State.moveRuler (s : State) (i : Nat) (c : CalMove) : State :=
  let s := match c.laneFail with
    | some lane =>
      let s := (s.stick CONV_STAT_LANE_FAIL i).logEvent 0x0405 sevAttention (i + lane <<< 8)
      { s with conv := { s.conv with degraded := s.conv.degraded ||| 2 ^ i } }
    | none => s
  let s := (s.setFld (CONVI_LANE_STAT_SHADOW_SLOT i) c.slot).setFld (CONVI_LANE_STAT_MODE i) c.mode
  let s := if c.rotation then s.addWrap (CONVI_LANE_STAT_ROTATIONS i) 1 else s
  if c.calDone then s.stick CONV_STAT_CAL_DONE i else s

/-- A full recalibration begins at a tick (R81, R87): averages cleared, the ruler to slot 0. -/
def State.startRecal (s : State) (i : Nat) : State :=
  let c := s.calibOf i
  let mode := s.fld (CONVI_LANE_STAT_MODE i)
  let wanted := s.bitSet CONV_CTL_CAL_REQ i || c.forced
  if !wanted || s.bitSet CONV_CTL_CAL_HOLD i || s.snapBusy (dieOf i) then s
  else if mode = modeStopped then (s.setCalib i { c with forced := false }).putBit CONV_CTL_CAL_REQ i false
  else
    let s := s.setCalib i { c with forced := false, limits := [], dwellLeft := 0 }
    let s := s.setFld (CONVI_LANE_STAT_SHADOW_SLOT i) 0
    let s := if mode = modeBlind then s else s.setFld (CONVI_LANE_STAT_MODE i) modeRecal
    s.putBit CONV_CTL_CAL_REQ i false

/-- Staged trim sets, swaps and loads of an input take effect at a tick unless a snapshot of the die holds them (R91). -/
def State.applyStaged (s : State) (i : Nat) : State :=
  let c := s.calibOf i
  let d := dieOf i
  if c.staged.isEmpty then s
  else if s.snapBusy d then s.setSnap d { s.snapOf d with held := true }
  else (s.each c.staged (fun x s => s.applyCal i x)).setCalib i { c with staged := [] }

/-- One input at a tick: staged changes, then the ruler's move, then a recalibration; the next dwell begins when one has
ended or a hold has cleared (R76, R80, R81, R87). -/
def State.convTickInput (s : State) (i : Nat) : State :=
  let s := s.applyStaged i
  let s := match (s.calibOf i).move with
    | some m => (s.moveRuler i m).setCalib i { s.calibOf i with move := none }
    | none => s
  let s := s.startRecal i
  let c := s.calibOf i
  if c.dwellLeft ≤ 1 ∨ c.restart = true then
    s.setCalib i { c with dwellLeft := s.nextDwell (s.fld (CONVI_LANE_STAT_MODE i)), restart := false }
  else s.setCalib i { c with dwellLeft := c.dwellLeft - 1 }

/-- Step 2 of R49 for every input; changes held over a snapshot are released once its die is free (R83, R88). -/
def State.convTick (s : State) : State :=
  let s := { s with conv := { s.conv with settling := 0 } }
  let s := (List.range 2).foldl (fun s d =>
    if s.snapBusy d then s else s.setSnap d { s.snapOf d with held := false }) s
  (List.range 4).foldl (fun s i => s.convTickInput i) s

/-- A request for a full recalibration (R81): recorded at INFO while one runs, otherwise it waits for its tick. -/
def State.calRequest (s : State) (i : Nat) : State :=
  let mode := s.fld (CONVI_LANE_STAT_MODE i)
  if mode = modeRecal then s.ignored CONV_CTL.addr
  else if mode = modeStopped then s
  else s.stick CONV_CTL_CAL_REQ i

/-- CAL_HOLD of an input is written (R80): clearing it discards what was measured under it, and the next dwell begins at the
next tick. -/
def State.calHold (s : State) (i : Nat) (hold : Bool) : State :=
  let was := s.bitSet CONV_CTL_CAL_HOLD i
  let c := s.calibOf i
  let s := s.putBit CONV_CTL_CAL_HOLD i hold
  if was && !hold then s.setCalib i { c with restart := true, limits := c.kept }
  else if hold && !was then s.setCalib i { c with kept := c.limits }
  else s

/-- Whether the bytes `a` to `a + n − 1` overlap a region the image assigned (R34). -/
def State.inRegion (s : State) (a n : Nat) : Bool :=
  s.img.regions.any (fun r => decide (a < r.2.1 + r.2.2) && decide (r.2.1 < a + n))

/-- The refusal code of a snapshot request, 0 when it is accepted (R88). -/
def State.snapRefusal (s : State) (i entries : Nat) : Nat :=
  let dest := s.pair (CONVI_SNAP_ADDR i)
  let d := dieOf i
  if dest % 4096 ≠ 0 then 1
  else if dest < sdramBase ∨ sdramBase + s.capacity < dest + 32 * entries then 2
  else if s.inRegion dest (32 * entries) then 3
  else if s.snapBusy d then 4
  else if !s.pins.ready then 5
  else if (s.snapOf d).held then 6
  else 0

/-- The first raw index of an entry at or after a raw index (R93). -/
def entryFrom (n : Int) : Int := 16 * -((-n) / 16)

/-- GO is written with LEN_M1 (R88, R91). While a snapshot of the die is in progress the write is refused with ERR 4, and
recorded at INFO. -/
def State.snapGo (s : State) (i lenM1 : Nat) : State :=
  let s := s.setFld (CONVI_INJECT_LEN_M1 i) lenM1
  let d := dieOf i
  let e := s.snapRefusal i (lenM1 + 1)
  let s := if s.snapBusy d then s.ignored (CONVI_INJECT i).addr else s
  if e ≠ 0 then s.setFld (CONVI_SNAP_STAT_ERR i) e
  else
    let s := (s.setFld (CONVI_SNAP_STAT_BUSY i) 1).setFld (CONVI_SNAP_STAT_OVR i) 0
    s.setSnap d { phase := .waiting, input := i, first := entryFrom (s.rawNow + 64), dest := s.pair (CONVI_SNAP_ADDR i),
                  entries := lenM1 + 1, store := [], held := false }

/-- The first qualifying entry begins the snapshot (R89). -/
def State.snapFill (s : State) (i : Nat) : State :=
  let d := dieOf i
  let x := s.snapOf d
  if x.phase = .waiting ∧ x.input = i then
    (s.setPair (CONVI_SNAP_SAMPLE i) (ofSigned 64 x.first)).setSnap d { x with phase := .filling }
  else s

/-- LEN_M1 + 1 entries have been taken (R91). -/
def State.snapFull (s : State) (i : Nat) : State :=
  let d := dieOf i
  let x := s.snapOf d
  if x.phase = .filling ∧ x.input = i ∧ x.store.length = x.entries then s.setSnap d { x with phase := .draining }
  else s

/-- The last drain write is acknowledged (R89, R90): entry e stands at destination + 32e. -/
def State.snapRetire (s : State) (i : Nat) : State :=
  let d := dieOf i
  let x := s.snapOf d
  if x.phase = .draining ∧ x.input = i then
    let s := s.sdWrite x.dest x.store.flatten
    let s := (s.setFld (CONVI_SNAP_STAT_BUSY i) 0).stick CONV_STAT_SNAP_DONE i
    s.setSnap d { x with phase := .idle, store := [] }
  else s

/-! ### The analogue side (R67, R68, R95, R100) -/

/-- The full scale of an input in µV, peak to peak differential (R67). -/
def State.fullScaleOf (s : State) (i : Nat) : Nat := 500000 + 5000 * s.fld (CONVI_FS_CODE i)

/-- A converter's limits: it clips and never wraps (R68). -/
def clipCode (x : Int) : Int := clampInt (-2048) 2047 x

/-- The code to which a differential input voltage in µV converts (R67, R68): one LSB is FS / 4,096, the nearest code. -/
def State.convert (s : State) (i : Nat) (v : Int) : Int := clipCode ((4096 * v + ((s.fullScaleOf i / 2 : Nat) : Int)) / (s.fullScaleOf i : Int))

/-- Whether a raw sample is at a full-scale code (R68). -/
def fullScale (x : Int) : Bool := decide (2047 ≤ x) || decide (x ≤ -2048)

/-- A comparator's THRESH and HYST fields: j = 0 for CMP_HI, 1 for CMP_LO. -/
def cmpFields (i j : Nat) : Field × Field :=
  if j = 0 then (CONVI_CMP_HI_THRESH i, CONVI_CMP_HI_HYST i) else (CONVI_CMP_LO_THRESH i, CONVI_CMP_LO_HYST i)

/-- The threshold of comparator j of an input in 1/1,024 µV: (THRESH − 512) / 512 × FS/2 (R95). -/
def State.threshold (s : State) (i j : Nat) : Int := ((s.fld (cmpFields i j).1 : Int) - 512) * (s.fullScaleOf i : Int)

/-- Its hysteresis of 0, 2, 4 or 8 threshold steps, in 1/1,024 µV (R95). -/
def State.hysteresis (s : State) (i j : Nat) : Int :=
  (match s.fld (cmpFields i j).2 with
    | 0 => 0
    | 1 => 2
    | 2 => 4
    | _ => 8) * (s.fullScaleOf i : Int)

/-- CAL_TONE: off, or a tone of N × fs / 65,536, in 1/65,536 Hz, with its amplitude into 100 Ω in mVpp (R100). -/
def State.calTone (s : State) : Option (Nat × Nat) :=
  let n := s.fld CONV_TONE_FREQ_N
  if s.flag CONV_TONE_CTL_EN && decide (n ≠ 0) then some (n * s.nsps, 400 / 2 ^ s.fld CONV_TONE_CTL_LEVEL) else none

/-! ### The raw tap (R92 to R94) -/

/-- The 16-bit container of a raw sample under CONVi_FMT (R92). -/
def container (right offset : Bool) (x : Int) : Nat :=
  let v := if offset then x + 2048 else x
  if right then ofSigned 16 v else ofSigned 12 v <<< 4

/-- Whether a capture unit that is armed takes raw samples of an input (R289). -/
def State.rawCaptured (s : State) (i : Nat) : Bool :=
  (List.range 8).any (fun n =>
    let c := (instGet .reset s.cap.units n).src
    s.bitSet CAP_RUN_ARMED n && decide (c.ty = 0) && decide (i ∈ c.inputs))

/-- Whether a capture unit or a RAW stream (R383) takes raw samples of an input. -/
def State.rawWanted (s : State) (i : Nat) : Bool :=
  s.rawCaptured i ||
  (List.range 128).any (fun x => s.flag (ETHP_CFG_EN (x / 64)) && s.flag (ETH_S_CFG_EN (x / 64) (x % 64)) &&
    decide (s.fld (ETH_S_CFG_KIND (x / 64) (x % 64)) = 2) && decide (s.fld (ETH_S_SRC_SEL (x / 64) (x % 64)) = i))

/-- Whether the raw tap's link to an analysis die has failed (R16, R94). -/
def State.tapStuck (s : State) (i : Nat) : Bool := s.linkFailed (2 * dieOf i) || s.linkFailed (2 * dieOf i + 1)

/-- An entry's 16 samples as bytes: converted with clipping, in the input's format (R68, R92). -/
def State.tapData (s : State) (i : Nat) (xs : List Int) : List Byte :=
  (xs.map (fun v => leBytes 2 (container (s.flag (CONVI_FMT_ALIGN i)) (s.flag (CONVI_FMT_CODE i)) (clipCode v)))).flatten

/-- A raw tap entry with its side tag enters the tap queue (R93, R94): it is taken by a filling snapshot, passes over
the link to the capture writers, waits while the link is failed, or is dropped with GAP marked when 512 wait. The queue is
empty while nothing uses the input. Nothing comes before the converters start, nor once the sample clock has stopped. -/
def State.tapEntry (s : State) (i : Nat) (e : Int) (xs : List Int) : State :=
  let d := dieOf i
  let q := s.tapOf i
  let x := s.snapOf d
  let snap := decide (x.phase = .filling) && decide (x.input = i) && decide (x.first ≤ 16 * e) &&
    decide (x.store.length < x.entries)
  let wanted := s.rawWanted i
  if xs.length ≠ 16 ∨ s.time.grid = false ∨ s.deal.stopped = true then s
  else
    let ovr := xs.any fullScale
    let data := s.tapData i xs
    let tick := decide ((16 * e) % ((400 * s.dealLen : Nat) : Int) = 0)
    let last := snap && decide (x.store.length + 1 = x.entries)
    let tag := b2n last + 2 * b2n q.gap + 4 * b2n snap + 8 * b2n (decide (q.trim = some (16 * e))) + 16 * b2n tick + 32 * b2n ovr + 64 * i
    let s := if snap then (s.setSnap d { x with store := x.store ++ [data] }).setIf ovr (CONVI_SNAP_STAT_OVR i) else s
    let ent : TapEntry := { input := i, index := e, data := data, tag := tag }
    if !wanted then s.setTap i { q with queue := [], gap := false }
    else if s.tapStuck i then
      if q.queue.length < 512 then s.setTap i { q with queue := q.queue ++ [ent], gap := false }
      else s.setTap i { q with gap := true }
    else s.setTap i { q with given := if s.rawCaptured i then q.given ++ [ent] else [], gap := false }

/-- The external sample clock stops (R71): no further tick occurs. -/
def State.sclkStop (s : State) : State :=
  if s.flag CONV_CLK_SRC then s
  else
    let s := (s.setFld CONV_STAT_SCLK_LOST 1).logEvent 0x0402 sevFatal 0
    { s with deal := { s.deal with stopped := true } }

/-! ### Meanings -/

/-- SCLK_LOST (R71). -/
def execSclkLost (s : State) : Host.Outcome State Fault Refusal := done s.sclkStop

/-- CAL_DWELL_END (R77). -/
def execCalDwellEnd (i : Fin 4) (m : CalMeasure) (s : State) : Host.Outcome State Fault Refusal :=
  done (s.dwellEnd i m)

/-- CAL_REQ (R81). -/
def execCalReq (i : Fin 4) (s : State) : Host.Outcome State Fault Refusal := done (s.calRequest i)

/-- CAL_HOLD_WRITE (R80). -/
def execCalHoldWrite (i : Fin 4) (hold : Bool) (s : State) : Host.Outcome State Fault Refusal := done (s.calHold i hold)

/-- SNAPSHOT_GO (R88). -/
def execSnapshotGo (i : Fin 4) (lenM1 : BitVec 15) (s : State) : Host.Outcome State Fault Refusal :=
  done (s.snapGo i lenM1.toNat)

/-- SNAPSHOT_FILL_START (R89). -/
def execSnapshotFillStart (i : Fin 4) (s : State) : Host.Outcome State Fault Refusal := done (s.snapFill i)

/-- SNAPSHOT_FILL_END (R91). -/
def execSnapshotFillEnd (i : Fin 4) (s : State) : Host.Outcome State Fault Refusal := done (s.snapFull i)

/-- SNAPSHOT_RETIRE (R90). -/
def execSnapshotRetire (i : Fin 4) (s : State) : Host.Outcome State Fault Refusal := done (s.snapRetire i)

end Sys2Proof.Machine
end

