-- ==== Sys2Proof/Machine/Operands.lean ====
section
/-! DEFINITION. What an engine's memory slots reach: formats (R131), address generators (R155, R156), the program
address space and its access rules (R129, R130), the logical and physical engines behind the trick window (R138, R191),
and the input ring (R132). -/

namespace Sys2Proof.Machine

/-! ### Formats (R131, R169) -/

/-- A memory format. -/
inductive Fmt where
  | c16
  | c18
  | c32
  | i16
  | i32
  | i48
  deriving DecidableEq, Repr

/-- The format of an FMT code; 6 and 7 are ILLEGAL (R169). -/
def fmtOf (c : Nat) : Option Fmt :=
  match c with
  | 0 => some .c16
  | 1 => some .c18
  | 2 => some .c32
  | 3 => some .i16
  | 4 => some .i32
  | 5 => some .i48
  | _ => none

/-- Element size in bytes. -/
def Fmt.size : Fmt → Nat
  | .c16 => 4
  | .c18 => 8
  | .c32 => 8
  | .i16 => 2
  | .i32 => 4
  | .i48 => 8

/-- The width of a stored component. -/
def Fmt.width : Fmt → Nat
  | .c16 => 16
  | .c18 => 18
  | .c32 => 32
  | .i16 => 16
  | .i32 => 32
  | .i48 => 48

/-- Whether the format holds two components. -/
def Fmt.complex : Fmt → Bool
  | .c16 => true
  | .c18 => true
  | .c32 => true
  | _ => false

/-- Where the second component begins. -/
def Fmt.imBit : Fmt → Nat
  | .c16 => 16
  | _ => 32

/-- sat(v, w): the symmetric limit ±(2^(w−1) − 1) of R131. -/
def satSym (v : Int) (w : Nat) : Int := clampInt (-((2 ^ (w - 1) : Nat) - 1)) ((2 ^ (w - 1) : Nat) - 1) v

/-- Whether `satSym` changes the value. -/
def satSymHit (v : Int) (w : Nat) : Bool := decide (satSym v w ≠ v)

/-- An element's value as memory holds it. -/
def Fmt.decode (f : Fmt) (x : Nat) : Cx :=
  { re := toSigned f.width x
    im := if f.complex then toSigned f.width (x >>> f.imBit) else 0 }

/-- An element's bits; C18 and I48 copy the sign into the unused bits. -/
def Fmt.encode (f : Fmt) (v : Cx) : Nat :=
  match f with
  | .c16 => ofSigned 16 v.re + ofSigned 16 v.im <<< 16
  | .c18 => ofSigned 32 v.re + ofSigned 32 v.im <<< 32
  | .c32 => ofSigned 32 v.re + ofSigned 32 v.im <<< 32
  | .i16 => ofSigned 16 v.re
  | .i32 => ofSigned 32 v.re
  | .i48 => ofSigned 64 v.re

/-- A loaded element as a V register takes it, with whether it saturated: 32-bit and 48-bit parts are limited to 18
bits, the others are exact (R131). -/
def Fmt.toV (f : Fmt) (v : Cx) : Cx × Bool :=
  match f with
  | .c16 => (v, false)
  | .c18 => (v, false)
  | .i16 => (v, false)
  | _ => ({ re := satSym v.re 18, im := satSym v.im 18 }, satSymHit v.re 18 || satSymHit v.im 18)

/-! ### Lanes -/

/-- Lane ℓ of a vector. -/
def Quad.lane (q : Quad) (l : Nat) : Cx :=
  match l with
  | 0 => q.l0
  | 1 => q.l1
  | 2 => q.l2
  | _ => q.l3

/-- A vector from its lanes. -/
def Quad.of (f : Nat → Cx) : Quad := { l0 := f 0, l1 := f 1, l2 := f 2, l3 := f 3 }

/-- A vector's lanes, lane 0 first. -/
def Quad.list (q : Quad) : List Cx := [q.l0, q.l1, q.l2, q.l3]

/-- A V register. -/
def EngCore.vreg (c : EngCore) (i : Nat) : Quad := instGet Quad.zero c.v i

/-- A with its history: H(d + 1) (R170). -/
def EngCore.h (c : EngCore) (d : Nat) : Quad := c.hist.getD d Quad.zero

/-- The current A. -/
def EngCore.a (c : EngCore) : Quad := c.h 0

/-- Write A: it becomes H1 and the history moves down (R170). `tag`: it is built from a word that carries the OVF tag (R135). -/
def EngCore.putA (c : EngCore) (q : Quad) (tag : Bool) : EngCore :=
  { c with hist := (q :: c.hist).take 8, hTag := (tag :: c.hTag).take 8 }

/-- A list of marked numbers with one number marked or not. -/
def markIn (l : List Nat) (i : Nat) (b : Bool) : List Nat :=
  let rest := l.filter (fun x => decide (x ≠ i))
  if b then i :: rest else rest

/-- Write a V register. -/
def EngCore.putV (c : EngCore) (i : Nat) (q : Quad) (tag : Bool) : EngCore :=
  { c with v := instSet Quad.zero c.v i q, vTag := markIn c.vTag i tag }

/-- Whether a V register is built from a word that carries the OVF tag (R135). -/
def EngCore.vOvf (c : EngCore) (i : Nat) : Bool := decide (i ∈ c.vTag)

/-- Whether an entry of the A history is. -/
def EngCore.hOvf (c : EngCore) (d : Nat) : Bool := c.hTag.getD d false

/-- An address generator. -/
def EngCore.agen (c : EngCore) (g : Nat) : AddrGen := instGet AddrGen.zero c.ag g

/-- Set an address generator. -/
def EngCore.setAg (c : EngCore) (g : Nat) (a : AddrGen) : EngCore := { c with ag := instSet AddrGen.zero c.ag g a }

/-! ### Address generators (R155, R156) -/

/-- Reduce an offset into 0 to MOD − 1, or modulo 2^17 when MOD = 0. -/
def agReduce (m : Nat) (e : Int) : Nat := (e % ((if m = 0 then 131072 else m : Nat) : Int)).toNat

/-- The element address of lane ℓ: BASE + E × f(e). -/
def AddrGen.addr (g : AddrGen) (size lane : Nat) : Nat :=
  let e := agReduce g.mod ((g.off : Int) + (lane : Int) * g.lstr)
  let r := if g.br = 0 then e else (e >>> g.br) <<< g.br + bitReverse g.br (e % 2 ^ g.br)
  g.base + size * (r % 131072)

/-- Post-increment: OFF becomes OFF + STEP. -/
def AddrGen.advance (g : AddrGen) : AddrGen := { g with off := agReduce g.mod ((g.off : Int) + g.step) }

/-! ### The program address space (R129, R130) -/

/-- What an access does. -/
inductive Acc where
  | load
  | store
  | addHist
  deriving DecidableEq, Repr

/-- Fault codes of R159. -/
def fIllegal : Nat := 0x10

/-- Misaligned element. -/
def fAlign : Nat := 0x11

/-- Write to the input ring or the trick window. -/
def fRoWrite : Nat := 0x12

/-- Reserved address, or an add or histogram outside the store. -/
def fAddrRange : Nat := 0x13

/-- Commit bound exceeded. -/
def fCommitLimit : Nat := 0x14

/-- The fault an access to an element address raises, if any (R130). -/
def accessFault (k : Acc) (a size : Nat) : Option Nat :=
  if a % size ≠ 0 then some fAlign
  else if a < 0x20000 then (if k = .load then none else some fRoWrite)
  else if a < 0x60000 then (if k = .addHist then some fAddrRange else none)
  else if a < 0x70000 then none
  else if a < 0x80000 then some fAddrRange
  else if a < 0xC0000 then (if k = .load then none else some fRoWrite)
  else some fAddrRange

/-- The first fault of a list of addresses, lane 0 first. -/
def firstFault (k : Acc) (size : Nat) : List Nat → Option Nat
  | [] => none
  | a :: t =>
    match accessFault k a size with
    | some f => some f
    | none => firstFault k size t

/-! ### The hand tree as it stands (R187 to R191) -/

/-- The default tree's node (R188). -/
def defaultNode (i : Nat) : HandNode :=
  if i < 256 then
    { kind := 1, parent := 0x7FF, place := i / 4 + (i % 4) * 64, progs := [], cbase := 0xFFFF, clen := 0, cprod := [] }
  else
    { kind := 0, parent := (i - 256) / 4, place := i - 256, progs := [], cbase := 0xFFFF, clen := 0, cprod := [] }

/-- The number of nodes in force: the image's, or the default tree's 1,280. -/
def State.nodeCount (s : State) : Nat := if s.img.nodes.isEmpty then 1280 else s.img.nodes.length

/-- A node of the tree in force. -/
def State.node? (s : State) (i : Nat) : Option HandNode :=
  if s.img.nodes.isEmpty then (if i < 1280 then some (defaultNode i) else none) else s.img.nodes[i]?

/-- The LEAF node of a logical engine. -/
def State.leafNode? (s : State) (l : Nat) : Option Nat :=
  if s.img.nodes.isEmpty then (if l < 1024 then some (256 + l) else none)
  else s.img.nodes.findIdx? (fun n => decide (n.kind = 0) && decide (n.place % 1024 = l))

/-- The members of a node, in ascending node number (R486). -/
def State.members (s : State) (i : Nat) : List Nat :=
  (List.range s.nodeCount).filter (fun j =>
    match s.node? j with
    | some n => decide (n.parent = i)
    | none => false)

/-- The ancestors of a node from the root down to the node itself; `fuel` bounds the depth. -/
def State.chain (s : State) : Nat → Nat → List Nat
  | 0, i => [i]
  | fuel + 1, i =>
    match s.node? i with
    | some n => if n.parent = 0x7FF then [i] else s.chain fuel n.parent ++ [i]
    | none => [i]

/-- The root of a node's tree. -/
def State.rootOf (s : State) (i : Nat) : Nat := (s.chain 2048 i).headD i

/-- The logical engines of the leaves below a node, member by member; `fuel` bounds the depth. -/
def State.leavesIn (s : State) : Nat → Nat → List Nat
  | 0, _ => []
  | fuel + 1, i =>
    match s.node? i with
    | some n => if n.kind = 0 then [n.place % 1024] else (s.members i).flatMap (s.leavesIn fuel)
    | none => []

/-- The logical engines of the leaves below a node. -/
def State.leavesOf (s : State) (i : Nat) : List Nat := s.leavesIn 2049 i

/-- The gang of a logical engine: (channel, input, c0, size), when its parent is a GANG (R189, R486). -/
def State.gang? (s : State) (l : Nat) : Option (Nat × Nat × Nat × Nat) :=
  match s.leafNode? l with
  | none => none
  | some i =>
    match s.node? i with
    | none => none
    | some n =>
      match s.node? n.parent with
      | some g =>
        if g.kind = 2 then some (g.place % 256, g.place / 256 % 4, g.place / 1024 % 16, 2 ^ (g.place / 16384 % 4))
        else none
      | none => none

/-- The member index of a logical engine in its gang: its cluster within the quadrant less c0 (R189). -/
def State.gangIndex (s : State) (l : Nat) : Nat :=
  match s.gang? l with
  | some (_, _, c0, _) => l / 16 % 16 - c0
  | none => 0

/-- The coarse channel and input that a logical engine receives (R21, R189). -/
def State.streamOf (s : State) (l : Nat) : Nat × Nat :=
  match s.gang? l with
  | some (ch, i, _, _) => (ch, i)
  | none => (l / 4, l % 4)

/-- The logical engine that σ reaches from a logical engine through the trick window or XWAIT (R138, R191); none when
σ is not valid there. -/
def State.sibling? (s : State) (l sigma : Nat) : Option Nat :=
  match s.gang? l with
  | some (_, _, c0, n) =>
    let m := s.gangIndex l
    let at' := fun (x : Nat) => l / 256 * 256 + (c0 + x) * 16 + l % 16
    if sigma = 3 then some (at' 0)
    else if 2 ^ sigma < n then some (at' (m ^^^ 2 ^ sigma)) else none
  | none => some (l / 4 * 4 + sigma)

/-- The programs a leaf runs, root's first (R188). -/
def State.programsOf (s : State) (l : Nat) : List Program :=
  match s.leafNode? l with
  | none => []
  | some i =>
    ((s.chain 2048 i).map (fun j =>
      match s.node? j with
      | some n => n.progs
      | none => [])).flatten.filterMap (fun x => s.img.programs.find? (fun p => decide (p.prog = x)))

/-! ### Engines -/

/-- A physical engine. -/
def State.engOf (s : State) (p : Nat) : Engine := instGet .reset s.hand.eng p

/-- Change a physical engine. -/
def State.setEng (s : State) (p : Nat) (e : Engine) : State :=
  { s with hand := { s.hand with eng := instSet .reset s.hand.eng p e } }

/-- A leaf's task ring and progress. -/
def State.leafOf (s : State) (l : Nat) : Leaf := instGet .reset s.hand.leaf l

/-- Change a leaf. -/
def State.setLeaf (s : State) (l : Nat) (x : Leaf) : State :=
  { s with hand := { s.hand with leaf := instSet .reset s.hand.leaf l x } }

/-- Engine states as ENGp_STAT.STATE codes them (R158). -/
def esGated : Nat := 0

/-- Idle. -/
def esIdle : Nat := 1

/-- Running a routine. -/
def esRun : Nat := 2

/-- Under an in-field test. -/
def esTest : Nat := 3

/-- Retired. -/
def esRetired : Nat := 4

/-- The state of a physical engine. -/
def State.engState (s : State) (p : Nat) : Nat := s.fld (ENG_STAT_STATE p)

/-- The logical engine a physical engine serves. -/
def State.logicalOf (s : State) (p : Nat) : Nat := s.fld (ENG_ID_LOGICAL p)

/-- The joker of a cluster (R22). -/
def jokerOf (cluster : Nat) : Nat := cluster * 17 + 16

/-- The physical engine at which a logical engine sits without substitution (R22). -/
def homeOf (l : Nat) : Nat := l / 16 * 17 + l % 16

/-- Whether the hand tree in force assigns a stream to a logical engine: it is the leaf of some node (R119). -/
def State.fed (s : State) (l : Nat) : Bool := (s.leafNode? l).isSome

/-- Whether a hop's samples were delivered to the analysis die of a logical engine (R14, R16). -/
def CoarseHop.reaches (h : CoarseHop) (l : Nat) : Bool := bitOf h.dies (l / 512)

/-- The newest hop delivered to a logical engine whose index is a position modulo 32,768 (R132, R197). -/
def State.ringHop (s : State) (l pos : Nat) : Option CoarseHop :=
  if s.fed l then
    (s.dealerOf (s.streamOf l).2).ring.find? (fun h => decide (h.j % 32768 = (pos : Int)) && h.reaches l)
  else none

/-- The coarse word at a position of a logical engine's input ring; 0 where none has been delivered. -/
def State.ringWord (s : State) (l pos : Nat) : Nat :=
  match s.ringHop l pos with
  | some h => (h.z.getD (s.streamOf l).1 0).toNat
  | none => 0

/-- The 64-bit word of the accumulator store that a routine reads: working where it has written, else committed (R134). -/
def accRead (e : Engine) (c : EngCore) (i : Nat) : Nat :=
  match instGet none c.work i with
  | some w => w.value
  | none => instGet 0 e.acc i

/-- An element at a program address, read by engine `p` from its state `c` (R129): input ring, data SRAM,
accumulator store, or a sibling's bank 5. -/
def State.readElem (s : State) (p : Nat) (c : EngCore) (a size : Nat) : Nat :=
  let e := s.engOf p
  if a < 0x20000 then
    let l := s.logicalOf p
    ((s.ringWord l (a / 4) + 2 ^ 32 * s.ringWord l ((a / 4 + 1) % 32768)) >>> (8 * (a % 4))) % 2 ^ (8 * size)
  else if a < 0x60000 then leNat (sparseRead (fun _ => (0 : Byte)) c.sram a size)
  else if a < 0x70000 then (accRead e c ((a - 0x60000) / 8) >>> (8 * (a % 8))) % 2 ^ (8 * size)
  else
    match s.sibling? (s.logicalOf p) ((a - 0x80000) / 0x10000) with
    | none => 0
    | some l =>
      if s.flag (HAND_MAP_VALID l) then
        leNat (sparseRead (fun _ => (0 : Byte)) (s.engOf (s.fld (HAND_MAP_PHYS l))).pre.sram (0x50000 + a % 0x10000) size)
      else 0

/-- Whether an accumulator word that a routine reads carries the OVF tag, or was built in this routine from one that does
(R135). -/
def accOvf (e : Engine) (c : EngCore) (i : Nat) : Bool :=
  match instGet none c.work i with
  | some w => w.taint
  | none => instGet false e.tag i

/-- The 2-byte granules of an element. -/
def granules (a size : Nat) : List Nat := (List.range (size / 2)).map (fun i => a / 2 + i)

/-- Whether an element at a program address, read by engine `p` from its state `c`, is built from a word that carries the OVF
tag (R135). -/
def State.elemOvf (s : State) (p : Nat) (c : EngCore) (a size : Nat) : Bool :=
  if a < 0x20000 then false
  else if a < 0x60000 then (granules a size).any (fun g => decide (g ∈ c.memTag))
  else if a < 0x70000 then accOvf (s.engOf p) c ((a - 0x60000) / 8)
  else
    match s.sibling? (s.logicalOf p) ((a - 0x80000) / 0x10000) with
    | none => false
    | some l => s.flag (HAND_MAP_VALID l) &&
      (granules (0x50000 + a % 0x10000) size).any (fun g => decide (g ∈ (s.engOf (s.fld (HAND_MAP_PHYS l))).pre.memTag))

/-- An element written at a program address, in data SRAM or the accumulator store's working layer (R134). `plain` says
that a plain store wrote it, which decides its OVF tag, `tag` that the element is built from a tagged word (R135). -/
def writeElem (e : Engine) (c : EngCore) (a size x : Nat) (plain tag : Bool) : EngCore :=
  if a < 0x60000 then
    { c with sram := sparseWrite (fun _ => (0 : Byte)) c.sram a (leBytes size x),
             memTag := (granules a size).foldl (fun l g => markIn l g tag) c.memTag }
  else
    let i := (a - 0x60000) / 8
    let v := putBits (accRead e c i) (8 * (a % 8)) (8 * size) x
    let was := match instGet none c.work i with
      | some w => w.plain
      | none => false
    let kept := accOvf e c i && !(plain && decide (size = 8))
    { c with work := instSet none c.work i (some { value := v, plain := plain || was, taint := tag || kept }) }

/-- What data SRAM and the V registers keep when a routine ends or is abandoned (R178). -/
def keptCore (c : EngCore) : EngCore := { EngCore.reset with v := c.v, sram := c.sram, vTag := c.vTag, memTag := c.memTag, gang := c.gang }

/-- The distinct memory words of a microword's accesses so far, with one more access's elements (R142). -/
def addWords (ws : List Nat) (as : List Nat) : List Nat :=
  as.foldl (fun l a => if a / 8 ∈ l then l else a / 8 :: l) ws

/-- A word of a cluster's control store (R161, R162). -/
def State.storeWord (s : State) (c pc : Nat) : Nat :=
  (instGet none s.hand.copies (c * 16384 + pc)).getD (sparseGet (fun _ => 0) s.hand.cstore pc)

end Sys2Proof.Machine
end

