-- ==== Sys2Proof/Machine/Flags.lean ====
section
/-! DEFINITION. The engine's status computations: saturation of A (R144), the scaler (R146), headroom and block
exponents (R147, R153), and the sticky bits of ENGp_STAT with the OVF latch (R135). -/

namespace Sys2Proof.Machine

/-- Sticky bits of ENGp_STAT (R160): HIST_SAT. -/
def stHistSat : Nat := 11

/-- MOV_SAT. -/
def stMovSat : Nat := 10

/-- ACC_OVF. -/
def stAccOvf : Nat := 9

/-- RESTART. -/
def stRestart : Nat := 8

/-- ECC_CORR. -/
def stEccCorr : Nat := 12

/-- Set a sticky bit and the OVF latch when a saturation happened (R135). -/
def EngCore.satIf (c : EngCore) (b : Bool) (bit : Nat) : EngCore :=
  if b then { c with ovf := true, sticky := c.sticky ||| 2 ^ bit } else c

/-- The limit of A: ±(2^47 − 1) (R144). -/
def limitA (x : Int) : Int := satSym x 48

/-- A lane limited, with whether it saturated (R144). -/
def limitLane (v : Cx) : Cx × Bool := ({ re := limitA v.re, im := limitA v.im }, satSymHit v.re 48 || satSymHit v.im 48)

/-- The number of bits of a natural number. -/
def bitLen (n : Nat) : Nat := if n = 0 then 0 else Nat.log2 n + 1

/-- The headroom of a value in `w` bits: its leading bits that equal its sign bit, less one (R147). -/
def headroom (w : Nat) (v : Int) : Nat := w - 1 - bitLen (if 0 ≤ v then v.toNat else (-v - 1).toNat)

/-- One component through the scaler with shift s: rounded once, before saturation (R146). -/
def scaleRaw (s : Int) (x : Int) : Int := if 0 < s then roundEven x s.toNat else x * ((2 ^ (-s).toNat : Nat) : Int)

/-- A component's result in `w` bits. -/
def scaleComp (s : Int) (w : Nat) (x : Int) : Int := satSym (scaleRaw s x) w

/-- A component's headroom after the scaler: 0 when it saturated (R147). -/
def scaleHead (s : Int) (w : Nat) (x : Int) : Nat :=
  if satSymHit (scaleRaw s x) w then 0 else headroom w (scaleComp s w x)

/-- A vector through the scaler: the results, whether any saturated, and the smallest headroom (R146, R147). -/
def scaleQuad (s : Int) (w : Nat) (q : Quad) : Quad × Bool × Nat :=
  let comps := q.list.map (fun v => v.re) ++ q.list.map (fun v => v.im)
  ( Quad.of (fun l => { re := scaleComp s w (q.lane l).re, im := scaleComp s w (q.lane l).im }),
    comps.any (fun x => satSymHit (scaleRaw s x) w),
    comps.foldl (fun m x => min m (scaleHead s w x)) 47 )

/-- A vector through the scaler into a real format: only the real parts are stored and judged. -/
def realQuad (q : Quad) : Quad := Quad.of (fun l => { re := (q.lane l).re, im := 0 })

/-- The shift of the scaler: SC + 17 × FRAC (R146). -/
def scShift (sc : Int) (frac : Bool) : Int := sc + (if frac then 17 else 0)

/-- Track the smallest headroom while BEXP tracking is on (R147). -/
def EngCore.track (c : EngCore) (on : Bool) (h : Nat) : EngCore := if on then { c with bexp := min c.bexp h } else c

end Sys2Proof.Machine
end

