-- ==== Sys2Proof/Machine/Recover.lean ====
section
/-! DEFINITION. What becomes of an engine's work: routine entry (R127, R173), tasks and their ends (R172), abandonment
(R178 to R180), dropped tasks and DEGRADED (R193, R195), faults (R159), permanent faults and takeover (R199 to R209),
and combine areas (R192). -/

namespace Sys2Proof.Machine

/-! ### Routines -/

/-- The core at a routine's entry (R127, R173): what is kept is V and data SRAM. -/
def entryCore (c : EngCore) (d : Descriptor) (orec : Option (Nat × Nat)) : EngCore :=
  { keptCore c with carry := d.carry, pc := d.entry, orec := orec }

/-- An engine that begins the current routine of its task. -/
def Engine.enter (e : Engine) (d : Descriptor) : Engine :=
  let c := entryCore e.pre d e.openC
  { e with pre := c, cur := c, task := some d, stall := none, halted := false, await := none }

/-- The mirror control record of a logical engine (R196). -/
def State.mirrorCtl (s : State) (l : Nat) : MirrorCtl :=
  instGet .reset s.hand.mirCtl l

/-- Write the mirror control record of the slot an engine serves (R196). -/
def State.putMirrorCtl (s : State) (p : Nat) : State :=
  let e := s.engOf p
  let l := s.logicalOf p
  let m : MirrorCtl :=
    { task := e.task, xcnt := s.fld (ENG_XCNT_XCNT p), xstart := e.xstart, ring := (s.leafOf l).taken }
  { s with hand := { s.hand with mirCtl := instSet .reset s.hand.mirCtl l m } }

/-! ### DEGRADED (R193) -/

/-- The logical engines of the hand that a logical engine belongs to: every leaf of its tree. -/
def State.handLeaves (s : State) (l : Nat) : List Nat :=
  match s.leafNode? l with
  | some i => s.leavesOf (s.rootOf i)
  | none => [l]

/-- The opening of a record, marked. -/
def FifoItem.degrade : FifoItem → FifoItem
  | .opens prog loc deal frame _ => .opens prog loc deal frame true
  | x => x

/-- Every record that an engine holds is marked: working, committed, or draining (R193). -/
def Engine.degrade (e : Engine) : Engine :=
  let mark := fun (c : EngCore) => { c with fifoW := c.fifoW.map FifoItem.degrade }
  { e with pre := mark e.pre, cur := mark e.cur, fifo := e.fifo.map FifoItem.degrade,
           drain := e.drain.map (fun r => { r with degr := true }) }

/-- Every record that the hand of a logical engine holds and has not delivered to the pot, and every later one of deal `d`,
carries DEGRADED; so do the combinations of its leaders that are not yet delivered (R192, R193). -/
def State.degradeHand (s : State) (l d : Nat) : State :=
  let ls := s.handLeaves l
  let s := ls.foldl (fun s x =>
    let p := s.fld (HAND_MAP_PHYS x)
    let s := s.setEng p (s.engOf p).degrade
    let leaf := s.leafOf x
    s.setLeaf x { leaf with degr := if d ∈ leaf.degr then leaf.degr else leaf.degr ++ [d] }) s
  let mine := fun (i : Nat) => (s.leavesOf i).any (fun x => decide (x ∈ ls))
  { s with hand := { s.hand with combine := s.hand.combine.map (fun c => if mine c.node then { c with degr := true } else c) } }

/-! ### Combine areas (R192) -/

/-- The GROUP nodes that combine a product of the image, with their members: every leaf below but the leader. -/
def State.combiners (s : State) (number : Nat) : List Nat :=
  (List.range s.img.nodes.length).filter (fun i =>
    match s.img.nodes[i]? with
    | some n => decide (n.kind = 3) && decide (n.cbase ≠ 0xFFFF) && decide (number ∈ n.cprod)
    | none => false)

/-- The leader of a node (R187): a TRICK's is the leaf of slot 4t, a GANG's member 0, in the lowest cluster, a GROUP's the leader
of member 0. -/
def State.leaderOf (s : State) : Nat → Nat → Nat
  | 0, _ => 0
  | fuel + 1, i =>
    match s.node? i with
    | none => 0
    | some n =>
      match n.kind with
      | 0 => n.place % 1024
      | 1 => n.place % 64 * 16 + n.place / 64 % 4 * 4
      | 2 => ((s.members i).map (s.leaderOf fuel)).foldl min 1023
      | _ => s.leaderOf fuel ((s.members i).headD i)

/-- The members of a combining node that settle: its leaves other than the leader, in node order. -/
def State.combineMembers (s : State) (i : Nat) : List Nat :=
  (s.leavesOf i).filter (fun l => decide (l ≠ s.leaderOf 2049 i))

/-- The product entry of a program's local product number (R176, R485). -/
def State.productOf (s : State) (prog loc : Nat) : Option Product :=
  s.img.products.find? (fun x => decide (x.prog = prog) && decide (x.loc = loc))

/-- The combination of a node, product and deal as it stands. -/
def State.combineOf (s : State) (node product deal : Nat) : Combine :=
  match s.hand.combine.find? (fun c => decide (c.node = node) && decide (c.product = product) && decide (c.deal = deal)) with
  | some c => c
  | none => { node := node, product := product, deal := deal, settled := [], waiting := [], first := none, degr := false }

/-- Put a combination back. -/
def State.putCombine (s : State) (c : Combine) : State :=
  { s with hand := { s.hand with
      combine := s.hand.combine.filter (fun x =>
        !(decide (x.node = c.node) && decide (x.product = c.product) && decide (x.deal = c.deal))) ++ [c] } }

/-- One 64-bit word's elements in a format, lowest first. -/
def wordElems (f : Fmt) (w : Nat) : List Cx :=
  (List.range (8 / f.size)).map (fun i => f.decode ((w >>> (8 * f.size * i)) % 2 ^ (8 * f.size)))

/-- Elements packed into a 64-bit word, lowest first. -/
def packElems (f : Fmt) : Nat → List Cx → Nat
  | _, [] => 0
  | i, v :: t => (f.encode v % 2 ^ (8 * f.size)) <<< (8 * f.size * i) + packElems f (i + 1) t

/-- The saturating sum of two words element by element, with whether it saturated (R170, R192). -/
def addWord (f : Fmt) (a b : Nat) : Nat × Bool :=
  let xs := List.zipWith (fun x y => ({ re := x.re + y.re, im := x.im + y.im } : Cx)) (wordElems f a) (wordElems f b)
  ( packElems f 0 (xs.map (fun v => { re := satSym v.re f.width, im := satSym v.im f.width })),
    xs.any (fun v => satSymHit v.re f.width || satSymHit v.im f.width) )

/-- Write one committed word of an engine's accumulator store, with its tag, and its mirror (R134, R192). -/
def State.commitWord (s : State) (p i v : Nat) (tag : Bool) : State :=
  let e := s.engOf p
  let l := s.logicalOf p
  let s := s.setEng p { e with acc := instSet 0 e.acc i v, tag := instSet false e.tag i tag }
  { s with hand := { s.hand with
      mirror := instSet 0 s.hand.mirror (8192 * l + i) v, mirTag := instSet false s.hand.mirTag (8192 * l + i) tag } }

/-- The fabric takes one member record into the combine area (R192). -/
def State.combineTake (s : State) (c : Combine) (n : HandNode) (p : Nat) (r : ResultRecord) : State × Combine :=
  let base := n.cbase + (if r.deal % 2 = 0 then 0 else n.clen)
  let fmts := r.words.map (fun w => w.2)
  match c.first with
  | none =>
    ( (List.range r.words.length).foldl (fun s i => s.commitWord p (base + i) (r.words.getD i (0, 0)).1 r.ovf) s,
      { c with first := some fmts, degr := c.degr || r.degr } )
  | some ff =>
    if ff = fmts then
      ( (List.range r.words.length).foldl (fun s i =>
          let w := r.words.getD i (0, 0)
          let e := s.engOf p
          let sum := match fmtOf w.2 with
            | some f => addWord f (instGet 0 e.acc (base + i)) w.1
            | none => (instGet 0 e.acc (base + i), false)
          s.commitWord p (base + i) sum.1 (instGet false e.tag (base + i) || r.ovf || sum.2)) s,
        { c with degr := c.degr || r.degr } )
    else (s, { c with degr := true })

/-- Take the waiting member records whose turn has come: in member order within one quadrant, else as they arrived. A retired
member is not waited for (R207). -/
def State.combineRun (s : State) (n : HandNode) (members : List Nat) (p : Nat) (oneQuad : Bool) :
    Nat → Combine → State × Combine
  | 0, c => (s, c)
  | fuel + 1, c =>
    let ready := fun (r : ResultRecord) => !oneQuad ||
      (members.takeWhile (fun m => decide (m ≠ r.logical))).all (fun m =>
        decide (m ∈ c.settled) || !s.flag (HAND_MAP_VALID m))
    match c.waiting.find? ready with
    | none => (s, c)
    | some r =>
      let (s, c) := s.combineTake { c with waiting := c.waiting.erase r } n p r
      s.combineRun n members p oneQuad fuel { c with settled := c.settled ++ [r.logical] }

/-- A member settles for a deal, with its record or without one (R192). -/
def State.combineSettle (s : State) (node product deal l : Nat) (rec? : Option ResultRecord) : State :=
  match s.node? node with
  | none => s
  | some n =>
    let members := s.combineMembers node
    let c := s.combineOf node product deal
    if l ∉ members ∨ l ∈ c.settled ∨ c.waiting.any (fun r => decide (r.logical = l)) = true then s
    else
      let c := match rec? with
        | some r => { c with waiting := c.waiting ++ [r] }
        | none => { c with settled := c.settled ++ [l], degr := true }
      let lead := s.leaderOf 2049 node
      let p := s.fld (HAND_MAP_PHYS lead)
      let oneQuad := members.all (fun m => decide (m / 256 = lead / 256))
      let (s, c) := s.combineRun n members p oneQuad 17 c
      s.putCombine c

/-- Whether every member of every combination that a leader's DEAL task awaits has settled (R192). A retired member
counts as settled (R207). -/
def State.combineReady (s : State) (l prog deal : Nat) : Bool :=
  (s.img.products.filter (fun x => decide (x.prog = prog))).all (fun x =>
    (s.combiners x.number).all (fun i =>
      decide (s.leaderOf 2049 i ≠ l) ||
      (s.combineMembers i).all (fun m =>
        decide (m ∈ (s.combineOf i x.number deal).settled) || !s.flag (HAND_MAP_VALID m))))

/-! ### Tasks (R171, R172) -/

/-- Frames per deal of a program (R42). -/
def State.framesPerDeal (s : State) (g : Program) : Nat := s.dealLen / g.hop

/-- Bits 15:0 of PARAM7, which the device supplies (R190). -/
def State.param7 (s : State) (l : Nat) : Nat :=
  match s.gang? l with
  | some (_, _, _, n) => s.gangIndex l <<< 8 + Nat.log2 n <<< 6 + (l % 16 % 4) <<< 4
  | none => (l % 16 % 4) <<< 4

/-- A descriptor's parameters (R171, R190). -/
def State.paramsOf (s : State) (l : Nat) (g : Program) : List Nat :=
  g.param.take 7 ++ [(g.param.getD 7 0) / 65536 * 65536 + s.param7 l]

/-- The mask face that descriptors of a deal name (R182). -/
def Leaf.faceAt (x : Leaf) (deal : Nat) : Nat := ((x.faces.find? (fun f => decide (f.1 ≤ deal))).map (fun f => f.2)).getD 0

/-- The descriptor of a program's DEAL task (R171). -/
def State.dealTask (s : State) (l : Nat) (g : Program) (deal : Nat) : Descriptor :=
  { entry := g.dealEntry, isDeal := true, prog := g.prog, first := false, last := false, face := (s.leafOf l).faceAt deal,
    frame := s.framesPerDeal g, deal := deal, inBase := 0, inLen := 0, xs := 0, carry := 0, param := s.paramsOf l g }

/-- What the loss of a task leaves besides (R193, R195): the hand's records carry DEGRADED, XCNT takes the program's declared
number more, and the task is noted as lost. -/
def State.loseTask (s : State) (l : Nat) (d : Descriptor) : State :=
  let n := match s.img.programs.find? (fun g => decide (g.prog = d.prog)) with
    | some g => if d.isDeal then g.xpubD else g.xpubF
    | none => 0
  let s := s.degradeHand l d.deal
  let p := s.fld (HAND_MAP_PHYS l)
  let s := s.addWrap (ENG_XCNT_XCNT p) n
  let s := s.setEng p { s.engOf p with xstart := ((s.engOf p).xstart + n) % 65536 }
  ({ s with hand := { s.hand with lost := s.hand.lost ++ [(l, d.prog, d.deal, d.isDeal)] } }).putMirrorCtl p

/-- Settle what a member owes its GROUP when its task of a program ends or is dropped without a record (R192); `ready` then
judges the leader's DEAL task. -/
def State.settleWith (s : State) (ready : State → Nat → Nat → Nat → State) (l : Nat) (d : Descriptor) (produced : Nat → Bool) :
    State :=
  (s.img.products.filter (fun x => decide (x.prog = d.prog))).foldl (fun s x =>
    if produced x.loc then s
    else (s.combiners x.number).foldl (fun s i =>
      ready (s.combineSettle i x.number d.deal l none) (s.leaderOf 2049 i) d.prog d.deal) s) s

/-- Every frame task of a deal has ended or been dropped: of a program without FRAME tasks, when the deal is over (R172). -/
def State.framesOver (s : State) (l : Nat) (g : Program) (deal : Nat) : Bool :=
  if g.frameEntry = 0x3FFF then decide (deal < s.pair DEAL_NUM)
  else
    decide ((((s.leafOf l).ended.find? (fun e => decide (e.1 = g.prog) && decide (e.2.1 = deal))).map (fun e => e.2.2)).getD 0 =
      s.framesPerDeal g)

/-- A program's DEAL task of a deal enters the ring once every frame task of that deal has ended or been dropped and
every awaited member has settled (R172, R192); a full ring loses it (R194), which may make a leader's task ready: `fuel` bounds
how often. -/
def State.dealReadyN : Nat → State → Nat → Nat → Nat → State
  | 0, s, _, _, _ => s
  | fuel + 1, s, l, prog, deal =>
    match s.img.programs.find? (fun g => decide (g.prog = prog)) with
    | none => s
    | some g =>
      let x := s.leafOf l
      if g.dealEntry ≠ 0x3FFF ∧ s.framesOver l g deal = true ∧ (prog, deal) ∉ x.dealt ∧ deal ∉ x.gone ∧
          s.combineReady l prog deal = true then
        let d := s.dealTask l g deal
        let x := { x with dealt := x.dealt ++ [(prog, deal)] }
        if x.ring.length < 1024 then s.setLeaf l { x with ring := x.ring ++ [d] }
        else
          let s := s.setLeaf l { x with dealEnd := x.dealEnd ++ [(prog, deal)] }
          let s := (s.loseTask l d).settleWith (State.dealReadyN fuel) l d (fun _ => false)
          s.logEvent 0x1123 sevAttention (s.fld (HAND_MAP_PHYS l))
      else s

/-- A program's DEAL task of a deal, when its time has come. -/
def State.dealReady (s : State) (l prog deal : Nat) : State := State.dealReadyN 1024 s l prog deal

/-- Settle what a member owes its GROUP (R192). -/
def State.settleGroups (s : State) (l : Nat) (d : Descriptor) (produced : Nat → Bool) : State :=
  s.settleWith State.dealReady l d produced

/-- A task has ended or been dropped: a frame task counts toward its deal (R172). -/
def State.taskOver (s : State) (l : Nat) (d : Descriptor) (produced : Nat → Bool) : State :=
  if d.isDeal then
    let x := s.leafOf l
    (s.setLeaf l { x with dealEnd := x.dealEnd ++ [(d.prog, d.deal)] }).settleGroups l d produced
  else
    let x := s.leafOf l
    let n := ((x.ended.find? (fun e => decide (e.1 = d.prog) && decide (e.2.1 = d.deal))).map (fun e => e.2.2)).getD 0
    let rest := x.ended.filter (fun e => !(decide (e.1 = d.prog) && decide (e.2.1 = d.deal)))
    (s.setLeaf l { x with ended := rest ++ [(d.prog, d.deal, n + 1)] }).dealReady l d.prog d.deal

/-! ### Abandonment (R178, R179) -/

/-- A routine is abandoned: working state is discarded; the routine waits for its restart. -/
def State.abandon (s : State) (p : Nat) : State :=
  let e := s.engOf p
  match e.task with
  | none => s
  | some d =>
    let c := entryCore e.pre d e.openC
    s.setEng p { e with pre := c, cur := c, stall := none, halted := true }

/-- Count an abandonment for pre-emption, once (R179, R180). -/
def State.preempt (s : State) (p : Nat) : State :=
  let e := s.engOf p
  if e.task.isNone || e.halted then s
  else ((s.abandon p).addSat (ENG_RESTARTS_PREEMPT p) 1).setFld (ENG_STAT_RESTART p) 1

/-- An engine's task is dropped (R193, R195): XCNT takes its value at the task's start plus the program's declared
number, a record left open is closed as it stands, the hand's records carry DEGRADED, and the engine goes idle. -/
def State.dropTask (s : State) (p : Nat) : State :=
  let e := s.engOf p
  match e.task with
  | none => s
  | some d =>
    let l := s.logicalOf p
    let declared := match s.img.programs.find? (fun g => decide (g.prog = d.prog)) with
      | some g => if d.isDeal then g.xpubD else g.xpubF
      | none => 0
    let s := s.degradeHand l d.deal
    let s := s.setFld (ENG_XCNT_XCNT p) ((e.xstart + declared) % 65536)
    let e := s.engOf p
    let c := entryCore e.pre d none
    let fifo := if e.openC.isSome then e.fifo ++ [.closes] else e.fifo
    let s := s.setEng p { e with
      pre := c, cur := c, task := none, stall := none, halted := false, fifo := fifo, openC := none, consec := 0 }
    let s := if s.engState p = esRun then s.setFld (ENG_STAT_STATE p) esIdle else s
    let s := { s with hand := { s.hand with lost := s.hand.lost ++ [(l, d.prog, d.deal, d.isDeal)] } }
    (s.putMirrorCtl p).taskOver l d (fun _ => false)

/-- A ready task that has not started is dropped (R194, R195). -/
def State.dropReady (s : State) (l : Nat) (d : Descriptor) : State :=
  let x := s.leafOf l
  let s := s.setLeaf l { x with ring := x.ring.erase d }
  (s.loseTask l d).taskOver l d (fun _ => false)

/-- A ready FRAME task enters the ring; a full ring loses it (R194). -/
def State.ringPush (s : State) (l : Nat) (d : Descriptor) : State :=
  let x := s.leafOf l
  if x.ring.length < 1024 then s.setLeaf l { x with ring := x.ring ++ [d] }
  else ((s.loseTask l d).taskOver l d (fun _ => false)).logEvent 0x1123 sevAttention (s.fld (HAND_MAP_PHYS l))

/-- Record a fault's code and microword address (R159). -/
def State.putFault (s : State) (p code pc : Nat) : State :=
  (s.setFld (ENG_FAULT_CODE p) code).setFld (ENG_FAULT_PC p) pc

/-- A program fault (R159): the routine is abandoned without restart and its task dropped. -/
def State.programFault (s : State) (p code : Nat) : State :=
  let pc := (s.engOf p).pre.pc
  let s := (s.putFault p code pc).setFld (ENG_STAT_PROG_FAULT p) 1
  (s.dropTask p).logEvent 0x1120 sevAttention (code <<< 24 + p)

/-- IN_LAP (R133): the running task's window was overwritten. -/
def State.inLap (s : State) (p : Nat) : State :=
  let pc := (s.engOf p).pre.pc
  let s := (s.putFault p 0x09 pc).setFld (ENG_STAT_IN_LAP p) 1
  (s.dropTask p).logEvent 0x1121 sevAttention p

/-! ### Permanent faults and takeover (R199 to R208) -/

/-- The cluster of a physical engine, and its slot. -/
def clusterOf (p : Nat) : Nat := p / 17

/-- ENGp_IN_WR: the index of the last coarse sample delivered to an engine; the engine that serves shows its stream's,
any other keeps its last value (R160). -/
def State.inWr (s : State) (p : Nat) : Nat :=
  let d := s.dealerOf (s.streamOf (s.logicalOf p)).2
  if s.flag (ENG_ID_ACTIVE p) && !d.ring.isEmpty then ofSigned 64 (d.j - 1) else s.pair (ENG_IN_WR p)

/-- ENGp_DEAL_BUSY and ENGp_DEAL_STALL of the last completed deal: what the microcycles came to is a free value, 0 for a
GATED engine and before a deal is complete; a RETIRED one keeps its last values (R160). -/
def State.engCycles (s : State) (p : Nat) : Word × Word :=
  if s.engState p = esRetired then (s.reg (ENG_DEAL_BUSY_CYCLES p).addr, s.reg (ENG_DEAL_STALL_CYCLES p).addr)
  else if s.engState p = esGated ∨ s.deal.running = false ∨ s.pair DEAL_NUM ≤ s.deal.first then (0, 0)
  else
    let busy := Config.engineCycles p (s.pair DEAL_NUM - 1) 0
    let stall := Config.engineCycles p (s.pair DEAL_NUM - 1) 1
    (busy, if stall.toNat ≤ busy.toNat then stall else busy)

/-- An engine goes to RETIRED; its cluster counts it (R158, R200). ENGp_FAULT keeps the microword of the fault, or of the
routine that it was running (R159). -/
def State.retire (s : State) (p : Nat) : State :=
  let e := s.engOf p
  let pc := if e.task.isNone || e.halted then s.fld (ENG_FAULT_PC p) else e.pre.pc
  let (busy, stall) := s.engCycles p
  let s := (s.abandon p).setPair (ENG_IN_WR p) (s.inWr p)
  let s := (s.setReg (ENG_DEAL_BUSY_CYCLES p).addr busy).setReg (ENG_DEAL_STALL_CYCLES p).addr stall
  let s := ((s.setFld (ENG_STAT_STATE p) esRetired).setFld (ENG_ID_ACTIVE p) 0).putFault p 0x20 pc
  s.addSat (HAND_CLU_RETIRED (clusterOf p)) 1

/-- The members of the gang of a logical engine, or of its trick (R189, R187). -/
def State.mates (s : State) (l : Nat) : List Nat :=
  match s.gang? l with
  | some (_, _, c0, n) => (List.range n).map (fun m => l / 256 * 256 + (c0 + m) * 16 + l % 16)
  | none => (List.range 4).map (fun t => l / 4 * 4 + t)

/-- The hand interrupt (R179, R200 step 2): members of the same trick or gang whose routine read the engine are
abandoned until the substitute is ready. -/
def State.handInterrupt (s : State) (l : Nat) : State :=
  (s.mates l).foldl (fun s m =>
    let p := s.fld (HAND_MAP_PHYS m)
    if m ≠ l ∧ s.flag (HAND_MAP_VALID m) = true ∧ l ∈ (s.engOf p).cur.reads then
      let s := s.preempt p
      s.setEng p { s.engOf p with await := some l }
    else s) s

/-- A logical engine that is no longer served owes its GROUPs nothing: it settles without a record for every deal in progress
(R192, R207). -/
def State.settleRetired (s : State) (l : Nat) : State :=
  let n := s.pair DEAL_NUM
  let deals := (List.range 4).map (fun i => n - i)
  s.img.products.foldl (fun s x => (s.combiners x.number).foldl (fun s i =>
    if l ∈ s.combineMembers i then
      (deals.filter (fun d => decide (s.deal.first ≤ d))).foldl (fun s d =>
        (s.combineSettle i x.number d l none).dealReady (s.leaderOf 2049 i) x.prog d) s
    else s) s) s

/-- A fault that no joker can hide (R207): the engine retires, its logical engine is not served, its tasks are dropped, it
delivers no further record, and every undelivered and later record of its hand carries DEGRADED until a full reset. -/
def State.unhidden (s : State) (p l : Nat) : State :=
  let d := ((s.engOf p).task.map (fun d => d.deal)).getD (s.pair DEAL_NUM)
  let s := s.degradeHand l d
  let ring := (s.leafOf l).ring
  let s := s.dropTask p
  let s := ring.foldl (fun s d => s.dropReady l d) s
  let s := s.setEng p { s.engOf p with fifo := [], drain := none, openC := none }
  let s := s.retire p
  let s := s.setFld (HAND_MAP_VALID l) 0
  let s := (s.handLeaves l).foldl (fun s x => s.setLeaf x { s.leafOf x with always := true }) s
  s.settleRetired l

/-- A fault that could not be hidden is shown and logged (R207, R213). -/
def State.noJoker (s : State) (p : Nat) : State := (s.setFld HAND_STAT_NO_JOKER 1).logEvent 0x1102 sevAttention p

/-- A cluster's joker has failed (R208): it substitutes no longer (R214). -/
def State.jokerFailed (s : State) (c l : Nat) : State :=
  let used := s.fld HAND_SUB_COUNT_IN_USE
  let s := if s.fld (HAND_CLU_JSTATE c) = 2 then s.setFld HAND_SUB_COUNT_IN_USE (used - 1) else s
  let s := (s.setFld HAND_STAT_JOKER_FAIL 1).setFld (HAND_CLU_JSTATE c) 3
  (s.setFld (HAND_CLU_JFOR c) 0x1F).logEvent 0x1103 sevAttention (jokerOf c <<< 16 + l)

/-- A quadrant's in-field tests (R508). -/
def State.iftOf (s : State) (q : Nat) : IftQuad := instGet .reset s.test.ift q

/-- Change a quadrant's in-field tests. -/
def State.setIft (s : State) (q : Nat) (x : IftQuad) : State :=
  { s with test := { s.test with ift := instSet .reset s.test.ift q x } }

/-- A running in-field test of an engine is abandoned without a result (R203, R511): TEST_IFT_LAST shows it. One that has ended
keeps its result. -/
def State.abandonIft (s : State) (p : Nat) : State :=
  let q := p / 272
  if (s.iftOf q).run = some p then
    let past := (s.iftOf q).ended
    let s := (s.setIft q { s.iftOf q with run := none, ended := false }).putBit TEST_IFT_STAT_ACTIVE q false
    if past then s else
    let s := s.setFld TEST_STAT_IFT_DONE 1
    (s.setFld TEST_IFT_LAST_RESULT 3).setFld TEST_IFT_LAST_PHYS p
  else s

/-- Start a takeover of a logical engine by another engine (R200 steps 1 and 2). -/
def State.beginTakeover (s : State) (failed taker cause : Nat) : State :=
  let l := s.logicalOf failed
  let s := s.retire failed
  let s := s.setFld (HAND_MAP_PENDING l) 1
  let s := s.handInterrupt l
  let c := clusterOf failed
  let s := s.abandonIft taker
  let s := if taker = jokerOf c then (s.setFld (HAND_CLU_JSTATE c) 2).setFld (HAND_CLU_JFOR c) (failed % 17) else s
  let t : Takeover := { logical := l, failed := failed, taker := taker, cause := cause }
  { s with hand := { s.hand with takeover := s.hand.takeover ++ [t] } }

/-- An engine is declared PERMANENT (R199), for the cause numbered as R199's items: its joker takes over (R200), stops
standing in first (R203), or the fault cannot be hidden (R207, R208); while the supervisor's watchdog has expired no joker
takes over, and nothing is logged (R466). -/
def State.declarePermanent (s : State) (p cause : Nat) : State :=
  let c := clusterOf p
  let j := jokerOf c
  let l := s.logicalOf p
  let js := s.fld (HAND_CLU_JSTATE c)
  let lost := fun (s : State) => (s.unhidden p l).noJoker p
  if s.engState p = esRetired ∨ !s.flag (ENG_ID_ACTIVE p) then s
  else if s.flag SUP_STAT_WDOG then (if p = j then (lost s).jokerFailed c l else lost s)
  else if p = j then
    match s.hand.standin.find? (fun x => decide (x.2 = j)) with
    | some (t, _) =>
      let s := { s with hand := { s.hand with standin := s.hand.standin.filter (fun x => decide (x.2 ≠ j)) } }
      ((s.abandonIft t).beginTakeover j t 0).jokerFailed c l
    | none => (lost s).jokerFailed c l
  else if js = 0 then s.beginTakeover p j cause
  else if js = 1 then
    match s.hand.standin.find? (fun x => decide (x.2 = j)) with
    | some (t, _) =>
      let lt := s.logicalOf j
      let s := s.preempt j
      let s := s.setFld (HAND_MAP_PENDING lt) 1
      let back : Takeover := { logical := lt, failed := j, taker := t, cause := 0 }
      let s := s.abandonIft t
      let s := { s with hand := { s.hand with
        standin := s.hand.standin.filter (fun x => decide (x.2 ≠ j)), takeover := s.hand.takeover ++ [back] } }
      (s.beginTakeover p j cause).logEvent 0x1106 sevInfo t
    | none => s.beginTakeover p j cause
  else lost s

/-- The coarse samples in one second. -/
def State.secondLen (s : State) : Int := ((s.nsps / 400 : Nat) : Int)

/-- A transient fault (R159, R179): the routine is abandoned and counted; the limits of R199 items 1 and 2 make it
permanent. -/
def State.transientFault (s : State) (p code : Nat) : State :=
  let e := s.engOf p
  let s := s.putFault p code e.pre.pc
  let s := ((s.abandon p).addSat (ENG_RESTARTS_FAULT p) 1).setFld (ENG_STAT_RESTART p) 1
  let e := s.engOf p
  let times := (e.times.filter (fun t => decide (s.now - t < s.secondLen))) ++ [s.now]
  let s := s.setEng p { e with consec := e.consec + 1, times := times }
  let rate := s.fld HAND_CFG_RATE_LIMIT
  if s.fld HAND_CFG_CONSEC_LIMIT ≤ e.consec + 1 then s.declarePermanent p 1
  else if rate ≠ 0 ∧ rate < times.length then s.declarePermanent p 2
  else s

/-! ### Uncorrectable words (R136, R137, R198, R209) -/

/-- Whether a program address lies in a preloaded region of an engine, and which (R137). -/
def State.preloadAt (s : State) (p a : Nat) : Option Nat :=
  (List.range 2).find? (fun r =>
    s.flag (ENG_PRELOAD_EN p r) && decide (s.fld (ENG_PRELOAD_BASE4K p r) * 4096 ≤ a) &&
    decide (a < (s.fld (ENG_PRELOAD_BASE4K p r) + s.fld (ENG_PRELOAD_LEN4K p r)) * 4096))

/-- What was loaded at a program address of an engine. -/
def Engine.loadAt (e : Engine) (a : Nat) : Option Load :=
  e.loads.find? (fun x => decide (x.base ≤ a) && decide (a < x.base + x.len))

/-- Whether two engines hold the same preload at an address of region r: base, length and record (R137, R241). -/
def State.samePreload (s : State) (p x r a : Nat) : Bool :=
  s.flag (ENG_PRELOAD_EN x r) && decide (s.fld (ENG_PRELOAD_BASE4K p r) = s.fld (ENG_PRELOAD_BASE4K x r)) &&
  decide (s.fld (ENG_PRELOAD_LEN4K p r) = s.fld (ENG_PRELOAD_LEN4K x r)) &&
  decide ((s.engOf p).loadAt a = (s.engOf x).loadAt a)

/-- Whether another engine among some holds the same preload. -/
def State.preloadSource (s : State) (p r a : Nat) (among : List Nat) : Bool :=
  among.any (fun x => decide (x ≠ p) && s.samePreload p x r a && decide (s.engState x ≠ esRetired))

/-- The eight bytes at an address of a preloaded region as its record gives them: what a repair restores, whatever a program
has written there (R137). -/
def State.imageBytes (s : State) (p a : Nat) : List Byte :=
  match (s.engOf p).loadAt a with
  | some x => ((instGet [] s.img.blocks x.src).drop (a - x.base) ++ List.replicate 8 0).take 8
  | none => List.replicate 8 0

/-- Change both layers of an engine's data SRAM: a repair writes under the running routine. -/
def Engine.repairSram (e : Engine) (a : Nat) (bs : List Byte) : Engine :=
  let f := fun (c : EngCore) =>
    { c with sram := sparseWrite (fun _ => (0 : Byte)) c.sram a bs,
             memTag := c.memTag.filter (fun g => decide (2 * g < a) || decide (a + bs.length ≤ 2 * g)) }
  { e with pre := f e.pre, cur := f e.cur }

/-- A shared resource of a cluster is declared failed (R209): bit 3 mirror, bit 2 replay ring, bit 1 task store. -/
def State.sharedFail (s : State) (cluster bit : Nat) : State :=
  let s := s.putBit (HAND_CLU_FAILRES cluster) bit true
  let s := s.setFld HAND_STAT_SHARED_FAIL 1
  let s := { s with hand := { s.hand with cluNext := s.hand.cluNext ++ [cluster] } }
  s.logEvent 0x1104 sevAttention ((2 ^ bit) <<< 16 + cluster)

/-- An uncorrectable word of a resource of the cluster (bit as in FAILRES, word in the slot's section): a second one at the
same address since reset declares the resource failed (R198, R209). -/
def State.sharedWord (s : State) (p bit word : Nat) : State :=
  let c := clusterOf p
  let key := (c, bit * 2 ^ 32 + (s.logicalOf p) * 2 ^ 20 + word)
  if key ∈ s.hand.shared then s.sharedFail c bit
  else { s with hand := { s.hand with shared := s.hand.shared ++ [key] } }

/-- One that a repair, restart or takeover needs: the task is dropped (R198), with the fault that it could not mend (R159). -/
def State.sharedEcc (s : State) (p bit word code : Nat) : State :=
  ((s.putFault p code (s.engOf p).pre.pc).dropTask p).sharedWord p bit word

/-- An uncorrectable error at a program address of an engine (R136). `lostCopy` says that the cluster's own copy that
the repair needs is uncorrectable as well. -/
def State.eccUnc (s : State) (p a : Nat) (lostCopy : Bool) : State :=
  let s := s.addSat (ENG_ECC_UNC p) 1
  let s := (s.setFld (ENG_ECC_ADDR_UNC p) 1).setFld (ENG_ECC_ADDR_ADDR p) (a / 8 * 8)
  let s := s.setFld (ENG_STAT_ECC_UNC p) 1
  let e := s.engOf p
  let w := a / 8 * 8
  let again := decide (w ∈ e.eccAt)
  let own := decide (a < 0x70000)
  let s := if own && !again then s.setEng p { e with eccAt := e.eccAt ++ [w] } else s
  if !own then
    let s := (s.putFault p 0x08 e.pre.pc).dropTask p
    s.logEvent 0x1122 sevAttention p
  else if again then (s.putFault p (if a < 0x20000 then 0x02 else if a < 0x60000 then 0x01 else 0x03) e.pre.pc).declarePermanent p 3
  else if a < 0x20000 then (if lostCopy then s.sharedEcc p 2 (a / 8) 0x02 else s.transientFault p 0x02)
  else if a < 0x60000 then
    match s.preloadAt p a with
    | none => (s.setEng p ((s.engOf p).repairSram w (List.replicate 8 0))).transientFault p 0x01
    | some r =>
      if s.preloadSource p r w ((List.range 17).map (fun i => clusterOf p * 17 + i)) then
        (s.setEng p ((s.engOf p).repairSram w (s.imageBytes p w))).transientFault p 0x04
      else (s.putFault p 0x04 e.pre.pc).declarePermanent p 6
  else if lostCopy then s.sharedEcc p 3 ((a - 0x60000) / 8) 0x03
  else
    let i := (a - 0x60000) / 8
    let e := s.engOf p
    (s.setEng p { e with acc := instSet 0 e.acc i (instGet 0 s.hand.mirror (8192 * s.logicalOf p + i)) }).transientFault p 0x03

/-- A corrected single-bit error (R136). -/
def State.eccCorr (s : State) (p a : Nat) : State :=
  let s := s.addSat (ENG_ECC_CORR p) 1
  let s := (s.setFld (ENG_ECC_ADDR_UNC p) 0).setFld (ENG_ECC_ADDR_ADDR p) (a / 8 * 8)
  s.setFld (ENG_STAT_ECC_CORR p) 1

end Sys2Proof.Machine
end

