-- ==== Sys2Proof/Machine/Trig.lean ====
section
/-! DEFINITION. The twiddle ROM (R148) and the base-2 logarithm table (R152), computed exactly in integers. Sines are
taken from their series in 64-bit fixed point over a quarter wave; no value of the table lies within 7 / 1,000,000 of a
rounding tie, and the series is off by less than 2^-50, so each rounds to the value R148 states. -/

namespace Sys2Proof.Machine

/-- π scaled by 2^64, rounded down. -/
def pi64 : Nat := 57952155664616982739

/-- The series of the sine from term `i` on: `t` is the term before, `x` the angle, both scaled by 2^64. -/
def sinTail (x : Nat) : Nat → Nat → Nat → Int
  | 0, _, _ => 0
  | n + 1, i, t =>
    let t' : Nat := ((t * x / 2 ^ 64) * x / 2 ^ 64) / ((2 * i) * (2 * i + 1))
    (if i % 2 = 1 then -(t' : Int) else (t' : Int)) + sinTail x n (i + 1) t'

/-- The series of the cosine from term `i` on. -/
def cosTail (x : Nat) : Nat → Nat → Nat → Int
  | 0, _, _ => 0
  | n + 1, i, t =>
    let t' : Nat := ((t * x / 2 ^ 64) * x / 2 ^ 64) / ((2 * i - 1) * (2 * i))
    (if i % 2 = 1 then -(t' : Int) else (t' : Int)) + cosTail x n (i + 1) t'

/-- The angle 2πm / 131,072 scaled by 2^64. -/
def angle64 (m : Nat) : Nat := 2 * pi64 * m / 131072

/-- sin(2πm / 131,072) scaled by 2^64, for m in the first quarter, 0 to 32,768. -/
def sin64 (m : Nat) : Int := (angle64 m : Int) + sinTail (angle64 m) 15 1 (angle64 m)

/-- cos(2πm / 131,072) scaled by 2^64, for m in the first quarter. -/
def cos64 (m : Nat) : Int := (2 ^ 64 : Int) + cosTail (angle64 m) 15 1 (2 ^ 64)

/-- roundeven(131,071 sin(2πm / 131,072)) for m in the first quarter, 0 to 32,768. -/
def sinQuarter (m : Nat) : Int := roundEven (131071 * sin64 m) 64

/-- roundeven(131,071 cos(2πm / 131,072)) for m in the first quarter. -/
def cosQuarter (m : Nat) : Int := roundEven (131071 * cos64 m) 64

/-- A full wave of 131,072 steps from its first quarter by symmetry: the sine of `m` from a sine and a cosine. -/
def fullWave (sin cos : Nat → Int) (m : Nat) : Int :=
  let r := m % 32768
  match m % 131072 / 32768 with
  | 0 => sin r
  | 1 => cos r
  | 2 => -(sin r)
  | _ => -(cos r)

/-- S(m) of R148: the ROM's quarter wave, the other quarters by symmetry. -/
def twS (m : Nat) : Int := fullWave sinQuarter cosQuarter m

/-- C(m) of R148. -/
def twC (m : Nat) : Int := fullWave sinQuarter cosQuarter (m + 32768)

/-- A filter's response at the frequency q / 131,072 of its input rate: the squared magnitude, in units of the twiddles'. -/
def powerAt (h : List Int) (q : Nat) : Nat :=
  let part := fun (tw : Nat → Int) => (h.zipIdx.map (fun x => x.1 * tw (q * x.2 % 131072))).sum
  (part twC * part twC + part twS * part twS).toNat

/-- Of two powers, `a` is at most 10 / n dB above `b`: a^n ≤ 10 b^n. -/
def dbWithin (n a b : Nat) : Bool := decide (a ^ n ≤ 10 * b ^ n)

/-- A number squared `n` times over: x^(2^n). -/
def squareTimes : Nat → Nat → Nat
  | 0, x => x
  | n + 1, x => squareTimes n (x * x)

/-- L[j] of R152: roundeven(1,024 log2(1 + (2j + 1) / 2,048)). The bracket is (2,049 + 2j) / 2^11, so twice the value
is floor(log2((2,049 + 2j)^2048)) − 22,528, and no value is a tie. -/
def logTable (j : Nat) : Int := (((Nat.log2 (squareTimes 11 (2049 + 2 * j)) : Int) - 22528 + 1) / 2)

/-- The logarithm of R152 of an accumulator value, in units of 1/1,024. -/
def log2Units (x : Int) : Int :=
  if x ≤ 0 then -131071
  else
    let n := x.toNat
    let e := Nat.log2 n
    let f := if 10 ≤ e then n / 2 ^ (e - 10) % 1024 else (n * 2 ^ (10 - e)) % 1024
    1024 * (e : Int) + logTable f

end Sys2Proof.Machine
end

