-- ==== Sys2Proof/Machine/Dealer.lean ====
section
/-! DEFINITION. The Dealer of each input (R105 to R122): the filter bank, saturation flags, delivery to engines and
replay rings, the frame tasks that delivery makes ready (R172), and IN_LAP (R133, R194). -/

namespace Sys2Proof.Machine

/-- CBKi_COEF_CRC of coefficients: each as a 4-byte little-endian word (R125). -/
def coefCrc (h : List Int) : Word := crc32c (h.flatMap (fun v => leBytes 4 (ofSigned 32 v)))

/-- What R111 and R106 say of the vendor default: sum, check word, and at frequencies of fs / 131,072 each the flat band up to
fs / 1,024 (20 MHz), the fall in the transition band, and the stop band from 31.2 MHz on. -/
def defaultGood (h : List Int) : Bool :=
  let p := fun (q : Nat) => powerAt h q
  decide (h.sum = 33554432) && decide (coefCrc h = 0x6A1C53E7) &&
  (List.range 129).all (fun q => dbWithin 2000 (p q) (p 0) && dbWithin 2000 (p 0) (p q)) &&
  (List.range 71).all (fun i => decide (p (129 + i) ≤ p (128 + i))) &&
  (List.range (65536 - 199)).all (fun i => (List.range 129).all (fun q => decide (10 ^ 7 * p (200 + i) ≤ p q)))

/-- The vendor default prototype: the ROM's coefficients, symmetric 18-bit values, which the spec says meet R111 and R106. In
their place, were they not to, stands one that keeps symmetry and sum, so that nothing can be proved from values that break them. -/
def romPrototype : List Int :=
  let h := (List.range 8192).map (fun m => toSigned 18 (ofSigned 18 (Config.defaultPrototype (min m (8191 - m)))))
  if defaultGood h then h else List.replicate 8192 4096

/-- Coefficient h[m] in use: the image's record, or the vendor default (R110, R111). -/
def Dealer.coefAt (d : Dealer) (m : Nat) : Int := (d.coef.getD romPrototype).getD m 0

/-- Sum 512-element chunks element by element: the branches' sums over t. -/
def sumChunks : Nat → List Int → List Int
  | 0, _ => List.replicate 512 0
  | n + 1, l => List.zipWith (· + ·) (l.take 512) (sumChunks n (l.drop 512))

/-- The polyphase sums v[b] of R105, from the last 8,192 raw samples, newest first: raw sample 400j + 399 − m meets h[m]. -/
def Dealer.branches (d : Dealer) (hist : List Int) : List Int :=
  sumChunks 16 (List.zipWith (· * ·) ((List.range 8192).map d.coefAt) hist)

/-- The twiddle C[r] − i S[r], r = 0 to 511 (R105). -/
def dealerTwiddles : Array Cx := ((List.range 512).map (fun r => { re := twC (256 * r), im := -(twS (256 * r)) : Cx })).toArray

/-- Y of R105 for channel k at coarse index j. -/
def channelSum (tw : Array Cx) (v : List Int) (j : Int) (k : Nat) : Cx :=
  (v.zipIdx).foldl (fun acc x =>
    let r := (((k : Int) * (400 * j + 399 - (x.2 : Int))) % 512).toNat
    let t := tw.getD r Cx.zero
    { re := acc.re + x.1 * t.re, im := acc.im + x.1 * t.im }) Cx.zero

/-- One component's requantisation: rounded once, limited to ±32,767; with whether it was limited (R105, R114). -/
def requantise (shift : Nat) (x : Int) : Int × Bool :=
  let r := roundEven x (shift + 33)
  (clampInt (-32767) 32767 r, decide (clampInt (-32767) 32767 r ≠ r))

/-- Coarse sample j of channel k of input i as a word, with whether a component saturated (R105, R113, R117, R118). -/
def State.coarseWord (s : State) (i k : Nat) (y : Cx) : Word × Bool :=
  let er := toSigned 18 (s.fld (CBKI_EQ_RE_RE i k))
  let ei := toSigned 18 (s.fld (CBKI_EQ_IM_IM i k))
  let shift := s.fld (CBKI_CFG_SHIFT i)
  let re := requantise shift (er * y.re - ei * y.im)
  let im := requantise shift (er * y.im + ei * y.re)
  let q := if s.flag (CBKI_CFG_ZONE i) then -im.1 else im.1
  (BitVec.ofNat 32 (ofSigned 16 re.1 + ofSigned 16 q <<< 16), re.2 || im.2)

/-- A mask from the channels of a list that saturated, channel 0 lowest. -/
def maskOf : List Bool → Nat
  | [] => 0
  | b :: t => b2n b + 2 * maskOf t

/-- The saturation registers take the values of a completed deal (R116). -/
def State.closeSat (s : State) (i n mask : Nat) : State :=
  let s := (List.range 8).foldl (fun s w => s.setFld (CBKI_SAT_FLAGS i w) (bitsOf mask (32 * w) 32)) s
  let s := s.setFld (CBKI_SAT_COUNT_COUNT i) ((List.range 256).countP (fun k => bitOf mask k))
  let s := s.setPair (CBKI_SAT_DEAL i) n
  if mask = 0 then s else s.stick CBK_STAT_SAT i

/-- Whether a channel's saturation flag was set for a deal (R115). -/
def State.satOf (s : State) (i ch n : Nat) : Bool :=
  let d := s.dealerOf i
  if n = (d.j / (s.dealLen : Int)).toNat then bitOf d.sat ch
  else match d.flags.find? (fun f => decide (f.1 = n)) with
    | some f => bitOf f.2 ch
    | none => false

/-- Frame f's descriptor for a program on a leaf (R171, R172). -/
def State.frameTask (s : State) (l : Nat) (g : Program) (f : Nat) : Descriptor :=
  let deal := f * g.hop / s.dealLen
  let per := s.framesPerDeal g
  let idx := f - deal * per
  { entry := g.frameEntry, isDeal := false, prog := g.prog, first := decide (idx = 0), last := decide (idx + 1 = per),
    face := (s.leafOf l).faceAt deal, frame := idx, deal := deal, inBase := (f * g.hop + g.woff : Nat), inLen := g.wlen,
    xs := 0, carry := 0, param := s.paramsOf l g }

/-- The frame that coarse sample j completes for a program: its window's last sample is j (R132, R172, R484). -/
def State.frameAt (s : State) (g : Program) (j : Int) : Option Nat :=
  let start := j + 1 - (g.wlen : Int) - (g.woff : Int)
  if g.frameEntry ≠ 0x3FFF ∧ g.hop ≠ 0 ∧ 0 ≤ start ∧ start % (g.hop : Int) = 0 ∧
      s.deal.running = true ∧ ((s.deal.first * s.dealLen : Nat) : Int) ≤ start then some (start / (g.hop : Int)).toNat
  else none

/-- Frame tasks that coarse sample j of input i makes ready on one leaf, in program order (R172). -/
def State.readyFrames (s : State) (l : Nat) (j : Int) : State :=
  if s.flag (HAND_MAP_VALID l) then
    (s.programsOf l).foldl (fun s g =>
      match s.frameAt g j with
      | some f =>
        let d := s.frameTask l g f
        if d.deal ∈ (s.leafOf l).gone then s else s.ringPush l d
      | none => s) s
  else s

/-- Tasks whose windows coarse sample j of a leaf's input overwrites: a running one and ready ones (R133, R194). -/
def State.lapLeaf (s : State) (l : Nat) (j : Int) : State :=
  let lapped := fun (d : Descriptor) => !d.isDeal && decide (d.inBase + 32768 ≤ j)
  let p := s.fld (HAND_MAP_PHYS l)
  let s := match (s.engOf p).task with
    | some d => if s.flag (HAND_MAP_VALID l) && lapped d then s.inLap p else s
    | none => s
  ((s.leafOf l).ring.filter lapped).foldl (fun s d =>
    ((s.dropReady l d).setFld (ENG_STAT_IN_LAP p) 1).logEvent 0x1121 sevAttention p) s

/-- The analysis dies that input i's links deliver to, bit 0 = ADIE0: a failed link delivers nothing (R14, R16). -/
def State.diesOf (s : State) (i : Nat) : Nat :=
  b2n (!s.linkFailed (2 * (i / 2))) + 2 * b2n (!s.linkFailed (2 * (i / 2) + 1))

/-- The logical engines that a coarse sample of input i reaches. -/
def State.receivers (s : State) (i : Nat) : List Nat :=
  (List.range 1024).filter (fun l =>
    decide ((s.streamOf l).2 = i) && s.fed l && bitOf (s.diesOf i) (l / 512))

/-- A coarse sample reaches the engines of its input's leaves (R119, R121): the frame tasks that it completes become ready,
then the tasks whose windows it overwrites end, and with them DEAL tasks may become ready (R172). -/
def State.deliverHop (s : State) (i : Nat) (j : Int) : State :=
  if s.img.programs.isEmpty then s
  else (s.receivers i).foldl (fun s l => (s.readyFrames l j).lapLeaf l j) s

/-- The saturation and overrange registers take the values of a deal that has run (R68, R116). -/
def State.endDeal (s : State) (i n sat ovr : Nat) : State :=
  if s.deal.running ∧ s.deal.first ≤ n then (s.closeSat i n sat).setFld (CONVI_OVR_COUNT_COUNT i) (min ovr (2 ^ 32 - 1)) else s

/-- Whether the next hop of a Dealer puts out a coarse sample: every raw sample of its block was converted since converter
start (R121). -/
def Dealer.emits (d : Dealer) : Bool := d.on && d.aligned && decide (7792 ≤ d.raw.length)

/-- One hop of input i: 400 raw samples, oldest first, converted since converter start (R68, R105, R115, R116, R121). The
first sample of a deal carries the deal tick's mark (R17). -/
def State.hop (s : State) (i : Nat) (xs : List Int) : State :=
  if xs.length ≠ 400 ∨ s.deal.stopped = true ∨ s.time.grid = false then s
  else
    let d := s.dealerOf i
    let xs := xs.map clipCode
    let hist := (xs.reverse ++ d.raw).take 8192
    let clips := xs.countP fullScale
    let s := s.when (decide (0 < clips)) (fun s => s.stick CONV_STAT_OVR i)
    let begins := decide (d.j % (s.dealLen : Int) = 0)
    let ovr := (if begins then 0 else d.ovr) + clips
    if d.emits then
      let v := d.branches hist
      let ws := (List.range 256).map (fun k => s.coarseWord i k (channelSum dealerTwiddles v d.j k))
      let now := maskOf (ws.map (fun w => w.2))
      let sat := (if begins then 0 else d.sat) ||| now
      let ends := decide ((d.j + 1) % (s.dealLen : Int) = 0)
      let n := (d.j / (s.dealLen : Int)).toNat
      let hop : CoarseHop := { j := d.j, z := ws.map (fun w => w.1), tick := begins, sat := now, dies := s.diesOf i }
      let d' := { d with
        j := d.j + 1, raw := hist, ring := (hop :: d.ring).take 32768, sat := if ends then 0 else sat,
        ovr := if ends then 0 else ovr, flags := if ends && decide (0 ≤ d.j) then ((n, sat) :: d.flags).take 9 else d.flags }
      let s := s.setDealer i d'
      let s := s.when (ends && decide (0 ≤ d.j)) (fun s => s.endDeal i n sat ovr)
      s.deliverHop i d.j
    else
      let counts := d.aligned && s.flag DEAL_CFG_ALIGN && !s.flag DEAL_STAT_UNALIGNED
      s.setDealer i { d with raw := hist, ovr := ovr, j := if counts then d.j + 1 else d.j }

/-- A read of CBKi_COEF_DATA (R125). -/
def State.coefRead (s : State) (i : Nat) : State :=
  let m := s.fld (CBKI_COEF_IDX_IDX i)
  let s := { s with rdata := [BitVec.ofInt 32 ((s.dealerOf i).coefAt m)] }
  s.setFld (CBKI_COEF_IDX_IDX i) ((m + 1) % 8192)

/-! ### Meanings -/

/-- COEF_DATA_READ (R125). -/
def execCoefDataRead (i : Fin 4) (s : State) : Host.Outcome State Fault Refusal := done (s.coefRead i)

end Sys2Proof.Machine
end

