-- ==== Sys2Proof/Machine/EngineMem.lean ====
section
/-! DEFINITION. An engine's memory slots: LD, ST, ST.ADD, ST.HIST and PUSH (R131, R140, R154, R170, R174 to R176). Every
slot reads the state before its microword and writes the state after it (R141). -/

namespace Sys2Proof.Machine

/-- Whether an engine can issue: it is in RUN with a task, not stalled and not abandoned (R158). -/
def State.issues (s : State) (p : Nat) : Bool :=
  let e := s.engOf p
  decide (s.engState p = esRun) && e.task.isSome && e.stall.isNone && !e.halted

/-- Whether an engine issues an operation next: it is the first of its fetched microword's that has not issued (R167). -/
def State.issuesOp (s : State) (p : Nat) (op : SlotOp) : Bool :=
  s.issues p && decide ((s.engOf p).cur.todo.head? = some op)

/-- An operation has issued. -/
def EngCore.pop (c : EngCore) : EngCore := { c with todo := c.todo.tail }

/-- A slot of engine `p` that the fetched microword holds: from the state before the microword and the state its slots have
written so far, either the state with this slot's results, or a program fault. -/
def State.slot (s : State) (p : Nat) (op : SlotOp) (f : Engine → EngCore → EngCore → Except Nat EngCore) : State :=
  if s.issuesOp p op then
    let e := s.engOf p
    match f e e.pre e.cur.pop with
    | .ok c => s.setEng p { e with cur := c }
    | .error code => s.programFault p code
  else s

/-- A program that breaks a rule at run time is ILLEGAL (R159). -/
def illegalIf (b : Bool) : Except Nat Unit := if b then .error fIllegal else .ok ()

/-- A format by its code; 6 and 7 are ILLEGAL (R169). -/
def needFmt (c : Nat) : Except Nat Fmt :=
  match fmtOf c with
  | some f => .ok f
  | none => .error fIllegal

/-- The lane addresses of an access through a generator (R155). -/
def laneAddrs (g : AddrGen) (size : Nat) : List Nat := (List.range 4).map (fun l => g.addr size l)

/-- Advance a generator when the slot post-increments: from the state before the microword (R141, R155). -/
def EngCore.stepAg (c pre : EngCore) (g : Nat) (on : Bool) : EngCore :=
  if on then c.setAg g { c.agen g with off := (pre.agen g).advance.off } else c

/-- Raise a fault that a list of addresses raises (R130). -/
def checkAddrs (k : Acc) (size : Nat) (as : List Nat) : Except Nat Unit :=
  match firstFault k size as with
  | some f => .error f
  | none => .ok ()

/-- Whether a logical engine reaches a sibling through σ that is not valid for it (R191): ADDR_RANGE. -/
def State.badSigma (s : State) (p : Nat) (as : List Nat) : Bool :=
  as.any (fun a => decide (0x80000 ≤ a) && decide (a < 0xC0000) &&
    (s.sibling? (s.logicalOf p) ((a - 0x80000) / 0x10000)).isNone)

/-- The logical engines that a list of addresses reads through the trick window. -/
def State.windowReads (s : State) (p : Nat) (as : List Nat) : List Nat :=
  as.filterMap (fun a => if 0x80000 ≤ a then s.sibling? (s.logicalOf p) ((a - 0x80000) / 0x10000) else none)

/-- Whether a load reaches, through the trick window, an engine whose takeover is in progress: it stalls (R200). -/
def State.loadStalls (s : State) (p : Nat) (x : LdSlot) : Bool :=
  match fmtOf x.fmt with
  | some f => (s.windowReads p (laneAddrs ((s.engOf p).pre.agen x.ag) f.size)).any (fun l => s.flag (HAND_MAP_PENDING l))
  | none => false

/-- The LD slot (R131, R170): four lane elements into V or A. -/
def State.loadSlot (s : State) (p : Nat) (x : LdSlot) (_ : Engine) (pre cur : EngCore) : Except Nat EngCore := do
  let f ← needFmt x.fmt
  let as := laneAddrs (pre.agen x.ag) f.size
  checkAddrs .load f.size as
  if s.badSigma p as then Except.error fAddrRange
  let win := as.any (fun a => decide (0x80000 ≤ a))
  let cur := { cur with
    words := if win then cur.words else addWords cur.words as, window := cur.window || win,
    reads := cur.reads ++ s.windowReads p as }
  let cur := cur.stepAg pre x.ag x.pi
  let vals := Quad.of (fun l => f.decode (s.readElem p pre (as.getD l 0) f.size))
  let tag := as.any (fun a => s.elemOvf p pre a f.size)
  if x.toA then return cur.putA vals tag
  else
    let q := Quad.of (fun l => (f.toV (vals.lane l)).1)
    let sat := vals.list.any (fun v => (f.toV v).2)
    return (cur.putV x.vd q tag).satIf sat stMovSat

/-- What a store-slot operation writes: V as it stands, or A through the scaler, limited to the store width, with
whether it saturated and the smallest headroom (R131, R146, R147). -/
def storeValue (pre : EngCore) (x : StSlot) (f : Fmt) : Quad × Bool × Nat :=
  let q := if x.fromA then pre.h x.shd else pre.vreg x.vs
  let q := if f.complex then q else realQuad q
  scaleQuad (if x.fromA then scShift pre.sc x.frac else 0) f.width q

/-- Whether the source of a store-slot operation is built from a tagged word (R135). -/
def storeOvf (pre : EngCore) (x : StSlot) : Bool := if x.fromA then pre.hOvf x.shd else pre.vOvf x.vs

/-- The ST slot: four elements stored in the selected format (R131). -/
def State.storeSlot (_ : State) (x : StSlot) (e : Engine) (pre cur : EngCore) : Except Nat EngCore := do
  let f ← needFmt x.fmt
  let as := laneAddrs (pre.agen x.ag) f.size
  checkAddrs .store f.size as
  let (q, sat, h) := storeValue pre x f
  let cur := { cur with words := addWords cur.words as }
  let cur := (cur.stepAg pre x.ag x.pi).track (x.bx && x.fromA) h
  let cur := (List.range 4).foldl (fun c l =>
    writeElem e c (as.getD l 0) f.size (f.encode (q.lane l)) true (storeOvf pre x)) cur
  return cur.satIf sat stMovSat

/-- One lane of ST.ADD: the element in the store plus the new one, limited at the format width; a sum that is limited
sets the OVF latch (R170). -/
def addElem (e : Engine) (c : EngCore) (f : Fmt) (a : Nat) (v : Cx) (tag : Bool) : EngCore :=
  let old := f.decode ((accRead e c ((a - 0x60000) / 8) >>> (8 * (a % 8))) % 2 ^ (8 * f.size))
  let re := old.re + v.re
  let im := old.im + v.im
  let c := writeElem e c a f.size (f.encode { re := satSym re f.width, im := satSym im f.width }) false tag
  if satSymHit re f.width || satSymHit im f.width then { c with ovf := true } else c

/-- The ST slot with ST.ADD (R170). -/
def State.addSlot (_ : State) (x : StSlot) (e : Engine) (pre cur : EngCore) : Except Nat EngCore := do
  let f ← needFmt x.fmt
  let as := laneAddrs (pre.agen x.ag) f.size
  checkAddrs .addHist f.size as
  let (q, sat, h) := storeValue pre x f
  let cur := { cur with words := addWords cur.words as }
  let cur := (cur.stepAg pre x.ag x.pi).track (x.bx && x.fromA) h
  let cur := (List.range 4).foldl (fun c l => addElem e c f (as.getD l 0) (q.lane l) (storeOvf pre x)) cur
  return cur.satIf sat stMovSat

/-- The number of histogram levels: HL holds 0 for 128 (R154, R170). -/
def histLevels (c : EngCore) : Nat := if c.hl = 0 then 128 else c.hl

/-- The level of a value under the histogram parameters (R154). -/
def histLevel (c : EngCore) (v : Int) : Nat :=
  (clampInt 0 ((histLevels c : Int) - 1) ((v - c.hb) * (c.hm : Int) / 65536)).toNat

/-- One lane of ST.HIST: a 16-bit counter goes up by one and stays at 65,535, where it saturates (R135, R154). Its word counts
as updated either way. -/
def histElem (e : Engine) (c : EngCore) (a : Nat) : EngCore :=
  let old := (accRead e c ((a - 0x60000) / 8) >>> (8 * (a % 8))) % 65536
  (writeElem e c a 2 (min (old + 1) 65535) false false).satIf (decide (old = 65535)) stHistSat

/-- The ST slot with ST.HIST (R154, R170). -/
def State.histSlot (_ : State) (x : StSlot) (e : Engine) (pre cur : EngCore) : Except Nat EngCore := do
  let as := (List.range 4).map (fun l => (pre.agen x.ag).addr 2 l + 2 * histLevel pre ((pre.vreg x.vs).lane l).re)
  checkAddrs .addHist 2 as
  let cur := { cur with words := addWords cur.words as }
  let cur := cur.stepAg pre x.ag x.pi
  return as.foldl (fun c a => histElem e c a) cur

/-- Elements packed into 64-bit FIFO entries, lane 0 first (R174). An entry is marked OVF when its elements are built from a
word that carries the tag (R135). -/
def pushEntries (f : Fmt) (code : Nat) (ovf : Bool) (q : Quad) : List FifoItem :=
  let per := 8 / f.size
  (List.range (4 * f.size / 8)).map (fun i =>
    .entry (packElems f 0 ((List.range per).map (fun j => q.lane (per * i + j)))) code ovf)

/-- The entries among FIFO items. -/
def entryCount (l : List FifoItem) : Nat :=
  l.countP (fun x =>
    match x with
    | .entry .. => true
    | _ => false)

/-- The PUSH slot (R174 to R176): ILLEGAL with no record open or beyond 8,192 entries; COMMIT_LIMIT when the working
entries alone would exceed 2,048. When too few entries are free it stalls, which `stallPush` below decides. -/
def State.pushSlot (_ : State) (x : StSlot) (_ : Engine) (pre cur : EngCore) : Except Nat EngCore := do
  let f ← needFmt x.fmt
  match cur.orec with
  | none => Except.error fIllegal
  | some (prod, n) =>
    let (q, sat, h) := storeValue pre x f
    let items := pushEntries f x.fmt (storeOvf pre x) q
    illegalIf (decide (8192 < n + items.length))
    if 2048 < entryCount cur.fifoW + items.length then Except.error fCommitLimit
    let cur := { cur with fifoW := cur.fifoW ++ items, orec := some (prod, n + items.length) }
    return (cur.track (x.bx && x.fromA) h).satIf sat stMovSat

/-- A PUSH that found too few free entries stalls the engine until the drain frees them (R175). -/
def State.stallPush (s : State) (p : Nat) : State :=
  let e := s.engOf p
  if 2048 < entryCount e.fifo + entryCount e.cur.fifoW then s.setEng p { e with stall := some .push } else s

/-- What the check bits showed at lane addresses: a corrected word, or an uncorrectable one in place of the access. -/
def State.withEcc (s : State) (p : Nat) (op : SlotOp) (ecc : Ecc) (addr : Nat → Nat) (f : State → State) : State :=
  if s.issuesOp p op then
    match ecc with
    | .clean => f s
    | .corrected l => f (s.eccCorr p (addr l))
    | .uncorrectable l => s.eccUnc p (addr l) false
    | .copyLost l => s.eccUnc p (addr l) true
  else s

/-- The lane address that an access with a generator and a format code reaches. -/
def State.slotAddr (s : State) (p g fmt lane : Nat) : Nat :=
  ((s.engOf p).pre.agen g).addr (((fmtOf fmt).map Fmt.size).getD 4) lane

/-! ### Meanings -/

/-- LOAD (R131). -/
def execLoad (p : Fin 1088) (x : LdSlot) (ecc : Ecc) (s : State) : Host.Outcome State Fault Refusal :=
  done (if s.loadStalls p x then s
    else s.withEcc p (.load x) ecc (fun l => s.slotAddr p x.ag x.fmt l) (fun s => s.slot p (.load x) (s.loadSlot p x)))

/-- ST (R131). -/
def execSt (p : Fin 1088) (x : StSlot) (s : State) : Host.Outcome State Fault Refusal :=
  done (s.slot p (.store 1 x) (s.storeSlot x))

/-- ST_ADD (R170). -/
def execStAdd (p : Fin 1088) (x : StSlot) (ecc : Ecc) (s : State) : Host.Outcome State Fault Refusal :=
  done (s.withEcc p (.store 2 x) ecc (fun l => s.slotAddr p x.ag x.fmt l) (fun s => s.slot p (.store 2 x) (s.addSlot x)))

/-- ST_HIST (R154). -/
def execStHist (p : Fin 1088) (x : StSlot) (s : State) : Host.Outcome State Fault Refusal :=
  done (s.slot p (.store 3 x) (s.histSlot x))

/-- PUSH (R174, R175). -/
def execPush (p : Fin 1088) (x : StSlot) (s : State) : Host.Outcome State Fault Refusal :=
  done (if s.issuesOp p (.store 4 x) then (s.slot p (.store 4 x) (s.pushSlot x)).stallPush p else s)

end Sys2Proof.Machine
end

