-- ==== Sys2Proof/Machine/EngineAlu.lean ====
section
/-! DEFINITION. An engine's ALU slot (R144, R145, R149 to R153) and MOVE slot (R146, R170). -/

namespace Sys2Proof.Machine

/-- The product of two complex integers. -/
def cmulCx (a b : Cx) : Cx := { re := a.re * b.re - a.im * b.im, im := a.re * b.im + a.im * b.re }

/-- The sum. -/
def addCx (a b : Cx) : Cx := { re := a.re + b.re, im := a.im + b.im }

/-- The difference. -/
def subCx (a b : Cx) : Cx := { re := a.re - b.re, im := a.im - b.im }

/-- The negation. -/
def negCx (a : Cx) : Cx := { re := -a.re, im := -a.im }

/-- The conjugate. -/
def conjCx (a : Cx) : Cx := { re := a.re, im := -a.im }

/-- Times i. -/
def timesI (a : Cx) : Cx := { re := -a.im, im := a.re }

/-- W(m) = C(m) − i S(m) (R148). -/
def twiddle (m : Nat) : Cx := { re := twC m, im := -(twS m) }

/-- AMOD bit 3: the accumulating form. -/
def aluAccum (x : AluSlot) : Bool := bitOf x.amod 3

/-- AMOD bit 2: J, INV or IDX. -/
def aluJ (x : AluSlot) : Bool := bitOf x.amod 2

/-- AMOD bit 1: R or ADV. -/
def aluR (x : AluSlot) : Bool := bitOf x.amod 1

/-- AMOD bit 0: N. -/
def aluN (x : AluSlot) : Bool := bitOf x.amod 0

/-- An operation that writes A: each lane is limited to ±(2^47 − 1), and lanes that ALSKIP names keep their old value (R144,
R167). `usesA` says that it reads A, `srcs` names the V registers it reads: from them comes the OVF tag (R135). -/
def aluWrite (x : AluSlot) (usesA : Bool) (srcs : List Nat) (pre cur : EngCore) (f : Nat → Cx) : EngCore :=
  let keep := fun (l : Nat) => bitOf x.skip l
  let q := Quad.of (fun l => if keep l then pre.a.lane l else (limitLane (f l)).1)
  let sat := (List.range 4).any (fun l => !keep l && (limitLane (f l)).2)
  let tag := srcs.any pre.vOvf || ((usesA || decide (x.skip.val ≠ 0)) && pre.hOvf 0)
  (cur.putA q tag).satIf sat stAccOvf

/-- Add to A in the accumulating form, overwrite it in the plain form (R145). -/
def accumulate (x : AluSlot) (pre : EngCore) (l : Nat) (v : Cx) : Cx := if aluAccum x then addCx (pre.a.lane l) v else v

/-- CMUL and CMAC with their variants (R145). -/
def aluCmul (x : AluSlot) (_ : Engine) (pre cur : EngCore) : Except Nat EngCore :=
  .ok <| aluWrite x (aluAccum x) [x.va, x.vb] pre cur (fun l =>
    let a := (pre.vreg x.va).lane l
    let b := (pre.vreg x.vb).lane l
    let b := if aluR x then { re := b.re, im := 0 } else if aluJ x then conjCx b else b
    let v := cmulCx a b
    accumulate x pre l (if aluN x then negCx v else v))

/-- PWR (R145). -/
def aluPwr (x : AluSlot) (_ : Engine) (pre cur : EngCore) : Except Nat EngCore :=
  .ok <| aluWrite x (aluAccum x) [x.va] pre cur (fun l =>
    let a := (pre.vreg x.va).lane l
    accumulate x pre l { re := a.re * a.re + a.im * a.im, im := 0 })

/-- ADD (R145). -/
def aluAdd (x : AluSlot) (_ : Engine) (pre cur : EngCore) : Except Nat EngCore :=
  .ok <| aluWrite x true [x.va] pre cur (fun l => addCx (pre.a.lane l) ((pre.vreg x.va).lane l))

/-- SUB (R145). -/
def aluSub (x : AluSlot) (_ : Engine) (pre cur : EngCore) : Except Nat EngCore :=
  .ok <| aluWrite x true [x.va] pre cur (fun l => subCx (pre.a.lane l) ((pre.vreg x.va).lane l))

/-- LDV (R145). -/
def aluLdv (x : AluSlot) (_ : Engine) (pre cur : EngCore) : Except Nat EngCore :=
  .ok <| aluWrite x false [x.va] pre cur (fun l => (pre.vreg x.va).lane l)

/-- CLR (R145). -/
def aluClr (x : AluSlot) (_ : Engine) (pre cur : EngCore) : Except Nat EngCore :=
  .ok <| aluWrite x false [] pre cur (fun _ => Cx.zero)

/-- CSEL.MAX and CSEL.MIN (R151): a strictly larger (smaller) value replaces the held one; with IDX, A.im takes
IDXR + ℓ and IDXR advances by 4. -/
def aluCsel (better : Int → Int → Bool) (x : AluSlot) (_ : Engine) (pre cur : EngCore) : Except Nat EngCore :=
  let cur := aluWrite x true [x.va] pre cur (fun l =>
    let v := ((pre.vreg x.va).lane l).re
    let a := pre.a.lane l
    if better v a.re then { re := v, im := if aluJ x then (pre.idxr + l : Nat) else a.im } else a)
  .ok <| if aluJ x then { cur with idxr := (pre.idxr + 4) % 131072 } else cur

/-- LOG2 (R152). -/
def aluLog2 (x : AluSlot) (_ : Engine) (pre cur : EngCore) : Except Nat EngCore :=
  .ok <| aluWrite x true [] pre cur (fun l => { re := log2Units (pre.a.lane l).re, im := 0 })

/-- The headroom of a lane of A: the smaller of its components' in 48 bits, a zero component counting 47 (R153). -/
def laneHead (v : Cx) : Nat := min (headroom 48 v.re) (headroom 48 v.im)

/-- The headrooms of A as a vector (R153). -/
def headQuad (pre : EngCore) : Quad := Quad.of (fun l => { re := (laneHead (pre.a.lane l) : Int), im := 0 })

/-- EXP (R153): the headrooms into a V register; A is not written. -/
def aluExp (x : AluSlot) (_ : Engine) (pre cur : EngCore) : Except Nat EngCore :=
  .ok (cur.putV x.vd (headQuad pre) (pre.hOvf 0))

/-- NORM (R153): as EXP, and A is multiplied by 2^n, which is exact and cannot saturate. -/
def aluNorm (x : AluSlot) (_ : Engine) (pre cur : EngCore) : Except Nat EngCore :=
  let q := Quad.of (fun l =>
    let v := pre.a.lane l
    let k : Int := ((2 ^ laneHead v : Nat) : Int)
    if bitOf x.skip l then v else { re := v.re * k, im := v.im * k })
  .ok ((cur.putA q (pre.hOvf 0)).putV x.vd (headQuad pre) (pre.hOvf 0))

/-- A twiddle, conjugated in the INV variant. -/
def twiddleInv (inv : Bool) (m : Nat) : Cx := if inv then conjCx (twiddle m) else twiddle m

/-- BFLY4 (R149). -/
def aluBfly4 (x : AluSlot) (_ : Engine) (pre cur : EngCore) : Except Nat EngCore :=
  let leg := fun (l : Nat) => cmulCx ((pre.vreg x.va).lane l) (twiddleInv (aluJ x) (l * pre.tw % 131072))
  let rot := fun (v : Cx) => if aluJ x then negCx (timesI v) else timesI v
  let cur := aluWrite x false [x.va] pre cur (fun l =>
    match l with
    | 0 => addCx (addCx (leg 0) (leg 1)) (addCx (leg 2) (leg 3))
    | 1 => addCx (subCx (leg 0) (rot (leg 1))) (subCx (rot (leg 3)) (leg 2))
    | 2 => addCx (subCx (leg 0) (leg 1)) (subCx (leg 2) (leg 3))
    | _ => subCx (addCx (leg 0) (rot (leg 1))) (addCx (leg 2) (rot (leg 3))))
  .ok <| if aluR x then { cur with tw := (pre.tw + pre.twInc) % 131072 } else cur

/-- BFLY2 (R150). -/
def aluBfly2 (x : AluSlot) (_ : Engine) (pre cur : EngCore) : Except Nat EngCore :=
  let legs := pre.vreg x.va
  let even := fun (l : Nat) => cmulCx (legs.lane l) (twiddleInv (aluJ x) 0)
  let odd := fun (l u : Nat) => cmulCx (legs.lane l) (twiddleInv (aluJ x) (u % 131072))
  let cur := aluWrite x false [x.va] pre cur (fun l =>
    match l with
    | 0 => addCx (even 0) (odd 1 pre.tw)
    | 1 => subCx (even 0) (odd 1 pre.tw)
    | 2 => addCx (even 2) (odd 3 (pre.tw + pre.twInc))
    | _ => subCx (even 2) (odd 3 (pre.tw + pre.twInc)))
  .ok <| if aluR x then { cur with tw := (pre.tw + 2 * pre.twInc) % 131072 } else cur

/-- MOVE (R146, R147, R170): a value of the A history through the scaler into a V register. -/
def mvMove (x : MvSlot) (_ : Engine) (pre cur : EngCore) : Except Nat EngCore :=
  let (q, sat, h) := scaleQuad (scShift pre.sc x.frac) 18 (pre.h x.shd)
  .ok (((cur.putV x.vd q (pre.hOvf x.shd)).track x.bx h).satIf sat stMovSat)

/-- VPERM (R170): lane ℓ from the lane its selector names. -/
def mvPerm (x : MvSlot) (_ : Engine) (pre cur : EngCore) : Except Nat EngCore :=
  .ok (cur.putV x.vd (Quad.of (fun l => (pre.vreg x.vs).lane (bitsOf x.sel (2 * l) 2))) (pre.vOvf x.vs))

/-- MOVE.EXP (R170): EXPACC into every lane. -/
def mvExp (x : MvSlot) (_ : Engine) (pre cur : EngCore) : Except Nat EngCore :=
  .ok (cur.putV x.vd (Quad.of (fun _ => { re := pre.expacc, im := 0 })) false)

/-! ### Meanings -/

/-- CMUL (R145). -/
def execCmul (p : Fin 1088) (x : AluSlot) (s : State) : Host.Outcome State Fault Refusal :=
  done (s.slot p (.alu 1 x) (aluCmul x))

/-- PWR (R145). -/
def execPwr (p : Fin 1088) (x : AluSlot) (s : State) : Host.Outcome State Fault Refusal :=
  done (s.slot p (.alu 2 x) (aluPwr x))

/-- ADD (R145). -/
def execAdd (p : Fin 1088) (x : AluSlot) (s : State) : Host.Outcome State Fault Refusal :=
  done (s.slot p (.alu 3 x) (aluAdd x))

/-- SUB (R145). -/
def execSub (p : Fin 1088) (x : AluSlot) (s : State) : Host.Outcome State Fault Refusal :=
  done (s.slot p (.alu 4 x) (aluSub x))

/-- LDV (R145). -/
def execLdv (p : Fin 1088) (x : AluSlot) (s : State) : Host.Outcome State Fault Refusal :=
  done (s.slot p (.alu 5 x) (aluLdv x))

/-- CLR (R145). -/
def execClr (p : Fin 1088) (x : AluSlot) (s : State) : Host.Outcome State Fault Refusal :=
  done (s.slot p (.alu 6 x) (aluClr x))

/-- CSEL_MAX (R151). -/
def execCselMax (p : Fin 1088) (x : AluSlot) (s : State) : Host.Outcome State Fault Refusal :=
  done (s.slot p (.alu 7 x) (aluCsel (fun v a => decide (a < v)) x))

/-- CSEL_MIN (R151). -/
def execCselMin (p : Fin 1088) (x : AluSlot) (s : State) : Host.Outcome State Fault Refusal :=
  done (s.slot p (.alu 8 x) (aluCsel (fun v a => decide (v < a)) x))

/-- LOG2 (R152). -/
def execLog2 (p : Fin 1088) (x : AluSlot) (s : State) : Host.Outcome State Fault Refusal :=
  done (s.slot p (.alu 9 x) (aluLog2 x))

/-- EXP (R153). -/
def execExp (p : Fin 1088) (x : AluSlot) (s : State) : Host.Outcome State Fault Refusal :=
  done (s.slot p (.alu 10 x) (aluExp x))

/-- NORM (R153). -/
def execNorm (p : Fin 1088) (x : AluSlot) (s : State) : Host.Outcome State Fault Refusal :=
  done (s.slot p (.alu 11 x) (aluNorm x))

/-- BFLY4 (R149). -/
def execBfly4 (p : Fin 1088) (x : AluSlot) (s : State) : Host.Outcome State Fault Refusal :=
  done (s.slot p (.alu 12 x) (aluBfly4 x))

/-- BFLY2 (R150). -/
def execBfly2 (p : Fin 1088) (x : AluSlot) (s : State) : Host.Outcome State Fault Refusal :=
  done (s.slot p (.alu 13 x) (aluBfly2 x))

/-- MOVE (R146). -/
def execMove (p : Fin 1088) (x : MvSlot) (s : State) : Host.Outcome State Fault Refusal :=
  done (s.slot p (.move 1 x) (mvMove x))

/-- VPERM (R170). -/
def execVperm (p : Fin 1088) (x : MvSlot) (s : State) : Host.Outcome State Fault Refusal :=
  done (s.slot p (.move 2 x) (mvPerm x))

/-- MOVE_EXP (R170). -/
def execMoveExp (p : Fin 1088) (x : MvSlot) (s : State) : Host.Outcome State Fault Refusal :=
  done (s.slot p (.move 3 x) (mvExp x))

end Sys2Proof.Machine
end

