-- ==== Sys2Proof/Machine/EngineCtl.lean ====
section
/-! DEFINITION. An engine's CTL slot: block scale, address generators, twiddle, index and histogram settings, exchange
counters, records and CARRY (R139, R147, R156, R170, R176). -/

namespace Sys2Proof.Machine

/-- Change a field of the generator that a control operation names. -/
def ctlSetAg (x : CtlSlot) (cur : EngCore) (f : AddrGen → AddrGen) : Except Nat EngCore :=
  .ok (cur.setAg x.ag (f (cur.agen x.ag)))

/-- SETSC (R147). -/
def ctlSetsc (x : CtlSlot) (_ : Engine) (_ cur : EngCore) : Except Nat EngCore :=
  let v := x.imm.toNat
  .ok { cur with sc := toSigned 5 v }

/-- SETSC.B (R147): SC takes g − BEXP, limited; EXPACC takes SC more, saturating; BEXP is cleared. -/
def ctlSetscB (x : CtlSlot) (_ : Engine) (pre cur : EngCore) : Except Nat EngCore :=
  let v := x.imm.toNat
  let sc := clampInt (-16) 15 (toSigned 5 v - (pre.bexp : Int))
  let e := pre.expacc + sc
  .ok <| ({ cur with sc := sc, expacc := clampInt (-128) 127 e, bexp := 47 }).satIf
    (decide (clampInt (-128) 127 e ≠ e)) stMovSat

/-- SETSC.E (R170). -/
def ctlSetscE (x : CtlSlot) (_ : Engine) (pre cur : EngCore) : Except Nat EngCore :=
  let v := x.imm.toNat
  let sc := toSigned 5 v - 2 * pre.expacc
  .ok <| ({ cur with sc := clampInt (-16) 15 sc }).satIf (decide (clampInt (-16) 15 sc ≠ sc)) stMovSat

/-- BEXP.CLR (R147). -/
def ctlBexpClr (_ : CtlSlot) (_ : Engine) (_ cur : EngCore) : Except Nat EngCore := .ok { cur with bexp := 47 }

/-- AG.BASE, 20 bits (R156). -/
def ctlAgBase (x : CtlSlot) (_ : Engine) (_ cur : EngCore) : Except Nat EngCore :=
  ctlSetAg x cur (fun a => { a with base := x.imm.toNat })

/-- AG.OFF, 17 bits (R156). -/
def ctlAgOff (x : CtlSlot) (_ : Engine) (_ cur : EngCore) : Except Nat EngCore :=
  let v := x.imm.toNat
  ctlSetAg x cur (fun a => { a with off := v })

/-- AG.STEP, 17 bits signed (R156). -/
def ctlAgStep (x : CtlSlot) (_ : Engine) (_ cur : EngCore) : Except Nat EngCore :=
  let v := x.imm.toNat
  ctlSetAg x cur (fun a => { a with step := toSigned 17 v })

/-- AG.LSTR, 17 bits signed (R156). -/
def ctlAgLstr (x : CtlSlot) (_ : Engine) (_ cur : EngCore) : Except Nat EngCore :=
  let v := x.imm.toNat
  ctlSetAg x cur (fun a => { a with lstr := toSigned 17 v })

/-- AG.MOD, 0 to 131,071 (R156). -/
def ctlAgMod (x : CtlSlot) (_ : Engine) (_ cur : EngCore) : Except Nat EngCore :=
  let v := x.imm.toNat
  ctlSetAg x cur (fun a => { a with mod := v })

/-- AG.BR, 0 to 17 (R156). -/
def ctlAgBr (x : CtlSlot) (_ : Engine) (_ cur : EngCore) : Except Nat EngCore :=
  ctlSetAg x cur (fun a => { a with br := x.imm.toNat })

/-- The task an engine runs, as the control operations read it. -/
def Engine.desc (e : Engine) : Option Descriptor := e.task

/-- AG.INWIN (R170). -/
def ctlAgInwin (x : CtlSlot) (e : Engine) (_ cur : EngCore) : Except Nat EngCore :=
  let base : Int := match e.desc with
    | some d => d.inBase
    | none => 0
  ctlSetAg x cur (fun a => { a with base := 0, mod := 32768, off := (base % 32768).toNat, br := 0 })

/-- AG.PARAM (R170): bits 19:0 of a descriptor word. -/
def ctlAgParam (x : CtlSlot) (e : Engine) (_ cur : EngCore) : Except Nat EngCore :=
  let i := x.imm.toNat
  let v := match e.desc with
    | some d => d.param.getD i 0
    | none => 0
  ctlSetAg x cur (fun a => { a with base := v % 2 ^ 20 })

/-- AG.CARRY (R170). -/
def ctlAgCarry (x : CtlSlot) (_ : Engine) (pre cur : EngCore) : Except Nat EngCore :=
  ctlSetAg x cur (fun a => { a with off := pre.carry % 131072 })

/-- TW (R170). -/
def ctlTw (x : CtlSlot) (_ : Engine) (_ cur : EngCore) : Except Nat EngCore :=
  let v := x.imm.toNat
  .ok { cur with tw := v }

/-- TW_INC (R170). -/
def ctlTwInc (x : CtlSlot) (_ : Engine) (_ cur : EngCore) : Except Nat EngCore :=
  let v := x.imm.toNat
  .ok { cur with twInc := v }

/-- IDXR (R170). -/
def ctlIdxr (x : CtlSlot) (_ : Engine) (_ cur : EngCore) : Except Nat EngCore :=
  let v := x.imm.toNat
  .ok { cur with idxr := v }

/-- HB, 18 bits signed (R170). -/
def ctlHb (x : CtlSlot) (_ : Engine) (_ cur : EngCore) : Except Nat EngCore :=
  let v := x.imm.toNat
  .ok { cur with hb := toSigned 18 v }

/-- HM, 18 bits (R170). -/
def ctlHm (x : CtlSlot) (_ : Engine) (_ cur : EngCore) : Except Nat EngCore :=
  let v := x.imm.toNat
  .ok { cur with hm := v }

/-- HL, 7 bits (R170). -/
def ctlHl (x : CtlSlot) (_ : Engine) (_ cur : EngCore) : Except Nat EngCore :=
  let v := x.imm.toNat
  .ok { cur with hl := v }

/-- XPUB (R139): one more at the routine's next commit. -/
def ctlXpub (_ : CtlSlot) (_ : Engine) (_ cur : EngCore) : Except Nat EngCore := .ok { cur with xpub := cur.xpub + 1 }

/-- ROPEN (R176): ILLEGAL while a record is open. -/
def ctlRopen (x : CtlSlot) (e : Engine) (_ cur : EngCore) : Except Nat EngCore := do
  let v := x.imm.toNat
  illegalIf cur.orec.isSome
  let (prog, deal, frame) := match e.desc with
    | some d => (d.prog, d.deal, d.frame)
    | none => (0, 0, 0)
  return { cur with orec := some (v, 0), fifoW := cur.fifoW ++ [.opens prog v deal frame false] }

/-- RCLOSE (R176): ILLEGAL with no record open. -/
def ctlRclose (_ : CtlSlot) (_ : Engine) (_ cur : EngCore) : Except Nat EngCore := do
  illegalIf cur.orec.isNone
  return { cur with orec := none, fifoW := cur.fifoW ++ [.closes] }

/-- CARRY.SET (R170). -/
def ctlCarrySet (x : CtlSlot) (_ : Engine) (_ cur : EngCore) : Except Nat EngCore := .ok { cur with carry := x.imm.toNat }

/-- CARRY.ADD (R170): modulo 2^32. -/
def ctlCarryAdd (x : CtlSlot) (_ : Engine) (pre cur : EngCore) : Except Nat EngCore :=
  .ok { cur with carry := ofSigned 32 ((pre.carry : Int) + toSigned 20 x.imm.toNat) }

/-- Whether XWAIT σ, v holds for an engine (R139): the sibling's committed count has reached XS + v. A sibling that no
engine serves any more lets every wait complete (R207); one whose takeover is in progress lets none (R200). -/
def State.waitOver (s : State) (p sigma v : Nat) : Bool :=
  match s.sibling? (s.logicalOf p) sigma with
  | none => true
  | some l =>
    let xs := match (s.engOf p).task with
      | some d => d.xs
      | none => 0
    if !s.flag (HAND_MAP_VALID l) then true
    else if s.flag (HAND_MAP_PENDING l) then false
    else
      let q := s.fld (HAND_MAP_PHYS l)
      decide ((((s.fld (ENG_XCNT_XCNT q) : Int) - ((xs + v : Nat) : Int)) % 65536) < 32768)

/-- XWAIT (R139): the engine stalls until the sibling's count is reached; an invalid σ raises ADDR_RANGE (R191). -/
def State.xwaitSlot (s : State) (p : Nat) (x : CtlSlot) : State :=
  if s.issuesOp p (.ctl 0x14 x) then
    match s.sibling? (s.logicalOf p) x.ag with
    | none => s.programFault p fAddrRange
    | some l =>
        let e := s.engOf p
        let e := { e with cur := { e.cur.pop with reads := e.cur.reads ++ [l] } }
        let v := x.imm.toNat
        s.setEng p (if s.waitOver p x.ag v then e else { e with stall := some (.xwait x.ag v) })
  else s

/-- The awaited count is reached, and the stalled engine resumes (R139). -/
def State.xwaitDone (s : State) (p : Nat) : State :=
  let e := s.engOf p
  match e.stall with
  | some (.xwait sigma v) => if s.waitOver p sigma v then s.setEng p { e with stall := none } else s
  | _ => s

/-! ### Meanings -/

/-- SETSC (R147). -/
def execSetsc (p : Fin 1088) (x : CtlSlot) (s : State) : Host.Outcome State Fault Refusal :=
  done (s.slot p (.ctl 1 x) (ctlSetsc x))

/-- SETSC_B (R147). -/
def execSetscB (p : Fin 1088) (x : CtlSlot) (s : State) : Host.Outcome State Fault Refusal :=
  done (s.slot p (.ctl 2 x) (ctlSetscB x))

/-- SETSC_E (R170). -/
def execSetscE (p : Fin 1088) (x : CtlSlot) (s : State) : Host.Outcome State Fault Refusal :=
  done (s.slot p (.ctl 25 x) (ctlSetscE x))

/-- BEXP_CLR (R147). -/
def execBexpClr (p : Fin 1088) (x : CtlSlot) (s : State) : Host.Outcome State Fault Refusal :=
  done (s.slot p (.ctl 3 x) (ctlBexpClr x))

/-- AG_BASE (R170). -/
def execAgBase (p : Fin 1088) (x : CtlSlot) (s : State) : Host.Outcome State Fault Refusal :=
  done (s.slot p (.ctl 4 x) (ctlAgBase x))

/-- AG_OFF (R170). -/
def execAgOff (p : Fin 1088) (x : CtlSlot) (s : State) : Host.Outcome State Fault Refusal :=
  done (s.slot p (.ctl 5 x) (ctlAgOff x))

/-- AG_STEP (R170). -/
def execAgStep (p : Fin 1088) (x : CtlSlot) (s : State) : Host.Outcome State Fault Refusal :=
  done (s.slot p (.ctl 6 x) (ctlAgStep x))

/-- AG_LSTR (R170). -/
def execAgLstr (p : Fin 1088) (x : CtlSlot) (s : State) : Host.Outcome State Fault Refusal :=
  done (s.slot p (.ctl 7 x) (ctlAgLstr x))

/-- AG_MOD (R170). -/
def execAgMod (p : Fin 1088) (x : CtlSlot) (s : State) : Host.Outcome State Fault Refusal :=
  done (s.slot p (.ctl 8 x) (ctlAgMod x))

/-- AG_BR (R170). -/
def execAgBr (p : Fin 1088) (x : CtlSlot) (s : State) : Host.Outcome State Fault Refusal :=
  done (s.slot p (.ctl 9 x) (ctlAgBr x))

/-- AG_INWIN (R170). -/
def execAgInwin (p : Fin 1088) (x : CtlSlot) (s : State) : Host.Outcome State Fault Refusal :=
  done (s.slot p (.ctl 10 x) (ctlAgInwin x))

/-- AG_PARAM (R170). -/
def execAgParam (p : Fin 1088) (x : CtlSlot) (s : State) : Host.Outcome State Fault Refusal :=
  done (s.slot p (.ctl 11 x) (ctlAgParam x))

/-- AG_CARRY (R170). -/
def execAgCarry (p : Fin 1088) (x : CtlSlot) (s : State) : Host.Outcome State Fault Refusal :=
  done (s.slot p (.ctl 12 x) (ctlAgCarry x))

/-- TW (R170). -/
def execTw (p : Fin 1088) (x : CtlSlot) (s : State) : Host.Outcome State Fault Refusal :=
  done (s.slot p (.ctl 13 x) (ctlTw x))

/-- TW_INC (R170). -/
def execTwInc (p : Fin 1088) (x : CtlSlot) (s : State) : Host.Outcome State Fault Refusal :=
  done (s.slot p (.ctl 14 x) (ctlTwInc x))

/-- IDXR (R170). -/
def execIdxr (p : Fin 1088) (x : CtlSlot) (s : State) : Host.Outcome State Fault Refusal :=
  done (s.slot p (.ctl 15 x) (ctlIdxr x))

/-- HB (R170). -/
def execHb (p : Fin 1088) (x : CtlSlot) (s : State) : Host.Outcome State Fault Refusal :=
  done (s.slot p (.ctl 16 x) (ctlHb x))

/-- HM (R170). -/
def execHm (p : Fin 1088) (x : CtlSlot) (s : State) : Host.Outcome State Fault Refusal :=
  done (s.slot p (.ctl 17 x) (ctlHm x))

/-- HL (R170). -/
def execHl (p : Fin 1088) (x : CtlSlot) (s : State) : Host.Outcome State Fault Refusal :=
  done (s.slot p (.ctl 18 x) (ctlHl x))

/-- XPUB (R139). -/
def execXpub (p : Fin 1088) (x : CtlSlot) (s : State) : Host.Outcome State Fault Refusal :=
  done (s.slot p (.ctl 19 x) (ctlXpub x))

/-- XWAIT (R139). -/
def execXwait (p : Fin 1088) (x : CtlSlot) (s : State) : Host.Outcome State Fault Refusal := done (s.xwaitSlot p x)

/-- XWAIT_SATISFIED (R139). -/
def execXwaitSatisfied (p : Fin 1088) (s : State) : Host.Outcome State Fault Refusal := done (s.xwaitDone p)

/-- ROPEN (R176). -/
def execRopen (p : Fin 1088) (x : CtlSlot) (s : State) : Host.Outcome State Fault Refusal :=
  done (s.slot p (.ctl 21 x) (ctlRopen x))

/-- RCLOSE (R176). -/
def execRclose (p : Fin 1088) (x : CtlSlot) (s : State) : Host.Outcome State Fault Refusal :=
  done (s.slot p (.ctl 22 x) (ctlRclose x))

/-- CARRY_SET (R170). -/
def execCarrySet (p : Fin 1088) (x : CtlSlot) (s : State) : Host.Outcome State Fault Refusal :=
  done (s.slot p (.ctl 23 x) (ctlCarrySet x))

/-- CARRY_ADD (R170). -/
def execCarryAdd (p : Fin 1088) (x : CtlSlot) (s : State) : Host.Outcome State Fault Refusal :=
  done (s.slot p (.ctl 24 x) (ctlCarryAdd x))

end Sys2Proof.Machine
end

