-- ==== Sys2Proof/Machine/Library.lean ====
section
/-! DEFINITION. The vendor library (R215 to R242, R553): what its programs compute, frame by frame and deal by deal. The
spec gives these programs by their arithmetic, their accumulator areas, their exchanges and their records, not by their
microwords. A library program's code therefore stands in the vendor region as a routine of one lone COMMIT, and that
COMMIT does a routine's work: `State.libraryRoutine`. -/

namespace Sys2Proof.Machine

/-! ### Identification (R553) and parameters (R222) -/

/-- The library program of a directory entry's identity: 1 SPX, 2 XSX, 3 DNS, 4 SKX, 5 PKS, 6 FMT, 7 GCAP, 8 GSPX; 0 for a
program that matches no entry of words 0x0000 and 0x0001 (R553). -/
def libraryId (cs : Nat → Nat) (g : Program) : Nat :=
  if g.customer then 0
  else
    let es := (List.range 8).map (fun i => bitsOf (cs (i / 4)) (32 * (i % 4)) 32)
    match es.find? (fun e => decide (bitsOf e 28 4 ≠ 0) && decide (bitsOf e 14 14 = g.dealEntry) &&
        decide (bitsOf e 0 14 = g.frameEntry)) with
    | some e => bitsOf e 28 4
    | none => 0

/-- The library program that a program names (R553). -/
def State.libId (s : State) (g : Program) : Nat := libraryId (sparseGet (fun _ => 0) s.hand.cstore) g

/-- A PARAM field. -/
def Program.par (g : Program) (word lo w : Nat) : Nat := bitsOf (g.param.getD word 0) lo w

/-- N of one engine (R222). -/
def Program.pts (g : Program) : Nat := 1024 * 2 ^ g.par 0 29 3

/-- K, the number of kept bins of one engine (R223). -/
def Program.kept (g : Program) : Nat := 800 * 2 ^ g.par 0 29 3

/-- PSH (R216, R222). -/
def Program.psh (g : Program) : Nat := g.par 0 20 6

/-- WBASE; 0 is the rectangular window. -/
def Program.wbase (g : Program) : Nat := g.par 0 0 20

/-- ABASE, the accumulator area. -/
def Program.abase (g : Program) : Nat := g.par 1 0 20

/-! ### Samples, window and spectrum (R216, R217, R226) -/

/-- Sample `n` of the running task's window in the input ring (R132, R217). -/
def State.sampleIn (s : State) (p : Nat) (c : EngCore) (d : Descriptor) (n : Nat) : Cx :=
  Fmt.c16.decode (s.readElem p c (4 * ((d.inBase + (n : Int)) % 32768).toNat) 4)

/-- Coefficient `i` of a window region: an I32 that passes through an 18-bit V register (R216). -/
def State.coefIn (s : State) (p : Nat) (c : EngCore) (base i : Nat) : Int :=
  satSym (toSigned 32 (s.readElem p c (base + 4 * i) 4)) 18

/-- w[n] of R216: symmetric, so that the region holds one half; 2^17 for the rectangular window. -/
def State.windowAt (s : State) (p : Nat) (c : EngCore) (g : Program) (n : Nat) : Int :=
  if g.wbase = 0 then 131072 else s.coefIn p c g.wbase (min n (g.pts - 1 - n))

/-- exp(−i 2π m / 131,072), scaled by 2^40. -/
def wave40 (m : Nat) : Cx :=
  { re := roundEven (fullWave sin64 cos64 (m % 131072 + 32768)) 24, im := -(roundEven (fullWave sin64 cos64 (m % 131072)) 24) }

/-- The sum over n of x[n] exp(−i 2π n b / N), scaled by 2^40. -/
def dftSum (x : List Cx) (b : Nat) : Cx :=
  (x.zipIdx).foldl (fun a y => addCx a (cmulCx y.1 (wave40 (131072 / x.length * (y.2 * b % x.length))))) Cx.zero

/-- |v|². -/
def normSq (v : Cx) : Nat := (v.re * v.re + v.im * v.im).toNat

/-- A bin's value with the rounding of the vendor's transform: any deviation at least 90 dB (10^9 in power) or, in extended
precision, 120 dB (10^12) below the frame's largest bin (R226). -/
def withNoise (limit : Nat) (dev : Int × Int) (v : Cx) : Cx :=
  let d : Cx := { re := dev.1, im := dev.2 }
  if normSq d ≤ limit then addCx v d else v

/-- Position `i` among the kept bins of a spectrum of N points, as a bin 0 to N − 1: the kept bins run from −25N/64 upward. -/
def keptAt (n i : Nat) : Nat := (n - 25 * n / 64 + i) % n

/-- P_f of R216 for a list of bins of a spectrum with N points, rounded to integers. `x` holds the windowed samples w z. -/
def powersOf (x : List Cx) (psh ext idx : Nat) (bins : List Nat) : List Int :=
  let top := ((List.range x.length).map (fun b => normSq (dftSum x b))).foldl max 0
  let limit := top / (if ext = 1 then 10 ^ 12 else 10 ^ 9)
  bins.map (fun b =>
    roundEvenDiv (normSq (withNoise limit (Config.spectrumNoise idx b) (dftSum x b)) : Nat) (2 ^ (2 * 57 + psh)))

/-- P_f of every kept bin of the running frame (R216). -/
def State.framePowers (s : State) (p : Nat) (c : EngCore) (g : Program) (d : Descriptor) : List Int :=
  let n := g.pts
  let x := (List.range n).map (fun i =>
    let w := s.windowAt p c g i
    let z := s.sampleIn p c d i
    ({ re := w * z.re, im := w * z.im } : Cx))
  powersOf x g.psh (g.par 0 26 1) s.free ((List.range g.kept).map (keptAt n))

/-! ### Linear and log values (R222, R225) -/

/-- A linear value limited to 0 to 2^31 − 1. -/
def linLimit (x : Int) : Int := clampInt 0 (2 ^ 31 - 1) x

/-- The log value of a linear value (R222). -/
def logVal (x : Int) : Int := if x ≤ 0 then -32767 else clampInt (-32767) 32767 (log2Units x)

/-- Whether taking a log value sets the OVF latch (R222). -/
def logHit (x : Int) : Bool := decide (2 ^ 32 ≤ x)

/-! ### The accumulator area -/

/-- A signed element of the accumulator store. -/
def areaGet (e : Engine) (c : EngCore) (a size : Nat) : Int :=
  toSigned (8 * size) ((accRead e c ((a - 0x60000) / 8) >>> (8 * (a % 8))) % 2 ^ (8 * size))

/-- Write an element of the accumulator store: with ST in the first frame of a deal, as an update later (R183, R225). -/
def areaPut (e : Engine) (first : Bool) (c : EngCore) (a size : Nat) (v : Int) : EngCore :=
  writeElem e c a size (ofSigned (8 * size) v) first false

/-- Set the OVF latch. -/
def EngCore.ovfIf (c : EngCore) (b : Bool) : EngCore := if b then { c with ovf := true } else c

/-! ### SPX and the detectors (R225, R227) -/

/-- A detector is linear: AVG (0) or SAMPLE (3). -/
def detLinear (det : Nat) : Bool := decide (det = 0) || decide (det = 3)

/-- A detector's new value from the old one and P_f, with whether it sets the OVF latch (R225): 0 AVG, 1 PEAK, 2 MIN,
3 SAMPLE. -/
def detStep (det : Nat) (first : Bool) (old p : Int) : Int × Bool :=
  match det with
  | 0 =>
    let v := (if first then 0 else old) + linLimit p
    (linLimit v, decide (linLimit p ≠ p) || decide (linLimit v ≠ v))
  | 1 => (if first then logVal p else max old (logVal p), logHit p)
  | 2 => (if first then logVal p else min old (logVal p), logHit p)
  | _ => (linLimit p, decide (linLimit p ≠ p))

/-- A detector's array in the accumulator area takes a frame. -/
def detFrame (e : Engine) (base det : Nat) (first : Bool) (c : EngCore) (ps : List Int) : EngCore :=
  let size := if detLinear det then 4 else 2
  ps.zipIdx.foldl (fun c x =>
    let a := base + size * x.2
    let (v, hit) := detStep det first (areaGet e c a size) x.1
    (areaPut e first c a size v).ovfIf hit) c

/-- Where DET_B's array begins: after DET_A's. -/
def detBBase (g : Program) : Nat := g.abase + (if detLinear (g.par 1 30 2) then 4 else 2) * g.kept

/-- A frame of SPX or GSPX (R225, R228). -/
def spxFrame (e : Engine) (g : Program) (first : Bool) (c : EngCore) (ps : List Int) : EngCore :=
  let c := detFrame e g.abase (g.par 1 30 2) first c ps
  match g.par 1 28 2 with
  | 0 => c
  | b => detFrame e (detBBase g) b first c ps

/-! ### Records (R224) -/

/-- A vendor record's preamble (R224). -/
structure Preamble where
  kind    : Nat
  logn    : Nat
  flags   : Nat
  variant : Nat
  frames  : Nat
  psh     : Nat
  stride  : Nat
  first   : Int
  count   : Nat
  deriving DecidableEq, Repr

/-- The preamble's 16 bytes. -/
def Preamble.bytes (x : Preamble) : List Byte :=
  leBytes 1 x.kind ++ leBytes 1 x.logn ++ leBytes 1 x.flags ++ leBytes 1 x.variant ++ leBytes 2 x.frames ++ leBytes 1 x.psh ++
  leBytes 1 x.stride ++ leBytes 4 (ofSigned 32 x.first) ++ leBytes 4 x.count

/-- A list of bytes as 64-bit entries, padded to a multiple of 8 (R224); `fuel` bounds the length. -/
def entriesOf : Nat → List Byte → List Nat
  | 0, _ => []
  | _, [] => []
  | fuel + 1, bs => leNat (bs.take 8) :: entriesOf fuel (bs.drop 8)

/-- An array of signed elements as 64-bit entries. -/
def arrayOf (size : Nat) (vs : List Int) : List Nat :=
  let bs := vs.flatMap (fun v => leBytes size (ofSigned (8 * size) v))
  entriesOf bs.length bs

/-- A record's entries with the FMT codes that they are pushed in: the preamble as I16, then the arrays. -/
def recordOf (x : Preamble) (arrays : List (Nat × List Nat)) : List (Nat × Nat) :=
  (entriesOf 2 x.bytes).map (fun w => (w, 3)) ++ arrays.flatMap (fun y => y.2.map (fun w => (w, y.1)))

/-- The preamble of a program's record, with M frames in the deal (R224). -/
def preambleOf (g : Program) (kind variant m : Nat) (first : Int) (count : Nat) : Preamble :=
  { kind := kind, logn := 10 + g.par 0 29 3, flags := g.par 0 27 2 + 4 * g.par 0 26 1 + (if g.wbase = 0 then 0 else 8),
    variant := variant, frames := m, psh := g.psh, stride := 0, first := first, count := count }

/-- The first kept bin, −25N/64. -/
def Program.bin0 (g : Program) : Int := -((g.kept / 2 : Nat) : Int)

/-- A detector's array as SPX delivers it (R225, R227): AVG is divided by M, a linear detector with OUT = 1 gives log values.
With it, whether a log value sets the OVF latch. -/
def detArray (e : Engine) (c : EngCore) (base det out m kept : Nat) : (Nat × List Nat) × Bool :=
  let size := if detLinear det then 4 else 2
  let vs := (List.range kept).map (fun i => areaGet e c (base + size * i) size)
  let vs := if det = 0 then vs.map (fun v => roundEvenDiv v (max 1 m)) else vs
  if detLinear det then
    if out = 1 then ((3, arrayOf 2 (vs.map logVal)), vs.any logHit) else ((4, arrayOf 4 vs), false)
  else ((3, arrayOf 2 vs), false)

/-- SPX's record (R227): KIND 1, its entries, and whether forming it sets the OVF latch. -/
def spxRecord (e : Engine) (c : EngCore) (g : Program) (m : Nat) (x : Preamble) : List (Nat × List (Nat × Nat)) × Bool :=
  let (a, hit) := detArray e c g.abase (g.par 1 30 2) (g.par 1 27 1) m g.kept
  let b := match g.par 1 28 2 with
    | 0 => []
    | det => [(detArray e c (detBBase g) det 0 m g.kept).1]
  ([(1, recordOf x (a :: b))], hit)

/-- VARIANT of SPX and GSPX (R227). -/
def spxVariant (g : Program) : Nat := g.par 1 30 2 + 4 * g.par 1 28 2 + 16 * g.par 1 27 1

/-! ### XSX (R230 to R232) -/

/-- The radix-4 stages of XSX's transform. -/
def xsxStages (g : Program) : Nat := (10 + g.par 0 29 3) / 2

/-- A component through a transform stage's scaler: `sh` bits, limited to 18. -/
def stageOut (sh : Nat) (v : Cx) : Cx × Bool :=
  ( { re := satSym (roundEven v.re sh) 18, im := satSym (roundEven v.im sh) 18 },
    satSymHit (roundEven v.re sh) 18 || satSymHit (roundEven v.im sh) 18 )

/-- XSX's transform (R148 to R150, R231): decimation in time on 18-bit values, radix 4 with a shift of one bit per stage, and a
radix-2 stage first where N is not a power of 4. With it, whether a stage saturated. -/
def xsxTransform : Nat → List Cx → List Cx × Bool
  | 0, x => (x, false)
  | fuel + 1, x =>
    let n := x.length
    let r := if n % 4 = 0 then 4 else n
    if n ≤ 1 then (x, false)
    else
      let part := fun (j : Nat) => xsxTransform fuel ((List.range (n / r)).map (fun i => x.getD (r * i + j) Cx.zero))
      let parts := (List.range r).map part
      let leg := fun (k j : Nat) =>
        cmulCx ((parts.getD j ([], false)).1.getD k Cx.zero) (twiddle (131072 / n * (j * k) % 131072))
      let turn := fun (v : Cx) (q : Nat) =>
        match q % 4 with
        | 0 => v
        | 1 => negCx (timesI v)
        | 2 => negCx v
        | _ => timesI v
      let out := (List.range n).map (fun i =>
        let q := i / (n / r)
        let k := i % (n / r)
        stageOut (if r = 4 then 18 else 17)
          ((List.range r).foldl (fun a j => addCx a (turn (leg k j) (q * j * (4 / r)))) Cx.zero))
      (out.map (fun v => v.1), parts.any (fun y => y.2) || out.any (fun v => v.2))

/-- The spectrum of the running frame as XSX's transform forms it: the kept bins, and whether a stage saturated. -/
def State.xsxSpectrum (s : State) (p : Nat) (c : EngCore) (g : Program) (d : Descriptor) : List Cx × Bool :=
  let x := (List.range g.pts).map (fun i =>
    let w := s.windowAt p c g i
    let z := s.sampleIn p c d i
    if g.wbase = 0 then z else ({ re := roundEven (w * z.re) 17, im := roundEven (w * z.im) 17 } : Cx))
  let y := xsxTransform 8 x
  ((List.range g.kept).map (fun i => y.1.getD (keptAt g.pts i) Cx.zero), y.2)

/-- The address of an exchange half in bank 5 (R220). -/
def xsxHalf (g : Program) (frame : Nat) : Nat := 0x50000 + (frame % 2) * (8 * g.kept)

/-- The full pair that the engine of an input delivers (R230). -/
def fullPair (i : Nat) : Nat × Nat :=
  match i with
  | 0 => (0, 1)
  | 1 => (1, 2)
  | 2 => (2, 3)
  | _ => (0, 3)

/-- The half pair (R230). -/
def halfPair (i : Nat) : Nat × Nat := if i % 2 = 0 then (0, 2) else (1, 3)

/-- The siblings that the engine of an input reads (R230). -/
def xsxReads (i : Nat) : List Nat :=
  (([(fullPair i).1, (fullPair i).2, (halfPair i).1, (halfPair i).2]).filter (fun j => decide (j ≠ i))).eraseDups

/-- The siblings that read the engine of an input. -/
def xsxReaders (i : Nat) : List Nat := (List.range 4).filter (fun j => decide (i ∈ xsxReads j))

/-- A component of X_a conj(X_b) / 2^PSH on the scale of R216, rounded: the transform's shifts are taken back. -/
def crossTerm (g : Program) (v : Int) : Int := roundEvenDiv (v * 2 ^ (2 * xsxStages g)) (2 ^ g.psh)

/-- A running sum's component, limited to ±(2^31 − 1) (R231). -/
def crossAdd (e : Engine) (first : Bool) (c : EngCore) (a : Nat) (v : Int) : EngCore :=
  let t := (if first then 0 else areaGet e c a 4) + v
  (areaPut e first c a 4 (satSym t 32)).ovfIf (satSymHit t 32)

/-- Cross-products of two spectra into an array of C32 (R231). -/
def crossFrame (e : Engine) (g : Program) (base : Nat) (first : Bool) (c : EngCore) (xs : List (Cx × Cx)) : EngCore :=
  xs.zipIdx.foldl (fun c x =>
    let v := cmulCx x.1.1 (conjCx x.1.2)
    crossAdd e first (crossAdd e first c (base + 8 * x.2) (crossTerm g v.re)) (base + 8 * x.2 + 4) (crossTerm g v.im)) c

/-- XSX's first routine (R231): the kept spectrum as C18 into the frame's exchange half. -/
def State.xsxWrite (s : State) (p : Nat) (e : Engine) (c : EngCore) (g : Program) (d : Descriptor) : EngCore :=
  let (xs, sat) := s.xsxSpectrum p c g d
  let c := xs.zipIdx.foldl (fun c x => writeElem e c (xsxHalf g d.frame + 8 * x.2) 8 (Fmt.c18.encode x.1) true false) c
  (c.satIf sat stMovSat)

/-- XSX's second routine (R230, R231): the products that the engine of an input forms. -/
def State.xsxProducts (s : State) (p : Nat) (e : Engine) (c : EngCore) (g : Program) (d : Descriptor) (input : Nat) : EngCore :=
  let half := xsxHalf g d.frame
  let at' := fun (j i : Nat) =>
    Fmt.c18.decode (s.readElem p c ((if j = input then half else 0x80000 + j * 0x10000 + (half - 0x50000)) + 8 * i) 8)
  let k := g.kept
  let auto := g.par 1 31 1
  let c := if auto = 1 then
      detFrame e g.abase 0 d.first c ((List.range k).map (fun i => crossTerm g (normSq (at' input i) : Nat)))
    else c
  let pair := fun (ab : Nat × Nat) (lo n : Nat) => (List.range n).map (fun i => (at' ab.1 (lo + i), at' ab.2 (lo + i)))
  let c := crossFrame e g (g.abase + 4 * auto * k) d.first c (pair (fullPair input) 0 k)
  crossFrame e g (g.abase + (4 * auto + 8) * k) d.first c (pair (halfPair input) (if input < 2 then 0 else k / 2) (k / 2))

/-- An array of C32 sums divided by M. -/
def crossArray (e : Engine) (c : EngCore) (base m n : Nat) : Nat × List Nat :=
  (2, arrayOf 4 ((List.range (2 * n)).map (fun i => roundEvenDiv (areaGet e c (base + 4 * i) 4) (max 1 m))))

/-- XSX's record (R232). -/
def xsxRecord (e : Engine) (c : EngCore) (g : Program) (m : Nat) : List (Nat × List (Nat × Nat)) :=
  let k := g.kept
  let auto := g.par 1 31 1
  [(2, recordOf (preambleOf g 2 auto m g.bin0 k)
    ((if auto = 1 then [(detArray e c g.abase 0 0 m k).1] else []) ++
      [crossArray e c (g.abase + 4 * auto * k) m k, crossArray e c (g.abase + (4 * auto + 8) * k) m (k / 2)]))]

/-! ### DNS (R233, R234) -/

/-- DNS's columns. -/
def dnsCols (g : Program) : Nat := 2 ^ g.par 1 28 4

/-- The level of a log value (R154, R233), of 128. -/
def dnsLevel (g : Program) (v : Int) : Nat :=
  (clampInt 0 127 ((v - toSigned 18 (g.par 2 0 18)) * (g.par 3 0 18 : Int) / 65536)).toNat

/-- A frame of DNS (R233): the first of a deal starts from zero counters. -/
def dnsFrame (e : Engine) (g : Program) (first : Bool) (c : EngCore) (ps : List Int) : EngCore :=
  let c := if first then (List.range (32 * dnsCols g)).foldl (fun c i => areaPut e true c (g.abase + 8 * i) 8 0) c else c
  ps.zipIdx.foldl (fun c x =>
    histElem e (c.ovfIf (logHit x.1))
      (g.abase + 256 * (x.2 / (g.kept / dnsCols g)) + 2 * dnsLevel g (logVal x.1))) c

/-- DNS's records (R234): one for each 128 columns. -/
def dnsRecords (e : Engine) (c : EngCore) (g : Program) (m : Nat) : List (Nat × List (Nat × Nat)) :=
  (List.range (ceilDiv (dnsCols g) 128)).map (fun r =>
    let n := min 128 (dnsCols g - 128 * r)
    (3, recordOf (preambleOf g 3 (g.par 1 28 4) m ((128 * r : Nat) : Int) n)
      [(3, (List.range (32 * n)).map (fun i => accRead e c ((g.abase + 32768 * r + 8 * i - 0x60000) / 8)))]))

/-! ### SKX (R235, R236) -/

/-- SKX's SK bins. -/
def skBins (g : Program) : Nat := g.kept / 2 ^ g.par 1 29 3

/-- The address of S1 of an SK bin; the I48 array S2 stands first, so that its elements are aligned. -/
def skS1 (g : Program) (b : Nat) : Nat := g.abase + 8 * skBins g + 4 * b

/-- A frame of SKX (R235). -/
def skxFrame (e : Engine) (g : Program) (first : Bool) (c : EngCore) (ps : List Int) : EngCore :=
  let grp := 2 ^ g.par 1 29 3
  (List.range (skBins g)).foldl (fun c b =>
    let p := min ((ps.drop (grp * b)).take grp).sum 1048575
    let s1 := (if first then 0 else areaGet e c (skS1 g b) 4) + p
    let s2 := (if first then 0 else areaGet e c (g.abase + 8 * b) 8) + p * p
    let c := areaPut e first c (skS1 g b) 4 (satSym s1 32)
    (areaPut e first c (g.abase + 8 * b) 8 (satSym s2 48)).ovfIf (satSymHit s1 32 || satSymHit s2 48)) c

/-- 4,096 SK rounded, limited to 0 to 32,767, within ±2 units (R235); 0 where S1 = 0. -/
def skValue (d m : Nat) (s1 s2 dev : Int) : Int :=
  if s1 = 0 then 0
  else
    let x := roundEvenDiv (256 * ((m * d + 16 : Nat) : Int) * ((m : Int) * s2 - s1 * s1)) ((m - 1) * (s1 * s1).toNat)
    clampInt 0 32767 (x + (if -2 ≤ dev ∧ dev ≤ 2 then dev else 0))

/-- An SK bin's value and flag, with S1 and S2 (R235). -/
def skOf (e : Engine) (c : EngCore) (g : Program) (m idx b : Nat) : Int × Bool × Int × Int :=
  let s1 := areaGet e c (skS1 g b) 4
  let s2 := areaGet e c (g.abase + 8 * b) 8
  let v := skValue (g.par 2 0 16) m s1 s2 (Config.kurtosisNoise idx b)
  (v, decide (s1 ≠ 0) && (decide ((g.par 3 16 16 : Int) < v) || decide (v < (g.par 3 0 16 : Int))), s1, s2)

/-- A list of flags as 64-bit words, flag b of word w being flag 64w + b. -/
def bitmapOf (n : Nat) (f : Nat → Bool) : List Nat :=
  (List.range (ceilDiv n 64)).map (fun w =>
    ((List.range 64).map (fun b => if 64 * w + b < n then b2n (f (64 * w + b)) * 2 ^ b else 0)).sum)

/-- SKX's record (R236). -/
def skxRecord (e : Engine) (c : EngCore) (g : Program) (m idx : Nat) : List (Nat × List (Nat × Nat)) :=
  let b := skBins g
  let vs := (List.range b).map (fun i => skOf e c g m idx i)
  [(4, recordOf (preambleOf g 4 (g.par 1 29 3) m g.bin0 b)
    [ (3, arrayOf 2 (vs.map (fun v => v.1))), (4, arrayOf 4 (vs.map (fun v => v.2.2.1))), (5, arrayOf 8 (vs.map (fun v => v.2.2.2))),
      (5, bitmapOf b (fun i => (vs.getD i (0, false, 0, 0)).2.1)) ])]

/-! ### PKS (R237, R238) -/

/-- A peak: its position among the kept bins, its frame, its log value and its neighbours'. -/
structure Peak where
  pos   : Nat
  frame : Nat
  lp    : Int
  lm    : Int
  lq    : Int
  deriving DecidableEq, Repr

/-- The peaks of a frame's log values (R237): a bin at the edge is compared with its inner neighbour only. -/
def peaksIn (thr : Int) (frame : Nat) (ls : List Int) : List Peak :=
  let n := ls.length
  (List.range n).filterMap (fun i =>
    let l := ls.getD i 0
    let below := if i = 0 then -32767 else ls.getD (i - 1) 0
    let above := if i + 1 = n then -32767 else ls.getD (i + 1) 0
    if (i = 0 ∨ below < l) ∧ (i + 1 = n ∨ above ≤ l) ∧ thr ≤ l then
      some { pos := i, frame := frame, lp := l, lm := below, lq := above }
    else none)

/-- A peak stands before another: larger, or as large at a lower bin. -/
def Peak.before (a b : Peak) : Bool := decide (b.lp < a.lp) || (decide (a.lp = b.lp) && decide (a.pos < b.pos))

/-- Put a peak into its place. -/
def peakInsert (a : Peak) : List Peak → List Peak
  | [] => [a]
  | b :: t => if a.before b then a :: b :: t else b :: peakInsert a t

/-- The kept peaks with a frame's: each bin once, with its largest value and the first frame that had it; the 8 largest. -/
def mergePeaks (old new : List Peak) : List Peak :=
  let fresh := new.filter (fun a => !old.any (fun b => decide (b.pos = a.pos) && decide (a.lp ≤ b.lp)))
  let kept := old.filter (fun b => !fresh.any (fun a => decide (a.pos = b.pos)))
  ((fresh ++ kept).foldl (fun l a => peakInsert a l) []).take 8

/-- A peak as PKS delivers it: 16 bytes (R238). -/
def Peak.bytes (g : Program) (a : Peak) : List Byte :=
  leBytes 2 (ofSigned 16 (g.bin0 + a.pos)) ++ leBytes 2 a.frame ++ leBytes 2 (ofSigned 16 a.lp) ++ leBytes 2 (ofSigned 16 a.lm) ++
  leBytes 2 (ofSigned 16 a.lq) ++ List.replicate 6 0

/-- The peaks that the accumulator area holds; an unused entry is 0. -/
def peaksHeld (e : Engine) (c : EngCore) (g : Program) : List Peak :=
  (List.range 8).filterMap (fun i =>
    let get := fun (o : Nat) => areaGet e c (g.abase + 16 * i + o) 2
    let a : Peak := { pos := (get 0 - g.bin0).toNat, frame := (get 2 % 65536).toNat, lp := get 4, lm := get 6, lq := get 8 }
    if get 0 = 0 ∧ get 2 = 0 ∧ get 4 = 0 ∧ get 6 = 0 ∧ get 8 = 0 then none else some a)

/-- A frame of PKS (R237). -/
def pksFrame (e : Engine) (g : Program) (d : Descriptor) (c : EngCore) (ps : List Int) : EngCore :=
  let new := peaksIn (toSigned 16 (g.par 2 0 16)) d.frame (ps.map logVal)
  let l := mergePeaks (if d.first then [] else peaksHeld e c g) new
  let ws := entriesOf 16 (l.flatMap (Peak.bytes g))
  ((List.range 16).foldl (fun c i => writeElem e c (g.abase + 8 * i) 8 (ws.getD i 0) d.first false) c).ovfIf (ps.any logHit)

/-- PKS's record (R238). -/
def pksRecord (e : Engine) (c : EngCore) (g : Program) (m : Nat) : List (Nat × List (Nat × Nat)) :=
  [(5, recordOf (preambleOf g 5 0 m 0 (peaksHeld e c g).length)
    [(3, (List.range 16).map (fun i => accRead e c ((g.abase + 8 * i - 0x60000) / 8)))])]

/-! ### FMT (R240 to R242) -/

/-- A segment of a face as the engine reads it (R240, R241). -/
structure FaceSeg where
  first : Int
  last  : Int
  level : Int
  slope : Int
  deriving DecidableEq, Repr

/-- The segments of one side of a face: upper (0) at offset 0x000, lower (1) at 0x200; their counts at 0x400 and 0x402. -/
def State.faceSegs (s : State) (p : Nat) (c : EngCore) (face side : Nat) : List FaceSeg :=
  let base := 0x5E000 + face * 0x800
  let get := fun (a : Nat) => toSigned 16 (s.readElem p c a 2)
  (List.range (min 64 (s.readElem p c (base + 0x400 + 2 * side) 2))).map (fun i =>
    let a := base + 0x200 * side + 8 * i
    { first := get a, last := get (a + 2), level := get (a + 4), slope := get (a + 6) })

/-- A mask's level at a bin; nothing where no segment covers it (R240). -/
def levelAt (segs : List FaceSeg) (b : Int) : Option Int :=
  (segs.find? (fun x => decide (x.first ≤ b) && decide (b ≤ x.last))).map (fun x => x.level + x.slope * (b - x.first) / 16)

/-- What a bin's log value violates (R240): the excess over the upper mask, and over the lower. -/
def violation (upper lower : List FaceSeg) (b l : Int) : Option Int × Option Int :=
  ( (levelAt upper b).bind (fun v => if v < l then some (l - v) else none),
    (levelAt lower b).bind (fun v => if l < v then some (l - v) else none) )

/-- The outcome of a frame: for each kept bin the violations. -/
def State.fmtJudge (s : State) (p : Nat) (c : EngCore) (g : Program) (d : Descriptor) (ps : List Int) :
    List (Option Int × Option Int) :=
  let upper := s.faceSegs p c d.face 0
  let lower := s.faceSegs p c d.face 1
  ps.zipIdx.map (fun x => violation upper lower (g.bin0 + x.2) (logVal x.1))

/-- A frame's event record (R242), if it violates a mask. -/
def fmtEvent (g : Program) (d : Descriptor) (m : Nat) (vs : List (Option Int × Option Int)) : Option (List (Nat × Nat)) :=
  let bad := fun (v : Option Int × Option Int) => v.1.isSome || v.2.isSome
  match vs.findIdx? bad with
  | none => none
  | some i =>
    let v := vs.getD i (none, none)
    let excess := (v.1.orElse (fun _ => v.2)).getD 0
    let side := b2n (vs.any (fun v => v.1.isSome)) + 2 * b2n (vs.any (fun v => v.2.isSome))
    let bs := leBytes 4 d.frame ++ leBytes 2 (ofSigned 16 (g.bin0 + i)) ++ leBytes 1 side ++ leBytes 1 0 ++
      leBytes 2 (ofSigned 16 (satSym excess 16)) ++ leBytes 2 (min (vs.countP bad) 65535) ++ leBytes 4 0
    some (recordOf (preambleOf g 7 0 m g.bin0 0) [(3, entriesOf 2 bs)])

/-- A frame of FMT in the accumulator area: the bitmap of violating bins, then UP_FRAMES, LO_FRAMES and EVENTS (R242). -/
def fmtFrame (e : Engine) (g : Program) (first : Bool) (c : EngCore) (ps : List Int) (vs : List (Option Int × Option Int)) :
    EngCore :=
  let bad := fun (v : Option Int × Option Int) => v.1.isSome || v.2.isSome
  let words := bitmapOf g.kept (fun i => bad (vs.getD i (none, none)))
  let c := words.zipIdx.foldl (fun c w =>
    let a := g.abase + 8 * w.2
    writeElem e c a 8 (w.1 ||| (if first then 0 else accRead e c ((a - 0x60000) / 8))) first false) c
  let base := g.abase + 8 * words.length
  let add := fun (c : EngCore) (o : Nat) (b : Bool) =>
    areaPut e first c (base + o) 4 ((if first then 0 else areaGet e c (base + o) 4) + (b2n b : Nat))
  let c := add (add (add c 0 (vs.any (fun v => v.1.isSome))) 4 (vs.any (fun v => v.2.isSome))) 8 (vs.any bad)
  (areaPut e first c (base + 12) 4 0).ovfIf (ps.any logHit)

/-- FMT's summary (R242). -/
def fmtRecord (e : Engine) (c : EngCore) (g : Program) (m : Nat) : List (Nat × List (Nat × Nat)) :=
  let n := ceilDiv g.kept 64
  [(6, recordOf (preambleOf g 6 0 m g.bin0 g.kept)
    [ (5, (List.range n).map (fun i => accRead e c ((g.abase + 8 * i - 0x60000) / 8))),
      (4, [accRead e c ((g.abase + 8 * n - 0x60000) / 8), accRead e c ((g.abase + 8 * n + 8 - 0x60000) / 8)]) ])]

/-! ### GCAP and GSPX (R228, R229) -/

/-- GCAP's block (R228): the member's samples times segment m of the window, as C16. -/
def State.gcapBlock (s : State) (p : Nat) (c : EngCore) (g : Program) (d : Descriptor) : List (Nat × Bool) :=
  (List.range 16384).map (fun i =>
    let w := if g.wbase = 0 then 131072 else s.coefIn p c g.wbase i
    let z := s.sampleIn p c d i
    let v : Cx := { re := roundEven (w * z.re) 17, im := roundEven (w * z.im) 17 }
    (Fmt.c16.encode { re := satSym v.re 16, im := satSym v.im 16 }, satSymHit v.re 16 || satSymHit v.im 16))

/-- GCAP (R228): the block goes into bank 5, and is the member's part of the frame. -/
def State.gcapRun (s : State) (p : Nat) (c : EngCore) (g : Program) (d : Descriptor) (member : Nat) : EngCore :=
  let block := s.gcapBlock p c g d
  let c := { c with
    sram := sparseWrite (fun _ => (0 : Byte)) c.sram 0x50000 (block.flatMap (fun (w : Nat × Bool) => leBytes 4 w.1)),
    gang := [(member, block.map (fun (w : Nat × Bool) => w.1))] }
  c.satIf (block.any (fun (w : Nat × Bool) => w.2)) stMovSat

/-- A stage's reading routine (R228): what the partner's bank 5 stands for joins what the member's own does. -/
def stageRead (c partner : EngCore) : EngCore :=
  let new := partner.gang.filter (fun x => decide (x.1 < 16) && !c.gang.any (fun y => decide (y.1 % 16 = x.1)))
  { c with gang := c.gang ++ new.map (fun x => (x.1 + 16, x.2)) }

/-- A stage's writing routine (R228): the result goes back into bank 5. -/
def stageWrite (idx : Nat) (c : EngCore) : EngCore :=
  { c with gang := c.gang.map (fun x => (x.1 % 16, x.2)),
           sram := sparseWrite (fun _ => (0 : Byte)) c.sram 0x50000 ((List.range 65536).map (Config.exchangeByte idx)) }

/-- GSPX's last routine (R216, R228, R229): P_f of the member's kept bins, b = m mod n, of the transform over the frame's
n blocks. -/
def gspxPowers (c : EngCore) (g : Program) (idx member n : Nat) : List Int :=
  let big := 16384 * n
  let x := (List.range n).flatMap (fun j =>
    ((c.gang.find? (fun y => decide (y.1 = j))).map (fun y => y.2)).getD (List.replicate 16384 0))
  let x := x.map (fun w =>
    let v := Fmt.c16.decode w
    ({ re := 131072 * v.re, im := 131072 * v.im } : Cx))
  powersOf x g.psh 0 idx ((List.range 12800).map (fun i => keptAt big (member + n * i)))

/-- GSPX's preamble (R224, R229). -/
def gspxPreamble (g : Program) (m member n : Nat) : Preamble :=
  { preambleOf g 1 (spxVariant g) m (-((6400 * n : Nat) : Int) + member) 12800 with
    logn := 14 + Nat.log2 n, stride := Nat.log2 n }

/-! ### A library task (R218, R228, R231) -/

/-- What a library program's routine does at its COMMIT: nothing of the kind, a wait, or a core with its results; in the last
case whether the task's work is done. -/
inductive LibWork where
  | none
  | waits (x : Stall)
  | gives (c : EngCore) (finished : Bool)
  deriving DecidableEq, Repr

/-- The first of some siblings whose count a routine still awaits (R139). -/
def State.awaits (s : State) (p v : Nat) (sigmas : List Nat) : Option Stall :=
  (sigmas.find? (fun i => !s.waitOver p i v)).map (fun i => .xwait i v)

/-- The FIFO items of a record of a program's task. -/
def State.itemsOf (s : State) (g : Program) (d : Descriptor) (ovf : Bool) (x : Nat × List (Nat × Nat)) : List FifoItem :=
  let loc := ((s.img.products.find? (fun y => decide (y.prog = g.prog) && decide (y.kind = x.1))).map (fun y => y.loc)).getD 255
  .opens g.prog loc d.deal d.frame false :: x.2.map (fun w => .entry w.1 w.2 ovf) ++ [.closes]

/-- The longest start of a list of items that has at most `n` entries. -/
def takeEntries : Nat → List FifoItem → List FifoItem
  | _, [] => []
  | n, .entry d f o :: t => if n = 0 then [] else .entry d f o :: takeEntries (n - 1) t
  | n, x :: t => x :: takeEntries n t

/-- The record open after some items. -/
def openAfter (items : List FifoItem) : Option (Nat × Nat) :=
  items.foldl (fun o x => match x with
    | .opens _ loc _ _ _ => some (loc, 0)
    | .entry .. => o.map (fun y => (y.1, y.2 + 1))
    | .closes => none) none

/-- Whether an area that a record is built from carries the OVF tag (R135). -/
def areaOvf (e : Engine) (c : EngCore) (base bytes : Nat) : Bool :=
  (List.range (ceilDiv bytes 8)).any (fun i => accOvf e c ((base - 0x60000) / 8 + i))

/-- The records of a library program's DEAL task, the bytes of its area, and whether forming them sets the OVF latch. -/
def State.libraryRecords (s : State) (e : Engine) (c : EngCore) (g : Program) (id m member n : Nat) :
    List (Nat × List (Nat × Nat)) × Nat × Bool :=
  let k := g.kept
  match id with
  | 1 =>
    let (r, hit) := spxRecord e c g m (preambleOf g 1 (spxVariant g) m g.bin0 k)
    (r, 4 * k, hit)
  | 2 => (xsxRecord e c g m, (12 + 4 * g.par 1 31 1) * k, false)
  | 3 => (dnsRecords e c g m, 256 * dnsCols g, false)
  | 4 => (skxRecord e c g m s.free, 12 * skBins g, false)
  | 5 => (pksRecord e c g m, 128, false)
  | 6 => (fmtRecord e c g m, 8 * (ceilDiv k 64 + 2), false)
  | 8 =>
    let (r, hit) := spxRecord e c g m (gspxPreamble g m member n)
    (r, 4 * k, hit)
  | _ => ([], 0, false)

/-- A routine of a library program's DEAL task: as many entries as the FIFO has room for, from where CARRY says that the last
commit left off (R174, R223); with no room it waits (R175). -/
def State.libraryDeal (s : State) (e : Engine) (g : Program) (d : Descriptor) (id m member n : Nat) : LibWork :=
  let c := e.cur
  let (rs, bytes, hit) := s.libraryRecords e c g id m member n
  let items := rs.flatMap (s.itemsOf g d (areaOvf e c g.abase bytes))
  let free := 2048 - entryCount e.fifo
  let now := takeEntries free (items.drop c.carry)
  if now.isEmpty ∧ !items.isEmpty then .waits .push
  else
    let c := { c with fifoW := c.fifoW ++ now, orec := openAfter (items.take (c.carry + now.length)), carry := c.carry + now.length }
    .gives (c.ovfIf hit) (decide (items.length ≤ c.carry))

/-- A routine of a library program's FRAME task; CARRY counts the routines of the task (R228, R231). -/
def State.libraryFrame (s : State) (p : Nat) (e : Engine) (g : Program) (d : Descriptor) (id m member n : Nat) : LibWork :=
  let c := e.cur
  let l := s.logicalOf p
  let input := (s.streamOf l).2
  let reads := fun (c : EngCore) (js : List Nat) => { c with reads := c.reads ++ js.filterMap (s.sibling? l) }
  let next := fun (c : EngCore) => { c with carry := c.carry + 1, xpub := c.xpub + 1 }
  let run := fun (x : Option Stall) (w : LibWork) => match x with
    | some st => LibWork.waits st
    | none => w
  let ps := fun (_ : Unit) => s.framePowers p c g d
  match id with
  | 1 => .gives (spxFrame e g d.first c (ps ())) true
  | 2 =>
    if c.carry = 0 then
      run (s.awaits p (if m = 1 then 0 else 65534) (xsxReaders input))
        (.gives (next (reads (s.xsxWrite p e c g d) (xsxReaders input))) false)
    else run (s.awaits p 1 (xsxReads input)) (.gives (next (reads (s.xsxProducts p e c g d input) (xsxReads input))) true)
  | 3 => .gives (dnsFrame e g d.first c (ps ())) true
  | 4 => .gives (skxFrame e g d.first c (ps ())) true
  | 5 => .gives (pksFrame e g d c (ps ())) true
  | 6 =>
    let vs := s.fmtJudge p c g d (ps ())
    let c' := fmtFrame e g d.first c (ps ()) vs
    match fmtEvent g d m vs with
    | none => .gives c' true
    | some r =>
      if 2048 < entryCount e.fifo + 4 then .waits .push
      else .gives { c' with fifoW := c'.fifoW ++ s.itemsOf g d false (7, r) } true
  | 7 => run (s.awaits p 0 (List.range (Nat.log2 n))) (.gives (next (s.gcapRun p c g d member)) true)
  | _ =>
    let stage := c.carry / 2
    if Nat.log2 n ≤ stage then .gives (spxFrame e g d.first c (gspxPowers c g s.free member n)) true
    else
      run (s.awaits p c.carry [stage])
        (let c := reads c [stage]
         let partner := match s.sibling? l stage with
           | some x => (s.engOf (s.fld (HAND_MAP_PHYS x))).pre
           | none => EngCore.reset
         .gives (next (if c.carry % 2 = 0 then stageRead c partner else stageWrite s.free c)) false)

/-- Whether an engine runs a routine of a library program that the vendor region holds as one lone COMMIT. -/
def State.libraryTask (s : State) (p : Nat) : Option (Program × Descriptor) :=
  let e := s.engOf p
  match e.task with
  | none => none
  | some d =>
    match s.img.programs.find? (fun g => decide (g.prog = d.prog)) with
    | none => none
    | some g =>
      let w := s.storeWord (clusterOf p) d.entry
      if s.libId g ≠ 0 ∧ e.cur.pc = d.entry ∧ bitsOf w 0 226 = 0 ∧ bitsOf w 244 4 = 4 then some (g, d)
      else none

/-- What an engine's COMMIT does for a library program (R215, R553). -/
def State.libraryRoutine (s : State) (p : Nat) : LibWork :=
  match s.libraryTask p with
  | none => .none
  | some (g, d) =>
    let e := s.engOf p
    let l := s.logicalOf p
    let id := s.libId g
    let n := match s.gang? l with
      | some (_, _, _, n) => n
      | none => 1
    let m := s.framesPerDeal g
    if d.isDeal then s.libraryDeal e g d id m (s.gangIndex l) n else s.libraryFrame p e g d id m (s.gangIndex l) n

end Sys2Proof.Machine
end

