-- ==== Sys2Proof/Machine/EngineSeq.lean ====
section
/-! DEFINITION. An engine's sequencer: the microword as the control store holds it (R167 to R170), fetch and its parity
(R166, R168), the issue cost and the commit counter (R142, R143, R181), the sequencing operations (R157, R173), the
commit (R177), task dispatch (R172, R218), the drain of the result FIFO (R174, R192) and restarts (R179). -/

namespace Sys2Proof.Machine

/-! ### The microword in the control store (R167 to R170) -/

/-- Whether a memory slot's fields are ILLEGAL: format 6 or 7, generator 3 (R169). -/
def slotIllegal (ag fmt : Nat) : Bool := decide (6 ≤ fmt) || decide (ag = 3)

/-- The AMOD bits that an ALU operation admits; none for an operation that is ILLEGAL (R169). -/
def amodAllowed (aop : Nat) : Option Nat :=
  match aop with
  | 0x00 => some 0
  | 0x01 => some 15
  | 0x02 => some 8
  | 0x03 => some 0
  | 0x04 => some 0
  | 0x05 => some 0
  | 0x06 => some 0
  | 0x07 => some 4
  | 0x08 => some 4
  | 0x09 => some 0
  | 0x0A => some 0
  | 0x0B => some 0
  | 0x0C => some 6
  | 0x0D => some 6
  | _ => none

/-- Whether a list of numbers repeats one. -/
def hasRepeat : List Nat → Bool
  | [] => false
  | a :: t => decide (a ∈ t) || hasRepeat t

/-- Whether a control operation's generator and immediate are permitted: bits beyond the field's width are 0, AG.BR is at most
17, and no generator is 3 (R156, R169, R170). -/
def ctlLegal (cop cag cimm : Nat) : Bool :=
  match cop with
  | 0x01 => decide (cimm < 2 ^ 5)
  | 0x02 => decide (cimm < 2 ^ 5)
  | 0x04 => decide (cag ≠ 3)
  | 0x05 => decide (cag ≠ 3) && decide (cimm < 2 ^ 17)
  | 0x06 => decide (cag ≠ 3) && decide (cimm < 2 ^ 17)
  | 0x07 => decide (cag ≠ 3) && decide (cimm < 2 ^ 17)
  | 0x08 => decide (cag ≠ 3) && decide (cimm < 2 ^ 17)
  | 0x09 => decide (cag ≠ 3) && decide (cimm ≤ 17)
  | 0x0A => decide (cag ≠ 3)
  | 0x0B => decide (cag ≠ 3) && decide (cimm < 2 ^ 3)
  | 0x0C => decide (cag ≠ 3)
  | 0x0D => decide (cimm < 2 ^ 17)
  | 0x0E => decide (cimm < 2 ^ 17)
  | 0x0F => decide (cimm < 2 ^ 17)
  | 0x10 => decide (cimm < 2 ^ 18)
  | 0x11 => decide (cimm < 2 ^ 18)
  | 0x12 => decide (cimm < 2 ^ 7)
  | 0x14 => decide (cimm < 2 ^ 16)
  | 0x15 => decide (cimm < 2 ^ 8)
  | 0x19 => decide (cimm < 2 ^ 5)
  | n => decide (n < 0x1A)

/-- Whether a microword is ILLEGAL as it stands: a reserved bit, an undefined encoding, or a broken rule of R140 or of
two slots that write A (R169). -/
def wordIllegal (w : Nat) : Bool :=
  let f := bitsOf w
  let ld1 := bitOf w 164
  let ld0 := bitOf w 151
  let stop := f 179 3
  let mem := decide (1 ≤ stop) && decide (stop ≤ 3)
  let mop := f 137 2
  let aop := f 112 5
  let amod := f 108 4
  let sop := f 244 4
  let ags := (if ld1 then [f 162 2] else []) ++ (if ld0 then [f 149 2] else []) ++ (if mem then [f 176 2] else [])
  let vs := (if ld1 && !bitOf w 158 then [f 153 5] else []) ++ (if ld0 && !bitOf w 145 then [f 140 5] else []) ++
    (if 1 ≤ mop then [f 132 5] else []) ++ (if aop = 0x0A ∨ aop = 0x0B then [f 93 5] else [])
  let writesA := b2n (ld1 && bitOf w 158) + b2n (ld0 && bitOf w 145) + b2n (decide (aop ≠ 0) && decide (aop ≠ 0x0A))
  decide (f 0 86 ≠ 0) || decide (5 ≤ stop) || !ctlLegal (f 204 6) (f 202 2) (f 182 20) || decide (5 ≤ sop) ||
  (decide (sop = 0) && decide (f 210 34 ≠ 0)) || (decide (sop = 3) && decide (0xA ≤ f 240 4)) ||
  (match amodAllowed aop with
    | none => true
    | some ok => decide (amod &&& (15 - ok) ≠ 0)) ||
  (decide (aop = 1) && bitOf amod 2 && bitOf amod 1) ||
  (ld1 && slotIllegal (f 162 2) (f 159 3)) || (ld0 && slotIllegal (f 149 2) (f 146 3)) ||
  (mem && slotIllegal (f 176 2) (f 173 3)) ||
  (decide (stop = 3) && (bitOf w 178 || decide (f 173 3 ≠ 3))) ||
  (decide (stop = 4) && (decide (6 ≤ f 173 3) || decide (f 176 2 ≠ 0) || bitOf w 167)) ||
  hasRepeat ags || hasRepeat vs || decide (2 ≤ writesA) ||
  (decide (mop = 1) && bitOf w 178 && decide (1 ≤ stop))

/-- The LD slot whose enable bit is bit `en` of a microword (R167). -/
def ldSlotAt (w en : Nat) : LdSlot :=
  let f := bitsOf w
  { ag := Fin.ofNat 4 (f (en - 2) 2), fmt := Fin.ofNat 8 (f (en - 5) 3), toA := bitOf w (en - 6), vd := Fin.ofNat 32 (f (en - 11) 5),
    pi := bitOf w (en - 12) }

/-- The sequencing operation of a microword (R167, R170). -/
def seqOf (w : Nat) : SeqOp :=
  let at' := BitVec.ofNat 14 (bitsOf w 226 14)
  match bitsOf w 244 4 with
  | 1 => .repeatLoop (BitVec.ofNat 16 (bitsOf w 210 16)) at'
  | 2 => .jump at'
  | 3 => .branch (Fin.ofNat 16 (bitsOf w 240 4)) at'
  | 4 => .commit (bitOf w 240) at'
  | _ => .next

/-- The operations of a microword (R167, R170) in the order in which this model issues them: loads, store slot, ALU, MOVE, CTL,
and last the sequencing operation. Every slot reads the state before the microword (R141). -/
def wordOps (w : Nat) : List SlotOp :=
  let f := bitsOf w
  let shd := Fin.ofNat 8 (f 90 3)
  let st : StSlot :=
    { fromA := bitOf w 178, ag := Fin.ofNat 4 (f 176 2), fmt := Fin.ofNat 8 (f 173 3), vs := Fin.ofNat 32 (f 168 5),
      pi := bitOf w 167, frac := bitOf w 166, bx := bitOf w 165, shd := shd }
  let mv : MvSlot :=
    { vd := Fin.ofNat 32 (f 132 5), vs := Fin.ofNat 32 (f 127 5), sel := Fin.ofNat 256 (f 119 8), frac := bitOf w 118,
      bx := bitOf w 117, shd := shd }
  let al : AluSlot :=
    { amod := Fin.ofNat 16 (f 108 4), va := Fin.ofNat 32 (f 103 5), vb := Fin.ofNat 32 (f 98 5), vd := Fin.ofNat 32 (f 93 5),
      skip := Fin.ofNat 16 (f 86 4) }
  let ct : CtlSlot := { ag := Fin.ofNat 4 (f 202 2), imm := BitVec.ofNat 20 (f 182 20) }
  (if bitOf w 164 then [.load (ldSlotAt w 164)] else []) ++ (if bitOf w 151 then [.load (ldSlotAt w 151)] else []) ++
  (if f 179 3 = 0 then [] else [.store (Fin.ofNat 8 (f 179 3)) st]) ++
  (if f 112 5 = 0 then [] else [.alu (Fin.ofNat 32 (f 112 5)) al]) ++
  (if f 137 2 = 0 then [] else [.move (Fin.ofNat 4 (f 137 2)) mv]) ++
  (if f 204 6 = 0 then [] else [.ctl (Fin.ofNat 64 (f 204 6)) ct]) ++ [.seq (seqOf w)]

/-- Whether a microword passes its check: PAR[i] makes the parity of bits 31i to 31i + 30 even (R168). -/
def parityGood (w : Nat) : Bool :=
  (List.range 8).all (fun i => decide (((List.range 31).countP (fun j => bitOf w (31 * i + j)) + b2n (bitOf w (248 + i))) % 2 = 0))

/-- The region of a control store word: customer from 0x3000 on (R161). -/
def customerWord (a : Nat) : Bool := decide (0x3000 ≤ a)

/-- A cluster's copy of a word holds a value. -/
def State.putCopy (s : State) (c pc w : Nat) : State :=
  let v := if w = sparseGet (fun _ => 0) s.hand.cstore pc then none else some w
  { s with hand := { s.hand with copies := instSet none s.hand.copies (c * 16384 + pc) v } }

/-- SEQ_PARITY on a fetched word (R159, R166): the word is copied from the next cluster whose copy passes, and the
routine restarts; with no passing copy the task is dropped. -/
def State.seqParity (s : State) (p pc : Nat) : State :=
  let c := clusterOf p
  let s := (s.setFld CS_REPAIR_ADDR_CLUSTER c).setFld CS_REPAIR_ADDR_WORD pc
  match ((List.range 63).map (fun i => s.storeWord ((c + 1 + i) % 64) pc)).find? parityGood with
  | some w => (((s.putCopy c pc w).addSat CS_REPAIR_COUNT_COUNT 1).setFld CS_STAT_REPAIR 1).transientFault p 0x05
  | none =>
    let s := (s.putFault p 0x05 pc).dropTask p
    let s := (s.setFld CS_STAT_REPAIR_FAIL 1).putBit (HAND_CLU_FAILRES c) 0 true
    s.logEvent 0x110A sevFatal (c <<< 14 + pc)

/-- Copies of a word change under the fetch. -/
def State.spoil (s : State) (pc : Nat) : Upset → State
  | .clean => s
  | .sequencer => s
  | .copies l => l.foldl (fun s x => s.putCopy x.1 pc x.2.toNat) s

/-- The fetch of the next microword (R166, R169): the parity of the sequencer's own state, which a restart renews, and of the
word; then its encoding. -/
def State.fetch (s : State) (p : Nat) (up : Upset) : State :=
  let pc := (s.engOf p).pre.pc
  let c := clusterOf p
  let s := s.spoil pc up
  let w := s.storeWord c pc
  if up = .sequencer then s.transientFault p 0x05
  else if !parityGood w then s.seqParity p pc
  else if wordIllegal w then s.programFault p fIllegal
  else
    let e := s.engOf p
    s.setEng p { e with pre := { e.pre with todo := wordOps w }, cur := { e.cur with todo := wordOps w } }

/-! ### Ending a microword -/

/-- The microcycles a microword's memory accesses take: the most distinct words in one sub-bank of one bank (R142). -/
def conflictCost (ws : List Nat) : Nat :=
  ws.foldl (fun m w => max m (ws.countP (fun v => decide (v / 8192 = w / 8192) && decide (v % 4 = w % 4)))) 1

/-- A microword's cost as the commit counter counts it (R181). -/
def issueCost (c : EngCore) : Nat := max (conflictCost c.words) (if c.window then 2 else 1)

/-- The core with its per-microword notes cleared, and the cost counted. -/
def EngCore.endWord (c : EngCore) : EngCore :=
  { c with cc := c.cc + issueCost c, todo := [], words := [], window := false, sticky := 0 }

/-- Raise the sticky bits that the microword's slots noted. -/
def State.flushSticky (s : State) (p : Nat) : State :=
  let bits := (s.engOf p).cur.sticky
  s.setReg (ENG_STAT p).addr (s.reg (ENG_STAT p).addr ||| BitVec.ofNat 32 bits)

/-- The pc after a microword that does not branch, with the loop stack (R157): at the end of a body the loop returns to
its start or ends, and several levels may end together. -/
def stepLoops : List Loop → Nat → Nat × List Loop
  | [], pc => ((pc + 1) % 16384, [])
  | l :: t, pc =>
    if pc = l.stop then
      if 1 < l.left then (l.start, { l with left := l.left - 1 } :: t) else stepLoops t pc
    else ((pc + 1) % 16384, l :: t)

/-- Go to the next microword in sequence. -/
def EngCore.advance (c : EngCore) : EngCore :=
  let r := stepLoops c.loops c.pc
  { c with pc := r.1, loops := r.2 }

/-- A taken branch: the levels whose bodies do not hold the target end (R157). -/
def EngCore.jump (c : EngCore) (target : Nat) : EngCore :=
  { c with pc := target,
           loops := c.loops.dropWhile (fun l => !(decide (l.start ≤ target) && decide (target ≤ l.stop))) }

/-- End a microword with the sequencing operation that it holds and that stays in the routine: the commit bound (R181), the
operation's own rules, then the next fetch. -/
def State.endWord (s : State) (p : Nat) (op : SeqOp) (up : Upset) (f : Engine → EngCore → Except Nat EngCore) : State :=
  if s.issuesOp p (.seq op) then
    let e := s.engOf p
    if 65536 < e.cur.cc + issueCost e.cur then s.programFault p fCommitLimit
    else
      match f e e.cur with
      | .error code => s.programFault p code
      | .ok c =>
        let s := s.flushSticky p
        let c := c.endWord
        (s.setEng p { e with pre := c, cur := c }).fetch p up
  else s

/-- Whether an address lies in the region of the running task's entries (R173). -/
def Engine.sameRegion (e : Engine) (a : Nat) : Bool :=
  match e.task with
  | some d => decide (customerWord a = customerWord d.entry)
  | none => true

/-- NEXT (R170). -/
def seqNext (_ : Engine) (c : EngCore) : Except Nat EngCore := .ok c.advance

/-- REPEAT (R157): a fifth level, a body that ends beyond its outer body, at or before the REPEAT, or in the other region
is ILLEGAL. -/
def seqRepeat (count stop : Nat) (e : Engine) (c : EngCore) : Except Nat EngCore := do
  illegalIf (decide (4 ≤ c.loops.length) || decide (stop ≤ c.pc) || !e.sameRegion stop)
  illegalIf (match c.loops with
    | l :: _ => decide (l.stop < stop)
    | [] => false)
  return { c with pc := c.pc + 1, loops := { start := c.pc + 1, stop := stop, left := count } :: c.loops }

/-- A taken JMP or BR: forward, in the same region (R173). -/
def seqJump (target : Nat) (e : Engine) (c : EngCore) : Except Nat EngCore := do
  illegalIf (decide (target ≤ c.pc) || !e.sameRegion target)
  return c.jump target

/-- A branch condition, on the state before the microword (R170); none where it is ILLEGAL. -/
def brCond (e : Engine) (cond : Nat) : Option Bool :=
  let (first, last) := match e.task with
    | some d => (d.first, d.last)
    | none => (false, false)
  match cond with
  | 0x0 => some first
  | 0x1 => some !first
  | 0x2 => some last
  | 0x3 => some !last
  | 0x4 => some e.pre.ovf
  | 0x5 => some !e.pre.ovf
  | 0x6 => some (decide (e.pre.a.l0.re < 0))
  | 0x7 => some (decide (e.pre.a.l0.re = 0))
  | 0x8 => some (decide (e.pre.carry = 0))
  | 0x9 => some (decide (e.pre.carry ≠ 0))
  | _ => none

/-- BR (R170): taken or not, its target lies in the same region (R173). -/
def seqBr (cond target : Nat) (e : Engine) (c : EngCore) : Except Nat EngCore :=
  match brCond e cond with
  | none => .error fIllegal
  | some true => seqJump target e c
  | some false => do
    illegalIf (!e.sameRegion target)
    return c.advance

/-! ### COMMIT (R177) -/

/-- The working words of the accumulator store, with their indexes. -/
def EngCore.workWords (c : EngCore) : List (Nat × WorkWord) :=
  c.work.filterMap (fun x => x.2.map (fun w => (x.1, w)))

/-- A FIFO item as a commit makes it: entries take the OVF latch (R135). -/
def markOvf (ovf : Bool) : FifoItem → FifoItem
  | .entry d f o => .entry d f (o || ovf)
  | x => x

/-- The tag a committed word takes (R135). -/
def commitTag (e : Engine) (c : EngCore) (i : Nat) (w : WorkWord) : Bool :=
  if w.plain then c.ovf else instGet false e.tag i || c.ovf

/-- Steps 1 to 5 of a commit (R177), with the routine's last slots taken in. `target` is the continuation. -/
def State.commitSteps (s : State) (p target : Nat) : State :=
  let e := s.engOf p
  let c := e.cur
  let s := c.workWords.foldl (fun s x => s.commitWord p x.1 x.2.value (commitTag e c x.1 x.2)) s
  let s := s.addWrap (ENG_XCNT_XCNT p) c.xpub
  let e := s.engOf p
  let s := s.setEng p { e with
    fifo := e.fifo ++ c.fifoW.map (markOvf c.ovf), openC := c.orec,
    task := e.task.map (fun d => { d with entry := target, carry := c.carry }) }
  s.putMirrorCtl p

/-- Whether a record of a local product and deal has been opened by an engine and not yet settled. -/
def Engine.produced (e : Engine) (prog deal loc : Nat) : Bool :=
  e.fifo.any (fun x => match x with
    | .opens g p d _ _ => decide (g = prog) && decide (p = loc) && decide (d = deal)
    | _ => false) ||
  (match e.drain with
    | some r => decide (r.prog = prog) && decide (r.loc = loc) && decide (r.deal = deal)
    | none => false)

/-- Step 6 of a commit: the task ends (R177) and the engine goes idle (R158). -/
def State.endTask (s : State) (p : Nat) : State :=
  let e := s.engOf p
  match e.task with
  | none => s
  | some d =>
    let s := s.setEng p { e with task := none, stall := none, consec := 0 }
    let s := (s.setFld (ENG_STAT_STATE p) esIdle).putMirrorCtl p
    s.taskOver (s.logicalOf p) d (e.produced d.prog d.deal)

/-- ENTRY of the running task. -/
def Engine.taskEntry (e : Engine) : Nat :=
  match e.task with
  | some d => d.entry
  | none => 0

/-- The six steps of a commit, and the next routine's fetch where the task goes on (R177). -/
def State.commitWith (s : State) (p : Nat) (ends : Bool) (target : Nat) (up : Upset) : State :=
  let s := (s.flushSticky p).commitSteps p target
  let e := s.engOf p
  let c := e.cur
  if ends then (s.setEng p { e with pre := keptCore c, cur := keptCore c }).endTask p
  else
    match e.task with
    | some d => (s.setEng p ({ e with pre := c }.enter d)).fetch p up
    | none => s

/-- COMMIT (R173, R176, R177): a library program's routine does its work first, or waits (R228, R231). ILLEGAL inside a REPEAT body, with END while a record is open, or with a continuation
that does not lie ahead in the same region. -/
def State.commit (s : State) (p : Nat) (ends : Bool) (goes : BitVec 14) (up : Upset) : State :=
  let target := goes.toNat
  if s.issuesOp p (.seq (.commit ends goes)) then
    let e := s.engOf p
    let c := e.cur
    match s.libraryRoutine p with
    | .waits x => s.setEng p { e with stall := some x }
    | .gives c finished =>
      { s.setEng p { e with cur := c } with free := s.free + 1 }.commitWith p finished e.taskEntry up
    | .none =>
      if !c.loops.isEmpty || (if ends then c.orec.isSome else
          decide (target ≤ c.pc) || decide (target = 0x3FFF) || !e.sameRegion target) then s.programFault p fIllegal
      else s.commitWith p ends (if ends then e.taskEntry else target) up
  else s

/-! ### Dispatch (R172, R194, R218) -/

/-- Whether a ready FRAME task is held until the DEAL task of the deal before has ended (R218). -/
def State.heldTask (s : State) (l : Nat) (d : Descriptor) : Bool :=
  match s.img.programs.find? (fun g => decide (g.prog = d.prog)) with
  | some g => !d.isDeal && decide (g.dealEntry ≠ 0x3FFF) && decide (s.deal.first < d.deal) &&
      decide ((d.prog, d.deal - 1) ∉ (s.leafOf l).dealEnd)
  | none => false

/-- A task starts (R132, R171, R173): the first of the ring that is not held. -/
def State.dispatch (s : State) (p : Nat) (up : Upset) : State :=
  let e := s.engOf p
  let l := s.logicalOf p
  let x := s.leafOf l
  if s.engState p ≠ esIdle ∨ !s.flag (ENG_ID_ACTIVE p) ∨ e.task.isSome = true ∨ s.flag (HAND_MAP_PENDING l) = true then s
  else
    match x.ring.find? (fun d => !s.heldTask l d) with
    | none => s
    | some d =>
      let s := s.setLeaf l { x with ring := x.ring.erase d, taken := x.taken + 1 }
      let xc := s.fld (ENG_XCNT_XCNT p)
      let d := { d with xs := xc }
      let s := ((s.setPair (ENG_IN_BASE p) (ofSigned 64 d.inBase)).setFld (ENG_IN_LEN_LEN p) d.inLen)
      let s := s.setEng p { e.enter d with xstart := xc, consec := 0 }
      let s := (s.setFld (ENG_STAT_STATE p) esRun).putMirrorCtl p
      if d.entry = 0x3FFF then s.programFault p fIllegal else s.fetch p up

/-! ### The result channel (R174, R192) -/

/-- A complete record leaves its engine's FIFO: to the pot, or into the combine area of a GROUP whose member it is. -/
def State.deliver (s : State) (r : ResultRecord) : State :=
  match s.productOf r.prog r.loc with
  | none => { s with hand := { s.hand with done := s.hand.done ++ [r] } }
  | some x =>
    let nodes := (s.combiners x.number).filter (fun i => decide (r.logical ∈ s.combineMembers i))
    if nodes.isEmpty then { s with hand := { s.hand with done := s.hand.done ++ [r] } }
    else nodes.foldl (fun s i =>
      let s := s.combineSettle i x.number r.deal r.logical (some r)
      s.dealReady (s.leaderOf 2049 i) r.prog r.deal) s

/-- Take opening and closing marks off the front of a FIFO. -/
def State.drainMarks (s : State) (p : Nat) : Nat → State
  | 0 => s
  | fuel + 1 =>
    let e := s.engOf p
    match e.fifo with
    | .opens prog loc deal frame degr :: t =>
      let r : ResultRecord :=
        { logical := s.logicalOf p, prog := prog, loc := loc, deal := deal, frame := frame, words := [], ovf := false,
          degr := degr }
      State.drainMarks (s.setEng p { e with fifo := t, drain := some r }) p fuel
    | .closes :: t =>
      let s := s.setEng p { e with fifo := t, drain := none }
      match e.drain with
      | some r => State.drainMarks (s.deliver r) p fuel
      | none => State.drainMarks s p fuel
    | _ => s

/-- One committed entry drains (R174), and a PUSH that waited for room goes on (R175). -/
def State.drainOne (s : State) (p : Nat) : State :=
  let s := s.drainMarks p 4096
  let e := s.engOf p
  let s : State := match e.fifo with
    | .entry d f o :: t =>
      let take := fun (r : ResultRecord) => { r with words := r.words ++ [(d, f)], ovf := r.ovf || o }
      (s.setEng p { e with fifo := t, drain := e.drain.map take }).drainMarks p 1
    | _ => s
  let e := s.engOf p
  if e.stall = some .push ∧ entryCount e.fifo + entryCount e.cur.fifoW ≤ 2048 then s.setEng p { e with stall := none }
  else s

/-- A word of the cluster's shared memories found uncorrectable (R198): a mirror word of a serving engine is rewritten from its
committed layer; a replay or task-store word that the work needs loses the task. -/
def State.sharedBad (s : State) (p : Nat) (x : SharedWord) : State :=
  let e := s.engOf p
  if x.res.val = 2 then
    (if x.word < 8192 then s.commitWord p x.word (instGet 0 e.acc x.word) (instGet false e.tag x.word) else s).sharedWord p 3 x.word
  else (s.dropTask p).sharedWord p (x.res + 1) x.word

/-- An abandoned routine restarts from ENTRY with the committed descriptor (R173, R179), once its engine serves and, after
a hand interrupt, the substitute is ready. -/
def State.restart (s : State) (p : Nat) (bad : List SharedWord) (up : Upset) : State :=
  let e := s.engOf p
  let ready := match e.await with
    | some l => !s.flag (HAND_MAP_PENDING l)
    | none => true
  if e.task.isSome ∧ e.halted = true ∧ ready = true ∧ s.engState p = esRun ∧ s.flag (HAND_MAP_PENDING (s.logicalOf p)) = false then
    let s := bad.foldl (fun s x => s.sharedBad p x) s
    match (s.engOf p).task with
    | some d => (s.setEng p ((s.engOf p).enter d)).fetch p up
    | none => s
  else s

/-! ### Meanings -/

/-- NEXT (R170). -/
def execNextWord (p : Fin 1088) (up : Upset) (s : State) : Host.Outcome State Fault Refusal :=
  done (s.endWord p .next up seqNext)

/-- REPEAT (R157). -/
def execRepeatLoop (p : Fin 1088) (count : BitVec 16) (stop : BitVec 14) (up : Upset) (s : State) :
    Host.Outcome State Fault Refusal :=
  done (s.endWord p (.repeatLoop count stop) up (seqRepeat (count.toNat + 1) stop.toNat))

/-- JMP (R173). -/
def execJmp (p : Fin 1088) (target : BitVec 14) (up : Upset) (s : State) : Host.Outcome State Fault Refusal :=
  done (s.endWord p (.jump target) up (seqJump target.toNat))

/-- BR (R170). -/
def execBr (p : Fin 1088) (cond : Fin 16) (target : BitVec 14) (up : Upset) (s : State) : Host.Outcome State Fault Refusal :=
  done (s.endWord p (.branch cond target) up (seqBr cond target.toNat))

/-- COMMIT (R177). -/
def execCommit (p : Fin 1088) (ends : Bool) (target : BitVec 14) (up : Upset) (s : State) : Host.Outcome State Fault Refusal :=
  done (s.commit p ends target up)

/-- TASK_DISPATCH (R172). -/
def execTaskDispatch (p : Fin 1088) (up : Upset) (s : State) : Host.Outcome State Fault Refusal := done (s.dispatch p up)

/-- ROUTINE_RESTART (R179). -/
def execRoutineRestart (p : Fin 1088) (bad : List SharedWord) (up : Upset) (s : State) : Host.Outcome State Fault Refusal :=
  done (s.restart p bad up)

end Sys2Proof.Machine
end

