-- ==== Sys2Proof/Machine/Hands.lean ====
section
/-! DEFINITION. Hands and recovery as the HAND block carries them out: the issue watchdog (R199), joker takeover (R200 to
R203), forced takeovers (R204), the margin and the hiding bound (R205, R206), and late and abandoned deals (R41). -/

namespace Sys2Proof.Machine

/-- An engine in RUN issues no microword for WATCHDOG µs, other than in a wait (R199 item 4). -/
def State.watchdog (s : State) (p : Nat) : State :=
  if s.engState p = esRun ∧ (s.engOf p).stall = none then s.declarePermanent p 4 else s

/-! ### Takeover (R200 to R203) -/

/-- Frame tasks of a program and deal that have ended or been dropped on a leaf. -/
def Leaf.endedOf (x : Leaf) (prog deal : Nat) : Nat :=
  ((x.ended.find? (fun e => decide (e.1 = prog) && decide (e.2.1 = deal))).map (fun e => e.2.2)).getD 0

/-- Whether a leaf still owes work of a deal. -/
def State.leafOwes (s : State) (l n : Nat) : Bool :=
  let x := s.leafOf l
  let running := match (s.engOf (s.fld (HAND_MAP_PHYS l))).task with
    | some d => decide (d.deal = n)
    | none => false
  s.flag (HAND_MAP_VALID l) && decide (s.deal.first ≤ n) && decide (n ∉ x.gone) &&
  (running || x.ring.any (fun d => decide (d.deal = n)) ||
    (s.programsOf l).any (fun g =>
      (decide (g.frameEntry ≠ 0x3FFF) && decide (x.endedOf g.prog n < s.framesPerDeal g)) ||
      (decide (g.dealEntry ≠ 0x3FFF) && decide ((g.prog, n) ∉ x.dealEnd))))

/-- Whether a sibling or partner may still read bank 5 of a logical engine under the XPUB and XWAIT counts (R201): a program of
the leaf publishes, and another member of its trick or gang is served. -/
def State.mayStillRead (s : State) (l : Nat) : Bool :=
  (s.programsOf l).any (fun g => decide (0 < g.xpubF + g.xpubD)) &&
  (s.mates l).any (fun m => decide (m ≠ l) && s.flag (HAND_MAP_VALID m))

/-- One unreadable word outside the preloaded regions: 0, and the hand's deals in progress carry DEGRADED where a sibling may
still read it (R201). -/
def State.takeZero (s : State) (t : Takeover) (w : Nat) : State :=
  let s := s.setEng t.taker ((s.engOf t.taker).repairSram w (List.replicate 8 0))
  if 0x50000 ≤ w ∧ s.mayStillRead t.logical = true then
    let n := s.pair DEAL_NUM
    ((List.range 3).map (fun i => n - i)).foldl (fun s d =>
      if d = n ∨ (s.handLeaves t.logical).any (fun m => s.leafOwes m d) = true then s.degradeHand t.logical d else s) s
  else s

/-- Data SRAM with a range of addresses 0. -/
def Engine.clearSram (e : Engine) (lo hi : Nat) : Engine :=
  let f := fun (c : EngCore) =>
    { c with sram := c.sram.filter (fun x => decide (x.1 < lo) || decide (hi ≤ x.1)),
             memTag := c.memTag.filter (fun g => decide (2 * g < lo) || decide (hi ≤ 2 * g)) }
  { e with pre := f e.pre, cur := f e.cur }

/-- A preloaded region that no engine of the quadrant holds is written as 0 (R201). -/
def State.preloadLost (s : State) (t : Takeover) (r : Nat) : State :=
  let lo := s.fld (ENG_PRELOAD_BASE4K t.taker r) * 4096
  let s := s.setEng t.taker ((s.engOf t.taker).clearSram lo (lo + s.fld (ENG_PRELOAD_LEN4K t.taker r) * 4096))
  let s := (s.handLeaves t.logical).foldl (fun s x => s.setLeaf x { s.leafOf x with always := true }) s
  s.logEvent 0x1105 sevAttention (r <<< 16 + t.taker)

/-- The unreadable words of the failed engine's banks 2 to 5, `bad` (R201): a preloaded word comes from an engine of the same
quadrant that holds the region. -/
def State.takeBad (s : State) (t : Takeover) (bad : List Nat) : State :=
  let words := (bad.filter (fun a => decide (0x20000 ≤ a) && decide (a < 0x60000))).map (fun a => a / 8 * 8)
  let q := clusterOf t.taker / 16
  let held := fun (s : State) (r w : Nat) => s.preloadSource t.taker r w
    (((List.range 272).map (fun i => q * 272 + i)).filter (fun x => decide (x ≠ t.failed)))
  let lost := (List.range 2).filter (fun r => words.any (fun w => decide (s.preloadAt t.taker w = some r) && !held s r w))
  let s := words.foldl (fun s w =>
    match s.preloadAt t.taker w with
    | none => s.takeZero t w
    | some r =>
      if held s r w then s.setEng t.taker ((s.engOf t.taker).repairSram w (s.imageBytes t.taker w)) else s) s
  lost.foldl (fun s r => s.preloadLost t r) s

/-- The words of a section of a mirror as an engine's accumulator store holds them. -/
def sectionOf {α : Type} (l : Nat) (m : List (Nat × α)) : List (Nat × α) :=
  (m.filter (fun x => decide (x.1 / 8192 = l))).map (fun x => (x.1 % 8192, x.2))

/-- Steps 3 to 6 of R200: the taker holds the failed engine's banks, the mirror's accumulator words and control record,
the cluster's result FIFO of the slot, and serves the logical engine. -/
def State.takeUp (s : State) (t : Takeover) : State :=
  let f := s.engOf t.failed
  let m := s.mirrorCtl t.logical
  let c : EngCore := { EngCore.reset with sram := f.pre.sram, memTag := f.pre.memTag, gang := f.pre.gang }
  let e : Engine := { Engine.reset with
    pre := c, cur := c, acc := sectionOf t.logical s.hand.mirror, tag := sectionOf t.logical s.hand.mirTag,
    xstart := m.xstart, task := m.task, fifo := f.fifo, openC := f.openC, drain := f.drain,
    eccAt := (s.engOf t.taker).eccAt, times := (s.engOf t.taker).times, loads := f.loads }
  let e := match m.task with
    | some d => e.enter d
    | none => e
  let s := s.setEng t.failed { f with task := none, fifo := [], openC := none, drain := none, halted := false }
  let s := s.setEng t.taker e
  let s := s.setLeaf t.logical { s.leafOf t.logical with taken := m.ring }
  let s := (List.range 2).foldl (fun s r => s.setReg (ENG_PRELOAD t.taker r).addr (s.reg (ENG_PRELOAD t.failed r).addr)) s
  let s := ((s.setFld (ENG_ID_LOGICAL t.taker) t.logical).setFld (ENG_ID_ACTIVE t.taker) 1).setFld
    (ENG_XCNT_XCNT t.taker) m.xcnt
  let s := s.setFld (ENG_STAT_STATE t.taker) (if m.task.isSome then esRun else esIdle)
  let joker := decide (t.taker = jokerOf (clusterOf t.taker))
  let s := ((s.setFld (HAND_MAP_PHYS t.logical) t.taker).setFld (HAND_MAP_VALID t.logical) 1).setFld
    (HAND_MAP_PENDING t.logical) 0
  s.setFld (HAND_MAP_SUB t.logical) (b2n joker)

/-- What the HAND block records of a completed substitution (R202, R213). A forced one lasts until a full reset: the joker map
does not keep it (R204). -/
def State.noteTakeover (s : State) (t : Takeover) (ns : Nat) : State :=
  let s := (s.addSat HAND_SUB_COUNT_COUNT 1).maxFld HAND_TAKEOVER_MAX_NS ns
  let s := s.setFld HAND_SUB_COUNT_IN_USE (s.fld HAND_SUB_COUNT_IN_USE + 1)
  let s := s.setFld HAND_STAT_SUB 1
  let s := if t.cause = 5 then s else { s with hand := { s.hand with jmapQ := s.hand.jmapQ ++ [t.failed] } }
  s.logEvent 0x1101 sevAttention (t.cause <<< 27 + t.taker <<< 16 + t.failed)

/-- A takeover completes: the substitute issues its first microword (R200 step 6). `bad` names the words of banks 2 to 5
that could not be read, `shared` those of the cluster's shared memories, which lose the interrupted task (R198). A joker that
still holds another engine's work gives that back first (R203). -/
def State.takeoverDone (s : State) (l ns : Nat) (bad : List Nat) (shared : List SharedWord) : State :=
  match s.hand.takeover.find? (fun t => decide (t.logical = l)) with
  | none => s
  | some t =>
    if s.hand.takeover.any (fun x => decide (x.failed = t.taker)) then s
    else
      let s := { s with hand := { s.hand with takeover := s.hand.takeover.filter (fun x => decide (x.logical ≠ l)) } }
      let s := s.takeUp t
      let s := s.takeBad t bad
      let s := shared.foldl (fun s x => (s.dropTask t.taker).sharedWord t.taker (x.res + 1) x.word) s
      let s := if t.cause = 0 then s else s.noteTakeover t ns
      let s := s.setFld HAND_STAT_STANDIN (b2n !s.hand.standin.isEmpty)
      if (s.engOf t.taker).task.isSome then s.fetch t.taker .clean else s

/-- HAND_FORCE is written (R204): with GO, a logical engine whose cluster's joker is not GATED, or that no engine serves, is
left as it is, and the write is ignored. -/
def State.handForceWrite (s : State) (v : Word) : State :=
  let l := v.toNat % 1024
  let p := s.fld (HAND_MAP_PHYS l)
  if v.getLsbD 31 = false then s.setFld HAND_FORCE_LOGICAL l
  else if s.fld (HAND_CLU_JSTATE (clusterOf p)) ≠ 0 ∨ s.flag (HAND_MAP_VALID l) = false then s.ignored HAND_FORCE.addr
  else ((s.setFld HAND_FORCE_LOGICAL l).logEvent 0x1107 sevInfo l).declarePermanent p 5

/-! ### Margin (R205, R206) -/

/-- A leaf's margin M in ns, clipped at 0 (R205). -/
def State.leafMargin (s : State) (l : Nat) : Nat :=
  let ps := s.programsOf l
  let gap := match ps.map (fun g => (g.wlen : Int) - g.hop) with
    | [] => 0
    | x :: t => t.foldl max x
  let work := (ps.map (fun g => g.f + g.p)).sum
  let n := s.nsps
  if n = 0 then 0
  else ((((s.dealLen : Int) - gap) * 3200000000000) - ((n * 5 * work : Nat) : Int)).toNat / (8 * n)

/-- A node's margin: the smallest of its leaves' (R205). -/
def State.nodeMargin (s : State) (i : Nat) : Nat :=
  match (s.leavesOf i).map s.leafMargin with
  | [] => 0
  | m :: t => t.foldl min m

/-- The hiding bound H in ns (R206). -/
def State.hidingBound (s : State) : Nat := (101 + s.fld HAND_CFG_WATCHDOG) * 1000

/-- MARGIN_LOW: some hand has M < H (R206). -/
def State.judgeMargin (s : State) : State :=
  s.setFld HAND_STAT_MARGIN_LOW (b2n (decide (s.fld HAND_MARGIN_MIN_NS < s.hidingBound)))

/-- HAND_CFG is written: a limit of 0 is refused and recorded at INFO (R214, R551); otherwise MARGIN_LOW is judged again
(R206). -/
def State.handCfg (s : State) (v : Word) : State :=
  if wordBits v 8 4 = 0 ∨ wordBits v 0 8 = 0 then s.ignored HAND_CFG.addr
  else
    ((s.setFld HAND_CFG_RATE_LIMIT (wordBits v 16 8)).setFld HAND_CFG_CONSEC_LIMIT (wordBits v 8 4)).setFld
      HAND_CFG_WATCHDOG (wordBits v 0 8) |>.judgeMargin

/-! ### Late and abandoned deals (R41) -/

/-- The leaves of the hand whose leader is a logical engine. -/
def State.handOf (s : State) (leader : Nat) : List Nat := s.handLeaves leader

/-- At tick n + 2 a hand is unfinished with deal n: its records carry LATE (R41). -/
def State.workLate (s : State) (leader n : Nat) : State :=
  let ls := s.handOf leader
  if s.pair DEAL_NUM < n + 2 ∨ ls.all (fun l => !s.leafOwes l n) = true then s
  else
    let known := decide (n ∈ s.deal.lateDeals) || (List.range 1024).any (fun l => decide (n ∈ (s.leafOf l).late))
    let s := s.setFld DEAL_STAT_WORK_LATE 1
    let s := if known then s else s.addSat DEAL_LATE_COUNT_COUNT 1
    ls.foldl (fun s l =>
      let x := s.leafOf l
      if n ∈ x.late then s else s.setLeaf l { x with late := x.late ++ [n] }) s

/-- One leaf abandons a deal: its running task, its ready tasks and the tasks not yet ready are dropped (R41, R179). -/
def State.abandonLeaf (s : State) (l n : Nat) : State :=
  let s := s.setLeaf l { s.leafOf l with gone := (s.leafOf l).gone ++ [n] }
  let p := s.fld (HAND_MAP_PHYS l)
  let s := match (s.engOf p).task with
    | some d => if d.deal = n then s.dropTask p else s
    | none => s
  let s := ((s.leafOf l).ring.filter (fun d => decide (d.deal = n))).foldl (fun s d => s.dropReady l d) s
  (s.programsOf l).foldl (fun s g =>
    let per := s.framesPerDeal g
    let done := (s.leafOf l).endedOf g.prog n
    let s := if g.frameEntry = 0x3FFF then s
      else (List.range (per - done)).foldl (fun s i => s.dropReady l (s.frameTask l g (n * per + done + i))) s
    if g.dealEntry = 0x3FFF ∨ (g.prog, n) ∈ (s.leafOf l).dealEnd then s else s.dropReady l (s.dealTask l g n)) s

/-- At tick n the DEAL tasks of deal n − 1 become ready for programs that have no FRAME task (R172). -/
def State.dealOnlyTasks (s : State) (n : Nat) : State :=
  if s.img.programs.any (fun g => decide (g.frameEntry = 0x3FFF)) && decide (s.deal.first < n) then
    (List.range 1024).foldl (fun s l =>
      if s.flag (HAND_MAP_VALID l) then
        ((s.programsOf l).filter (fun g => decide (g.frameEntry = 0x3FFF))).foldl (fun s g => s.dealReady l g.prog (n - 1)) s
      else s) s
  else s

/-! ### Meanings -/

/-- ISSUE_WATCHDOG (R199). -/
def execIssueWatchdog (p : Fin 1088) (s : State) : Host.Outcome State Fault Refusal := done (s.watchdog p)

/-- TAKEOVER_COMPLETE (R200). -/
def execTakeoverComplete (l : Fin 1024) (ns : Nat) (bad : List Nat) (shared : List SharedWord) (s : State) :
    Host.Outcome State Fault Refusal :=
  done (s.takeoverDone l ns bad shared)

/-- HAND_FORCE (R204). -/
def execHandForce (v : Word) (s : State) : Host.Outcome State Fault Refusal := done (s.handForceWrite v)

/-- HAND_CFG_WRITE (R206). -/
def execHandCfgWrite (v : Word) (s : State) : Host.Outcome State Fault Refusal := done (s.handCfg v)

/-- DEAL_WORK_LATE (R41). -/
def execDealWorkLate (leader : Fin 1024) (deal : Nat) (s : State) : Host.Outcome State Fault Refusal :=
  done (s.workLate leader deal)

end Sys2Proof.Machine
end

