-- ==== Sys2Proof/Machine/Records.lean ====
section
/-! DEFINITION. The record header (R387 to R389) and the frames that carry records (R384, R385): header bytes, flags, gap
spans, checksums. -/

namespace Sys2Proof.Machine

/-! ### The record header -/

/-- FLAGS bits (R388). -/
def flOvf : Nat := 1

/-- LATE. -/
def flLate : Nat := 2

/-- TIME_STEP. -/
def flStep : Nat := 4

/-- DEGRADED. -/
def flDegr : Nat := 8

/-- GAP. -/
def flGap : Nat := 16

/-- TRUNC. -/
def flTrunc : Nat := 32

/-- CLASS_W. -/
def flClassW : Nat := 64

/-- A flag when a condition holds. -/
def flagIf (b : Bool) (f : Nat) : Nat := if b then f else 0

/-- What a record's header states beyond what every record has (R387). -/
structure RecHead where
  ty      : Nat
  flags   : Nat
  product : Nat
  input   : Nat
  channel : Nat
  logical : Nat
  member  : Nat
  block   : Nat
  part    : Nat
  deal    : Nat
  /-- The timestamp's instant in 1/65,536 sample. -/
  pos     : Int
  /-- GAP_FIRST and GAP_COUNT that the record itself states (R388). -/
  gap     : Option (Nat × Nat)
  /-- The unit of the gap span is raw samples from the deal's first sample. -/
  rawGap  : Bool
  deriving DecidableEq, Repr

/-- The span of a deal that sample-clock relocks cover: its first raw sample from the deal's first, and its length (R344). -/
def State.ssynSpan (s : State) (n : Nat) : Option (Nat × Nat) :=
  let a := s.dealRaw n
  let b := s.dealRaw (n + 1)
  let live := match s.clk.released with
    | some g => if s.flag CONV_CLK_SRC then [(g, s.rawNow)] else []
    | none => []
  let spans := ((live ++ s.clk.gaps).map (fun g => (max g.1 a, min g.2 b))).filter (fun g => decide (g.1 < g.2))
  match spans with
  | [] => none
  | g :: t =>
    let lo := t.foldl (fun m x => min m x.1) g.1
    let hi := t.foldl (fun m x => max m x.2) g.2
    some ((lo - a).toNat, (hi - lo).toNat)

/-- The span from the earliest start to the latest end of two (R388). -/
def joinSpans : Option (Nat × Nat) → Option (Nat × Nat) → Option (Nat × Nat)
  | none, x => x
  | x, none => x
  | some (a, m), some (b, n) => some (min a b, max (a + m) (b + n) - min a b)

/-- Zero bytes. -/
def zeros (n : Nat) : List Byte := List.replicate n 0

/-- Pad with zeros to a multiple of 8 bytes (R387). -/
def pad8 (bs : List Byte) : List Byte := bs ++ zeros ((8 - bs.length % 8) % 8)

/-- A record: header and payload (R387). After a die-level failure at boot every record carries DEGRADED (R503); every record
of a deal whose tick applied an amendment after its target carries LATE (R58). -/
def State.record (s : State) (h : RecHead) (payload : List Byte) : List Byte :=
  let body := pad8 payload
  let ssyn := if 0x09 ≤ h.ty ∧ h.ty ≤ 0x0B then none else s.ssynSpan h.deal
  let span := if h.rawGap then joinSpans h.gap ssyn else h.gap
  let step := s.stepOf h.deal
  let flags := h.flags ||| flagIf (decide (h.deal ∈ s.deal.lateDeals)) flLate ||| flagIf s.test.dieFail flDegr ||| flagIf step.isSome flStep ||| flagIf (span.isSome || ssyn.isSome) flGap
  leBytes 4 0x4B525652 ++ leBytes 1 h.ty ++ leBytes 1 1 ++ leBytes 2 flags ++ leBytes 4 (64 + body.length) ++
  leBytes 1 h.product ++ leBytes 1 h.input ++ leBytes 2 h.channel ++ leBytes 2 h.logical ++ leBytes 1 h.member ++
  leBytes 1 h.block ++ leBytes 4 h.part ++ leBytes 8 h.deal ++ s.stampBytes h.deal h.pos ++
  leBytes 8 (ofSigned 64 (step.getD 0)) ++ leBytes 4 (span.getD (0, 0)).1 ++ leBytes 4 (span.getD (0, 0)).2 ++ body

/-- A header without product and source fields. -/
def plainHead (ty block part deal : Nat) (pos : Int) : RecHead :=
  { ty := ty, flags := 0, product := 0xFF, input := 0xFF, channel := 0xFFFF, logical := 0xFFFF, member := 0, block := block,
    part := part, deal := deal, pos := pos, gap := none, rawGap := false }

/-- Whether a path crosses a die link whose failure flags what crosses it, from the tick after the failure on (R16). -/
def State.crossesFailed (s : State) (ls : List Nat) : Bool := ls.any (fun l => bitOf s.linkDegr l)

/-- Records of a deal are emitted: those of the deal that a lost sample clock left incomplete are not (R71). -/
def State.emitted (s : State) (n : Nat) : Bool := !(s.deal.stopped && decide (s.pair DEAL_NUM ≤ n))

/-! ### Frames (R384) -/

/-- One bit step of the Ethernet CRC-32, reflected. -/
def fcsStep (c : BitVec 32) : BitVec 32 := if c.getLsbD 0 then (c >>> 1) ^^^ 0xEDB88320#32 else c >>> 1

/-- One byte step of the Ethernet CRC-32. -/
def fcsByte (c : BitVec 32) (b : Byte) : BitVec 32 :=
  fcsStep (fcsStep (fcsStep (fcsStep (fcsStep (fcsStep (fcsStep (fcsStep (c ^^^ b.setWidth 32))))))))

/-- The frame check sequence of IEEE 802.3, in the order sent. -/
def fcs (bs : List Byte) : List Byte := leBytes 4 ((bs.foldl fcsByte 0xFFFFFFFF#32) ^^^ 0xFFFFFFFF#32).toNat

/-- The sum of big-endian 16-bit words, an odd last byte padded with zero. -/
def sum16 : List Byte → Nat
  | [] => 0
  | [a] => 256 * a.toNat
  | a :: b :: t => 256 * a.toNat + b.toNat + sum16 t

/-- The internet checksum: the complement of the ones' complement sum. -/
def inetSum (bs : List Byte) : Nat :=
  let x := sum16 bs
  let x := x % 65536 + x / 65536
  let x := x % 65536 + x / 65536
  65535 - (x % 65536 + x / 65536)

/-- The IPv4 header (R384). -/
def ipHeader (dscp src dst len : Nat) : List Byte :=
  let h := fun (sum : Nat) =>
    beBytes 1 0x45 ++ beBytes 1 (4 * dscp) ++ beBytes 2 (20 + len) ++ beBytes 2 0 ++ beBytes 2 0x4000 ++ beBytes 1 64 ++
    beBytes 1 17 ++ beBytes 2 sum ++ beBytes 4 src ++ beBytes 4 dst
  h (inetSum (h 0))

/-- The UDP datagram with its checksum, sent as 0xFFFF when it computes to 0 (R384). -/
def udpDatagram (src dst sport dport : Nat) (data : List Byte) : List Byte :=
  let len := 8 + data.length
  let pseudo := beBytes 4 src ++ beBytes 4 dst ++ beBytes 1 0 ++ beBytes 1 17 ++ beBytes 2 len
  let h := fun (sum : Nat) => beBytes 2 sport ++ beBytes 2 dport ++ beBytes 2 len ++ beBytes 2 sum ++ data
  let sum := inetSum (pseudo ++ h 0)
  h (if sum = 0 then 0xFFFF else sum)

/-- A frame from destination MAC through FCS (R384). -/
def etherFrame (dmac smac dscp src dst sport dport : Nat) (data : List Byte) : List Byte :=
  let udp := udpDatagram src dst sport dport data
  let body := beBytes 6 dmac ++ beBytes 6 smac ++ beBytes 2 0x0800 ++ ipHeader dscp src dst udp.length ++ udp
  body ++ fcs body

end Sys2Proof.Machine
end

