-- ==== Sys2Proof/Machine/KitQueue.lean ====
section
/-! DEFINITION. The kitty queue (R405 to R408, R410): entries in and out, the pointers and KITTY_HOLD, and discards. -/

namespace Sys2Proof.Machine

/-- Tag kinds (R405). -/
def kitIdle : Nat := 0

/-- A full entry that does not end its packet. -/
def kitData : Nat := 1

/-- The last entry of its packet. -/
def kitEnd : Nat := 2

/-- The last entry of a packet ended by R408. -/
def kitCut : Nat := 3

/-- An entry's tag from its kind and valid bytes. -/
def kitTag (kind vbytes : Nat) : Nat := 64 * kind + vbytes

/-- An entry's kind. -/
def KitEntry.kind (e : KitEntry) : Nat := e.tag / 64 % 4

/-- Entries in the queue (R406). -/
def State.kitLevel (s : State) : Nat := s.kit.queue.length

/-- Whether the queue is full (R406). -/
def State.kitFull (s : State) : Bool := decide (2048 ≤ s.kitLevel)

/-- The occupancy and KITTY_HOLD are shown (R407, R413); until the first deal tick the pin stays asserted (R463, R468). -/
def State.kitShow (s : State) : State :=
  let n := s.kitLevel
  let s := (s.setFld KIT_LEVEL_CUR n).maxFld KIT_LEVEL_MAX n
  let hold := if s.fld KIT_WM_HWM ≤ n then true else if n ≤ s.fld KIT_WM_LWM then false else s.flag KIT_STAT_HOLD
  let s := s.setFld KIT_STAT_HOLD (b2n hold)
  { s with pins := { s.pins with kittyHold := hold || !s.pins.ready } }

/-- One entry of a dropped packet is discarded (R410). -/
def State.kitCountDrop (s : State) : State := (s.addSat KIT_DROP_ENTRIES_COUNT 1).setFld KIT_STAT_DROPPED 1

/-- The packet being discarded, and the bit that shows it. -/
def State.setDrop (s : State) (p : Option Nat) : State :=
  { s with kit := { s.kit with drop := p } }.setFld KIT_CTL_DROP (b2n p.isSome)

/-- An entry is written (R405, R406), or discarded when its packet is being dropped (R410). -/
def State.kitWrite (s : State) (e : KitEntry) : State :=
  if s.kit.drop = some e.pkt then
    let s := s.kitCountDrop
    if e.kind = kitData then s else s.setDrop none
  else
    let s := { s with kit := { s.kit with queue := s.kit.queue ++ [e] } }
    let s := s.setFld KIT_PTR_WR ((s.fld KIT_PTR_WR + 1) % 4096)
    let s := if e.kind = kitCut then (s.setFld KIT_STAT_CUT 1).logEvent 0x0B02 sevInfo e.pkt else s
    s.kitShow

/-- A CUT entry that waits for a slot is written when one is free (R408). -/
def State.kitRelease (s : State) : State :=
  match s.kit.held with
  | some e => if s.kitFull then s else { s with kit := { s.kit with held := none } }.kitWrite e
  | none => s

/-- The oldest entry leaves the queue. -/
def State.kitTake (s : State) : State :=
  let s := { s with kit := { s.kit with queue := s.kit.queue.tail } }
  (s.setFld KIT_PTR_RD ((s.fld KIT_PTR_RD + 1) % 4096)).kitShow

/-- The consumer pops an entry, if there is one (R409). -/
def State.kitPop (s : State) : State × Option KitEntry :=
  match s.kit.queue with
  | [] => ({ s with kit := { s.kit with last := none } }, none)
  | e :: _ =>
    let s := s.kitTake
    let s := { s with kit := { s.kit with last := if e.kind = kitData then some e.pkt else none } }
    (s.kitRelease, some e)

/-- The queued entries of a packet at the head are discarded up to its last one; whether that one was found. -/
def State.kitPurge (s : State) (p : Nat) : List KitEntry → State × Bool
  | [] => (s, false)
  | e :: t =>
    if e.pkt = p then
      let s := s.kitTake.kitCountDrop
      if e.kind = kitData then State.kitPurge s p t else (s, true)
    else (s, true)

/-- The rest of a packet is discarded (R410). -/
def State.kitDiscard (s : State) (p : Nat) : State :=
  let (s, found) := s.kitPurge p s.kit.queue
  let s := { s with kit := { s.kit with last := none } }
  let s := s.setDrop (if found then none else some p)
  s.kitRelease

/-- The 32 bytes of an entry from its words (R405). -/
def kitBytes (ws : List Nat) : List Byte := (List.range 16).flatMap (fun i => leBytes 2 (ws.getD i 0))

/-- The entry under construction, with a kind. -/
def State.kitEntry (s : State) (p kind : Nat) : KitEntry :=
  { data := kitBytes s.kit.words, tag := kitTag kind (2 * s.kit.words.length), pkt := p }

end Sys2Proof.Machine
end

