-- ==== Sys2Proof/Machine/Eth.lean ====
section
/-! DEFINITION. Streaming: links (R378 to R380), streams and their settings (R383, R386), queues, spill and drops (R400 to
R403), packets (R384, R385, R398), STAT and GAP records (R393, R394, R402), raw blocks (R390) and VDIF (R395 to R397). -/

namespace Sys2Proof.Machine

/-! ### Streams and their settings -/

/-- A stream. -/
def State.streamAt (s : State) (p st : Nat) : Stream := instGet .reset s.eth.streams (p * 64 + st)

/-- Change a stream. -/
def State.setStream (s : State) (p st : Nat) (x : Stream) : State :=
  { s with eth := { s.eth with streams := instSet .reset s.eth.streams (p * 64 + st) x } }

/-- Stream kinds (R383). -/
def kindProduct : Nat := 0

/-- Segments of a zoom chain. -/
def kindZoom : Nat := 1

/-- Raw samples of an input. -/
def kindRaw : Nat := 2

/-- Capture descriptors. -/
def kindCapt : Nat := 3

/-- Kitty packets. -/
def kindKitty : Nat := 4

/-- The port's own status. -/
def kindStatus : Nat := 5

/-- The settings of a stream that an amendment may change, as the registers hold them (R386). -/
def State.destNow (s : State) (p st : Nat) : Dest :=
  { en := s.flag (ETHP_CFG_EN p) && s.flag (ETH_S_CFG_EN p st), mac := s.pair (ETH_S_DST_MAC p st) % 2 ^ 48,
    ip := s.fld (ETH_S_DST_IP_ADDR p st), dst := s.fld (ETH_S_UDP_DST p st), src := s.fld (ETH_S_UDP_SRC p st) }

/-- The settings that a record of deal `n` uses (R386). -/
def State.destFor (s : State) (p st n : Nat) : Dest :=
  match (s.streamAt p st).dests.find? (fun d => decide (d.1 ≤ n)) with
  | some d => d.2
  | none => s.destNow p st

/-- At tick n, settings that changed hold from deal n on (R386). -/
def State.ethTick (s : State) (n : Nat) : State :=
  (List.range 128).foldl (fun s i =>
    let p := i / 64
    let st := i % 64
    let d := s.destNow p st
    let x := s.streamAt p st
    match x.dests with
    | [] => if d.en then s.setStream p st { x with dests := [(n, d), (0, .none)] } else s
    | (_, e) :: _ =>
      if e = d then s
      else s.setStream p st { x with
        dests := ((n, d) :: x.dests).take 512, gone := if e.en = d.en then x.gone else none }) s

/-- The link of a stream: link 0 in mode 0 (R378). -/
def State.linkOf (s : State) (p st : Nat) : Nat := if s.flag (ETHP_CFG_MODE p) then s.fld (ETH_S_CFG_LINK p st) else 0

/-- Link states (R380). -/
def linkDown : Nat := 0

/-- Aligning. -/
def linkAlign : Nat := 1

/-- Up. -/
def linkUp : Nat := 2

/-- Whether a stream's link is UP. -/
def State.streamUp (s : State) (p st : Nat) : Bool := decide (s.fld (ETH_L_STAT_STATE p (s.linkOf p st)) = linkUp)

/-- Whether a stream is on, now. -/
def State.streamOn (s : State) (p st : Nat) : Bool := (s.destNow p st).en

/-- The streams of a kind. -/
def State.streamsOf (s : State) (kind : Nat) (ok : Nat → Nat → Bool) : List (Nat × Nat) :=
  ((List.range 128).map (fun i => (i / 64, i % 64))).filter (fun x =>
    s.flag (ETHP_CFG_EN x.1) && decide (s.fld (ETH_S_CFG_KIND x.1 x.2) = kind) && ok x.1 x.2)

/-! ### The rate check (R399) -/

/-- The first link whose enabled streams' RATE sums to more than its rate, of a set of register values. -/
def overRate (get : Nat → Word) : Option (Nat × Nat) :=
  let f := fun (x : Field) => wordBits (get x.addr) x.lo x.width
  ((List.range 8).map (fun i => (i / 4, i % 4))).find? (fun x =>
    let four := decide (f (ETHP_CFG_MODE x.1) = 1)
    let sum := ((List.range 64).map (fun st =>
      let link := if four then f (ETH_S_CFG_LINK x.1 st) else 0
      if f (ETH_S_CFG_EN x.1 st) = 1 ∧ link = x.2 then f (ETH_S_RATE_MBPS x.1 st) else 0)).sum
    decide (f (ETHP_CFG_EN x.1) = 1) && decide ((if four then 100000 else 400000) < sum))

/-! ### Drops (R401, R402) -/

/-- The bytes in a port's egress store (R400). -/
def State.storeBytes (s : State) (p : Nat) : Nat :=
  ((List.range 64).map (fun st =>
    ((s.streamAt p st).queue.map (fun (q : QRec) => if q.spill.isSome then 0 else q.size)).sum)).sum

/-- The bytes in a port's spill buffer. -/
def State.spillBytes (s : State) (p : Nat) : Nat :=
  ((s.eth.spill.filter (fun x => decide (x.1 = p))).map (fun x => x.2.2.2)).sum

/-- The occupancies are shown (R411). -/
def State.showStore (s : State) (p : Nat) : State :=
  (s.setFld (ETHP_STAT_STORE_KIB p) (ceilDiv (s.storeBytes p) 1024)).setFld (ETHP_SPILL_KIB p) (ceilDiv (s.spillBytes p) 1024)

/-- Two drops not yet reported, together. -/
def GapAcc.join (a b : GapAcc) : GapAcc :=
  { cause := a.cause ||| b.cause, records := a.records + b.records, bytes := a.bytes + b.bytes, first := a.first,
    last := b.last, rseq := a.rseq }

/-- A record is dropped: counters, status, event, and the report to come (R401, R402). -/
def State.countDrop (s : State) (p st cause size deal rseq : Nat) (vdif : Bool) : State :=
  let cause := cause ||| (if s.streamUp p st then 0 else 4)
  let x := s.streamAt p st
  let g : GapAcc := { cause := cause, records := 1, bytes := size, first := deal, last := deal, rseq := rseq }
  let g := match x.gap with
    | some h => h.join g
    | none => g
  let silent := vdif && !s.flag (ETHP_CFG_SS_EN p)
  let s := s.setStream p st { x with
    dropped := x.dropped + 1, lostB := x.lostB + size, gap := if silent then x.gap else some g }
  let s := (s.addSat (ETH_S_DROPPED_COUNT p st) 1).addSat (ETHP_DROPPED_COUNT p) 1
  (s.stick ETH_STAT_DROP p).logEvent 0x0A03 sevInfo (p <<< 8 + st)

/-- The rest of a kitty packet goes with a dropped KITTY record before its end (R401). -/
def State.dropKitty (s : State) (p st : Nat) (k : Option (Nat × Bool)) : State :=
  match k with
  | some (n, true) =>
    let x := s.streamAt p st
    let keeps : QRec → Bool := fun q => decide (q.kpkt.map (fun (k : Nat × Bool) => k.1) ≠ some n) || decide (0 < q.sent)
    let gone : List Nat := (x.queue.filter (fun q => !keeps q)).filterMap (fun q => q.spill)
    let s : State := s.setStream p st { x with queue := x.queue.filter keeps }
    let s : State := { s with eth := { s.eth with spill := s.eth.spill.filter (fun e => !(decide (e.1 = p) && decide (e.2.2.1 ∈ gone))) } }
    if s.kit.last = some n then
      { s with kit := { s.kit with acc := [] } }.kitDiscard n
    else s
  | _ => s

/-- A queued record leaves its queue without being sent; a GAP record, which is never dropped, gives its counts back to the next
one of its stream (R402). -/
def State.dropQueued (s : State) (p st : Nat) (q : QRec) (cause : Nat) : State :=
  let x := s.streamAt p st
  let s := s.setStream p st { x with queue := x.queue.erase q }
  let s : State := match q.spill with
    | some o => { s with eth := { s.eth with spill := s.eth.spill.filter (fun e => !(decide (e.1 = p) && decide (e.2.2.1 = o))) } }
    | none => s
  match q.gap with
  | some (r, g) =>
    let y := s.streamAt p r
    let g := match y.gap with
      | some h => g.join h
      | none => g
    (s.setStream p r { y with gap := some g }).showStore p
  | none => ((s.countDrop p st cause q.size q.deal q.rseq q.vdif).dropKitty p st q.kpkt).showStore p

/-- Whether a record is too old (R401). -/
def State.tooOld (s : State) (p : Nat) (q : QRec) : Bool :=
  q.gap.isNone && decide (q.deal + s.fld (ETHP_CFG_AGE p) < s.pair DEAL_NUM)

/-- The age test at the head of a queue (R401 case 2): records dropped one after another. -/
def State.ageHead (s : State) (p st : Nat) : Nat → State
  | 0 => s
  | n + 1 =>
    match (s.streamAt p st).queue with
    | q :: _ => if s.tooOld p q && decide (q.sent = 0) then State.ageHead (s.dropQueued p st q 2) p st n else s
    | [] => s

/-- The age test of a stream's head, and of what comes to the head after it. -/
def State.ageTest (s : State) (p st : Nat) : State := s.ageHead p st ((s.streamAt p st).queue.length + 1)

/-! ### Entry into a queue (R400) -/

/-- A port's spill region: base offset and bytes, as far as it lies within the installed capacity (R400, R403). -/
def State.spillRegion (s : State) (p : Nat) : Nat × Nat :=
  match s.img.regions.find? (fun r => decide (r.1 = 10 + p)) with
  | some (_, base, size) =>
    let o := base - sdramBase
    (o, min size (s.capacity - o))
  | none => (0, 0)

/-- Where in spill a record would go: after the last one, or at the base where it would cross the end; none where it would
overwrite a record not yet read back (R400). -/
def State.spillPlace (s : State) (p len : Nat) : Option Nat :=
  let size := (s.spillRegion p).2
  let at' := instGet 0 s.eth.spillAt p
  let o := if at' + len ≤ size then at' else 0
  let free := s.eth.spill.all (fun e =>
    decide (e.1 ≠ p) || decide (o + len ≤ e.2.2.1) || decide (e.2.2.1 + e.2.2.2 ≤ o))
  if len ≤ size ∧ free = true then some o else none

/-- A record enters its stream's queue: in the store, in spill, or not at all (R400). -/
def State.enter? (s : State) (p st : Nat) (q : QRec) : Option State :=
  let x := s.streamAt p st
  let put := fun (s : State) (q : QRec) => s.setStream p st { x with queue := x.queue ++ [q] }
  let inSpill := x.queue.any (fun (r : QRec) => r.spill.isSome)
  if !inSpill && decide (s.storeBytes p + q.size ≤ 67108864) then some ((put s q).showStore p)
  else
    match s.spillPlace p q.size with
    | some o =>
      let s := s.sdWrite (sdramBase + (s.spillRegion p).1 + o) q.bytes
      let s := { s with eth := { s.eth with
        spill := s.eth.spill ++ [(p, st, o, q.size)], spillAt := instSet 0 s.eth.spillAt p (o + q.size) } }
      some ((put s { q with bytes := [], spill := some o }).showStore p)
    | none => none

/-- A record is offered to a stream: it takes its RSEQ, and is dropped where neither the store nor spill has room (R400,
R401 case 1). A record at the head is tested for age (R401 case 2). -/
def State.offer (s : State) (p st : Nat) (bytes : List Byte) (deal : Nat) (dest : Dest) (vdif : Bool)
    (kpkt : Option (Nat × Bool)) : State :=
  let x := s.streamAt p st
  let s := s.setStream p st { x with rseq := (x.rseq + 1) % 2 ^ 32 }
  let q : QRec :=
    { bytes := bytes, spill := none, size := bytes.length, deal := deal, rseq := x.rseq, dest := dest, sent := 0,
      vdif := vdif, gap := none, kpkt := kpkt }
  match s.enter? p st q with
  | some t => t.ageTest p st
  | none => (s.countDrop p st 1 q.size deal q.rseq vdif).dropKitty p st kpkt

/-- A record with a deal number goes to a stream that is on for that deal (R386), unless the deal stays incomplete (R71). -/
def State.offerDeal (s : State) (p st n : Nat) (bytes : List Byte) (vdif : Bool) : State :=
  let d := s.destFor p st n
  if d.en && s.emitted n then s.offer p st bytes n d vdif none else s

/-! ### GAP and STAT records (R393, R394, R402) -/

/-- The stream that reports a stream's drops: the stream itself, or the port's STATUS stream for a VDIF stream. -/
def State.gapStream (s : State) (p st : Nat) : Option Nat :=
  if s.flag (ETH_S_CFG_VDIF p st) then (if s.flag (ETHP_CFG_SS_EN p) then some (s.fld (ETHP_CFG_SSTREAM p)) else none)
  else some st

/-- The GAP record of a stream's drops (R394). -/
def State.gapBytes (s : State) (st : Nat) (g : GapAcc) : List Byte :=
  let h := { plainHead 0x0B 0x0A 0 g.last (65536 * s.dealRaw g.last) with gap := some (0, g.records % 2 ^ 32) }
  s.record h (leBytes 1 st ++ leBytes 1 g.cause ++ leBytes 2 0 ++ leBytes 4 g.records ++ leBytes 8 g.bytes ++
    leBytes 8 g.first ++ leBytes 8 g.last ++ leBytes 4 g.rseq ++ leBytes 4 0)

/-- A GAP record is emitted when it can enter; else its counts go into the next (R402). -/
def State.emitGap (s : State) (p st : Nat) : State :=
  match (s.streamAt p st).gap, s.gapStream p st with
  | some g, some r =>
    let x := s.streamAt p r
    let q : QRec :=
      { bytes := s.gapBytes st g, spill := none, size := 104, deal := g.last, rseq := x.rseq, dest := s.destNow p r,
        sent := 0, vdif := false, gap := some (st, g), kpkt := none }
    if !s.streamOn p r then s
    else
      match (s.setStream p r { x with rseq := (x.rseq + 1) % 2 ^ 32 }).enter? p r q with
      | some t => t.setStream p st { t.streamAt p st with gap := none }
      | none => s
  | _, _ => s

/-- The STAT payload of a port (R393). -/
def State.statBytes (s : State) (p : Nat) : List Byte :=
  let dev := b2n s.pins.fault + 2 * b2n (s.flag TIME_STAT_REF_LOST) + 4 * b2n (s.flag MEMC_STAT_DEG) +
    8 * b2n (s.flag DEAL_STAT_CLASS_W) + 16 * b2n (s.flag TIME_STAT_EPOCH_SET)
  leBytes 1 p ++ leBytes 1 (s.fld (ETHP_STAT_UP p)) ++ leBytes 2 dev ++ leBytes 4 (s.fld (ETHP_STAT_STORE_KIB p)) ++
  leBytes 4 (s.fld (ETHP_SPILL_KIB p)) ++ leBytes 2 (s.fld TIME_X0_FRAC_FRAC) ++ zeros 18 ++
  (List.range 64).flatMap (fun st =>
    let x := s.streamAt p st
    leBytes 8 x.sent ++ leBytes 4 (min x.dropped (2 ^ 32 - 1)) ++ leBytes 4 (min (x.lostB / 1024) (2 ^ 32 - 1)))

/-- A STAT record is due: once at a tick whose deal number STATP divides (R393). -/
def State.emitStat (s : State) (p : Nat) : State :=
  let n := s.pair DEAL_NUM
  let st := s.fld (ETHP_CFG_SSTREAM p)
  let per := s.fld (ETHP_CFG_STATP p)
  if s.deal.running && s.flag (ETHP_CFG_SS_EN p) && decide (per ≠ 0) && decide (n % per = 0) && s.streamOn p st &&
      decide (instGet 0 s.eth.statAt p ≤ n) then
    { s with eth := { s.eth with statAt := instSet 0 s.eth.statAt p (n + 1) } }.offer p st (s.record (plainHead 0x0A 0x0A 0 n (65536 * s.dealRaw n)) (s.statBytes p)) n (s.destNow p st) false none
  else s

/-! ### Spill (R400, R401, R403) -/

/-- The record that is read back next from a port's spill buffer: stream, and the record. -/
def State.nextSpilled (s : State) (p : Nat) : Option (Nat × QRec) :=
  match s.eth.spill.find? (fun e => decide (e.1 = p)) with
  | some (_, st, o, _) => ((s.streamAt p st).queue.find? (fun (q : QRec) => decide (q.spill = some o))).map (fun q => (st, q))
  | none => none

/-- The oldest spilled record of a port is read back, or dropped where an uncorrectable error is found at a byte of it. -/
def State.readBack (s : State) (p : Nat) (ue : Option Nat) : State :=
  match s.nextSpilled p with
  | none => s
  | some (st, q) =>
    let o := q.spill.getD 0
    let base := (s.spillRegion p).1 + o
    if s.storeBytes p + q.size > 67108864 ∧ q.size ≤ 67108864 then s
    else
      let gone := (List.range q.size).find? (fun b => s.sdDumb (base + b))
      match gone.or ue with
      | some b =>
        let s := s.memUe (base + b % max 1 q.size)
        let s := (s.stick ETH_STAT_SPILL_LOST p).logEvent 0x0A05 sevAttention (p <<< 8 + st)
        (s.dropQueued p st q (8 + (if s.tooOld p q then 2 else 0))).ageTest p st
      | none =>
        let x := s.streamAt p st
        let r : QRec := { q with bytes := s.sdRead (sdramBase + base) q.size, spill := none }
        let s := s.setStream p st { x with queue := x.queue.map (fun (y : QRec) => if y = q then r else y) }
        { s with eth := { s.eth with spill := s.eth.spill.filter (fun e =>
          !(decide (e.1 = p) && decide (e.2.2.1 = o))) } }.showStore p

/-- Spilled records beyond the end of a region that a re-striping clips are dropped (R403). -/
def State.clipSpill (s : State) : State :=
  let bad := s.eth.spill.filter (fun e => decide ((s.spillRegion e.1).2 < e.2.2.1 + e.2.2.2))
  bad.foldl (fun s e =>
    match (s.streamAt e.1 e.2.1).queue.find? (fun (q : QRec) => decide (q.spill = some e.2.2.1)) with
    | some q => s.dropQueued e.1 e.2.1 q 8
    | none => s) s

/-! ### Packets (R384, R385, R398) -/

/-- Time passes on a stream's token bucket (R398): at RATE Mbit/s, in 1/1,000 bit. -/
def State.fillBucket (s : State) (p st ns : Nat) : State :=
  let x := s.streamAt p st
  let cap := s.fld (ETH_S_BURST_KIB p st) * 8192000
  s.setStream p st { x with tokens := min cap (x.tokens + ns * s.fld (ETH_S_RATE_MBPS p st)) }

/-- The fragment of a record that leaves next: a VDIF frame whole, else FRAG × 64 bytes (R385). -/
def State.fragment (s : State) (p st : Nat) (q : QRec) : List Byte :=
  if q.vdif then q.bytes else (q.bytes.drop q.sent).take (64 * s.fld (ETH_S_CFG_FRAG p st))

/-- The datagram of a fragment: behind the packet header, or a VDIF frame alone (R385, R395). -/
def State.datagram (s : State) (p st : Nat) (q : QRec) (pseq : Nat) : List Byte :=
  let f := s.fragment p st q
  if q.vdif then f
  else
    let flags := b2n (decide (q.sent = 0)) + 2 * b2n (decide (q.sent + f.length = q.size)) + 4 * p
    leBytes 2 0x4B50 ++ leBytes 1 st ++ leBytes 1 flags ++ leBytes 4 pseq ++ leBytes 4 q.rseq ++ leBytes 4 q.sent ++ f

/-- The frame that a stream would send next. -/
def State.nextFrame (s : State) (p st : Nat) : Option (List Byte) :=
  let x := s.streamAt p st
  match x.queue with
  | q :: _ =>
    if q.spill.isSome then none
    else
      let l := s.linkOf p st
      some (etherFrame q.dest.mac (s.pair (ETH_L_MAC p l) % 2 ^ 48) (s.fld (ETH_S_SRC_DSCP p st)) (s.fld (ETH_L_IP_ADDR p l))
        q.dest.ip q.dest.src q.dest.dst (s.datagram p st q x.pseq))
  | [] => none

/-- Whether a stream has a packet that may leave: its bucket holds the line time of frame plus 20 bytes (R398). -/
def State.packetReady (s : State) (p st : Nat) : Bool :=
  match s.nextFrame p st with
  | some f => decide ((f.length + 20) * 8000 ≤ (s.streamAt p st).tokens)
  | none => false

/-- One packet of a stream leaves (R385, R398); the record's last fragment ends the record. -/
def State.sendPacket (s : State) (p st : Nat) : State :=
  let x := s.streamAt p st
  match x.queue, s.nextFrame p st with
  | q :: t, some f =>
    let frag := (s.fragment p st q).length
    let ends := decide (q.size ≤ q.sent + frag)
    let x' := { x with
      pseq := (x.pseq + 1) % 2 ^ 32, tokens := x.tokens - (f.length + 20) * 8000,
      sent := if ends then x.sent + 1 else x.sent,
      queue := if ends then t else { q with sent := q.sent + frag } :: t }
    let s := s.setStream p st x'
    let s := { s with out := s.out ++ [Out.frame p (s.linkOf p st) f] }
    let s := s.setPair (ETHP_TX_BYTES p) (s.pair (ETHP_TX_BYTES p) + f.length)
    if ends then ((s.addWrap (ETH_S_SENT_COUNT p st) 1).showStore p).ageTest p st else s
  | _, _ => s

/-- The streams of a link in the order of round robin after the one served last. -/
def State.serveOrder (s : State) (p l : Nat) : List Nat :=
  let last := instGet 63 s.eth.served (4 * p + l)
  ((List.range 64).map (fun i => (last + 1 + i) % 64)).filter (fun st => decide (s.linkOf p st = l))

/-- `ns` ns pass on a link, and one packet leaves, if one may (R398). -/
def State.transmit (s : State) (p l ns : Nat) : State :=
  let order := s.serveOrder p l
  let s := order.foldl (fun s st => if (s.streamAt p st) = .reset then s else s.fillBucket p st ns) s
  if s.fld (ETH_L_STAT_STATE p l) ≠ linkUp then s
  else
    match order.find? (fun st => s.packetReady p st) with
    | some st => { s with eth := { s.eth with served := instSet 63 s.eth.served (4 * p + l) st } }.sendPacket p st
    | none => s

/-! ### Links (R380) -/

/-- Whether a link exists: link 0 alone in mode 0, none on a disabled port (R378, R382). -/
def State.linkExists (s : State) (p l : Nat) : Bool :=
  s.flag (ETHP_CFG_EN p) && (decide (l = 0) || s.flag (ETHP_CFG_MODE p))

/-- ETH_STAT.UP of a port (R411). -/
def State.showUp (s : State) (p : Nat) : State :=
  let on := (List.range 64).filter (fun st => s.streamOn p st)
  s.putBit ETH_STAT_UP p (!on.isEmpty && on.all (fun st => s.streamUp p st))

/-- A link changes state. -/
def State.setLink (s : State) (p l st : Nat) : State :=
  let s := (s.setFld (ETH_L_STAT_STATE p l) st).stick ETH_STAT_LINK_CHG p
  (s.putBit (ETHP_STAT_UP p) l (decide (st = linkUp))).showUp p

/-- A signal is detected. -/
def State.ethSignal (s : State) (p l : Nat) : State :=
  if s.linkExists p l && decide (s.fld (ETH_L_STAT_STATE p l) = linkDown) then s.setLink p l linkAlign else s

/-- A link has been aligned without fault for 10 ms. -/
def State.ethUp (s : State) (p l : Nat) : State :=
  if s.fld (ETH_L_STAT_STATE p l) = linkAlign then
    let s := ((s.setFld (ETH_L_STAT_RFAULT p l) 0).setFld (ETH_L_STAT_LFAULT p l) 0).setLink p l linkUp
    s.logEvent 0x0A01 sevInfo (16 * p + l)
  else s

/-- A link has not aligned within 100 ms. -/
def State.ethAlignOut (s : State) (p l : Nat) : State :=
  if s.fld (ETH_L_STAT_STATE p l) = linkAlign then s.setLink p l linkDown else s

/-- An UP link goes DOWN: 0 alignment or FEC lock lost, 1 remote fault, 2 local fault (R380, R412). -/
def State.ethDown (s : State) (p l cause : Nat) : State :=
  if s.fld (ETH_L_STAT_STATE p l) = linkUp then
    let s := (s.setLink p l linkDown).addSat (ETH_L_STAT_DOWNS p l) 1
    let s := (s.setIf (decide (cause = 1)) (ETH_L_STAT_RFAULT p l)).setIf (decide (cause = 2)) (ETH_L_STAT_LFAULT p l)
    s.logEvent 0x0A02 sevAttention (16 * p + l + cause <<< 8)
  else s

/-- A frame is received on an UP link: counted and discarded (R379). -/
def State.ethReceive (s : State) (p l corr uncorr : Nat) : State :=
  if s.fld (ETH_L_STAT_STATE p l) = linkUp then
    ((s.addSat (ETHP_RX_DISCARD_COUNT p) 1).addSat (ETHP_FEC_CORR_COUNT p) corr).addSat (ETHP_FEC_UNCORR_COUNT p) uncorr
  else s

/-! ### VDIF (R395 to R397) -/

/-- Bits per sample of a VDIF stream. -/
def State.vbits (s : State) (p st : Nat) : Nat := 2 ^ (s.fld (ETH_S_CFG_VBITS p st) + 1)

/-- Samples per frame; `c` is 2 for complex samples. -/
def State.vspf (s : State) (p st c : Nat) : Nat := s.fld (ETH_S_VDIF_LEN_VLEN p st) * 64 / (s.vbits p st * c)

/-- Whether VDIF settings break R395 at a rate divisor R. -/
def State.vdifBad (s : State) (p st r c : Nat) : Bool :=
  let spf := s.vspf p st c
  let rate := s.nsps / max 1 r
  decide (r = 0) || decide (s.nsps % max 1 r ≠ 0) || decide (spf = 0) || decide (rate % max 1 spf ≠ 0) ||
  decide (16777215 < rate / max 1 spf) || decide (9170 < 32 + 8 * s.fld (ETH_S_VDIF_LEN_VLEN p st))

/-- One component in offset binary (R397). -/
def vdifCode (b w : Nat) (v : Int) : Nat :=
  let x := if w ≤ b then v * (2 : Int) ^ (b - w) else v / (2 : Int) ^ (w - b)
  (clampInt (-(2 ^ (b - 1) : Nat)) ((2 ^ (b - 1) : Nat) - 1) x + (2 ^ (b - 1) : Nat)).toNat

/-- A sample joins a VDIF stream: its second, frame and position from its timestamp (R396). `y` is its instant, `r` the
rate divisor, `code` its bits. -/
def State.vdifTake (s : State) (p st n : Nat) (y : Int) (r c code : Nat) (invalid : Bool) : State :=
  let spf := s.vspf p st c
  if spf = 0 ∨ r = 0 ∨ (s.destFor p st n).en = false then s
  else
    let e := s.epochAt n
    let (sec, idx, _) := e.stamp s.nsps y
    let q := idx / r
    let x := s.streamAt p st
    let v : VdifIn :=
      { sec := sec, frame := q / spf, pos := q % spf, code := code, invalid := invalid || s.refLostDeal n, deal := n,
        epoch := e.since }
    s.setStream p st { x with vdif := x.vdif ++ [v] }

/-- Whether a sample's frame has already left. -/
def Stream.left (x : Stream) (v : VdifIn) : Bool :=
  match x.gone with
  | some (a, f) => decide (v.sec < a) || (decide (v.sec = a) && decide (v.frame ≤ f))
  | none => false

/-- Samples whose frame has left are discarded and counted (R397). -/
def State.vdifLate (s : State) (p st : Nat) : Nat → State
  | 0 => s
  | n + 1 =>
    let x := s.streamAt p st
    match x.vdif with
    | v :: t =>
      if x.left v then State.vdifLate ((s.setStream p st { x with vdif := t }).addSat (ETH_S_STAT_LATE_SMP p st) 1) p st n else s
    | [] => s

/-- The bytes of a frame (R396, R397): codes by position, those missing at offset-binary zero. -/
def State.vdifBytes (s : State) (p st c : Nat) (v : VdifIn) (codes : List Nat) (invalid : Bool) : List Byte :=
  let b := s.vbits p st
  let vlen := s.fld (ETH_S_VDIF_LEN_VLEN p st)
  let sec0 := (s.pair (ETH_S_VDIF_SEC0 p st) % 2 ^ 48 : Nat)
  let w0 := ofSigned 30 (v.sec - (sec0 : Int)) + 2 ^ 31 * b2n invalid
  let w1 := s.fld (ETH_S_VDIF_REFEP p st) <<< 24 + v.frame % 2 ^ 24
  let w2 := (4 + vlen) % 2 ^ 24
  let w3 := b2n (decide (c = 2)) <<< 31 + (b - 1) <<< 26 + s.fld (ETH_S_VDIF_THREAD p st) <<< 16 +
    s.fld (ETH_S_VDIF_STATION p st)
  let per := 32 / (b * c)
  let words := (List.range (2 * vlen)).map (fun w =>
    if per = 0 then codes.getD w 0
    else (List.range per).foldl (fun a i => a + codes.getD (w * per + i) 0 <<< (b * c * i)) 0)
  leBytes 4 w0 ++ leBytes 4 w1 ++ leBytes 4 w2 ++ leBytes 4 w3 ++ zeros 16 ++ words.flatMap (leBytes 4)

/-- The code of a position that received no sample: zero in offset binary, for I and Q. -/
def vdifZero (b c : Nat) : Nat := if c = 2 then 2 ^ (b - 1) + 2 ^ (b - 1) * 2 ^ b else 2 ^ (b - 1)

/-- A VDIF frame leaves, if its last position is filled or the stream's next sample lies beyond it (R397). -/
def State.vdifFrame (s : State) (p st : Nat) : State :=
  let s := s.vdifLate p st (s.streamAt p st).vdif.length
  let x := s.streamAt p st
  let c := if s.fld (ETH_S_CFG_KIND p st) = kindZoom then 2 else 1
  let spf := s.vspf p st c
  match x.vdif with
  | [] => s
  | v :: _ =>
    let same := fun (u : VdifIn) => decide (u.sec = v.sec) && decide (u.frame = v.frame)
    let run := x.vdif.takeWhile same
    let mine := run.take (run.findIdx (fun u => decide (u.pos + 1 = spf)) + 1)
    let rest := x.vdif.drop mine.length
    let filled := mine.any (fun u => decide (u.pos + 1 = spf))
    if !filled && rest.isEmpty then s
    else
      let b := s.vbits p st
      let at' := fun (i : Nat) => mine.find? (fun u => decide (u.pos = i))
      let codes := (List.range spf).map (fun i => ((at' i).map (fun u => u.code)).getD (vdifZero b c))
      let bad := decide (mine.length < spf) || mine.any (fun u => u.invalid || decide (u.epoch ≠ v.epoch))
      let s := s.setStream p st { x with vdif := rest, gone := some (v.sec, v.frame) }
      s.offerDeal p st v.deal (s.vdifBytes p st c v codes bad) true

/-! ### Raw streams (R390) -/

/-- Raw samples packed two to three bytes, as R290 with PACK = 1. -/
def packR12 : List Int → List Byte
  | [] => []
  | [a] => leBytes 2 (ofSigned 12 a)
  | a :: b :: t => leBytes 3 (ofSigned 12 a + ofSigned 12 b <<< 12) ++ packR12 t

/-- The ZOOM record of a raw block (R390), with the samples lost before it. -/
def State.rawRecord (s : State) (p st i : Nat) (b : RawAcc) : List Byte :=
  let packed := s.flag (ETH_S_SRC_RFMT p st)
  let data := if packed then packR12 b.data
    else b.data.flatMap (fun v => leBytes 2 (container (s.flag (CONVI_FMT_ALIGN i)) (s.flag (CONVI_FMT_CODE i)) v))
  let h : RecHead :=
    { ty := 0x08, flags := flagIf b.degr flDegr, product := 0xFF, input := i, channel := 0xFFFF, logical := 0xFFFF, member := 0,
      block := 0x04, part := 0, deal := b.deal, pos := 65536 * b.first,
      gap := if b.lost = 0 then none else some (b.lost, b.lost), rawGap := false }
  s.record h (leBytes 8 (ofSigned 64 b.first) ++ leBytes 2 b.data.length ++ leBytes 1 (16 + i) ++
    leBytes 1 (if packed then 3 else 2) ++ leBytes 4 0 ++ data)

/-- A raw block is complete: it goes to the stream. -/
def State.rawClose (s : State) (p st i : Nat) : State :=
  let x := s.streamAt p st
  match x.raw with
  | none => s
  | some b =>
    let s := s.setStream p st { x with raw := none }
    if b.data.isEmpty then s else s.offerDeal p st b.deal (s.rawRecord p st i b) false

/-- The deal of a raw sample, and its place in the deal. -/
def State.rawPlace (s : State) (r : Int) : Nat × Nat :=
  let len : Int := ((400 * s.dealLen : Nat) : Int)
  ((r / len).toNat, (r % len).toNat)

/-- One raw sample joins its block: blocks begin at the deal's first sample and every B after it (R390). Where samples were
lost, the block ends before them and the next one states them. -/
def State.rawPut (s : State) (p st i : Nat) (r v : Int) (degr : Bool) : State :=
  let len := 400 * s.dealLen
  let (n, o) := s.rawPlace r
  let size := 16 * (s.fld (ETH_S_SRC_RAWENT_M1 p st) + 1)
  let x := s.streamAt p st
  let follows : Bool := match x.raw with
    | some b => decide (b.first + b.data.length = r) && decide (b.deal = n)
    | none => false
  let s := if follows then s else s.rawClose p st i
  let x := s.streamAt p st
  let lost := match x.gone with
    | some (g, _) => (r - g - 1).toNat
    | none => 0
  let b : RawAcc := match x.raw with
    | some b => { b with data := b.data ++ [v], degr := b.degr || degr }
    | none => { deal := n, first := r, data := [v], degr := degr, lost := lost }
  let s := s.setStream p st { x with raw := some b, gone := some (r, 0) }
  if (o + 1) % size = 0 ∨ o + 1 = len then s.rawClose p st i else s

/-- The streams that take raw samples of an input. -/
def State.rawStreams (s : State) (i : Nat) : List (Nat × Nat) :=
  s.streamsOf kindRaw (fun p st => decide (s.fld (ETH_S_SRC_SEL p st) = i))

/-- A raw tap entry reaches the Ethernet streams of its input (R383, R390, R397). -/
def State.rawOut (s : State) (i : Nat) (e : Int) (xs : List Int) (gap : Bool) : State :=
  (s.rawStreams i).foldl (fun s x =>
    let (p, st) := x
    let degr := bitOf s.conv.degraded i || s.crossesFailed [2 * (i / 2) + p]
    (xs.zipIdx).foldl (fun s v =>
      let r := 16 * e + (v.2 : Int)
      let n := (s.rawPlace r).1
      if s.flag (ETH_S_CFG_VDIF p st) then
        s.vdifTake p st n (65536 * r) 1 1 (vdifCode (s.vbits p st) 12 v.1) (degr || (gap && decide (v.2 = 0)))
      else if (s.destFor p st n).en then s.rawPut p st i r v.1 degr
      else s) s) s

/-! ### Capture descriptors and products -/

/-- A completed segment's record goes to the CAPT stream that names its unit (R383): the units lie on ADIE1, so a stream of
port 0 takes it over the bridge (R16). -/
def State.captOut (s : State) (u n : Nat) (bytes : Bool → List Byte) : State :=
  (s.streamsOf kindCapt (fun p st => bitOf (s.fld (ETH_S_SRC_SEL p st)) u)).foldl (fun s x =>
    s.offerDeal x.1 x.2 n (bytes (decide (x.1 = 0) && s.crossesFailed [5])) false) s

/-! ### Meanings -/

/-- ETH_SIGNAL_DETECT (R380). -/
def execEthSignalDetect (p : Fin 2) (l : Fin 4) (s : State) : Host.Outcome State Fault Refusal := done (s.ethSignal p l)

/-- ETH_ALIGN_TIMEOUT (R380). -/
def execEthAlignTimeout (p : Fin 2) (l : Fin 4) (s : State) : Host.Outcome State Fault Refusal := done (s.ethAlignOut p l)

/-- LINK_DOWN (R380). -/
def execLinkDown (p : Fin 2) (l : Fin 4) (cause : Fin 3) (s : State) : Host.Outcome State Fault Refusal :=
  done (s.ethDown p l cause)

/-- ETH_FRAME_RECEIVED (R379). -/
def execEthFrameReceived (p : Fin 2) (l : Fin 4) (corr uncorr : Nat) (s : State) : Host.Outcome State Fault Refusal :=
  done (s.ethReceive p l corr uncorr)

/-- RECORD_AGE_EXPIRY (R401). -/
def execRecordAgeExpiry (p : Fin 2) (st : Fin 64) (s : State) : Host.Outcome State Fault Refusal := done (s.ageTest p st)

/-- SPILL_READ_BACK (R400). -/
def execSpillReadBack (p : Fin 2) (ue : Option Nat) (s : State) : Host.Outcome State Fault Refusal := done (s.readBack p ue)

/-- GAP_RECORD (R402). -/
def execGapRecord (p : Fin 2) (st : Fin 64) (s : State) : Host.Outcome State Fault Refusal := done (s.emitGap p st)

/-- STAT_RECORD (R393). -/
def execStatRecord (p : Fin 2) (s : State) : Host.Outcome State Fault Refusal := done (s.emitStat p)

/-- VDIF_FRAME (R397). -/
def execVdifFrame (p : Fin 2) (st : Fin 64) (s : State) : Host.Outcome State Fault Refusal := done (s.vdifFrame p st)

/-- RAW_TAP_ENTRY (R94): a delivered entry also reaches the Ethernet streams of its input. -/
def execRawTapEntry (i : Fin 4) (e : Int) (xs : List Int) (s : State) : Host.Outcome State Fault Refusal :=
  let t := s.tapEntry i e xs
  done (if xs.length = 16 ∧ s.time.grid = true ∧ s.deal.stopped = false ∧ s.rawWanted i = true ∧ s.tapStuck i = false then t.rawOut i e (xs.map clipCode) (s.tapOf i).gap else t)

end Sys2Proof.Machine
end

