-- ==== Sys2Proof/Machine/Kitty.lean ====
section
/-! DEFINITION. The kitty port (R404 to R410): words and packets, the two consumers, KITTY records (R392), and what feeds
them when a packet leaves or a link comes UP. -/

namespace Sys2Proof.Machine

/-! ### The stream formatter (R392, R409) -/

/-- The KITTY stream: port and stream. -/
def State.kittyStream (s : State) : Option (Nat × Nat) := (s.streamsOf kindKitty (fun _ _ => true)).head?

/-- Where a packet's first word entered: raw index and deal (R392). -/
def State.kitStart (s : State) (p : Nat) : Int × Nat :=
  match s.kit.starts.find? (fun x => decide (x.1 = p)) with
  | some (_, r, n) => (r, n)
  | none => (s.rawNow, s.pair DEAL_NUM)

/-- The KITTY record of the entries taken so far (R392), offered to the stream; the port lies on ADIE1, so a stream of port 0
takes it over the bridge (R16). `ends` is 0 while its packet goes on, 1 for
its end, 2 for a CUT. -/
def State.kitRecord (s : State) (port st ends : Nat) : State :=
  match s.kit.acc with
  | [] => s
  | e :: _ =>
    let (r, n) := s.kitStart e.pkt
    let data := s.kit.acc.flatMap (fun (x : KitEntry) => x.data.take (x.tag % 64))
    let flags := b2n s.kit.accFirst + 2 * b2n (decide (ends ≠ 0)) + 4 * b2n (decide (ends = 2))
    let degr := decide (port = 0) && s.crossesFailed [5]
    let bytes := s.record { plainHead 0x09 0x0B (e.pkt % 2 ^ 32) n (65536 * r) with flags := flagIf degr flDegr }
      (leBytes 4 e.pkt ++ leBytes 2 data.length ++ leBytes 1 flags ++ leBytes 1 0 ++ data)
    let starts := if ends = 0 then s.kit.starts else s.kit.starts.filter (fun x => decide (x.1 ≠ e.pkt))
    let s := { s with kit := { s.kit with acc := [], accFirst := decide (ends ≠ 0), starts := starts } }
    s.offer port st bytes n (s.destNow port st) false (some (e.pkt, decide (ends = 0)))

/-- The formatter takes up to `n` entries (R409). -/
def State.kitFormat (s : State) (port st : Nat) : Nat → State
  | 0 => s
  | n + 1 =>
    match s.kit.queue with
    | [] => s
    | h :: _ =>
      let s := if (s.kit.acc.head?.map (fun (x : KitEntry) => x.pkt)).getD h.pkt ≠ h.pkt then
          { s.kitRecord port st 0 with kit := { (s.kitRecord port st 0).kit with accFirst := true } } else s
      match s.kitPop with
      | (s, some e) =>
        let s := { s with kit := { s.kit with acc := s.kit.acc ++ [e] } }
        let s := if e.kind = kitData then (if s.kit.acc.length = 256 then s.kitRecord port st 0 else s)
          else s.kitRecord port st (if e.kind = kitCut then 2 else 1)
        State.kitFormat s port st n
      | (s, none) => s

/-- The formatter takes what the KITTY stream accepts: nothing while that is off or its link is not UP (R409). -/
def State.kitPump (s : State) : State :=
  if s.flag KIT_CFG_CONSUMER then s
  else
    match s.kittyStream with
    | some (p, st) => if s.streamOn p st && s.streamUp p st then s.kitFormat p st (s.kitLevel + 1) else s
    | none => s

/-! ### Words (R404, R405, R408) -/

/-- A word is discarded (R408). -/
def State.kitLose (s : State) : State :=
  let s := { s with kit := { s.kit with lost := s.kit.lost + 1 } }
  (s.addSat KIT_LOST_WORDS_COUNT 1).setFld KIT_STAT_OVERFLOW 1

/-- The discarding of a packet's words ends. -/
def State.kitLostEnd (s : State) : State :=
  let n := s.kit.lost
  ({ s with kit := { s.kit with spoiled := false, lost := 0 } }.setFld KIT_STAT_OPEN 0).logEvent 0x0B01 sevAttention n

/-- The open packet closes with an entry of a kind; a CUT entry that finds the queue full waits (R408). -/
def State.kitClose (s : State) (p kind : Nat) : State :=
  let e := s.kitEntry p kind
  let s := { s with kit := { s.kit with pkt := none, words := [] } }.setFld KIT_STAT_OPEN 0
  if s.kitFull then { s with kit := { s.kit with held := some e } } else s.kitWrite e

/-- A word finds the queue full: it and the rest of its packet are discarded (R408). -/
def State.kitOverflow (s : State) : State :=
  let s : State := match s.kit.pkt with
    | some p => s.kitClose p kitCut
    | none => s.addWrap KIT_PKTS_COUNT 1
  let s := { s with kit := { s.kit with spoiled := true } }.setFld KIT_STAT_OPEN 1
  s.kitLose

/-- A packet begins with its first word (R405, R392). -/
def State.kitBegin (s : State) : State × Nat :=
  match s.kit.pkt with
  | some p => (s, p)
  | none =>
    let p := s.fld KIT_PKTS_COUNT
    let s := { s with kit := { s.kit with pkt := some p, words := [], starts := s.kit.starts ++ [(p, s.rawNow, s.pair DEAL_NUM)] } }
    ((s.addWrap KIT_PKTS_COUNT 1).setFld KIT_STAT_OPEN 1, p)

/-- A word is accepted (R404): packed, discarded with its packet, or the queue is full. -/
def State.kitWord (s : State) (w : Nat) (last : Bool) : State :=
  let s := s.setFld KIT_STAT_CLK 1
  if s.kit.spoiled then
    let s := s.kitLose
    if last then s.kitLostEnd else s
  else if s.kitFull then
    let s := s.kitOverflow
    if last then s.kitLostEnd else s
  else
    let (s, p) := s.kitBegin
    let s := { s with kit := { s.kit with words := s.kit.words ++ [w] } }
    if last then s.kitClose p kitEnd
    else if s.kit.words.length = 16 then
      { s with kit := { s.kit with words := [] } }.kitWrite (s.kitEntry p kitData)
    else s

/-- No word has arrived for TMO µs while a packet is open (R408). -/
def State.kitTimeout (s : State) : State :=
  if s.kit.spoiled then s.kitLostEnd
  else
    match s.kit.pkt with
    | some p => s.kitClose p kitCut
    | none => s

/-! ### The host as consumer (R409, R410) -/

/-- An entry is latched into KIT_TAG and KIT_DATA. -/
def State.kitLatch (s : State) (e : KitEntry) : State :=
  let s := (s.setFld KIT_TAG_PKT (e.pkt % 65536)).setFld KIT_TAG_TAG e.tag
  (List.range 8).foldl (fun s d => s.setReg (KIT_DATA d).addr (BitVec.ofNat 32 (leNat ((e.data.drop (4 * d)).take 4)))) s

/-- The idle item (R409). -/
def kitIdleItem : KitEntry := { data := zeros 32, tag := 0, pkt := 0 }

/-- A host read of KIT_TAG (R409). -/
def State.kitTagRead (s : State) : State :=
  let s : State :=
    if s.flag KIT_CFG_CONSUMER then
      match s.kitPop with
      | (s, some e) =>
        let s := if e.kind = kitData then s
          else { s with kit := { s.kit with starts := s.kit.starts.filter (fun x => decide (x.1 ≠ e.pkt)) } }
        s.kitLatch e
      | (s, none) => s.kitLatch kitIdleItem
    else (s.kitLatch kitIdleItem).ignored KIT_TAG.addr
  { s with rdata := [s.reg KIT_TAG.addr] }

/-- KIT_CTL.DROP is written 1 (R410). -/
def State.kitDropWrite (s : State) : State :=
  if s.kit.drop.isSome then s
  else
    match s.kit.last with
    | some p => s.kitDiscard p
    | none => s.ignored KIT_CTL.addr

/-- KITTY_CLK has stopped for 1 µs (R413, R414). -/
def State.kitClkLost (s : State) : State :=
  if s.flag KIT_STAT_CLK then (s.setFld KIT_STAT_CLK 0).logEvent 0x0B03 sevInfo 0 else s

/-- KIT_WM is written (R407): ignored when LWM ≥ HWM or HWM > 2,040. -/
def State.kitWmWrite (s : State) (v : Word) : State :=
  if wordBits v 16 12 ≤ wordBits v 0 12 ∨ 2040 < wordBits v 16 12 then s.ignored KIT_WM.addr
  else (s.setReg KIT_WM.addr (v &&& 0x0FFF0FFF)).kitShow

/-! ### Meanings -/

/-- KITTY_WORD (R404). -/
def execKittyWord (w : BitVec 16) (last : Bool) (s : State) : Host.Outcome State Fault Refusal :=
  done (s.kitWord w.toNat last).kitPump

/-- KIT_CUT (R408). -/
def execKitCut (s : State) : Host.Outcome State Fault Refusal := done s.kitTimeout.kitPump

/-- KIT_TAG_READ (R409). -/
def execKitTagRead (s : State) : Host.Outcome State Fault Refusal := done s.kitTagRead

/-- KIT_DROP (R410). -/
def execKitDrop (s : State) : Host.Outcome State Fault Refusal := done s.kitDropWrite

/-- KIT_CLK_LOST (R413). -/
def execKitClkLost (s : State) : Host.Outcome State Fault Refusal := done s.kitClkLost

/-- LINK_UP (R380): the link's streams transmit, and a KITTY stream takes entries again. -/
def execLinkUp (p : Fin 2) (l : Fin 4) (s : State) : Host.Outcome State Fault Refusal := done (s.ethUp p l).kitPump

/-- PACKET_TRANSMIT (R398). -/
def execPacketTransmit (p : Fin 2) (l : Fin 4) (ns : Nat) (s : State) : Host.Outcome State Fault Refusal :=
  done (s.transmit p l ns).kitPump

end Sys2Proof.Machine
end

