-- ==== Sys2Proof/Machine/Trigger.lean ====
section
/-! DEFINITION. The trigger engine: conditions (R276 to R282), slots and hold-off (R284, R285), fires (R286), settings at
a tick (R277, R287), TRIG_OUT (R288) and TOD generators (R305). -/

namespace Sys2Proof.Machine

/-! ### Slots and their settings -/

/-- A trigger slot. -/
def State.slotOf (s : State) (n : Nat) : Slot := instGet .reset s.trig.slots n

/-- Change a trigger slot. -/
def State.setSlot (s : State) (n : Nat) (x : Slot) : State :=
  { s with trig := { s.trig with slots := instSet .reset s.trig.slots n x } }

/-- The settings of a slot as its registers hold them. -/
def State.slotCfg (s : State) (n : Nat) : SlotCfg :=
  { en := s.flag (TRGS_CFG_EN n), mode := s.fld (TRGS_CFG_MODE n), holdMode := s.fld (TRGS_CFG_HOLD_MODE n),
    win := s.fld (TRGS_WIN_NS n), hold := s.fld (TRGS_HOLD_HOLD n),
    a := { ty := s.fld (TRGS_A_CFG_TYPE n), src := s.fld (TRGS_A_CFG_SRC n), slope := s.fld (TRGS_A_CFG_SLOPE n),
           cmp := s.fld (TRGS_A_CFG_CMP n), t1 := s.fld (TRGS_A_T1_VALUE n), t2 := s.fld (TRGS_A_T2_VALUE n) },
    b := { ty := s.fld (TRGS_B_CFG_TYPE n), src := s.fld (TRGS_B_CFG_SRC n), slope := s.fld (TRGS_B_CFG_SLOPE n),
           cmp := s.fld (TRGS_B_CFG_CMP n), t1 := s.fld (TRGS_B_T1_VALUE n), t2 := s.fld (TRGS_B_T2_VALUE n) } }

/-- The trigger settings that no one slot owns, as the registers hold them. -/
def State.trigCfg (s : State) : TrigCfg :=
  { ext := (List.range 2).map (fun i => toSigned 16 (s.fld (TRG_EXT_DELAY_DELAY i))),
    out := (List.range 2).map (fun o => ((s.reg (TRG_OUT_CFG_EN o).addr).toNat, s.fld (TRG_OUT_DELAY_DELAY o))) }

/-- The shared settings under which an event at a time is evaluated (R287). -/
def State.trigCfgAt (s : State) (t : Int) : TrigCfg := if t < s.trig.since then s.trig.cfg0 else s.trig.cfg

/-- The end of the hop that the converters are taking: the latest instant that commands of this moment may name. -/
def State.trigNow (s : State) : Int := (s.rawNow + 400) * unitSample

/-- Whether a TDC channel delivers edges: it has not failed without a spare (R309). -/
def State.chanWorks (s : State) (c : Nat) : Bool := !bitOf s.time.failed c

/-- Whether a comparator is enabled with a slope that delivers edge `e` (R97). -/
def State.cmpDelivers (s : State) (code e : Nat) : Bool :=
  let i := code / 2
  let en := if code % 2 = 0 then s.flag (CONVI_CMP_HI_EN i) else s.flag (CONVI_CMP_LO_EN i)
  let slope := if code % 2 = 0 then s.fld (CONVI_CMP_HI_SLOPE i) else s.fld (CONVI_CMP_LO_SLOPE i)
  en && (decide (slope = 2) || decide (slope = e)) && s.chanWorks (3 + 2 * code + e)

/-- Whether both edges of a comparator are delivered. -/
def State.cmpBoth (s : State) (code : Nat) : Bool := s.cmpDelivers code 0 && s.cmpDelivers code 1

/-- Whether the source of a condition is off (R277). -/
def State.srcOff (s : State) (c : CondCfg) : Bool :=
  if c.ty = 1 ∨ c.ty = 4 then
    if c.src < 8 then
      !(if c.slope = 2 then s.cmpBoth c.src else s.cmpDelivers c.src c.slope)
    else if c.src < 10 then !(s.flag (TIME_PIN_CFG_EN (c.src - 7)) && s.chanWorks (c.src - 7))
    else true
  else if c.ty = 2 then !(decide (c.src < 8) && s.cmpBoth c.src)
  else if c.ty = 3 ∨ c.ty = 5 then
    !(decide (c.src < 4) && s.cmpBoth (2 * c.src) && s.cmpBoth (2 * c.src + 1))
  else false

/-! ### Conditions (R276 to R282) -/

/-- The CMP test of R278 on a duration in event time units. -/
def cmpTest (c : CondCfg) (lsb w : Int) : Bool :=
  let t1 := (c.t1 : Int) * lsb
  let t2 := (c.t2 : Int) * lsb
  match c.cmp with
  | 0 => decide (w < t1)
  | 1 => decide (t1 < w)
  | 2 => decide (t1 ≤ w) && decide (w ≤ t2)
  | _ => decide (c.t1 ≤ c.t2) && (decide (w < t1) || decide (t2 < w))

/-- An edge as a condition sees it: its source code (comparators 0 to 7, TRIG_IN0 8, TRIG_IN1 9), its direction, its
corrected time and whether it carries REF_LOST (R273, R275). -/
structure Edge where
  code : Nat
  fall : Bool
  time : Int
  ref  : Bool
  deriving DecidableEq, Repr

/-- Close an open measurement at an edge: the event when the duration passes the test. -/
def CondRun.close (r : CondRun) (c : CondCfg) (lsb : Int) (x : Edge) : CondRun × Option (Int × Bool) :=
  match r.opened with
  | some (t, ref) =>
    ({ r with opened := none }, if cmpTest c lsb (x.time - t) then some (x.time, ref || x.ref) else none)
  | none => (r, none)

/-- Begin a measurement at an edge. -/
def CondRun.begin (r : CondRun) (x : Edge) : CondRun := { r with opened := some (x.time, x.ref) }

/-- What a condition makes of an edge (R276 to R281). An edge at or after t_last + T1 finds TIMEOUT's event due, and becomes
the new t_last. -/
def CondRun.edge (r : CondRun) (c : CondCfg) (lsb : Int) (x : Edge) : CondRun × Option (Int × Bool) :=
  let neg := decide (c.slope = 1)
  let hi := decide (x.code = 2 * c.src)
  let lo := decide (x.code = 2 * c.src + 1)
  let chosen := decide (x.code = c.src) && (decide (8 ≤ x.code) || decide (c.slope = 2) ||
    decide (c.slope = b2n x.fall))
  match c.ty with
  | 1 => (r, if chosen then some (x.time, x.ref) else none)
  | 2 =>
    if x.code ≠ c.src then (r, none)
    else if x.fall = neg then (r.begin x, none)
    else r.close c lsb x
  | 3 =>
    if neg then
      if hi && x.fall then (r.begin x, none)
      else if lo && x.fall then ({ r with opened := none }, none)
      else if hi then r.close c lsb x
      else (r, none)
    else if lo && !x.fall then (r.begin x, none)
    else if hi && !x.fall then ({ r with opened := none }, none)
    else if lo then r.close c lsb x
    else (r, none)
  | 4 =>
    if !chosen then (r, none)
    else
      match r.last with
      | some (t, ref) =>
        let f := t + (c.t1 : Int) * lsb
        if f ≤ x.time then ({ r with last := some (x.time, x.ref) }, some (f, ref))
        else (if t ≤ x.time then { r with last := some (x.time, x.ref) } else r, none)
      | none => ({ r with last := some (x.time, x.ref) }, none)
  | 5 =>
    if neg then
      if hi && x.fall then (r.begin x, none)
      else if hi then ({ r with opened := none }, none)
      else if lo && x.fall then r.close c lsb x
      else (r, none)
    else if lo && !x.fall then (r.begin x, none)
    else if lo then ({ r with opened := none }, none)
    else if hi && !x.fall then r.close c lsb x
    else (r, none)
  | _ => (r, none)

/-- What a LEVEL condition makes of a power value (R282). -/
def CondRun.level (r : CondRun) (c : CondCfg) (v : Int) : CondRun × Bool :=
  let now : Option Bool :=
    if (c.t1 : Int) < v then some true else if v ≤ (c.t1 : Int) - c.t2 then some false else r.high
  let ev := match r.high, now with
    | some false, some true => decide (c.slope = 0)
    | some true, some false => decide (c.slope = 1)
    | _, _ => false
  ({ r with high := now }, ev)

/-! ### Fires (R286, R288) -/

/-- A trigger output's registers as a field of the settings in force, for an output. -/
def TrigCfg.outReg (c : TrigCfg) (o : Nat) : Nat × Nat := c.out.getD o (0, 0)

/-- A trigger output's pin: asserted or not, in its polarity (R288). -/
def State.showOut (s : State) (o : Nat) : State :=
  let v := (instGet none s.trig.pulse o).isSome != bitOf (s.trig.cfg.outReg o).1 30
  { s with pins := if o = 0 then { s.pins with trigOut0 := v } else { s.pins with trigOut1 := v } }

/-- A trigger output asserts at an instant, for WIDTH core cycles; a pulse in progress is extended (R288). -/
def State.assertOut (s : State) (o : Nat) (at' : Int) : State :=
  let ends := at' + ((s.trig.cfg.outReg o).1 % 256 : Nat) * s.unitCore
  let ends := match instGet none s.trig.pulse o with
    | some e => max e ends
    | none => ends
  ({ s with trig := { s.trig with pulse := instSet none s.trig.pulse o (some ends) } }).showOut o

/-- A fixed-delay assertion waits for the first core-clock edge at or after the trigger time and its delay (R288). -/
def State.queueOut (s : State) (o : Nat) (t : Int) (delay : Nat) : State :=
  let c := s.unitCore
  let e := t + (delay : Int) * c
  let edge := if c = 0 then e else (e + c - 1) / c * c
  { s with trig := { s.trig with outQ := instSet [] s.trig.outQ o (instGet [] s.trig.outQ o ++ [edge]) } }

/-- A fire reaches the trigger outputs that follow its slot: in immediate mode the pin asserts with it (R288). -/
def State.fireOut (s : State) (n o : Nat) (t : Int) : State :=
  let x := (s.trigCfgAt t).outReg o
  if bitOf x.1 31 && decide (bitsOf x.1 24 3 = n) then
    if bitOf x.1 29 then s.queueOut o t x.2 else s.assertOut o (s.rawNow * unitSample)
  else s

/-- A slot fires: capture units that name it, trigger outputs that follow it, and its registers (R286). -/
def State.fire (s : State) (n : Nat) (ev : TrigEvent) : State :=
  let s := (List.range 8).foldl (fun s u =>
    if s.fld (CAPU_CTL_TRIG u) = n then
      let x := instGet .reset s.cap.units u
      { s with cap := { s.cap with units := instSet .reset s.cap.units u { x with queue := x.queue ++ [{ slot := n, ev := ev }] } } }
    else s) s
  let s := (List.range 2).foldl (fun s o => s.fireOut n o ev.time) s
  let (idx, frac) := trigIndex ev.time
  let s := s.setPair (TRGS_LAST_IDX n) (ofSigned 64 idx)
  let s := s.setReg (TRGS_LAST_INFO n).addr
    (BitVec.ofNat 32 (frac <<< 16 + b2n ev.ref <<< 8 + b2n ev.isB <<< 4 + ev.ty))
  (s.addSat (TRGS_COUNT_COUNT n) 1).stick TRG_STAT_FIRED n

/-- A combined event is held (R285). -/
def State.hold (s : State) (n : Nat) : State := (s.addSat (TRGS_HELD_COUNT n) 1).stick TRG_STAT_HELD n

/-- A combined event reaches its slot: hold-off, then the fire (R285, R286). `old` picks the settings before the last
change. -/
def State.combined (s : State) (n : Nat) (old : Bool) (ev : TrigEvent) : State :=
  let x := s.slotOf n
  let c := if old then x.cfg0 else x.cfg
  let r := if old then x.run0 else x.run
  let put := fun (x : Slot) (r : SlotRun) => if old then { x with run0 := r } else { x with run := r }
  let near := match x.fired with
    | some t => decide ((ev.time - t).natAbs < (10 * s.unitNs).toNat)
    | none => false
  let inHold := decide (c.holdMode = 1) && (match r.held with
    | some t => decide (ev.time < t + (c.hold : Int) * s.unitNs)
    | none => false)
  if c.holdMode = 2 ∧ 0 < r.left then (s.setSlot n (put x { r with left := r.left - 1 })).hold n
  else if inHold || near then s.hold n
  else
    let r := { r with held := some ev.time, left := if c.holdMode = 2 then c.hold else 0 }
    (s.setSlot n { put x r with fired := some ev.time }).fire n ev

/-- Show a slot's pending events (R305). -/
def State.showPending (s : State) (n : Nat) : State :=
  let r := (s.slotOf n).run
  (s.setFld (TRGS_STAT_A_PENDING n) (b2n r.pa.isSome)).setFld (TRGS_STAT_B_PENDING n) (b2n r.pb.isSome)

/-- A condition event reaches its slot and is combined (R284). -/
def State.slotEvent (s : State) (n : Nat) (old : Bool) (ev : TrigEvent) : State :=
  let x := s.slotOf n
  let c := if old then x.cfg0 else x.cfg
  let r := if old then x.run0 else x.run
  let put := fun (r : SlotRun) => s.setSlot n (if old then { x with run0 := r } else { x with run := r })
  let win := (c.win : Int) * s.unitNs
  let s : State := match c.mode with
    | 0 => if ev.isB then s else s.combined n old ev
    | 1 =>
      let other := if ev.isB then r.pa else r.pb
      let mate := match other with
        | some o => if (ev.time - o.time).natAbs ≤ win.toNat then some o else none
        | none => none
      match mate with
      | some o =>
        (put { r with pa := none, pb := none }).combined n old
          { ev with time := max ev.time o.time, ref := ev.ref || o.ref }
      | none => put (if ev.isB then { r with pb := some ev } else { r with pa := some ev })
    | 2 => s.combined n old ev
    | _ =>
      if ev.isB then
        match r.pa with
        | some a =>
          if ev.time < a.time then s
          else if c.win = 0 ∨ ev.time ≤ a.time + win then
            (put { r with pa := none }).combined n old { ev with ref := ev.ref || a.ref }
          else put { r with pa := none }
        | none => s
      else put { r with pa := some ev }
  s.showPending n

/-- Give one condition of a slot something that happened at a time and that it may make an event of; a condition whose source
was off then makes none (R277). -/
def State.giveCond (s : State) (n : Nat) (old isB : Bool) (at' : Int) (f : CondCfg → CondRun → CondRun × Option (Int × Bool)) :
    State :=
  let x := s.slotOf n
  let c := if old then x.cfg0 else x.cfg
  let r := if old then x.run0 else x.run
  let cc := if isB then c.b else c.a
  let offs := if at' < x.offAt then x.off0 else x.off
  if c.en = false ∨ (if isB then offs.2 else offs.1) = true then s
  else
    let (cr, ev) := f cc (if isB then r.b else r.a)
    let r := if isB then { r with b := cr } else { r with a := cr }
    let s := s.setSlot n (if old then { x with run0 := r } else { x with run := r })
    match ev with
    | some (t, ref) => s.slotEvent n old { time := t, ref := ref, isB := isB, ty := cc.ty, src := cc.src }
    | none => s

/-- Give both conditions of a slot something that happened at a time; a time before the last change of its settings meets the
old ones (R287). -/
def State.giveSlot (s : State) (n : Nat) (t : Int) (f : CondCfg → CondRun → CondRun × Option (Int × Bool)) : State :=
  let old := decide (t < (s.slotOf n).since)
  (s.giveCond n old false t f).giveCond n old true t f

/-- Give every slot something that happened at a time. -/
def State.giveSlots (s : State) (t : Int) (f : CondCfg → CondRun → CondRun × Option (Int × Bool)) : State :=
  (List.range 8).foldl (fun s n => s.giveSlot n t f) s

/-- A timed edge of TDC channel c reaches TRG (R273): comparators are corrected by COMP_SKEW, external edges by their
delay. `t` is the channel's own result. -/
def State.trigEdge (s : State) (c : Nat) (t : Int) (ref : Bool) : State :=
  if c = 0 ∨ 18 < c then s
  else if c < 3 then
    let by' := fun (g : TrigCfg) => t - g.ext.getD (c - 1) 0 * s.unitLsb
    let t1 := if by' s.trig.cfg < s.trig.since then by' s.trig.cfg0 else by' s.trig.cfg
    let e : Edge := { code := 7 + c, fall := false, time := t1, ref := ref }
    s.giveSlots t1 (fun k r => r.edge k s.unitLsb e)
  else
    let code := (c - 3) / 2
    let skew := if code % 2 = 0 then toSigned 16 (s.fld (CONVI_COMP_SKEW_HI (code / 2)))
      else toSigned 16 (s.fld (CONVI_COMP_SKEW_LO (code / 2)))
    let e : Edge := { code := code, fall := decide ((c - 3) % 2 = 1), time := t - skew * s.unitLsb, ref := ref }
    s.giveSlots e.time (fun k r => r.edge k s.unitLsb e)

/-- A mask winner reaches TRG (R282): its input, side and trigger time in 1/65,536 sample. -/
def State.trigMask (s : State) (input side : Nat) (y : Int) : State :=
  let t := timeOfPos y
  s.giveSlots t (fun c r =>
    (r, if c.ty = 6 ∧ bitOf c.src input = true ∧ c.slope &&& side ≠ 0 then some (t, false) else none))

/-- A power value of a zoom chain reaches TRG (R282): its value and its timestamp in 1/65,536 sample. -/
def State.trigLevel (s : State) (chain : Nat) (v : Int) (y : Int) : State :=
  let t := timeOfPos y
  s.giveSlots t (fun c r =>
    if c.ty = 7 ∧ c.src = chain then
      let (r, ev) := r.level c v
      (r, if ev then some (t, false) else none)
    else (r, none))

/-- A generator's instant reaches TRG (R282). -/
def State.trigTod (s : State) (g : Nat) (t : Int) : State :=
  s.giveSlots t (fun c r => (r, if c.ty = 8 ∧ c.src = g then some (t, false) else none))

/-- A TRG_FORCE write (R282): one event for every FORCE condition of the slots it names. -/
def State.trigForce (s : State) (mask : Nat) (idx : Int) : State :=
  let t := idx * unitSample
  let s := ((List.range 8).filter (fun n => bitOf mask n)).foldl (fun s n =>
    s.giveSlot n t (fun c r => (r, if c.ty = 9 then some (t, false) else none))) s
  s.setFld TRG_FORCE_SLOT 0

/-- When a condition's TIMEOUT is due under some settings (R281). -/
def timeoutDue (lsb : Int) (c : CondCfg) (r : CondRun) : Option (Int × Bool) :=
  if c.ty = 4 then r.last.map (fun x => (x.1 + (c.t1 : Int) * lsb, x.2)) else none

/-- No qualifying edge has followed within T1: the TIMEOUT condition fires at t_last + T1, once that instant has come (R281);
one due before the last change of the slot's settings, under the old ones (R287). -/
def State.trigTimeout (s : State) (n : Nat) (isB : Bool) : State :=
  let x := s.slotOf n
  let due := fun (c : SlotCfg) (r : SlotRun) => timeoutDue s.unitLsb (if isB then c.b else c.a) (if isB then r.b else r.a)
  let go := fun (old : Bool) (f : Int × Bool) =>
    if f.1 < s.trigNow then s.giveCond n old isB f.1 (fun _ r => ({ r with last := none }, some f)) else s
  match due x.cfg0 x.run0, due x.cfg x.run with
  | some f, y => if f.1 < x.since then go true f else (match y with
    | some g => go false g
    | none => s)
  | none, some g => go false g
  | none, none => s

/-! ### TOD generators (R305) -/

/-- A TOD generator. -/
def State.todOf (s : State) (g : Nat) : TodGen := instGet .reset s.trig.tod g

/-- Change a TOD generator. -/
def State.setTod (s : State) (g : Nat) (x : TodGen) : State :=
  { s with trig := { s.trig with tod := instSet .reset s.trig.tod g x } }

/-- The settings of a generator: second, index, and period with the enable bit. -/
def State.todCfg (s : State) (g : Nat) : Nat × Nat × Nat :=
  ( s.pair (TRG_TOD_SEC g) % 2 ^ 48, s.pair (TRG_TOD_IDX g) % 2 ^ 35,
    2 * s.fld (TRG_TOD_CFG_PERIOD g) + b2n (s.flag (TRG_TOD_CFG_EN g)) )

/-- The first second SEC + m × PERIOD whose instant is not before raw sample `d`. -/
def State.todNext (s : State) (sec idx period : Nat) (d : Int) : Nat :=
  let late := d - s.rawOfStamp sec idx
  if late ≤ 0 ∨ period = 0 ∨ s.nsps = 0 then sec
  else
    let m := (late.toNat + period * s.nsps - 1) / (period * s.nsps)
    let m := if s.rawOfStamp (sec + (m - 1) * period) idx < d then m else m - 1
    sec + m * period

/-- A generator fires at an instant, and waits for its next one. -/
def State.todGo (s : State) (g : Nat) (raw : Int) : State :=
  let x := s.todOf g
  let period := x.cfg.2.2 / 2
  let s := s.setTod g { x with waiting := if period = 0 then none else x.waiting.map (fun w => w + period) }
  s.trigTod g (raw * unitSample)

/-- TOD_FIRE: the generator's instant has come; never while no epoch is set. -/
def State.todFire (s : State) (g : Nat) : State :=
  match (s.todOf g).waiting with
  | some sec =>
    let raw := s.rawOfStamp sec (s.todOf g).cfg.2.1
    if s.epoch.isSet ∧ raw < s.rawNow + 400 then s.todGo g raw else s
  | none => s

/-- A generator at tick n: new settings take effect; a changed epoch that has carried the timestamps past its instant
fires it at the deal's first sample. -/
def State.todTick (s : State) (n g : Nat) : State :=
  let x := s.todOf g
  let cfg := s.todCfg g
  let d := s.dealRaw n
  if cfg ≠ x.cfg then
    let on := decide (cfg.2.2 % 2 = 1)
    let period := cfg.2.2 / 2
    let past := s.epoch.isSet && decide (s.rawOfStamp cfg.1 cfg.2.1 < d)
    if !on then s.setTod g { cfg := cfg, waiting := none }
    else if past && decide (period = 0) then (s.setTod g { cfg := cfg, waiting := none }).stick TRG_STAT_TOD_PAST g
    else s.setTod g { cfg := cfg, waiting := some (if past then s.todNext cfg.1 cfg.2.1 period d else cfg.1) }
  else
    match x.waiting with
    | some sec =>
      if (s.stepOf n).isSome && s.epoch.isSet && decide (s.rawOfStamp sec cfg.2.1 < d) then
        let s := s.todGo g d
        match (s.todOf g).waiting with
        | some w => s.setTod g { s.todOf g with waiting := some (s.todNext w cfg.2.1 (cfg.2.2 / 2) d) }
        | none => s
      else s
    | none => s

/-! ### A tick (R277, R287) -/

/-- A slot at tick n: changed settings replace the old ones and discard what the slot remembers; sources are judged. -/
def State.slotTick (s : State) (n k : Nat) : State :=
  let x := s.slotOf k
  let c := s.slotCfg k
  let t := s.dealTime n
  let begins := fun (g : CondCfg) => ({ CondRun.reset with last := if g.ty = 4 then some (t, false) else none } : CondRun)
  let s := if c = x.cfg then s
    else s.setSlot k { x with
      cfg0 := x.cfg, run0 := x.run, since := t, cfg := c, run := { SlotRun.reset with a := begins c.a, b := begins c.b } }
  let offA := s.srcOff c.a
  let offB := s.srcOff c.b
  let y := s.slotOf k
  let s := if y.off = (offA, offB) then s else s.setSlot k { y with off0 := y.off, off := (offA, offB), offAt := t }
  let s := (s.setFld (TRGS_STAT_SRC_OFF_A k) (b2n offA)).setFld (TRGS_STAT_SRC_OFF_B k) (b2n offB)
  (s.putBit TRG_STAT_SRC_OFF k (offA || offB)).showPending k

/-- The shared settings at tick n: new delays and output settings, which the pins' levels follow (R287, R288). -/
def State.trigShared (s : State) (n : Nat) : State :=
  if s.trigCfg = s.trig.cfg then s
  else
    let s := { s with trig := { s.trig with cfg0 := s.trig.cfg, cfg := s.trigCfg, since := s.dealTime n } }
    (s.showOut 0).showOut 1

/-- The trigger engine at tick n. -/
def State.trigTick (s : State) (n : Nat) : State :=
  let s := s.trigShared n
  let s := (List.range 8).foldl (fun s k => s.slotTick n k) s
  (List.range 4).foldl (fun s g => s.todTick n g) s

/-- Whether hold-off is in progress in a slot, as a read of TRGn_STAT shows it (R305). -/
def State.holding (s : State) (n : Nat) : Bool :=
  let x := s.slotOf n
  (decide (x.cfg.holdMode = 2) && decide (0 < x.run.left)) ||
  (decide (x.cfg.holdMode = 1) && (match x.run.held with
    | some t => decide (s.rawNow * unitSample < t + (x.cfg.hold : Int) * s.unitNs)
    | none => false))

/-- Whether a slot's staged settings break R281: a TIMEOUT with T1 below 16,384. `get` reads a register. -/
def timeoutShort (get : Nat → Word) (n : Nat) : Bool :=
  let f := fun (x : Field) => wordBits (get x.addr) x.lo x.width
  (decide (f (TRGS_A_CFG_TYPE n) = 4) && decide (f (TRGS_A_T1_VALUE n) < 16384)) ||
  (decide (f (TRGS_B_CFG_TYPE n) = 4) && decide (f (TRGS_B_T1_VALUE n) < 16384))

/-! ### Trigger outputs (R288) -/

/-- A fixed-delay output asserts: at its edge, or, when the fire came after it, at once and late. -/
def State.outAssert (s : State) (o : Nat) (late : Bool) : State :=
  match instGet [] s.trig.outQ o with
  | [] => s
  | e :: t =>
    if s.trigNow ≤ e then s
    else
      let s := { s with trig := { s.trig with outQ := instSet [] s.trig.outQ o t } }
      let s := s.assertOut o (if late then s.rawNow * unitSample else e)
      if late then
        (s.addSat (if o = 0 then TRG_OUT_LATE_OUT0 else TRG_OUT_LATE_OUT1) 1).stick TRG_STAT_OUT_LATE o
      else s

/-- A trigger output releases when its pulse has run (R288). -/
def State.outRelease (s : State) (o : Nat) : State :=
  match instGet none s.trig.pulse o with
  | some e => if e < s.trigNow then ({ s with trig := { s.trig with pulse := instSet none s.trig.pulse o none } }).showOut o else s
  | none => s

/-! ### Meanings -/

/-- TIMEOUT_FIRE (R281). -/
def execTimeoutFire (slot : Fin 8) (isB : Bool) (s : State) : Host.Outcome State Fault Refusal :=
  done (s.trigTimeout slot isB)

/-- TOD_FIRE (R282, R305). -/
def execTodFire (g : Fin 4) (s : State) : Host.Outcome State Fault Refusal := done (s.todFire g)

/-- TRG_FORCE (R282). -/
def execTrgForce (mask : BitVec 8) (idx : Int) (s : State) : Host.Outcome State Fault Refusal :=
  done (s.trigForce mask.toNat idx)

/-- TRIG_OUT_ASSERT (R288). -/
def execTrigOutAssert (o : Fin 2) (late : Bool) (s : State) : Host.Outcome State Fault Refusal := done (s.outAssert o late)

/-- TRIG_OUT_RELEASE (R288). -/
def execTrigOutRelease (o : Fin 2) (s : State) : Host.Outcome State Fault Refusal := done (s.outRelease o)

end Sys2Proof.Machine
end

