-- ==== Sys2Proof/Machine/Pot.lean ====
section
/-! DEFINITION. The pot: arrival of records (R246), keys and release (R247, R248), destinations (R249), product enables
(R250), the arbiter of FMT events (R244) and the merge of PKS lists (R239). -/

namespace Sys2Proof.Machine

/-! ### Products (R219, R250, R485) -/

/-- A product by its number. -/
def State.productNo (s : State) (n : Nat) : Option Product := s.img.products.find? (fun x => decide (x.number = n))

/-- Whether a product is enabled for a deal (R250): POT_PROD_EN as it stood at the last tick at or before it. -/
def State.prodOn (s : State) (product deal : Nat) : Bool :=
  match s.pot.en.find? (fun e => decide (e.1 = product) && decide (e.2.1 ≤ deal)) with
  | some e => e.2.2
  | none => s.bitSet (POT_PROD_EN_EN (product / 32)) (product % 32)

/-- Step 6 of R49 at tick n: products whose enable changed hold it from deal n on (R250). -/
def State.prodTick (s : State) (n : Nat) : State :=
  s.img.products.foldl (fun s x =>
    let now := s.bitSet (POT_PROD_EN_EN (x.number / 32)) (x.number % 32)
    let old := (s.pot.en.find? (fun e => decide (e.1 = x.number))).map (fun e => e.2.2)
    if old = some now then s
    else { s with pot := { s.pot with en := ((x.number, n, now) :: s.pot.en).take 4096 } }) s

/-- A program by its number. -/
def State.programNo (s : State) (n : Nat) : Option Program := s.img.programs.find? (fun g => decide (g.prog = n))

/-- The length N of a leaf's transform under a program: the ganged length for a gang (R219). -/
def State.spanOf (s : State) (l : Nat) (g : Program) : Nat :=
  match s.gang? l with
  | some (_, _, _, n) => n * g.wlen
  | none => g.wlen

/-- The represented instant of coarse sample h / 2 on an input, in 1/65,536 sample (R122). -/
def State.coarsePos (s : State) (input : Nat) (h : Nat) : Int :=
  ((32768 * 400 * h + 65536 * 399 : Nat) : Int) - ((256 * s.fld (CBKI_GD_GD input) : Nat) : Int)

/-- The timestamp of a record that covers a deal (R219), for a length N. -/
def State.dealPos (s : State) (input : Nat) (g : Program) (span deal : Nat) : Int :=
  s.coarsePos input (2 * deal * s.dealLen + ((s.framesPerDeal g - 1) * g.hop + span - 1))

/-- The centre of frame `frame` of a deal (R219). -/
def State.framePos (s : State) (input : Nat) (g : Program) (span deal frame : Nat) : Int :=
  s.coarsePos input (2 * (deal * s.framesPerDeal g + frame) * g.hop + span - 1)

/-! ### DEGRADED (R388) -/

/-- The leaves whose streams a record of a product from a leaf is computed from: the leaf; with it the members of its trick or
gang when the product's program exchanges data (R139, R195); and of all the leaves below a GROUP that combines the product (R192). -/
def State.sourceLeaves (s : State) (l : Nat) (x : Product) : List Nat :=
  let shares := match s.programNo x.prog with
    | some g => decide (0 < g.xpubF + g.xpubD)
    | none => false
  let mates := fun (m : Nat) => if shares then m :: s.mates m else [m]
  let below := (s.combiners x.number).flatMap (fun i => if s.leaderOf 2049 i = l then s.leavesOf i else [])
  (l :: below).flatMap mates

/-- Whether a product of a leaf depends on a failed die link (R16): the links of its inputs to the dies that compute it; the
bridge where its hand spans dies, its stream leaves at the other die, the product ring lies in memory of the other die, it
goes to the render helper on ADIE1, or to the top merge. -/
def State.linkDegraded (s : State) (l : Nat) (x : Product) : Bool :=
  let die := l / 512
  let spans := (s.handLeaves l).any (fun m => decide (m / 512 ≠ die))
  let far := (List.range 16).any (fun i => s.subLive i && decide (i / 8 ≠ die))
  s.crossesFailed ((s.sourceLeaves l x).map (fun m => 2 * ((s.streamOf m).2 / 2) + m / 512)) ||
  (s.crossesFailed [5] && (spans || (x.stream && decide (x.port ≠ die)) || (x.ring && far) || (x.render && decide (die ≠ 1)) ||
    x.merge))

/-- Whether a leaf's later records of a deal carry DEGRADED for lost work or an unhidden fault of its hand (R193, R207): judged
when the record reaches the pot, which recalls none that it has. -/
def State.lostWork (s : State) (l deal : Nat) : Bool := decide (deal ∈ (s.leafOf l).degr) || (s.leafOf l).always

/-- Whether the records that a leaf's pot section releases now carry DEGRADED (R86, R209). -/
def State.leafDegraded (s : State) (l : Nat) : Bool :=
  bitOf s.conv.degraded (s.streamOf l).2 || decide (l / 16 ∈ s.hand.cluDegr)

/-- Whether a combined record of a leader carries DEGRADED for what its members owed (R192). -/
def State.combineDegraded (s : State) (l product deal : Nat) : Bool :=
  s.hand.combine.any (fun c => decide (c.product = product) && decide (c.deal = deal) && c.degr &&
    decide (s.leaderOf 2049 c.node = l))

/-! ### Arrival (R246) -/

/-- The index of a record within its product, leaf and deal, and the count advanced (R247). -/
def State.nextPart (s : State) (l product deal : Nat) : Nat × State :=
  let same := fun (x : Nat × Nat × Nat × Nat) => decide (x.1 = l) && decide (x.2.1 = product) && decide (x.2.2.1 = deal)
  let n := ((s.pot.parts.find? same).map (fun x => x.2.2.2)).getD 0
  (n, { s with pot := { s.pot with parts := ((l, product, deal, n + 1) :: s.pot.parts.filter (fun x => !same x)).take 65536 } })

/-- A 64-bit entry of a record's payload. -/
def ResultRecord.word (r : ResultRecord) (i : Nat) : Nat := (r.words.getD i (0, 0)).1

/-- A record reaches its pot section. One of a product that the image does not define, or that is disabled for its deal, is
discarded (R250, R553). An FMT event also passes to the arbiter (R244). -/
def State.arrive (s : State) (r : ResultRecord) : State :=
  match s.productOf r.prog r.loc, s.programNo r.prog with
  | some x, some g =>
    if s.prodOn x.number r.deal then
      let (ch, input) := s.streamOf r.logical
      let span := s.spanOf r.logical g
      let event := decide (x.kind = 7)
      let pos := if event then s.framePos input g span r.deal r.frame else s.dealPos input g span r.deal
      let (idx, s) := s.nextPart r.logical x.number r.deal
      let q : PotRec :=
        { deal := r.deal, product := x.number, channel := ch, input := input, member := s.gangIndex r.logical,
          part := if event then r.frame else idx, logical := r.logical, kind := x.kind, rtype := x.rtype,
          payload := r.words.flatMap (fun w => leBytes 8 w.1), ovf := r.ovf, late := false,
          degr := r.degr || s.lostWork r.logical r.deal || s.linkDegraded r.logical x || s.combineDegraded r.logical x.number r.deal,
          classW := x.classW,
          merged := false, pos := pos, sent := [] }
      let e : FmtEvent := { input := input, side := bitsOf (r.word 2) 48 8, pos := pos }
      { s with pot := { s.pot with
        wait := s.pot.wait ++ [q], events := if event then s.pot.events ++ [e] else s.pot.events } }
    else s
  | _, _ => s

/-- A record's bytes with its header (R246). -/
def PotRec.size (q : PotRec) : Nat := 64 + q.payload.length

/-- The bytes that the result store of a cluster holds. -/
def State.storeOf (s : State) (c : Nat) : Nat :=
  ((s.pot.wait.filter (fun q => !q.merged && decide (clusterOf (s.fld (HAND_MAP_PHYS q.logical)) = c))).map PotRec.size).sum

/-- Store occupancies are shown (R251). -/
def State.showPot (s : State) : State :=
  let sizes := (List.range 64).map (fun c => s.storeOf c)
  let s := (List.range 4).foldl (fun s q =>
    let m := ceilDiv (((sizes.drop (16 * q)).take 16).foldl max 0) 1024
    (s.setFld (POT_Q_STORE_CUR q) m).maxFld (POT_Q_STORE_MAX q) m) s
  s.setIf (sizes.any (fun x => decide (2359296 < x))) POT_STAT_STORE_HIGH

/-- Records that have left their hands reach the pot. -/
def State.potTake (s : State) : State :=
  if s.hand.done.isEmpty then s
  else
    let rs := s.hand.done
    (rs.foldl (fun (s : State) r => s.arrive r) { s with hand := { s.hand with done := [] } }).showPot

/-! ### Order (R247, R248) -/

/-- A record's key but for PART. -/
def PotRec.key (q : PotRec) : List Nat := [q.deal, q.product, q.channel, q.input, q.member]

/-- Lexicographic order. -/
def keyLt : List Nat → List Nat → Bool
  | a :: s, b :: t => decide (a < b) || (decide (a = b) && keyLt s t)
  | _, _ => false

/-- Whether a channel that a record is computed from saturated in its deal (R115). -/
def State.satRec (s : State) (q : PotRec) : Bool :=
  match s.productNo q.product with
  | some x => (s.sourceLeaves q.logical x).any (fun m => s.satOf (s.streamOf m).2 (s.streamOf m).1 q.deal)
  | none => false

/-- The destinations of a product's records (R249): 0 and 1 the stream formatter of ETH0 and ETH1 (R14), 2 the product ring,
3 the render helper, 4 the top merge. -/
def Product.dests (x : Product) : List Nat :=
  (if x.stream then [x.port] else []) ++ (if x.ring then [2] else []) ++ (if x.render then [3] else []) ++
  (if x.merge then [4] else [])

/-- The destinations that a waiting record still has to reach; a merged list does not go back to the top merge. -/
def PotRec.awaits (q : PotRec) (x : Product) : List Nat :=
  x.dests.filter (fun d => decide (d ∉ q.sent) && !(q.merged && decide (d = 4)))

/-- Whether a leaf runs a product's program. -/
def State.runsProduct (s : State) (l : Nat) (x : Product) : Bool := (s.programsOf l).any (fun g => decide (g.prog = x.prog))

/-- Whether a leaf forms records of a product: it runs the program and no GROUP combines its records away (R192). -/
def State.forms (s : State) (l : Nat) (x : Product) : Bool :=
  s.runsProduct l x &&
  !(s.combiners x.number).any (fun i => decide (l ∈ s.combineMembers i))

/-- Whether the tasks of a leaf and deal that would form a product's records have ended or been dropped (R247): the FRAME
tasks for FMT events, the DEAL task for a library program's other records, both for a customer's. -/
def State.tasksOver (s : State) (l : Nat) (x : Product) (g : Program) (deal : Nat) : Bool :=
  let leaf := s.leafOf l
  (decide (1 ≤ x.kind ∧ x.kind ≤ 6) || decide (g.frameEntry = 0x3FFF) || decide (s.framesPerDeal g ≤ leaf.endedOf g.prog deal)) &&
  (decide (x.kind = 7) || decide (g.dealEntry = 0x3FFF) || decide ((g.prog, deal) ∈ leaf.dealEnd))

/-- Records of a product and deal that an engine has committed and not yet drained. -/
def State.undrained (s : State) (l : Nat) (x : Product) (deal : Nat) : Bool :=
  let e := s.engOf (s.fld (HAND_MAP_PHYS l))
  e.produced x.prog deal x.loc

/-- Whether a record of a product from a leaf for a deal may still come (R247, R248). -/
def State.mayCome (s : State) (l : Nat) (x : Product) (deal : Nat) : Bool :=
  s.prodOn x.number deal &&
  (s.undrained l x deal ||
    (s.flag (HAND_MAP_VALID l) && decide (s.deal.first ≤ deal) && decide (s.pair DEAL_NUM < deal + 3) &&
      decide (deal ∉ (s.leafOf l).gone) &&
      (match s.programNo x.prog with
        | some g => !s.tasksOver l x g deal
        | none => false)))

/-- The scopes of a merged product: inputs with a leaf that runs its program, or the device (R239). -/
def State.mergeScopes (s : State) (x : Product) : List Nat :=
  let ins := (List.range 4).filter (fun i => (List.range 1024).any (fun l =>
    decide ((s.streamOf l).2 = i) && s.runsProduct l x))
  if s.flag POT_CFG_PKS_SCOPE then (if ins.isEmpty then [] else [4]) else ins

/-- Whether something with a smaller key than a record may still come, or waits, for a destination (R247). -/
def State.blockedAt (s : State) (q : PotRec) (dest : Nat) : Bool :=
  let deals := (List.range 6).map (fun i => q.deal - i)
  s.pot.wait.any (fun r => (match s.productNo r.product with
    | some y => decide (dest ∈ r.awaits y)
    | none => false) && (keyLt r.key q.key || (decide (r.key = q.key) && decide (r.part < q.part)))) ||
  (s.img.products.filter (fun y => decide (dest ∈ y.dests))).any (fun y =>
    deals.any (fun d =>
      (List.range 1024).any (fun l =>
        let (ch, i) := s.streamOf l
        keyLt [d, y.number, ch, i, s.gangIndex l] q.key && s.forms l y && s.mayCome l y d) ||
      (y.merge && decide (dest ≠ 4) && decide (s.deal.first ≤ d) && s.prodOn y.number d && (s.mergeScopes y).any (fun i =>
        keyLt [d, y.number, 256, i, 0] q.key && decide ((y.number, d, i) ∉ s.pot.merged) &&
        decide (s.pair DEAL_NUM < d + 4)))))

/-- The destinations to which a record may go now: all lower keys have been released there or are absent. -/
def State.openDests (s : State) (q : PotRec) (x : Product) : List Nat :=
  (q.awaits x).filter (fun d => !s.blockedAt q d)

/-! ### Delivery (R248, R249) -/

/-- The flags of a record as it is released (R388). -/
def State.potFlags (s : State) (q : PotRec) : Nat :=
  let n := s.pair DEAL_NUM
  let late := q.late || decide (q.deal + 2 ≤ n) || decide (q.deal ∈ s.deal.lateDeals) ||
    (!q.merged && decide (q.deal ∈ (s.leafOf q.logical).late))
  let degr := q.degr || (!q.merged && s.leafDegraded q.logical)
  let ovf := q.ovf || (!q.merged && s.satRec q)
  flagIf ovf flOvf ||| flagIf late flLate ||| flagIf degr flDegr ||| flagIf q.classW flClassW

/-- The logical engine of the leader of a leaf's hand (R387). -/
def State.handLeader (s : State) (l : Nat) : Nat :=
  match s.leafNode? l with
  | some i => s.leaderOf 2049 (s.rootOf i)
  | none => l

/-- The record with its header (R387). -/
def State.potBytes (s : State) (q : PotRec) : List Byte :=
  s.record { ty := q.rtype, flags := s.potFlags q, product := q.product, input := q.input, channel := q.channel,
             logical := if q.merged then 0xFFFF else s.handLeader q.logical, member := q.member, block := 0x10, part := q.part,
             deal := q.deal, pos := q.pos, gap := none, rawGap := true } q.payload

/-- The product ring: its device address and size, as clipped (R249). -/
def State.ringRegion (s : State) : Nat × Nat :=
  match s.img.regions.find? (fun r => decide (r.1 = 8)) with
  | some (_, base, size) => (base, min size (s.capacity - (base - sdramBase)))
  | none => (0, 0)

/-- The product ring wraps. -/
def State.ringWrap (s : State) : State := (s.addWrap POT_RING_WRAPS_COUNT 1).setFld POT_STAT_RING_WRAP 1

/-- A record is written to the product ring (R249). -/
def State.ringPut (s : State) (bytes : List Byte) : State :=
  let (base, size) := s.ringRegion
  let wr := s.pair POT_RING_WR
  if size < bytes.length ∨ size = 0 then s
  else
    let crosses := decide (size < wr + bytes.length)
    let s := if crosses then (s.sdWrite (base + wr) (zeros (size - wr))).ringWrap else s
    let at' := if crosses then 0 else wr
    let s := s.sdWrite (base + at') bytes
    let next := at' + bytes.length
    let s := if next = size then s.ringWrap else s
    s.setPair POT_RING_WR (if next = size then 0 else next)

/-- A channel list reaches the top merge (R239). -/
def State.giveMerge (s : State) (q : PotRec) : State :=
  let f := s.potFlags q
  let p : PksList :=
    { product := q.product, deal := q.deal, input := q.input, channel := q.channel, payload := q.payload,
      late := decide (f &&& flLate ≠ 0), ovf := decide (f &&& flOvf ≠ 0), degr := decide (f &&& flDegr ≠ 0) }
  { s with pot := { s.pot with lists := s.pot.lists ++ [p] } }

/-- A record goes to one of its product's destinations (R249). -/
def State.deliverRec (s : State) (q : PotRec) (x : Product) (dest : Nat) : State :=
  let bytes := s.potBytes q
  let degr := decide (s.potFlags q &&& flDegr ≠ 0)
  match dest with
  | 2 => s.ringPut bytes
  | 3 => { s with pot := { s.pot with dens := s.pot.dens ++ [{ q with degr := degr }] } }
  | 4 => s.giveMerge q
  | _ => s.offerDeal x.port x.strm q.deal bytes false

/-- A record is delivered to some destinations; once it has had all of them it is released: counted, its store freed (R247,
R248). -/
def State.releaseRec (s : State) (q : PotRec) (x : Product) (ds : List Nat) : State :=
  let late := decide (s.potFlags q &&& flLate ≠ 0)
  let s := ds.foldl (fun s d => s.deliverRec q x d) s
  let q' := { q with sent := q.sent ++ ds }
  if (q'.awaits x).isEmpty then
    let s := s.setPair POT_REC_COUNT (s.pair POT_REC_COUNT + 1)
    let s := if late then (s.addSat POT_LATE_COUNT_COUNT 1).setFld POT_STAT_LATE 1 else s
    { s with pot := { s.pot with wait := s.pot.wait.erase q } }.showPot
  else { s with pot := { s.pot with wait := s.pot.wait.map (fun r => if r = q then q' else r) } }

/-- The record that comes first in key order among some. -/
def leastRec : List PotRec → Option PotRec
  | [] => none
  | q :: t =>
    match leastRec t with
    | some r => if keyLt r.key q.key || (decide (r.key = q.key) && decide (r.part < q.part)) then some r else some q
    | none => some q

/-- A record whose lower keys are released or absent at some destination is delivered there (R247); none of an incomplete
deal is (R71). -/
def State.release (s : State) : State :=
  let ready := s.pot.wait.filter (fun q => s.emitted q.deal &&
    (match s.productNo q.product with
    | some x => (q.awaits x).isEmpty || !(s.openDests q x).isEmpty
    | none => true))
  match leastRec ready with
  | some q =>
    match s.productNo q.product with
    | some x => s.releaseRec q x (s.openDests q x)
    | none => { s with pot := { s.pot with wait := s.pot.wait.erase q } }
  | none => s

/-! ### Absent records (R248) -/

/-- The records that a product has from one leaf and deal: DNS one for each 128 columns (R234); an FMT event exists only once a
frame has violated its mask. -/
def State.recordsPerDeal (s : State) (x : Product) : Nat :=
  match x.kind, s.programNo x.prog with
  | 3, some g => ceilDiv (dnsCols g) 128
  | 7, _ => 0
  | _, _ => 1

/-- The records of a product, leaf and deal that have been committed: those that have reached the pot and those on their way. -/
def State.recordsMade (s : State) (l : Nat) (x : Product) (deal : Nat) : Nat :=
  let e := s.engOf (s.fld (HAND_MAP_PHYS l))
  ((s.pot.parts.find? (fun y => decide (y.1 = l) && decide (y.2.1 = x.number) && decide (y.2.2.1 = deal))).map
    (fun y => y.2.2.2)).getD 0 +
  e.fifo.countP (fun y => match y with
    | .opens g p d _ _ => decide (g = x.prog) && decide (p = x.loc) && decide (d = deal)
    | _ => false) +
  (match e.drain with
    | some r => b2n (decide (r.prog = x.prog) && decide (r.loc = x.loc) && decide (r.deal = deal))
    | none => 0)

/-- The records of a deal that a leaf still owes: those that it forms for enabled products and has not committed. -/
def State.owedRecords (s : State) (l deal : Nat) : Nat :=
  ((s.img.products.filter (fun x => s.forms l x && s.prodOn x.number deal && (match s.programNo x.prog with
    | some g => !s.tasksOver l x g deal
    | none => false))).map (fun x => s.recordsPerDeal x - s.recordsMade l x deal)).sum

/-- A leaf's uncommitted records of a deal become absent, once. -/
def State.absentLeaf (s : State) (l deal : Nat) : State :=
  if (l, deal) ∈ s.pot.absent ∨ s.leafOwes l deal = false then s
  else
    let n := s.owedRecords l deal
    let s := (s.degradeHand l deal).addSat POT_ABSENT_COUNT_COUNT n
    let s := s.setIf (decide (0 < n)) POT_STAT_ABSENT
    { s with pot := { s.pot with absent := ((l, deal) :: s.pot.absent).take 65536 } }

/-- At tick n + 3 every uncommitted record of deal n becomes absent (R248). -/
def State.recordAbsent (s : State) (deal : Nat) : State :=
  if s.pair DEAL_NUM < deal + 3 then s else (List.range 1024).foldl (fun s l => s.absentLeaf l deal) s

/-! ### The arbiter (R244) -/

/-- The scope of an event: its input, or 4 for the device. -/
def State.fmtScope (s : State) (e : FmtEvent) : Nat := if s.flag POT_CFG_FMT_SCOPE then 4 else e.input

/-- The `i`-th event on its way reaches the arbiter: it opens a window or joins the open one. -/
def State.fmtArrive (s : State) (i : Nat) : State :=
  match s.pot.events[i]? with
  | some e =>
    let k := s.fmtScope e
    { s with pot := { s.pot with
      events := s.pot.events.eraseIdx i, windows := instSet [] s.pot.windows k (instGet [] s.pot.windows k ++ [e]) } }
  | none => s

/-- The event of a window with the earliest trigger time, the earlier arrival at equal times. -/
def fmtWinner : List FmtEvent → Option FmtEvent
  | [] => none
  | e :: t =>
    match fmtWinner t with
    | some w => if w.pos < e.pos then some w else some e
    | none => some e

/-- A window closes: the winner goes to TRG, the others are lost. -/
def State.fmtClose (s : State) (k : Nat) : State :=
  let es := instGet [] s.pot.windows k
  match fmtWinner es with
  | some w =>
    let s := { s with pot := { s.pot with windows := instSet [] s.pot.windows k [] } }
    let s := (s.addSat POT_FMT_EVENTS_COUNT 1).setFld POT_STAT_FMT_EVENT 1
    let lost := es.length - 1
    let s := (s.addSat POT_FMT_LOST_COUNT lost).setIf (decide (0 < lost)) POT_STAT_FMT_LOST
    s.trigMask w.input w.side w.pos
  | none => s

/-! ### Merged peak lists (R239) -/

/-- An entry of a channel list on its way into a merged list. -/
structure PeakEntry where
  lp      : Int
  freq    : Nat
  bin     : Int
  input   : Nat
  bytes   : List Byte
  deriving DecidableEq, Repr

/-- The valid entries of a channel list. -/
def State.peaksOf (s : State) (p : PksList) : List PeakEntry :=
  let count := min 8 (leNat ((p.payload.drop 12).take 4))
  (List.range count).map (fun i =>
    let b := (p.payload.drop (16 + 16 * i)).take 16
    { lp := toSigned 16 (leNat ((b.drop 4).take 2)),
      freq := if s.flag (CBKI_CFG_ZONE p.input) then 512 - p.channel else p.channel,
      bin := toSigned 16 (leNat (b.take 2)), input := p.input,
      bytes := b.take 10 ++ leBytes 1 p.input ++ leBytes 1 0 ++ leBytes 2 p.channel ++ leBytes 2 0 })

/-- Whether an entry goes ahead of another in the choice of members: larger LP, then lower frequency, then lower input. -/
def PeakEntry.ahead (a b : PeakEntry) : Bool :=
  decide (b.lp < a.lp) || (decide (a.lp = b.lp) && (decide (a.freq < b.freq) || (decide (a.freq = b.freq) &&
    (decide (a.bin < b.bin) || (decide (a.bin = b.bin) && decide (a.input < b.input))))))

/-- An entry put in its place by LP, behind those of equal LP that came before it. -/
def placePeak (e : PeakEntry) : List PeakEntry → List PeakEntry
  | [] => [e]
  | x :: t => if x.lp < e.lp then e :: x :: t else x :: placePeak e t

/-- The entries chosen: those with fewer than `n` ahead of them, by LP, at equal LP as they arrived. -/
def choosePeaks (n : Nat) (es : List PeakEntry) : List PeakEntry :=
  let mine := es.filter (fun e => decide (es.countP (fun x => x.ahead e) < n))
  mine.foldl (fun acc e => placePeak e acc) []

/-- The preamble of a merged list (R224, R239). -/
def State.mergePreamble (s : State) (g : Program) (count : Nat) : List Byte :=
  let p0 := g.param.getD 0 0
  let flags := bitsOf p0 27 2 + 8 * b2n (decide (bitsOf p0 0 20 ≠ 0))
  leBytes 1 8 ++ leBytes 1 (10 + bitsOf p0 29 3) ++ leBytes 1 flags ++ leBytes 1 0 ++ leBytes 2 (s.framesPerDeal g) ++
  leBytes 1 (bitsOf p0 20 6) ++ leBytes 1 0 ++ leBytes 4 0 ++ leBytes 4 count

/-- The inputs of a scope with a leaf that runs a product's program. -/
def State.scopeInputs (s : State) (x : Product) (k : Nat) : List Nat :=
  (List.range 4).filter (fun i => (decide (k = 4) || decide (k = i)) && (List.range 1024).any (fun l =>
    decide ((s.streamOf l).2 = i) && s.runsProduct l x))

/-- The leaves whose lists a merged list takes, that have not given one for a deal. -/
def State.missingLists (s : State) (x : Product) (deal k : Nat) : List Nat :=
  (List.range 1024).filter (fun l =>
    let (ch, i) := s.streamOf l
    (decide (k = 4) || decide (k = i)) && s.forms l x &&
    !s.pot.lists.any (fun p => decide (p.product = x.number) && decide (p.deal = deal) && decide (p.input = i) &&
      decide (p.channel = ch)))

/-- The top merge builds the list of a product, deal and scope: when every list has come, or from tick n + 3 with those it
has (R239). -/
def State.pksMerge (s : State) (product deal k : Nat) : State :=
  match s.productNo product with
  | none => s
  | some x =>
    match s.programNo x.prog with
    | none => s
    | some g =>
      let missing := s.missingLists x deal k
      let again := decide ((product, deal, k) ∈ s.pot.merged)
      if !x.merge || decide (k ∉ s.mergeScopes x) || again || !s.prodOn product deal || decide (deal < s.deal.first) ||
          (!missing.isEmpty && decide (s.pair DEAL_NUM < deal + 3)) then s
      else
        let mine := s.pot.lists.filter (fun p => decide (p.product = product) && decide (p.deal = deal) &&
          (decide (k = 4) || decide (k = p.input)))
        let ntop := s.fld POT_CFG_PKS_NTOP
        let es := choosePeaks ntop (mine.flatMap s.peaksOf)
        let body := s.mergePreamble g es.length ++ es.flatMap (fun e => e.bytes) ++ zeros (16 * (ntop - es.length))
        let degr := !missing.isEmpty || mine.any (fun p => p.degr)
        let input := (s.scopeInputs x k).headD 0
        let q : PotRec :=
          { deal := deal, product := product, channel := 256, input := k, member := 0, part := 0, logical := 0, kind := 8,
            rtype := x.rtype, payload := body, ovf := mine.any (fun p => p.ovf), late := mine.any (fun p => p.late), degr := degr,
            classW := true, merged := true, pos := s.dealPos input g g.wlen deal, sent := [] }
        let s := s.setIf degr POT_STAT_MERGE_DEG
        { s with pot := { s.pot with
          wait := s.pot.wait ++ [q], merged := ((product, deal, k) :: s.pot.merged).take 65536,
          lists := s.pot.lists.filter (fun p => !(p ∈ mine)) } }

/-! ### Meanings -/

/-- RECORD_RELEASE (R247). -/
def execRecordRelease (s : State) : Host.Outcome State Fault Refusal := done s.release

/-- RECORD_ABSENT (R248). -/
def execRecordAbsent (deal : Nat) (s : State) : Host.Outcome State Fault Refusal := done (s.recordAbsent deal)

/-- FMT_EVENT_ARRIVAL (R244). -/
def execFmtEventArrival (i : Nat) (s : State) : Host.Outcome State Fault Refusal := done (s.fmtArrive i)

/-- ARBITRATION_WINDOW_CLOSE (R244). -/
def execArbitrationWindowClose (k : Fin 5) (s : State) : Host.Outcome State Fault Refusal := done (s.fmtClose k)

/-- PKS_MERGE (R239). -/
def execPksMerge (product : Fin 256) (deal : Nat) (k : Fin 5) (s : State) : Host.Outcome State Fault Refusal :=
  done (s.pksMerge product deal k)

/-- RESULT_FIFO_DRAIN (R174): a complete record reaches the pot (R246). -/
def execResultFifoDrain (p : Fin 1088) (s : State) : Host.Outcome State Fault Refusal := done (s.drainOne p).potTake

/-- At tick n + 3 a hand that still owes work of deal n abandons the rest of it, and what it owed becomes absent (R41, R248). -/
def State.overrun (s : State) (leader n : Nat) : State :=
  let ls := (s.handOf leader).filter (fun l => s.leafOwes l n)
  if s.pair DEAL_NUM < n + 3 ∨ ls.isEmpty = true then s
  else
    let s := ls.foldl (fun s l => s.absentLeaf l n) s
    let s := (ls.foldl (fun s l => s.abandonLeaf l n) s).potTake
    (s.setFld DEAL_STAT_OVERRUN 1).logEvent 0x0102 sevAttention (leader + (n % 65536) <<< 16)

/-- OVERRUN (R41). -/
def execOverrun (leader : Fin 1024) (deal : Nat) (s : State) : Host.Outcome State Fault Refusal := done (s.overrun leader deal)

end Sys2Proof.Machine
end

