-- ==== Sys2Proof/Machine/Display.lean ====
section
/-! DEFINITION. Display scan-out (16_display_scanout.md): the link, the frame's events, the two layers, commits and
retirement, and the render helper. -/

namespace Sys2Proof.Machine

/-! ### The link (R437 to R440) -/

/-- DISP_STAT.LINK's values (R438). -/
def dpOff : Nat := 0

/-- WAIT_HPD. -/
def dpWait : Nat := 1

/-- TRAIN. -/
def dpTrain : Nat := 2

/-- ACTIVE. -/
def dpActive : Nat := 3

/-- FAIL. -/
def dpFail : Nat := 4

/-- The display is on. -/
def State.dispOn (s : State) : Bool := s.flag DISP_CFG_EN

/-- Lanes of a LANES code. -/
def laneCount (code : Nat) : Nat := 2 ^ code

/-- A link rate in Mbit/s per lane (R437). -/
def linkRate (code : Nat) : Nat := match code with
  | 0 => 1620
  | 1 => 2700
  | 2 => 5400
  | _ => 8100

/-- Whether f_pix × 24 fits in 0.97 × lanes × rate × 0.8, with f_pix = 600 MHz / PDIV (R439). -/
def modeFits (pdivM1 lanes rate : Nat) : Bool :=
  decide (14400 * 1000 ≤ 776 * laneCount lanes * linkRate rate * (pdivM1 + 1))

/-- Training begins, at the rate the image asks for. -/
def State.startTraining (s : State) : State :=
  let s := s.setFld DISP_STAT_LINK dpTrain
  { s with disp := { s.disp with rate := s.fld DISP_CFG_RATE, sending := false } }

/-- HPD asserts for 100 ms, or deasserts for 2 ms (R438). -/
def State.hpd (s : State) (up : Bool) : State :=
  if s.flag DISP_STAT_HPD = up then s
  else
    let s := s.setFld DISP_STAT_HPD (b2n up)
    let st := s.fld DISP_STAT_LINK
    if !s.dispOn then s
    else
      let s := s.logEvent 0x0E03 sevInfo (b2n up)
      if up && (decide (st = dpWait) || decide (st = dpFail)) then s.startTraining
      else if !up && decide (st = dpActive) then
        let s := s.setFld DISP_STAT_LINK dpWait
        { s with disp := { s.disp with sending := false } }
      else s

/-- IRQ_HPD reports lost lock. -/
def State.irqHpd (s : State) : State := if s.fld DISP_STAT_LINK = dpActive then s.startTraining else s

/-- RETRAIN is written. -/
def State.retrainLink (s : State) : State :=
  if s.fld DISP_STAT_LINK = dpActive ∨ s.fld DISP_STAT_LINK = dpFail then s.startTraining else s

/-- Training ends: video is sent from the next line 0; or the next lower rate at which the mode fits is tried; or FAIL. -/
def State.trainingEnd (s : State) (good : Bool) : State :=
  if s.fld DISP_STAT_LINK ≠ dpTrain then s
  else if good then s.setFld DISP_STAT_LINK dpActive
  else if 0 < s.disp.rate ∧ modeFits (s.fld DISP_CFG_PDIV_M1) (s.fld DISP_CFG_LANES) (s.disp.rate - 1) = true then
    { s with disp := { s.disp with rate := s.disp.rate - 1 } }
  else
    let s := (s.setFld DISP_STAT_LINK dpFail).setFld DISP_STAT_LINK_FAIL 1
    s.logEvent 0x0E02 sevAttention (s.fld DISP_CFG_RATE + 256 * s.fld DISP_CFG_LANES)

/-! ### Layer L0 (R442 to R447) -/

/-- HACT. -/
def State.hact (s : State) : Nat := s.fld DISP_H_TIMING_ACT

/-- VACT. -/
def State.vact (s : State) : Nat := s.fld DISP_V_TIMING_ACT

/-- The pitch P (R442). -/
def State.pitch (s : State) : Nat := 64 * ceilDiv s.hact 64

/-- A number of bytes rounded up to 4 KiB. -/
def up4K (n : Nat) : Nat := 4096 * ceilDiv n 4096

/-- The L0 region: device address and size (R34). -/
def State.l0Region (s : State) : Nat × Nat :=
  match s.img.regions.find? (fun r => decide (r.1 = 9)) with
  | some (_, base, size) => (base, size)
  | none => (0, 0)

/-- The bytes of a line of a plane; those at or beyond installed capacity are `black` (R447). -/
def State.l0Bytes (s : State) (a black n : Nat) : List Nat :=
  (List.range n).map (fun i =>
    if s.capacity ≤ a + i - sdramBase then black else if s.sdDumb (a + i - sdramBase) then 0 else (s.sdByte (a + i - sdramBase)).toNat)

/-- A line of luma of the planes shown, mixed with the old planes' in the first frame after a commit (R453). -/
def State.mixLine (s : State) (base : Planes → Nat) (j black : Nat) : List Nat :=
  let line := fun (p : Planes) => s.l0Bytes (base p + j * s.pitch) black s.hact
  match s.disp.old with
  | some p => if s.flag DISP_CFG_XFADE then List.zipWith (fun a b => (a + b + 1) / 2) (line p) (line s.disp.eff)
    else line s.disp.eff
  | none => line s.disp.eff

/-- A line put into a slot of the line buffer as far as it has arrived; the rest of the slot stays (R445). -/
def fillSlot (slots : List (Nat × List Nat)) (i got : Nat) (line : List Nat) : List (Nat × List Nat) :=
  let was := instGet [] slots i
  let was := was ++ List.replicate (line.length - was.length) 0
  instSet [] slots i (line.take got ++ (was.take line.length).drop got)

/-- A line late in the buffer: DISP_UNDERRUNS, UNDERRUN and its event (R445). -/
def State.underrun (s : State) : State :=
  ((s.addSat DISP_UNDERRUNS_COUNT 1).setFld DISP_STAT_UNDERRUN 1).logEvent 0x0E01 sevInfo 0

/-- A component limited to 0 to 255 (R443). -/
def clamp8 (x : Int) : Nat := (clampInt 0 255 x).toNat

/-- An L0 pixel's R, G and B (R443). -/
def toRgb (y cb cr : Nat) : Nat × Nat × Nat :=
  let yy : Int := (y : Int) - 16
  let bb : Int := (cb : Int) - 128
  let rr : Int := (cr : Int) - 128
  (clamp8 ((298 * yy + 459 * rr + 128) / 256), clamp8 ((298 * yy - 55 * bb - 136 * rr + 128) / 256),
    clamp8 ((298 * yy + 541 * bb + 128) / 256))

/-- An overlay pixel's 4-bit index, where the output pixel has one (R448). -/
def State.overlayAt (s : State) (x y : Nat) : Option Nat :=
  let (u, v) := if s.flag DISP_CFG_SCALE then (x / 2, y / 2) else (x, y)
  if u < 1920 ∧ v < 1080 then
    some (bitsOf (sparseGet (fun _ => (0 : Byte)) s.disp.overlay (960 * v + u / 2)).toNat (4 * (u % 2)) 4)
  else none

/-- One component of L1 over L0 (R448). -/
def blend (a l0 l1 : Nat) : Nat := (l0 * (256 - a) + l1 * a + 128) / 256

/-- An output pixel (R443, R448). -/
def State.pixel (s : State) (x y : Nat) (luma chroma : List Nat) : Nat :=
  let (r, g, b) := toRgb (luma.getD x 16) (chroma.getD (2 * (x / 2)) 128) (chroma.getD (2 * (x / 2) + 1) 128)
  match (if s.disp.eff.l1 then s.overlayAt x y else none) with
  | some i =>
    let p := s.disp.eff.pal.getD i 0
    let a := bitsOf p 24 8 + bitsOf p 31 1
    65536 * blend a r (bitsOf p 16 8) + 256 * blend a g (bitsOf p 8 8) + blend a b (bitsOf p 0 8)
  | none => 65536 * r + 256 * g + b

/-- The bytes of a line of a plane that come from memory; those after them lie at or beyond installed capacity and are shown
without an access (R447). In the first frame after a commit with XFADE the old planes' line comes too. -/
def State.fetched (s : State) (base : Planes → Nat) (j : Nat) : Nat :=
  let below := fun (p : Planes) => min s.hact (s.capacity - (base p + j * s.pitch - sdramBase))
  match s.disp.old with
  | some p => if s.flag DISP_CFG_XFADE then max (below p) (below s.disp.eff) else below s.disp.eff
  | none => below s.disp.eff

/-- How many bytes of a line are in the buffer, of `got` that memory has given: a line not yet requested has none, and one
whose last fetched byte is there is whole (R444, R447). -/
def State.arrived (s : State) (base : Planes → Nat) (line j got : Nat) : Nat :=
  let got := if line < s.disp.asked then got else 0
  if s.fetched base j ≤ got then s.hact else got

/-- A line has begun and the next one has not: the place of the events of its pixel 0 (R441). -/
def State.atLine (s : State) (line : Nat) : Bool :=
  decide (s.disp.phase < 4) && decide (s.fld DISP_POS_LINE = line) && decide (s.disp.due ≠ some line)

/-- Pixel 0 of the line that comes next is due: the buffer takes what has arrived of its luma line and, on an even line, of its
chroma line; what has not is sent as the slot stands (R445); with 8 or fewer lines left the next 8 are requested (R444); the
line goes out while the link carries video. -/
def State.lineStart (s : State) (line gotY gotC : Nat) : State :=
  if s.disp.due ≠ some line then s
  else
    let s := s.setFld DISP_POS_LINE line
    let s := { s with disp := { s.disp with
      due := if line + 1 < s.fld DISP_V_TIMING_TOTAL then some (line + 1) else none, matched := false } }
    if s.vact ≤ line then s
    else
      let w := s.hact
      let gotY := s.arrived (fun p => p.y) line line gotY
      let gotC := s.arrived (fun p => p.c) line (line / 2) gotC
      let luma := fillSlot s.disp.luma (line % 16) gotY (s.mixLine (fun p => p.y) line 16)
      let chroma := if line % 2 = 0 then fillSlot s.disp.chroma (line / 2 % 8) gotC (s.mixLine (fun p => p.c) (line / 2) 128)
        else s.disp.chroma
      let asked := if s.disp.asked < s.vact ∧ s.disp.asked ≤ line + 1 + 8 then s.disp.asked + 8 else s.disp.asked
      let s := { s with disp := { s.disp with luma := luma, chroma := chroma, asked := asked } }
      let s := s.when (decide (gotY < w)) State.underrun
      let s := s.when (decide (line % 2 = 0) && decide (gotC < w)) State.underrun
      if s.disp.sending then
        let ys := instGet [] luma (line % 16)
        let cs := instGet [] chroma (line / 2 % 8)
        { s with out := s.out ++ [.line line ((List.range w).map (fun x => s.pixel x line ys cs))] }
      else s

/-- The scan reaches the match line: once per line (R441). -/
def State.lineMatch (s : State) : State :=
  if s.atLine (s.fld DISP_LINE_MATCH_LINE) && !s.disp.matched then
    { s.setFld DISP_STAT_LINE_MATCH 1 with disp := { s.disp with matched := true } }
  else s

/-- At a re-striping tick, L0 that lies partly beyond installed capacity is CLIPPED (R447). -/
def State.dispClip (s : State) : State :=
  let (base, size) := s.l0Region
  let out := base + size - sdramBase - max s.capacity (base - sdramBase)
  if s.dispOn && decide (0 < size) && decide (0 < out) then
    (s.setFld DISP_STAT_CLIPPED 1).logEvent 0x0E04 sevAttention (out / 1024)
  else s

/-! ### Commits (R449 to R454) -/

/-- DISP_STAT.PEND and NEXT show the slots. -/
def State.showSlots (s : State) : State :=
  (s.setFld DISP_STAT_PEND (b2n s.disp.pend.isSome)).setFld DISP_STAT_NEXT (b2n s.disp.next.isSome)

/-- The planes of the latest slot, or of the frame in effect (R457). -/
def State.latestPlanes (s : State) : Planes := (s.disp.next.orElse (fun _ => s.disp.pend)).getD s.disp.eff

/-- The shadows of the overlay's enable and the palette. -/
def State.overlayShadow (s : State) : Bool × List Nat :=
  (s.flag DISP_L1_CFG_EN, (List.range 16).map (fun i => (s.reg (DISP_PAL i).addr).toNat))

/-- The planes of a snapshot lie wholly within the L0 region, 4 KiB aligned and apart (R442, R451). -/
def State.planesFit (s : State) (y c : Nat) : Bool :=
  let (base, size) := s.l0Region
  let ny := s.pitch * s.vact
  let nc := s.pitch * (s.vact / 2)
  decide (y % 4096 = 0) && decide (c % 4096 = 0) && decide (base ≤ y) && decide (y + ny ≤ base + size) &&
  decide (base ≤ c) && decide (c + nc ≤ base + size) && (decide (y + ny ≤ c) || decide (c + nc ≤ y))

/-- A commit took a later frame (R450). -/
def State.commitLate (s : State) : State := (s.setFld DISP_STAT_LATE 1).addSat DISP_LATE_COUNT_COUNT 1

/-- The close point of the current frame has passed, and its VBLANK_START has not come (R441, R450). -/
def State.commitClosed (s : State) : Bool := decide (s.disp.phase = 1) || decide (s.disp.phase = 2)

/-- A snapshot goes into a slot (R452). -/
def State.commitPlanes (s : State) (p : Planes) : State :=
  if s.disp.next.isSome || s.commitClosed then
    let s := s.commitLate
    { s with disp := { s.disp with next := some p } }.showSlots
  else { s with disp := { s.disp with pend := some p } }.showSlots

/-- COMMIT is written (R450, R451, R457). -/
def State.dispCommit (s : State) : State :=
  if !s.dispOn then s.ignored DISP_CTL.addr
  else
    let auto := s.flag DISP_RND_CFG_EN && s.flag DISP_RND_CFG_AUTO
    let (l1, pal) := s.overlayShadow
    let y := if auto then s.latestPlanes.y else s.pair DISP_L0_Y
    let c := if auto then s.latestPlanes.c else s.pair DISP_L0_C
    if !auto && !s.planesFit y c then (s.setFld DISP_STAT_ADDR_ERR 1).logEvent 0x0E05 sevInfo (y % 2 ^ 32)
    else s.commitPlanes { y := y, c := c, l1 := l1, pal := pal }

/-- The display commit close point of the frame, pixel 0 of line VACT − DISP_COMMIT_LEAD, passes (R441). -/
def State.dispClose (s : State) : State :=
  if s.atLine (s.vact - s.disp.lead) && decide (s.disp.phase < 1) then { s with disp := { s.disp with phase := 1 } } else s

/-- The last active pixel of line VACT − 1 leaves: old planes retire (R441, R453). -/
def State.frameDone (s : State) : State :=
  if !s.atLine (s.vact - 1) || decide (2 ≤ s.disp.phase) then s
  else
    let s := s.setFld DISP_STAT_FRAME_DONE 1
    let s := { s with disp := { s.disp with phase := 2 } }
    match s.disp.old with
    | some p =>
      let s := { s with disp := { s.disp with old := none } }
      if p.y = s.disp.eff.y then s else (s.setPair DISP_RETIRED_ADDR p.y).setFld DISP_STAT_RETIRED 1
    | none => s

/-- Vertical blanking starts at line VACT: PEND takes effect and NEXT becomes PEND; the fetcher begins the next frame
(R441, R450, R452). -/
def State.vblank (s : State) : State :=
  if !s.atLine s.vact || decide (3 ≤ s.disp.phase) then s
  else
    let s := s.setFld DISP_STAT_VBLANK_START 1
    let d := s.disp
    let d : DispState := match d.pend with
      | some p => { d with eff := p, old := some d.eff }
      | none => d
    let d : DispState := { d with pend := d.next, next := none, phase := 3, asked := 16 }
    let s := { s with disp := d }
    (s.setPair DISP_L0_CUR s.disp.eff.y).showSlots

/-- A new frame begins at line 0 once the last line of the one before has begun (R441): DISP_FRAME increments,
DISP_COMMIT_LEAD takes effect, and a trained link carries video (R438). -/
def State.frameBegin (s : State) : State :=
  if s.fld DISP_STAT_LINK = dpOff ∨ s.disp.due.isSome = true then s
  else
    let s := (s.addWrap DISP_FRAME_COUNT 1).setFld DISP_POS_LINE 0
    { s with disp := { s.disp with
      due := some 0, phase := 0, matched := false,
      lead := s.fld DISP_COMMIT_LEAD_LINES, sending := decide (s.fld DISP_STAT_LINK = dpActive) } }

/-- The scan-out starts with the device: its planes are the image's, and the link waits for HPD or trains (R438, R458). -/
def State.dispStart (s : State) : State :=
  let (l1, pal) := s.overlayShadow
  let p : Planes := { y := s.pair DISP_L0_Y, c := s.pair DISP_L0_C, l1 := l1, pal := pal }
  let s := { s.setPair DISP_L0_CUR p.y with disp := { s.disp with eff := p, asked := 16 } }
  if s.dispOn then (if s.flag DISP_STAT_HPD then s.startTraining else s.setFld DISP_STAT_LINK dpWait) else s

/-! ### The render helper (R455 to R457) -/

/-- The render helper is on. -/
def State.renderOn (s : State) : Bool := s.dispOn && s.flag DISP_RND_CFG_EN

/-- S: the bytes of a buffer (R457). -/
def State.bufBytes (s : State) : Nat := up4K (s.pitch * s.vact) + up4K (s.pitch * (s.vact / 2))

/-- The planes of a render buffer (R457). -/
def State.bufPlanes (s : State) (b : Nat) : Nat × Nat :=
  let y := s.l0Region.1 + b * s.bufBytes
  (y, y + up4K (s.pitch * s.vact))

/-- At a tick that begins a render period, its settings are taken (R456). -/
def State.renderTick (s : State) (n : Nat) : State :=
  let len := max 1 (s.fld DISP_RND_CFG_N)
  if s.renderOn && (decide (n % len = 0) || s.disp.periods.isEmpty && decide (n = s.deal.first)) then
    let c : RenderCfg :=
      { period := n / len, input := s.fld DISP_RND_MAP_INPUT, g0 := s.fld DISP_RND_MAP_G0, step := s.fld DISP_RND_SCALE_STEP,
        gain := s.fld DISP_RND_SCALE_GAIN, clut := (List.range 256).map (fun i => (s.reg (DISP_CLUT i).addr).toNat) }
    { s with disp := { s.disp with periods := s.disp.periods ++ [c] } }
  else s

/-- The product that the helper draws. -/
def State.renderProduct (s : State) : Option Product := s.productNo (s.fld DISP_RND_CFG_PROD)

/-- LOGCOLS of the product's program (R222). -/
def State.logCols (s : State) (x : Product) : Nat :=
  match s.programNo x.prog with
  | some g => bitsOf (g.param.getD 1 0) 28 4
  | none => 0

/-- Every record of a deal for the helper has arrived or is absent: none waits in the pot and none may still come. -/
def State.densAllIn (s : State) (x : Product) (input deal : Nat) : Bool :=
  !s.pot.wait.any (fun q => decide (q.product = x.number) && decide (q.deal = deal) && decide (q.input = input)) &&
  !(List.range 1024).any (fun l => decide ((s.streamOf l).2 = input) && s.forms l x && s.mayCome l x deal)

/-- The helper's records of a period. -/
def State.densOf (s : State) (c : RenderCfg) (x : Product) : List PotRec :=
  let len := max 1 (s.fld DISP_RND_CFG_N)
  s.pot.dens.filter (fun q => decide (q.product = x.number) && decide (q.input = c.input) &&
    decide (c.period * len ≤ q.deal) && decide (q.deal < (c.period + 1) * len))

/-- Some record that the period needs never came (R455). -/
def State.densMissing (s : State) (c : RenderCfg) (x : Product) : Bool :=
  let len := max 1 (s.fld DISP_RND_CFG_N)
  let parts := ceilDiv (2 ^ s.logCols x) 128
  let got := s.densOf c x
  (List.range len).any (fun i =>
    let d := c.period * len + i
    decide (s.deal.first ≤ d) && (List.range 1024).any (fun l =>
      decide ((s.streamOf l).2 = c.input) && s.forms l x &&
      decide (got.countP (fun q => decide (q.deal = d) && decide (q.channel = (s.streamOf l).1)) < parts)))

/-- A record's counters added to the sums by 128 × g + level, with g = CHANNEL × COLS + column, saturating at 32 bits
(R233, R455). -/
def addDens (logCols : Nat) (sums : List (Nat × Nat)) (q : PotRec) : List (Nat × Nat) :=
  let first := leNat ((q.payload.drop 8).take 4)
  let count := leNat ((q.payload.drop 12).take 4)
  (List.range (128 * count)).foldl (fun m i =>
    let v := leNat ((q.payload.drop (16 + 2 * i)).take 2)
    let at' := 128 * (q.channel * 2 ^ logCols + first) + i
    if v = 0 then m else instSet 0 m at' (min (instGet 0 m at' + v) (2 ^ 32 - 1))) sums

/-- The buffers that AUTO may not use: in effect, in a slot, or awaiting retirement (R457). -/
def State.bufBusy (s : State) (b : Nat) : Bool :=
  let y := (s.bufPlanes b).1
  let holds := fun (p : Option Planes) => decide (p.map (fun q => q.y) = some y)
  decide (s.disp.eff.y = y) || holds s.disp.old || holds s.disp.pend || holds s.disp.next

/-- The render helper begins a render when the period's last records have arrived or become absent (R455); with AUTO = 1 and
no free buffer the period is skipped (R457). -/
def State.renderStart (s : State) : State :=
  match s.disp.periods, s.renderProduct with
  | c :: rest, some x =>
    let len := max 1 (s.fld DISP_RND_CFG_N)
    let last := (c.period + 1) * len - 1
    let n := s.pair DEAL_NUM
    let ready := decide (last + 3 ≤ n) || (decide (last ≤ n) && s.densAllIn x c.input last)
    if !s.renderOn || s.disp.render.isSome || !ready then s
    else
      let recs := s.densOf c x
      let sums := recs.foldl (addDens (s.logCols x)) []
      let degr := recs.any (fun q => q.degr) || s.densMissing c x
      let kept := s.pot.dens.filter (fun q => decide (q.product ≠ x.number) || decide (last < q.deal))
      let s := { s with pot := { s.pot with dens := kept }, disp := { s.disp with periods := rest } }
      let buf := if s.flag DISP_RND_CFG_AUTO then
          (List.range (s.fld DISP_RND_CFG_NBUF)).find? (fun b => !s.bufBusy b)
        else some (s.fld DISP_RND_CFG_DST)
      match buf with
      | some b =>
        let r : Render := { cfg := c, buf := b, sums := sums, degr := degr }
        { s with disp := { s.disp with render := some r } }
      | none => (s.addSat DISP_RND_STAT_SKIPS 1).logEvent 0x0E06 sevInfo (c.period * len)
  | _, _ => s

/-- The code of output pixel (x, y) (R456). -/
def Render.code (r : Render) (vact x y : Nat) : Nat :=
  let a := r.cfg.g0 + x * r.cfg.step / 256
  let b := max (a + 1) (r.cfg.g0 + (x + 1) * r.cfg.step / 256)
  let lv := 127 - y * 128 / vact
  let v := min (2 ^ 32 - 1) (((List.range (b - a)).map (fun i => instGet 0 r.sums (128 * (a + i) + lv))).sum)
  if v = 0 then 0 else min 255 (1 + r.cfg.gain * (log2Units v).toNat / 65536)

/-- The four pixels' mean of a chroma component of a 2 × 2 block (R456). -/
def Render.chroma (r : Render) (vact lo i j : Nat) : Nat :=
  let at' := fun (x y : Nat) => bitsOf (r.cfg.clut.getD (r.code vact x y) 0) lo 8
  (at' (2 * i) (2 * j) + at' (2 * i + 1) (2 * j) + at' (2 * i) (2 * j + 1) + at' (2 * i + 1) (2 * j + 1) + 2) / 4

/-- A render's buffer is written (R456); bytes beyond capacity are not (R447). -/
def State.writeRender (s : State) (r : Render) : State :=
  let (yb, cb) := s.bufPlanes r.buf
  let w := s.hact
  let h := s.vact
  let s := (List.range h).foldl (fun (t : State) y =>
    t.sdWrite (yb + y * t.pitch) ((List.range w).map (fun x => BitVec.ofNat 8 (bitsOf (r.cfg.clut.getD (r.code h x y) 0) 16 8)))) s
  (List.range (h / 2)).foldl (fun (t : State) j =>
    t.sdWrite (cb + j * t.pitch) ((List.range (w / 2)).flatMap (fun i =>
      [BitVec.ofNat 8 (r.chroma h 8 i j), BitVec.ofNat 8 (r.chroma h 0 i j)]))) s

/-- A render finishes: with AUTO = 1 it commits its buffer, otherwise RENDERED sets (R457). -/
def State.renderDone (s : State) : State :=
  match s.disp.render with
  | none => s
  | some r =>
    let len := max 1 (s.fld DISP_RND_CFG_N)
    let s := s.writeRender r
    let s := { s with disp := { s.disp with render := none } }
    let s := (s.setFld DISP_RND_STAT_LAST_BUF r.buf).setPair DISP_RND_DEAL (r.cfg.period * len)
    let s := s.setIf r.degr DISP_STAT_RND_DEG
    if s.flag DISP_RND_CFG_AUTO then
      let (l1, pal) := s.overlayShadow
      s.commitPlanes { y := (s.bufPlanes r.buf).1, c := (s.bufPlanes r.buf).2, l1 := l1, pal := pal }
    else s.setFld DISP_STAT_RENDERED 1

/-! ### The commands -/

/-- DISP_HPD. -/
def execDispHpd (up : Bool) (s : State) : Host.Outcome State Fault Refusal := done (s.hpd up)

/-- IRQ_HPD. -/
def execIrqHpd (s : State) : Host.Outcome State Fault Refusal := done s.irqHpd

/-- DISP_TRAINING_END. -/
def execDispTrainingEnd (good : Bool) (s : State) : Host.Outcome State Fault Refusal := done (s.trainingEnd good)

/-- DISP_RETRAIN. -/
def execDispRetrain (s : State) : Host.Outcome State Fault Refusal := done s.retrainLink

/-- LINE_START. -/
def execLineStart (line : Fin 4096) (gotY gotC : Nat) (s : State) : Host.Outcome State Fault Refusal :=
  done (s.lineStart line gotY gotC)

/-- LINE_MATCH. -/
def execLineMatch (s : State) : Host.Outcome State Fault Refusal := done s.lineMatch

/-- DISP_CLOSE_POINT. -/
def execDispClosePoint (s : State) : Host.Outcome State Fault Refusal := done s.dispClose

/-- FRAME_DONE. -/
def execFrameDone (s : State) : Host.Outcome State Fault Refusal := done s.frameDone

/-- VBLANK_START. -/
def execVblankStart (s : State) : Host.Outcome State Fault Refusal := done s.vblank

/-- FRAME_BEGIN. -/
def execFrameBegin (s : State) : Host.Outcome State Fault Refusal := done s.frameBegin

/-- DISP_COMMIT. -/
def execDispCommit (s : State) : Host.Outcome State Fault Refusal := done s.dispCommit

/-- RENDER_START. -/
def execRenderStart (s : State) : Host.Outcome State Fault Refusal := done s.renderStart

/-- RENDER_DONE. -/
def execRenderDone (s : State) : Host.Outcome State Fault Refusal := done s.renderDone

end Sys2Proof.Machine
end

