-- ==== Sys2Proof/Machine/Microcheck.lean ====
section
/-! DEFINITION. What the supervisor counts and checks in microcode at load: the path walk of R184 and R185 for programs
without formulas, and the costs of the vendor library (R217, R222 to R243, R553). -/

namespace Sys2Proof.Machine

/-! ### The walk over a task's microwords (R184, R185) -/

/-- Where a walk stands: the task's PARAM words, the sequencer, CARRY, the generators with those whose base or offset
comes from PARAM or CARRY, the commit counter of the routine (R181), the time in microcycles, when V registers, H1 to H8
and stored words are ready (R141, R143), whether A was last written by an accumulating operation and for which lanes, the
accumulator words written since the last commit, the FIFO's working entries and the microcycles that its committed
entries still drain, and whether a record is open (R176). -/
structure Walk where
  param : List Nat
  pc    : Nat
  loops : List Loop
  carry : Nat
  ag    : List (Nat × AddrGen)
  baseX : List Nat
  offX  : List Nat
  cc    : Nat
  time  : Nat
  vAt   : List (Nat × Nat)
  hAt   : List Nat
  mAt   : List (Nat × Nat)
  accum : Option Nat
  work  : List Nat
  fifoW : Nat
  fifoC : Nat
  openRec : Bool
  deriving DecidableEq, Repr

/-- A walk at a routine's entry, at a time, with CARRY, what the FIFO still drains and whether a record is open. -/
def Walk.entry (param : List Nat) (pc carry time fifoC : Nat) (openRec : Bool) : Walk :=
  { param := param, pc := pc, loops := [], carry := carry, ag := [], baseX := [], offX := [], cc := 0, time := time,
    vAt := [], hAt := [], mAt := [], accum := none, work := [], fifoW := 0, fifoC := fifoC, openRec := openRec }

/-- A walk's result: the worst-case count of the task from here on, and the largest routine count under R181. -/
structure Count where
  total : Nat
  cc    : Nat
  deriving DecidableEq, Repr

/-- A memory slot of a microword as the walk sees it: its generator, element size, whether it post-increments, and what it
is: 0 load, 1 store, 2 add, 3 histogram. -/
structure WalkSlot where
  ag   : Nat
  size : Nat
  pi   : Bool
  what : Nat
  deriving DecidableEq, Repr

/-- Element size of a format code. -/
def fmtSize (c : Nat) : Nat := ((fmtOf c).map Fmt.size).getD 8

/-- The memory slots of a microword (R167). -/
def wordSlots (x : Nat) : List WalkSlot :=
  let f := bitsOf x
  (if bitOf x 164 then [{ ag := f 162 2, size := fmtSize (f 159 3), pi := bitOf x 152, what := 0 : WalkSlot }] else []) ++
  (if bitOf x 151 then [{ ag := f 149 2, size := fmtSize (f 146 3), pi := bitOf x 139, what := 0 : WalkSlot }] else []) ++
  (if 1 ≤ f 179 3 ∧ f 179 3 ≤ 3 then [{ ag := f 176 2, size := fmtSize (f 173 3), pi := bitOf x 167, what := f 179 3 : WalkSlot }]
    else [])

/-- A generator's setting on the path. -/
def Walk.gen (w : Walk) (g : Nat) : AddrGen := instGet AddrGen.zero w.ag g

/-- A slot's address follows from PARAM or CARRY. -/
def Walk.openSlot (w : Walk) (x : WalkSlot) : Bool := decide (x.ag ∈ w.baseX) || decide (x.ag ∈ w.offX)

/-- The lane addresses of a slot. -/
def Walk.addrs (w : Walk) (x : WalkSlot) : List Nat := laneAddrs (w.gen x.ag) x.size

/-- A trick-window load (R138). -/
def Walk.windowSlot (w : Walk) (x : WalkSlot) : Bool :=
  decide (x.what = 0) && (w.addrs x).any (fun a => decide (0x80000 ≤ a))

/-- The distinct words of the engine's own memory that the slots of a microword reach. -/
def Walk.words (w : Walk) (xs : List WalkSlot) : List Nat :=
  ((xs.filter (fun x => !w.windowSlot x)).flatMap (fun x => (w.addrs x).map (fun a => a / 8))).eraseDups

/-- The microcycles of a microword's memory accesses as R184 counts them: in each bank, the conflicts of the slots whose
addresses are settled and 4 for each slot whose base or offset comes from PARAM or CARRY; the banks work side by side. -/
def Walk.memCost (w : Walk) (xs : List WalkSlot) : Nat :=
  let settled := w.words (xs.filter (fun x => !w.openSlot x))
  let opens := xs.filter (fun x => w.openSlot x && !w.windowSlot x)
  (List.range 8).foldl (fun m b =>
    let mine := settled.filter (fun a => decide (a / 8192 = b))
    let own := opens.countP (fun x => (w.addrs x).any (fun a => decide (a / 65536 = b)))
    max m ((if mine.isEmpty then 0 else conflictCost mine) + 4 * own)) 1

/-- A microword's cost as R184 counts it, and as R181 does. -/
def Walk.cost (w : Walk) (xs : List WalkSlot) : Nat × Nat :=
  let window := xs.any (fun x => w.windowSlot x)
  (max (w.memCost xs) (if window then 6 else 1), max (conflictCost (w.words xs)) (if window then 2 else 1))

/-- V registers that a microword reads. -/
def readsV (x : Nat) : List Nat :=
  let f := bitsOf x
  let aop := f 112 5
  let stop := f 179 3
  (if (1 ≤ aop ∧ aop ≤ 5) ∨ aop = 7 ∨ aop = 8 ∨ aop = 0xC ∨ aop = 0xD then [f 103 5] else []) ++
  (if aop = 1 then [f 98 5] else []) ++
  (if 1 ≤ stop ∧ stop ≤ 4 ∧ !bitOf x 178 then [f 168 5] else []) ++
  (if f 137 2 = 2 then [f 127 5] else [])

/-- An operation accumulates into A (R141). -/
def accumulates (x : Nat) : Bool :=
  let aop := bitsOf x 112 5
  (decide (aop = 1 ∨ aop = 2) && bitOf x 111) || decide (aop = 3) || decide (aop = 4)

/-- The depths of the A history that a microword reads: 0 is H1. An accumulating operation after another into the same
lanes does not wait (R141). -/
def Walk.readsH (w : Walk) (x : Nat) : List Nat :=
  let f := bitsOf x
  let aop := f 112 5
  let fromA := if accumulates x then (if w.accum = some (f 86 4) then [] else [0])
    else if (7 ≤ aop ∧ aop ≤ 0xB) then [0] else []
  fromA ++ (if (f 137 2 = 1) ∨ (1 ≤ f 179 3 ∧ bitOf x 178 = true) then [f 90 3] else []) ++
  (if f 244 4 = 3 ∧ (f 240 4 = 6 ∨ f 240 4 = 7) then [0] else [])

/-- The latency of an ALU operation (R143). -/
def aluLatency (aop : Nat) : Nat :=
  match aop with
  | 1 => 4
  | 2 => 4
  | 9 => 4
  | 0xC => 5
  | 0xD => 5
  | _ => 2

/-- When a microword may issue: its operands are ready (R141). -/
def Walk.issueAt (w : Walk) (x : Nat) (xs : List WalkSlot) : Nat :=
  let vs := (readsV x).map (fun v => instGet 0 w.vAt v)
  let hs := (w.readsH x).map (fun d => w.hAt.getD d 0)
  let loads := xs.filter (fun y => decide (y.what = 0))
  let ms := (w.words loads).map (fun a => instGet 0 w.mAt a)
  (vs ++ hs ++ ms).foldl max w.time

/-- The entries that a PUSH adds (R174). -/
def walkPush (x : Nat) : Nat := if bitsOf x 179 3 = 4 then fmtSize (bitsOf x 173 3) / 2 else 0

/-- The generators and CARRY after a microword: post-increments, then the CTL slot (R155, R170). The reading ring's
offset at a task's entry is no part of the microcode; it is taken as 0. -/
def Walk.genStep (w : Walk) (x : Nat) (xs : List WalkSlot) : Walk :=
  let w := xs.foldl (fun (w : Walk) y =>
    if y.pi then { w with ag := instSet AddrGen.zero w.ag y.ag (w.gen y.ag).advance } else w) w
  let g := bitsOf x 202 2
  let imm := bitsOf x 182 20
  let a := w.gen g
  let put := fun (a : AddrGen) => instSet AddrGen.zero w.ag g a
  let settle := fun (l : List Nat) => l.filter (fun i => decide (i ≠ g))
  match bitsOf x 204 6 with
  | 0x04 => { w with ag := put { a with base := imm }, baseX := settle w.baseX }
  | 0x05 => { w with ag := put { a with off := imm % 131072 }, offX := settle w.offX }
  | 0x06 => { w with ag := put { a with step := toSigned 17 imm } }
  | 0x07 => { w with ag := put { a with lstr := toSigned 17 imm } }
  | 0x08 => { w with ag := put { a with mod := imm % 131072 } }
  | 0x09 => { w with ag := put { a with br := imm % 32 } }
  | 0x0A => { w with ag := put { a with base := 0, mod := 32768, off := 0, br := 0 }, baseX := settle w.baseX,
                     offX := settle w.offX }
  | 0x0B => { w with ag := put { a with base := w.param.getD (imm % 8) 0 % 2 ^ 20 }, baseX := (g :: w.baseX).eraseDups }
  | 0x0C => { w with ag := put { a with off := w.carry % 131072 }, offX := (g :: w.offX).eraseDups }
  | 0x17 => { w with carry := imm }
  | 0x18 => { w with carry := ofSigned 32 ((w.carry : Int) + toSigned 20 imm) }
  | _ => w

/-- The A history's ready times after a microword's A-writing operations: loads into A, then the ALU. -/
def Walk.histStep (w : Walk) (x t : Nat) (xs : List WalkSlot) : Walk :=
  let aop := bitsOf x 112 5
  let ld := (bitOf x 164 && bitOf x 158) || (bitOf x 151 && bitOf x 145)
  let lat := if ld then (if xs.any (fun y => w.windowSlot y) then 5 else 3) else aluLatency aop
  if ld || (decide (aop ≠ 0) && decide (aop ≠ 0xA)) then
    { w with hAt := ((t + lat) :: w.hAt).take 8, accum := if accumulates x then some (bitsOf x 86 4) else none }
  else w

/-- The V registers' ready times after a microword. -/
def Walk.vStep (w : Walk) (x t : Nat) (xs : List WalkSlot) : Walk :=
  let f := bitsOf x
  let ldLat := if xs.any (fun y => w.windowSlot y) then 5 else 3
  let ws := (if bitOf x 164 && !bitOf x 158 then [(f 153 5, ldLat)] else []) ++
    (if bitOf x 151 && !bitOf x 145 then [(f 140 5, ldLat)] else []) ++
    (if 1 ≤ f 137 2 then [(f 132 5, 2)] else []) ++ (if f 112 5 = 0xA ∨ f 112 5 = 0xB then [(f 93 5, 2)] else [])
  { w with vAt := ws.foldl (fun m p => instSet 0 m p.1 (t + p.2)) w.vAt }

/-- The stored words' ready times and the accumulator words written, after a microword. -/
def Walk.memStep (w : Walk) (t : Nat) (xs : List WalkSlot) : Walk :=
  xs.foldl (fun (w : Walk) y =>
    if y.what = 0 then w
    else
      let ws := ((w.addrs y).map (fun a => a / 8)).eraseDups
      let acc := ws.filter (fun a => decide (0x60000 / 8 ≤ a) && decide (a < 0x70000 / 8))
      { w with mAt := ws.foldl (fun m a => instSet 0 m a (t + (if y.what = 1 then 2 else 3))) w.mAt,
               work := (acc ++ w.work).eraseDups }) w

/-- A microword issues: its stalls, its cost, and what it leaves (R141 to R143, R184). -/
def Walk.issue (w : Walk) (x : Nat) : Walk :=
  let xs := wordSlots x
  let (c, cc) := w.cost xs
  let t := w.issueAt x xs
  let n := walkPush x
  let drained := w.fifoC - (t - w.time)
  let stall := drained - 4 * (2048 - w.fifoW - n)
  let stall := if n = 0 then 0 else stall
  let t := t + stall
  let w := ((w.histStep x t xs).vStep x t xs).memStep t xs
  let w := w.genStep x xs
  let openRec := match bitsOf x 204 6 with
    | 0x15 => true
    | 0x16 => false
    | _ => w.openRec
  { w with time := t + c, cc := w.cc + cc, fifoW := w.fifoW + n, fifoC := drained - stall - c, openRec := openRec }

/-- A COMMIT's further cycles (R143, R184): the walk after them, its working entries committed. -/
def Walk.committed (w : Walk) : Walk :=
  let more := 3 + ceilDiv w.work.length 2
  { w with time := w.time + more, fifoC := w.fifoC - more + 4 * w.fifoW, fifoW := 0 }

/-- What makes a microword ILLEGAL on a path, beyond its encoding (R173, R176): opening or closing a record out of turn, or
a PUSH with none open. -/
def Walk.badRecord (w : Walk) (x : Nat) : Bool :=
  (decide (bitsOf x 204 6 = 0x15) && w.openRec) || (decide (bitsOf x 204 6 = 0x16) && !w.openRec) ||
  (decide (bitsOf x 179 3 = 4) && !w.openRec)

/-- The microword after one that does not branch. -/
def Walk.next (w : Walk) : Walk :=
  let r := stepLoops w.loops w.pc
  { w with pc := r.1, loops := r.2 }

/-- A taken branch (R157). -/
def Walk.jump (w : Walk) (target : Nat) : Walk :=
  { w with pc := target, loops := w.loops.dropWhile (fun l => !(decide (l.start ≤ target) && decide (target ≤ l.stop))) }

/-- The larger of two results, if both are legal. -/
def worse (a b : Option Count) : Option Count :=
  match a, b with
  | some x, some y => some { total := max x.total y.total, cc := max x.cc y.cc }
  | _, _ => none

/-- The walk over every path of a task from a microword on (R184 rules 1 to 6): its worst-case count and its longest
routine, or nothing where a path breaks R169 or R173. `cs` reads the control store, `region` is the program's region. -/
def walk (cs : Nat → Nat) (region : Bool) : Nat → Walk → Option Count
  | 0, _ => none
  | fuel + 1, w =>
    let x := cs w.pc
    let at' := bitsOf x 226 14
    let ahead := decide (w.pc < at') && decide (customerWord at' = region)
    if wordIllegal x || w.badRecord x || decide (customerWord w.pc ≠ region) then none
    else
      match bitsOf x 244 4 with
      | 0 => walk cs region fuel (w.issue x).next
      | 1 =>
        let inner := match w.loops with
          | l :: _ => decide (at' ≤ l.stop)
          | [] => true
        if !ahead || !inner || decide (4 ≤ w.loops.length) then none
        else
          let w := w.issue x
          walk cs region fuel { w with
            pc := w.pc + 1, loops := { start := w.pc + 1, stop := at', left := bitsOf x 210 16 + 1 } :: w.loops }
      | 2 => if !ahead then none else walk cs region fuel ((w.issue x).jump at')
      | 3 => if !ahead then none
             else worse (walk cs region fuel (w.issue x).next) (walk cs region fuel ((w.issue x).jump at'))
      | 4 =>
        let after := (w.issue x).committed
        if !w.loops.isEmpty then none
        else if bitOf x 240 then (if after.openRec then none else some { total := after.time, cc := w.cc })
        else if !ahead || decide (at' = 0x3FFF) then none
        else
          let e := Walk.entry w.param at' after.carry after.time after.fifoC after.openRec
          (walk cs region fuel e).map (fun c => { c with cc := max c.cc w.cc })
      | _ => none

/-- The count of a task from its entry, 0 for a task that the program does not have. No path is longer than the fuel: at
most four nested REPEATs of 65,536 over 16,384 words, forward only (R173). -/
def taskCount (cs : Nat → Nat) (g : Program) (entry : Nat) : Option Count :=
  if entry = 0x3FFF then some { total := 0, cc := 0 }
  else walk cs (customerWord entry) (2 ^ 80) (Walk.entry g.param entry 0 0 0 false)

end Sys2Proof.Machine
end

