-- ==== Sys2Proof/Machine/Budget.lean ====
section
/-! DEFINITION. What the supervisor computes and checks over a loaded configuration: the vendor library's parameters and
costs (R216 to R243), the budgets (R42, R43, R194), the margins (R205), the pot's volume (R246), the hand tree (R187 to
R189, R192, R486) and the products' classes (R60, R485). Each works on the state with the configuration put in. -/

namespace Sys2Proof.Machine

/-- A refusal of an image: CAUSE, BLOCK, RECORD (R489). -/
structure Refuse where
  cause : Nat
  block : Nat
  rec'  : Nat
  deriving DecidableEq, Repr

/-- A refusal that names no record. -/
def refuse (cause block : Nat) : Refuse := { cause := cause, block := block, rec' := 0xFFF }

/-- The first refusal of a list of checks. -/
def firstRefuse : List (Bool × Refuse) → Option Refuse
  | [] => none
  | (bad, r) :: t => if bad then some r else firstRefuse t

/-! ### The vendor library (R216 to R243) -/

/-- What a vendor program costs and forms: the recounts of F and P, the entry counts of its records per deal by preamble
KIND, the bytes of its accumulator area, and of the preload region at WBASE. -/
structure Figures where
  f      : Nat
  p      : Nat
  recs   : List (Nat × List Nat)
  area   : Nat
  window : Nat
  deriving DecidableEq, Repr

/-- The transform cost T(N) of R150 by LOGN. -/
def transformCost (logn : Nat) : Nat := [1330, 3132, 6204, 14406, 28742].getD logn 0

/-- O(E, r), with r in quarters (R223). -/
def pushCost (e r4 : Nat) : Nat := ceilDiv (r4 * min e 2048) 4 + 4 * (e - 2048) + 8 * ceilDiv e 2048

/-- L(N) (R223). -/
def frameCost (logn : Nat) : Nat := 1000 + (256 * 2 ^ logn + 16) + transformCost logn

/-- The bits of each PARAM word that a library program lists (R222). -/
def paramMask (id : Nat) : List Nat :=
  let spx := id = 1 ∨ id = 8
  let w0 := 0xFBFFFFFF + (if id = 1 then 0x4000000 else 0)
  let w1 := 0xFFFFF + (if spx then 0xF8000000 else if id = 2 then 0x80000000 else if id = 3 then 0xF0000000
    else if id = 4 then 0xE0000000 else 0)
  let w2 := if id = 3 then 0x3FFFF else if id = 4 ∨ id = 5 then 0xFFFF else 0
  let w3 := if id = 3 then 0x3FFFF else if id = 4 then 0xFFFFFFFF else 0
  [w0, w1, w2, w3, 0, 0, 0, 0]

/-- The parameter rules of R222, and the agreement of HOP, WLEN and WOFF with them (R216, R217, R229, R484). -/
def paramsGood (id : Nat) (g : Program) (k : Nat) : Bool :=
  let logn := g.par 0 29 3
  let ovl := g.par 0 27 2
  let n := 1024 * 2 ^ logn
  let frames := 2 ^ k / max 1 g.hop
  let gang := decide (id = 7) || decide (id = 8)
  (List.range 8).all (fun i => decide (g.param.getD i 0 &&& (2 ^ 32 - 1 - (paramMask id).getD i 0) = 0)) &&
  decide (logn ≤ 4) && decide (ovl ≤ 2) && decide (0x60000 ≤ g.par 1 0 20) && decide (g.par 1 0 20 ≤ 0x6FFF8) &&
  decide (g.par 1 0 20 % 8 = 0) &&
  (if id = 1 ∨ id = 8 then decide (g.par 1 28 2 ≤ 2) else true) &&
  (if id = 2 then decide (logn ≤ 2) else true) &&
  (if id = 3 then decide (4 ≤ g.par 1 28 4) && decide (g.par 1 28 4 ≤ min 8 (logn + 5)) && decide (1 ≤ g.par 3 0 18) else true) &&
  (if id = 4 then decide (g.par 1 29 3 ≤ 5) && decide (1 ≤ g.par 2 0 16) && decide (g.par 2 0 16 ≤ 4095) &&
      decide (g.par 3 16 16 ≤ 32767) && decide (g.par 3 0 16 ≤ 32767) && decide (2 ≤ frames) else true) &&
  (if gang then
      decide (ovl = 0) && decide (logn = 4) && decide (g.wlen = 16384) && decide (g.hop = 16384) && decide (15 ≤ k) &&
      decide (g.woff % 16384 = 0) && decide (g.woff ≤ 114688) &&
      (if id = 8 then decide (g.woff / 16384 ∈ [1, 3, 7]) else true)
    else decide (g.wlen = n) && decide (g.hop * 2 ^ ovl = n) && decide (g.woff = 0))

/-- SPX's detectors and record (R225, R227): c_A + c_B, W, E and r in quarters. -/
def spxFigures (g : Program) (kept : Nat) : Nat × Nat × Nat × Nat × Nat :=
  let lin := decide (g.par 1 30 2 = 0) || decide (g.par 1 30 2 = 3)
  let logB := decide (g.par 1 28 2 ≠ 0)
  let out := decide (g.par 1 27 1 = 1)
  let c := (if lin then 0 else 2) + (if logB then 2 else 0)
  let w := (if lin then kept / 2 else ceilDiv kept 4) + (if logB then ceilDiv kept 4 else 0)
  let e := 2 + (if lin && !out then kept / 2 else ceilDiv kept 4) + (if logB then ceilDiv kept 4 else 0)
  let r := if lin && out then 8 else if !lin || logB then 4 else 2
  let area := (if lin then 4 * kept else 2 * kept) + (if logB then 2 * kept else 0)
  (c, w, e, r, area)

/-- A vendor program's figures (R227, R229, R232, R234, R236, R238, R243), with M frames per deal. -/
def figuresOf (id : Nat) (g : Program) (m : Nat) : Figures :=
  let logn := g.par 0 29 3
  let kept := 800 * 2 ^ logn
  let q := kept / 4
  let l := frameCost logn
  let window := 2048 * 2 ^ logn
  match id with
  | 1 =>
    let (c, w, e, r, area) := spxFigures g kept
    let ext := g.par 0 26 1
    { f := 1000 + (1 + ext) * (256 * 2 ^ logn + 16) + (1 + 3 * ext) * transformCost logn + (1 + 5 * ext + c) * q + 44 + ceilDiv w 2,
      p := 400 + pushCost e r, recs := [(1, [e])], area := area, window := window }
  | 2 =>
    let a := g.par 1 31 1
    let e := 2 + a * kept / 2 + 3 * kept / 2
    { f := l + (10 + a) * q + 10 + ceilDiv ((3 + a) * kept / 2) 2, p := 400 + pushCost e 1, recs := [(2, [e])],
      area := (12 + 4 * a) * kept, window := window }
  | 3 =>
    let cols := 2 ^ g.par 1 28 4
    let e := 2 * ceilDiv cols 128 + 32 * cols
    { f := l + 3 * q + 44 + ceilDiv (min kept (32 * cols)) 2, p := 400 + pushCost e 4,
      recs := [(3, (List.range (ceilDiv cols 128)).map (fun i => 2 + 32 * min 128 (cols - 128 * i)))],
      area := 256 * cols, window := window }
  | 4 =>
    let b := kept / 2 ^ g.par 1 29 3
    let e := 2 + ceilDiv b 4 + ceilDiv b 2 + b + ceilDiv b 64
    { f := l + 5 * q + ceilDiv (3 * b) 4 + 44 + ceilDiv (3 * b) 4, p := 400 + 16 * b + pushCost e 4, recs := [(4, [e])],
      area := 12 * b, window := window }
  | 5 => { f := l + 6 * q + 452, p := 400 + pushCost 18 4, recs := [(5, [18])], area := 128, window := window }
  | 6 =>
    let w := ceilDiv kept 64 + 2
    { f := l + kept + 40 + 1024 + 30 + 4 + ceilDiv w 2, p := 400 + pushCost (4 + ceilDiv kept 64) 4,
      recs := [(6, [4 + ceilDiv kept 64]), (7, List.replicate m 4)], area := 8 * w, window := window }
  | 7 => { f := 1000 + 4112 + 4 + 2, p := 0, recs := [], area := 0, window := 65536 }
  | _ =>
    let (c, w, e, r, area) := spxFigures g 12800
    let stages := Nat.log2 (g.woff / 16384 + 1)
    { f := 1000 + stages * (3 * 4096 + 40) + 4112 + 28742 + (1 + c) * 3200 + 44 + ceilDiv w 2, p := 400 + pushCost e r,
      recs := [(1, [e])], area := area, window := 65536 }

/-- A vendor program's figures in the loaded configuration. -/
def State.figures (s : State) (g : Program) : Option Figures :=
  let id := s.libId g
  if id = 0 then none else some (figuresOf id g (s.framesPerDeal g))

/-! ### Recounts (R43, R184, R223) -/

/-- A program's recounts of F and P, and its longest routine under R181; nothing where a path is illegal (R169, R173). A
library program's figures are the formulas of R223 to R243 (R553), any other's those of R184. -/
def State.recountOf (s : State) (g : Program) : Option (Nat × Nat × Nat) :=
  let cs := sparseGet (fun _ => 0) s.hand.cstore
  match taskCount cs g g.frameEntry, taskCount cs g g.dealEntry with
  | some a, some b =>
    let own := match s.figures g with
      | some x => (x.f, x.p)
      | none => (a.total, b.total)
    some (own.1, own.2, max a.cc b.cc)
  | _, _ => none

/-- The microcode checks of R185, with the recounts kept for CS_PROG_RECOUNT_F and _P and CS_ROUTINE_MAX: whether some
program has an illegal path or a routine above 65,536. The figures of every other program still show. -/
def State.recount (s : State) : State × Bool :=
  s.img.programs.foldl (fun (acc : State × Bool) g =>
    match acc.1.recountOf g with
    | none => (acc.1, true)
    | some (f, p, cc) =>
      let t := acc.1.maxFld CS_ROUTINE_MAX_COUNT cc
      ({ t with img := { t.img with recount := (g.prog, f, p) :: t.img.recount } }, acc.2 || decide (65536 < cc))) (s, false)

/-- A program's recounts. -/
def State.recountFor (s : State) (g : Program) : Nat × Nat :=
  ((s.img.recount.find? (fun r => decide (r.1 = g.prog))).map (fun r => r.2)).getD (0, 0)

/-! ### The hand tree (R187 to R189, R192, R486) -/

/-- Leaves below a node that sit directly under it. -/
def State.leafMembers (s : State) (i : Nat) : List Nat :=
  (s.members i).filterMap (fun j => match s.node? j with
    | some n => if n.kind = 0 then some (n.place % 1024) else none
    | none => none)

/-- A node's own rules. -/
def State.nodeGood (s : State) (i : Nat) (n : HandNode) : Bool :=
  let ms := s.members i
  let ls := s.leafMembers i
  let parentOk := decide (n.parent = 0x7FF) || (decide (n.parent < s.nodeCount) && decide (n.parent ≠ i) &&
    (match s.node? n.parent with
      | some p => decide (p.kind ≠ 0)
      | none => false))
  parentOk && decide ((s.chain 2048 i).length ≤ 2047) && decide (i ∉ (s.chain 2048 n.parent)) && decide (n.progs.length ≤ 8) &&
  match n.kind with
  | 0 => ms.isEmpty && decide (n.place < 1024)
  | 1 =>
    let c := n.place % 64
    let t := bitsOf n.place 6 2
    decide (n.place < 256) && decide (ms.length = 4) && decide (ls.length = 4) && (List.range 4).all (fun j => decide (16 * c + 4 * t + j ∈ ls))
  | 2 =>
    let ch := n.place % 256
    let i' := bitsOf n.place 8 2
    let c0 := bitsOf n.place 10 4
    let size := 2 ^ bitsOf n.place 14 2
    let q := ch / 64
    decide (n.place < 65536) && decide (2 ≤ size) && decide (c0 % size = 0) && decide (c0 + size ≤ 16) && decide (ms.length = size) &&
    decide (ls.length = size) &&
    (List.range size).all (fun m =>
      let l := ls.getD m 0
      decide (l / 256 = q) && decide (l / 16 % 16 = c0 + m) && decide (l % 4 = i') && decide (l % 16 = ls.getD 0 0 % 16))
  | 3 => decide (n.place = 0) && decide (2 ≤ ms.length) && decide (ms.length ≤ 16)
  | _ => false

/-- A GROUP's combine area (R192): it is given with its products, and lies in the accumulator store. -/
def combineGood (n : HandNode) : Bool :=
  if n.kind = 3 then (n.cprod.isEmpty || decide (n.cbase + 2 * n.clen ≤ 8192)) else n.cprod.isEmpty

/-- The hand tree meets R187 to R189, and no leaf has more than eight programs (R185, R188). -/
def State.treeGood (s : State) : Bool :=
  let idx := List.range s.nodeCount
  s.img.nodes.isEmpty ||
  (idx.all (fun i => match s.node? i with
    | some n => s.nodeGood i n && combineGood n
    | none => false) &&
  (List.range 1024).all (fun l => decide ((idx.countP (fun i => match s.node? i with
    | some n => decide (n.kind = 0) && decide (n.place % 1024 = l)
    | none => false)) ≤ 1)) &&
  (List.range 1024).all (fun l => match s.leafNode? l with
    | some i => decide ((((s.chain 2048 i).map (fun j => match s.node? j with
        | some n => n.progs.length
        | none => 0)).sum) ≤ 8)
    | none => true))

/-- The logical engines that are leaves. -/
def State.leaves (s : State) : List Nat := (List.range 1024).filter (fun l => (s.leafNode? l).isSome)

/-! ### Values that depend on leaves (R221, R229, R230, R553) -/

/-- Two spans of addresses overlap. -/
def spansMeet (a b : Nat × Nat) : Bool := decide (a.1 < b.2) && decide (b.1 < a.2)

/-- Some two spans of a list overlap. -/
def anyMeet : List (Nat × Nat) → Bool
  | [] => false
  | a :: t => t.any (spansMeet a) || anyMeet t

/-- A leaf's vendor programs fit its accumulator store and its preload regions (R221; a leaf that runs FMT keeps region 1
for its mask faces, R241), a gang member runs only GCAP and GSPX
of its gang's size (R229), and XSX runs on whole TRICKs with N ≤ 4,096 and one list of programs (R230). -/
def State.leafValues (s : State) (l : Nat) : Bool :=
  let gs := s.programsOf l
  let vend := gs.filterMap (fun g => (s.figures g).map (fun x => (g, x)))
  let spans := vend.filterMap (fun x =>
    if x.2.area = 0 then none else some (x.1.par 1 0 20, x.1.par 1 0 20 + x.2.area))
  let p := (l / 16) * 17 + l % 16
  let pre := fun (b n : Nat) => (List.range 2).any (fun r =>
    s.flag (ENG_PRELOAD_EN p r) && decide (s.fld (ENG_PRELOAD_BASE4K p r) * 4096 = b) && decide (n ≤ s.fld (ENG_PRELOAD_LEN4K p r) * 4096))
  let ids := gs.map (fun g => s.libId g)
  let own := s.flag (ENG_PRELOAD_EN p 1)
  let faces := !ids.contains 6 || !own || (decide (s.fld (ENG_PRELOAD_BASE4K p 1) = 0x5E) &&
    decide (2 ≤ s.fld (ENG_PRELOAD_LEN4K p 1)) && vend.all (fun x => decide (x.1.par 0 0 20 ≠ 0x5E000)))
  let xsx := !ids.contains 2 || (match s.leafNode? l with
    | some i =>
      let up := ((s.node? i).map (fun n => n.parent)).getD 0x7FF
      (match s.node? up with
        | some n => decide (n.kind = 1)
        | none => false) &&
      (List.range 4).all (fun j => decide ((s.programsOf (l / 4 * 4 + j)).map (fun g => g.prog) = gs.map (fun g => g.prog)))
    | none => false)
  let ganged := gs.all (fun g =>
    let id := s.libId g
    match s.gang? l with
    | some (_, _, _, n) => decide (id = 7 ∨ id = 8) && decide (n * 16384 ≤ s.dealLen) &&
        decide (g.woff = (if id = 8 then n - 1 else s.gangIndex l) * 16384)
    | none => decide (id ≠ 7) && decide (id ≠ 8))
  !anyMeet spans && spans.all (fun x => decide (x.2 ≤ 0x70000)) &&
  vend.all (fun x => decide (x.1.par 0 0 20 = 0) || pre (x.1.par 0 0 20) x.2.window) && faces && xsx && ganged

/-- A product of a library program carries the record TYPE of R215's table and the preamble KIND of a record that the
program forms (R553); GCAP forms none. -/
def State.kindGood (s : State) (x : Product) : Bool :=
  match s.programNo x.prog with
  | some g =>
    match s.libId g with
    | 0 => true
    | 6 => decide (x.rtype = 6) && (decide (x.kind = 6) || decide (x.kind = 7))
    | 7 => false
    | 8 => decide (x.rtype = 1) && decide (x.kind = 1)
    | id => decide (x.rtype = id) && decide (x.kind = id)
  | none => true

/-- The quadrant of a logical engine. -/
def quadrantOf (l : Nat) : Nat := l / 256

/-- A product's class under R60: Class W when its records are merged, when some hand that computes it spans quadrants. -/
def State.classWOf (s : State) (x : Product) : Bool :=
  x.merge || s.leaves.any (fun l => (s.programsOf l).any (fun g => decide (g.prog = x.prog)) &&
    (match s.leafNode? l with
      | some i => (s.leavesOf (s.rootOf i)).any (fun m => decide (quadrantOf m ≠ quadrantOf l))
      | none => false))

/-! ### The budgets (R42, R43, R194, R205, R246) -/

/-- A times nsps: engine cycles per deal are A = 2^k × 1.6 GHz / (nsps / 400) (R43). -/
def State.cyclesTimesRate (s : State) : Nat := s.dealLen * 1600000000 * 400

/-- floor(0.9 × A). -/
def State.budgetLimit (s : State) : Nat := s.cyclesTimesRate * 9 / (10 * max 1 s.nsps)

/-- Frames per deal is an integer. -/
def State.wholeFrames (s : State) (g : Program) : Bool := decide (0 < g.hop) && decide (s.dealLen % g.hop = 0)

/-- An engine's declared load D (R42), rounded up where frames per deal is not an integer. -/
def State.loadOf (s : State) (l : Nat) : Nat :=
  ((s.programsOf l).map (fun g => ceilDiv (g.f * s.dealLen) (max 1 g.hop) + g.p)).sum

/-- The entries of the task ring that a leaf's programs may hold (R194). -/
def State.ringBound (s : State) (l : Nat) : Nat :=
  ((s.programsOf l).map (fun g => (32768 - g.wlen) / max 1 g.hop + 1 + (if g.dealEntry = 0x3FFF then 0 else 2))).sum

/-- An engine's first budget failure, as DEAL_BUDGET_ENG.CAUSE numbers it; 0 = none (R43). -/
def State.budgetCause (s : State) (l : Nat) : Nat :=
  let gs := s.programsOf l
  if gs.any (fun g => !s.wholeFrames g) then 3
  else if gs.any (fun g => decide (g.f < (s.recountFor g).1) || decide (g.p < (s.recountFor g).2)) then 2
  else if s.budgetLimit < s.loadOf l then 1
  else if 1024 < s.ringBound l then 5
  else 0

/-- The DEAL_BUDGET registers, and whether some engine fails (R43, R44). -/
def State.judgeBudget (s : State) : State × Bool :=
  let ls := s.leaves
  let s := (s.setReg DEAL_BUDGET_AVAIL.addr (BitVec.ofNat 32 (s.cyclesTimesRate / max 1 s.nsps))).setReg
    DEAL_BUDGET_LIMIT.addr (BitVec.ofNat 32 s.budgetLimit)
  match ls.find? (fun l => decide (s.budgetCause l ≠ 0)) with
  | some l =>
    let s := s.setReg DEAL_BUDGET_WORST.addr (BitVec.ofNat 32 (s.loadOf l))
    (s.setReg DEAL_BUDGET_ENG.addr (BitVec.ofNat 32 (2 ^ 31 + s.budgetCause l * 2 ^ 28 + l)), true)
  | none =>
    let worst := (ls.map s.loadOf).foldl max 0
    ((s.setReg DEAL_BUDGET_WORST.addr (BitVec.ofNat 32 worst)).setReg DEAL_BUDGET_ENG.addr 0, false)

/-- The bytes of records of one product that a leaf forms in a deal (R246). -/
def State.productBytes (s : State) (l : Nat) (x : Product) : Nat :=
  match (s.programsOf l).find? (fun g => decide (g.prog = x.prog)) with
  | some g =>
    match s.figures g with
    | some y => (((y.recs.filter (fun r => decide (r.1 = x.kind))).flatMap (fun r => r.2)).map (fun e => 64 + 8 * e)).sum
    | none => 0
  | none => 0

/-- V_c: the bytes of records that a cluster produces per deal (R246). -/
def State.clusterVolume (s : State) (c : Nat) : Nat :=
  ((List.range 16).map (fun i => (s.img.products.map (fun x => s.productBytes (16 * c + i) x)).sum)).sum

/-- A quadrant's volume. -/
def State.quadVolume (s : State) (q : Nat) : Nat := ((List.range 16).map (fun c => s.clusterVolume (16 * q + c))).sum

/-- The pot's volume passes a limit of R246: 1.5 MiB per cluster, 100 GB/s × deal length per quadrant. -/
def State.volumeBad (s : State) : Bool :=
  (List.range 64).any (fun c => decide (1572864 < s.clusterVolume c)) ||
  (List.range 4).any (fun q => decide (100000000000 * 400 * s.dealLen < s.quadVolume q * s.nsps))

/-- The bytes of a product per deal, merged lists included (POT_PROD_BYTES, R239). -/
def State.prodBytes (s : State) (x : Product) : Nat :=
  (s.leaves.map (fun l => s.productBytes l x)).sum +
  (if x.merge then (s.mergeScopes x).length * (80 + 16 * s.fld POT_CFG_PKS_NTOP) else 0)

/-- HAND_MARGIN_MIN and HAND_MARGIN_NODE: the smallest margin and the lowest node that has it (R205, R206). -/
def State.judgeMargins (s : State) : State :=
  let ms := (List.range s.nodeCount).map (fun i => (s.nodeMargin i, i))
  match ms with
  | [] => s
  | m :: t =>
    let best := t.foldl (fun (a b : Nat × Nat) => if b.1 < a.1 then b else a) m
    ((s.setFld HAND_MARGIN_MIN_NS best.1).setReg HAND_MARGIN_NODE.addr (BitVec.ofNat 32 best.2)).judgeMargin

end Sys2Proof.Machine
end

