-- ==== Sys2Proof/Machine/Crypto.lean ====
section
/-! DEFINITION. The check words and tags of images and amendments: SHA-256 and HMAC-SHA-256 (R52, R494),
and ECDSA over NIST P-256 (R477). -/

namespace Sys2Proof.Machine

/-! ### SHA-256 -/

/-- The largest number of `b` bits added to `r` whose `k`th power is at most `n`. -/
def rootDown (k n : Nat) : Nat → Nat → Nat
  | 0, r => r
  | b + 1, r => rootDown k n b (if (r + 2 ^ b) ^ k ≤ n then r + 2 ^ b else r)

/-- The first 32 bits of the fractional part of the `k`th root of a number below 2^9. -/
def rootFrac (k n : Nat) : BitVec 32 := BitVec.ofNat 32 (rootDown k (n * 2 ^ (32 * k)) 37 0)

/-- The first 64 primes. -/
def primes64 : List Nat :=
  (List.range 312).filter (fun n => decide (2 ≤ n) && (List.range 18).all (fun d => decide (d < 2) || decide (d = n) || decide (n % d ≠ 0)))

/-- The constant that a round of SHA-256 adds: from the cube root of a prime. -/
def shaK : List (BitVec 32) := primes64.map (rootFrac 3)

/-- The eight working words. -/
structure ShaState where
  a : BitVec 32
  b : BitVec 32
  c : BitVec 32
  d : BitVec 32
  e : BitVec 32
  f : BitVec 32
  g : BitVec 32
  h : BitVec 32
  deriving DecidableEq, Repr

/-- The initial hash value: from the square roots of the first eight primes. -/
def shaInit : ShaState :=
  let w := fun i => rootFrac 2 (primes64.getD i 0)
  { a := w 0, b := w 1, c := w 2, d := w 3, e := w 4, f := w 5, g := w 6, h := w 7 }

/-- A big-endian word from its bytes. -/
def beNat (bs : List Byte) : Nat := bs.foldl (fun n b => 256 * n + b.toNat) 0

/-- The message schedule extended by `n` words; the newest word is first. -/
def shaExtend : Nat → List (BitVec 32) → List (BitVec 32)
  | 0, w => w
  | n + 1, w =>
    let x := w.getD 14 0
    let y := w.getD 1 0
    let s0 := x.rotateRight 7 ^^^ x.rotateRight 18 ^^^ (x >>> 3)
    let s1 := y.rotateRight 17 ^^^ y.rotateRight 19 ^^^ (y >>> 10)
    shaExtend n ((w.getD 15 0 + s0 + w.getD 6 0 + s1) :: w)

/-- One round. -/
def shaRound (s : ShaState) (kw : BitVec 32 × BitVec 32) : ShaState :=
  let s1 := s.e.rotateRight 6 ^^^ s.e.rotateRight 11 ^^^ s.e.rotateRight 25
  let ch := (s.e &&& s.f) ^^^ (~~~s.e &&& s.g)
  let t1 := s.h + s1 + ch + kw.1 + kw.2
  let s0 := s.a.rotateRight 2 ^^^ s.a.rotateRight 13 ^^^ s.a.rotateRight 22
  let maj := (s.a &&& s.b) ^^^ (s.a &&& s.c) ^^^ (s.b &&& s.c)
  { a := t1 + s0 + maj, b := s.a, c := s.b, d := s.c, e := s.d + t1, f := s.e, g := s.f, h := s.g }

/-- One block of 64 bytes. -/
def shaBlock (s : ShaState) (block : List Byte) : ShaState :=
  let w := (List.range 16).map (fun i => BitVec.ofNat 32 (beNat ((block.drop (4 * i)).take 4)))
  let w := (shaExtend 48 w.reverse).reverse
  let t := (shaK.zip w).foldl shaRound s
  { a := s.a + t.a, b := s.b + t.b, c := s.c + t.c, d := s.d + t.d, e := s.e + t.e, f := s.f + t.f, g := s.g + t.g, h := s.h + t.h }

/-- The SHA-256 digest of bytes. -/
def sha256 (bs : List Byte) : List Byte :=
  let pad := (119 - bs.length % 64) % 64
  let m := bs ++ [0x80#8] ++ List.replicate pad 0 ++ beBytes 8 (8 * bs.length)
  let s := (List.range (m.length / 64)).foldl (fun s i => shaBlock s ((m.drop (64 * i)).take 64)) shaInit
  [s.a, s.b, s.c, s.d, s.e, s.f, s.g, s.h].flatMap (fun x => beBytes 4 x.toNat)

/-- The HMAC-SHA-256 tag of bytes under a key of 32 bytes. -/
def hmac256 (key bs : List Byte) : List Byte :=
  let k := key ++ List.replicate 32 0
  sha256 (k.map (fun b => b ^^^ 0x5C#8) ++ sha256 (k.map (fun b => b ^^^ 0x36#8) ++ bs))

/-! ### ECDSA over P-256 (R477) -/

/-- The field's prime. -/
def p256p : Nat := 0xffffffff00000001000000000000000000000000ffffffffffffffffffffffff

/-- The group's order. -/
def p256n : Nat := 0xffffffff00000000ffffffffffffffffbce6faada7179e84f3b9cac2fc632551

/-- The curve's constant b. -/
def p256b : Nat := 0x5ac635d8aa3a93e7b3ebbd55769886bc651d06b0cc53b0f63bce3c3e27d2604b

/-- The base point. -/
def p256g : Nat × Nat :=
  (0x6b17d1f2e12c4247f8bce6e563a440f277037d812deb33a0f4a13945d898c296,
   0x4fe342e2fe1a7f9b8ee7eb4a7c0f9e162bce33576b315ececbb6406837bf51f5)

/-- x ^ e modulo m, the exponent read from `n` bits. -/
def powMod (m : Nat) : Nat → Nat → Nat → Nat
  | 0, _, _ => 1 % m
  | n + 1, x, e =>
    let h := powMod m n (x * x % m) (e / 2)
    if e % 2 = 1 then h * x % m else h

/-- The inverse modulo a prime. -/
def invMod (m x : Nat) : Nat := powMod m 256 x (m - 2)

/-- The sum of two points; `none` is the point at infinity. -/
def p256add : Option (Nat × Nat) → Option (Nat × Nat) → Option (Nat × Nat)
  | none, q => q
  | p, none => p
  | some (x1, y1), some (x2, y2) =>
    let p := p256p
    if x1 = x2 ∧ (y1 + y2) % p = 0 then none
    else
      let l := if x1 = x2 then (3 * x1 * x1 + p - 3) * invMod p (2 * y1 % p) % p
        else (y2 + p - y1) * invMod p ((x2 + p - x1) % p) % p
      let x3 := (l * l + 2 * p - x1 - x2) % p
      some (x3, (l * (x1 + p - x3) + p - y1) % p)

/-- A multiple of a point, the factor read from `n` bits. -/
def p256mul : Nat → Nat → Option (Nat × Nat) → Option (Nat × Nat)
  | 0, _, _ => none
  | n + 1, k, q =>
    let h := p256mul n (k / 2) (p256add q q)
    if k % 2 = 1 then p256add h q else h

/-- A point of the curve. -/
def onP256 (x y : Nat) : Bool :=
  decide (x < p256p) && decide (y < p256p) && decide ((y * y) % p256p = (x * x * x + (p256p - 3) * x + p256b) % p256p)

/-- Whether (r, s) signs a digest under the public key (x, y). -/
def ecdsaGood (digest : List Byte) (x y r s : Nat) : Bool :=
  let n := p256n
  if !onP256 x y || decide (r = 0) || decide (n ≤ r) || decide (s = 0) || decide (n ≤ s) then false
  else
    let z := beNat digest
    let w := invMod n s
    match p256add (p256mul 256 (z * w % n) (some p256g)) (p256mul 256 (r * w % n) (some (x, y))) with
    | some (x1, _) => decide (x1 % n = r)
    | none => false

end Sys2Proof.Machine
end

