-- ==== Sys2Proof/Machine/Time.lean ====
section
/-! DEFINITION. Timekeeping: acceptance windows (R314), timed edges and their consumers (R307 to R309, R315), the grid
tracker (R312), linearisation tables (R311), PPS (R322 to R326) and the alignment of deals to PPS (R38, R39). -/

namespace Sys2Proof.Machine

/-! ### Windows (R314) -/

/-- A channel's window. -/
def State.chanOf (s : State) (c : Nat) : ChanWin := instGet .reset s.time.chan c

/-- Change a channel's window. -/
def State.setChan (s : State) (c : Nat) (w : ChanWin) : State :=
  { s with time := { s.time with chan := instSet .reset s.time.chan c w } }

/-- A channel's ANCHOR, START_CH, OPEN and CLOSE as its registers hold them. -/
def State.chanCfg (s : State) (c : Nat) : Nat × Nat × Nat :=
  ((s.reg (TIME_CH_CFG c).addr).toNat, s.fld (TIME_CH_OPEN_NS c), s.fld (TIME_CH_CLOSE_NS c))

/-- OPEN or CLOSE as event time. -/
def State.winOffset (s : State) (ns : Nat) : Int := toSigned 32 ns * s.unitNs

/-- The first anchor instant and the spacing of anchors, for DEAL and SECOND (R314, R321). -/
def State.anchors (s : State) (anchor : Nat) : Int × Int :=
  if anchor = 1 then (0, ((400 * s.dealLen : Nat) : Int) * unitSample)
  else (timeOfPos s.epoch.x0, (s.nsps : Int) * unitSample)

/-- x / d rounded up, for a positive divisor. -/
def ceilInt (x d : Int) : Int := -((-x) / d)

/-- The first anchor whose window has not closed and opened under the setting in effect. -/
def State.firstOpen (s : State) (c : Nat) : Int :=
  let w := s.chanOf c
  let (base, per) := s.anchors (s.fld (TIME_CH_CFG_ANCHOR c))
  let lo := ceilInt (w.since * unitSample - s.winOffset (s.fld (TIME_CH_OPEN_NS c)) - base) per
  match w.closed with
  | some m => max lo (m + 1)
  | none => lo

/-- The anchor whose window takes an edge at time t: the first that is open and has not taken one. -/
def State.windowFor (s : State) (c : Nat) (t : Int) : Option Int :=
  let (base, per) := s.anchors (s.fld (TIME_CH_CFG_ANCHOR c))
  let op := s.winOffset (s.fld (TIME_CH_OPEN_NS c))
  let cl := s.winOffset (s.fld (TIME_CH_CLOSE_NS c))
  let lo := max (ceilInt (t - cl - base) per) (s.firstOpen c)
  let lo := match (s.chanOf c).hits with
    | h :: _ => max lo (h + 1)
    | [] => lo
  if 0 < per ∧ base + lo * per + op ≤ t ∧ t ≤ base + lo * per + cl then some lo else none

/-- Whether channel 0 accepts PPS without its window: before an epoch is in force, in LOST and in REQUAL (R314, R325). -/
def State.ppsFree (s : State) : Bool := !s.epoch.isSet || s.flag TIME_STAT_PPS_LOST || s.flag TIME_STAT_REQUAL

/-- A channel judges an edge (R314): whether it accepts it, and the interval of CHANNEL mode in LSB. -/
def State.judgeEdge (s : State) (c : Nat) (t : Int) : Bool × Option Int :=
  let w := s.chanOf c
  let half := match s.time.lastPps with
    | some (p, _) => decide ((s.nsps : Int) * unitSample ≤ 2 * (t - p))
    | none => true
  if c = 0 ∧ s.ppsFree = true then
    (half && !(s.flag TIME_STAT_REQUAL && s.flag TIME_STAT_REF_LOST), none)
  else
    match s.fld (TIME_CH_CFG_ANCHOR c) with
    | 0 => (true, none)
    | 3 =>
      match w.start with
      | some t0 =>
        if t0 + s.winOffset (s.fld (TIME_CH_OPEN_NS c)) ≤ t ∧ t ≤ t0 + s.winOffset (s.fld (TIME_CH_CLOSE_NS c)) then
          (true, some (roundEvenDiv (t - t0) s.unitLsb.toNat))
        else (false, none)
      | none => (false, none)
    | _ => ((s.windowFor c t).isSome, none)

/-- A window takes its edge: it accepts no further one. -/
def State.useWindow (s : State) (c : Nat) (t : Int) : State :=
  if c = 0 ∧ s.ppsFree = true then s
  else
    match s.fld (TIME_CH_CFG_ANCHOR c) with
    | 0 => s
    | 3 => s.setChan c { s.chanOf c with start := none }
    | _ =>
      match s.windowFor c t with
      | some m => s.setChan c { s.chanOf c with hits := m :: (s.chanOf c).hits }
      | none => s

/-- The channel registers of an accepted edge (R328). -/
def State.noteEdge (s : State) (c : Nat) (n : Int) (o : Nat) (ref : Bool) (ival : Option Int) : State :=
  let s := s.setPair (TIME_CH_LAST_IDX c) (ofSigned 64 n)
  let s := s.setReg (TIME_CH_LAST_INFO c).addr
    (BitVec.ofNat 32 (2 ^ 31 + b2n ref <<< 30 + b2n ival.isSome <<< 29 + o % 65536))
  let s : State := match ival with
    | some x => s.setPair (TIME_CH_IVAL c) (ofSigned 48 x)
    | none => s
  s.addSat (TIME_CH_COUNT_COUNT c) 1

/-- An accepted edge of a channel begins the windows of the channels that it starts (R314); an edge that is both a start
and a stop on one channel serves only as the stop. -/
def State.startWindows (s : State) (c : Nat) (t : Int) : State :=
  (List.range 20).foldl (fun s d =>
    if s.fld (TIME_CH_CFG_ANCHOR d) = 3 ∧ s.fld (TIME_CH_CFG_START_CH d) = c ∧ d ≠ c then
      s.setChan d { s.chanOf d with start := some t }
    else s) s

/-- When a channel's next window closes: of CHANNEL mode the open one, of DEAL and SECOND the first that has not closed. -/
def State.nextClose (s : State) (c : Nat) : Option Int :=
  let cl := s.winOffset (s.fld (TIME_CH_CLOSE_NS c))
  match s.fld (TIME_CH_CFG_ANCHOR c) with
  | 0 => none
  | 3 => (s.chanOf c).start.map (fun t => t + cl)
  | a => let (base, per) := s.anchors a
         some (base + s.firstOpen c * per + cl)

/-- A window of channel 0 has closed without an edge: three in a row lose PPS (R325). -/
def State.ppsMissed (s : State) : State :=
  let run := s.time.missRun + 1
  if 3 ≤ run then
    ({ s with time := { s.time with missRun := 0 } }.setFld TIME_STAT_PPS_LOST 1).logEvent 0x0304 sevAttention
      (s.fld TIME_PPS_MISS_COUNT)
  else { s with time := { s.time with missRun := run } }

/-- A channel's next window closes (R314), once its time has come: without an accepted edge it counts as missed. -/
def State.windowClose (s : State) (c : Nat) : State :=
  let w := s.chanOf c
  let anchor := s.fld (TIME_CH_CFG_ANCHOR c)
  let due := match s.nextClose c with
    | some t => decide (t ≤ s.trigNow)
    | none => false
  if !due || decide (c = 0) && s.ppsFree then s
  else if anchor = 3 then (s.setChan c { w with start := none }).addSat (TIME_CH_MISS_COUNT c) 1
  else
    let m := s.firstOpen c
    let t := s.setChan c { w with closed := some m, hits := w.hits.filter (fun h => decide (m < h)) }
    if decide (m ∈ w.hits) then t
    else
      let t := t.addSat (TIME_CH_MISS_COUNT c) 1
      if c = 0 ∧ anchor = 2 then t.ppsMissed else t

/-! ### PPS (R322 to R326) and alignment (R38, R39) -/

/-- The Dealers count coarse samples from `j` on. -/
def State.countFrom (s : State) (j : Int) : State :=
  (List.range 4).foldl (fun s i => s.setDealer i { s.dealerOf i with j := j, aligned := true }) s

/-- With no alignment, the first tick falls 2^k coarse samples after the Dealers' first output and begins deal 0 (R38). -/
def State.countUnaligned (s : State) : State :=
  { s.countFrom (-(s.dealLen : Int)) with deal := { s.deal with next := 0, first := 0 } }

/-- The device starts as if ALIGN were 0 (R39): cause 0, no PPS; cause 1, the PPS marked a second before S0. -/
def State.unaligned (s : State) (arg : Nat) : State :=
  let s := { s with time := { s.time with waitAlign := false } }
  let s := (s.setFld DEAL_STAT_UNALIGNED 1).logEvent 0x0101 sevAttention arg
  if (s.dealerOf 0).on then s.countUnaligned else s

/-- The Dealers align to a PPS of TAI second `sec` at raw index n and offset o (R38): the hop that begins at the first raw
sample at or after it is coarse sample c, and the epoch is in force from the first deal. -/
def State.alignTo (s : State) (sec : Nat) (n : Int) (o : Nat) (pos : Int) : State :=
  let s0 := s.pair DEAL_ALIGN_SEC
  if sec < s0 then
    let s := s.unaligned 1
    { s with time := { s.time with epochDue := some (pos, sec) } }
  else
    let c := (sec - s0) * s.nsps / 400
    let first := ceilDiv c s.dealLen
    let shift := 400 * (c : Int) - (n + (if o = 0 then 0 else 1))
    let s := s.countFrom c
    let s := { s with
      deal := { s.deal with next := first, first := first },
      time := { s.time with
        waitAlign := false,
        lastPps := s.time.lastPps.map (fun (p : Int × Int) => (p.1 + shift * unitSample, p.2 + 65536 * shift)),
        closePps := s.time.closePps.map (fun y => y + 65536 * shift),
        fit := s.time.fit.map (fun (f : Nat × GridFit) => (f.1, f.2.shift shift)) } }
    s.putEpoch first (pos + 65536 * shift) sec 0 false

/-- An epoch or a step waits for the first tick whose close point follows (R47, R323, R326). -/
def State.stageEpoch (s : State) (x0 secAt : Int) : State :=
  if s.deal.closed then { s with time := { s.time with epochLater := some (x0, secAt) } }
  else { s with time := { s.time with epochDue := some (x0, secAt) } }

/-- A step by an error waits for its tick (R326). -/
def State.stageStep (s : State) (e : Int) : State :=
  if s.deal.closed then { s with time := { s.time with stepLater := some e } }
  else { s with time := { s.time with stepDue := some e } }

/-- The error of a PPS position against the nearest predicted one (R325). -/
def State.ppsDelta (s : State) (pos : Int) : Int :=
  let per := 65536 * s.nsps
  let d := pos - s.epoch.x0
  if per = 0 then d else d - roundEvenDiv d per * ((per : Nat) : Int)

/-- Consecutive seconds out of tolerance are counted, by the first PPS of each, and three make PPS_DRIFT (R325). -/
def State.judgeDrift (s : State) (e : Int) (first : Bool) : State :=
  let run : Nat := if s.fld TIME_PPS_TOL_TOL < e.natAbs then s.time.driftRun + b2n first else 0
  let s : State := { s with time := { s.time with driftRun := run } }
  if run = 3 ∧ first = true then (s.setFld TIME_STAT_PPS_DRIFT 1).logEvent 0x0305 sevAttention (ofSigned 32 e) else s

/-- The error of an accepted PPS is stored and judged; LOST and REQUAL end, and windows that open from now on
count again (R325). -/
def State.ppsError (s : State) (pos : Int) (first : Bool) : State :=
  let e := s.ppsDelta pos
  let s : State := { s with time := { s.time with lastErr := some e, missRun := 0 } }
  let s := s.setFld TIME_PPS_ERR_E (ofSigned 32 (clampInt (-(2 ^ 31 - 1)) (2 ^ 31 - 1) e))
  let s := if s.ppsFree then s.setChan 0 { s.chanOf 0 with hits := [], closed := none, since := max (s.chanOf 0).since (pos / 65536 + 1) } else s
  let s := (s.judgeDrift e first).setFld TIME_STAT_PPS_LOST 0
  if s.flag TIME_STAT_REQUAL then (s.setFld TIME_STAT_REQUAL 0).stageStep e else s

/-- An accepted PPS edge (R322, R323, R325). -/
def State.ppsAccept (s : State) (n : Int) (o : Nat) (t : Int) : State :=
  let delay := toSigned 16 (s.fld TIME_PPS_DELAY_DELAY)
  let pos := roundEvenDiv (t - delay * s.unitLsb) unitFrac.toNat
  let first := !s.time.inSecond
  let close := if pos ≤ s.closePos s.deal.next then some pos else s.time.closePps
  let s := { s with time := { s.time with lastPps := some (t, pos), closePps := close, inSecond := true } }
  let s := s.setFld TIME_STAT_PPS 1
  match s.time.setSec with
  | some v =>
    if s.time.taken then (if s.epoch.isSet then s.ppsError pos first else s.setFld TIME_STAT_REQUAL 0)
    else
      let sec := v + s.time.counted
      let s := { s with time := { s.time with taken := true } }
      let s := s.setFld TIME_STAT_REQUAL 0
      if s.time.waitAlign then s.alignTo sec n o pos else s.stageEpoch pos sec
  | none => if s.epoch.isSet then s.ppsError pos first else s.setFld TIME_STAT_REQUAL 0

/-! ### Timed edges (R307 to R309) -/

/-- What a comparator or a pin compares its input with, in 1/1,024 µV: the level above which its output rises, the level
below which it falls, the overdrive that it needs, and the time in ps (R95, R98, R315, R316). -/
def State.levels (s : State) (c : Nat) : Int × Int × Int × Nat :=
  if c < 3 then
    let up : Int := ((1024 * 3300 * s.fld (TIME_PIN_CFG_THRESH c) : Nat) : Int)
    let hyst : Int := match s.fld (TIME_PIN_CFG_HYST c) with
      | 0 => 0
      | 1 => 25000
      | 2 => 50000
      | _ => 100000
    (up, up - 1024 * hyst, 1024 * 100000, 1000)
  else
    let i := (c - 3) / 4
    let j := (c - 3) / 2 % 2
    (s.threshold i j, s.threshold i j - s.hysteresis i j, 1024 * 20000, 40)

/-- The direction in which an output goes at a crossing that it resolves; rising is true. -/
def State.crossing (s : State) (c : Nat) (x : Crossing) : Option Bool :=
  let (up, down, drive, hold) := s.levels c
  if x.ps < hold then none
  else if x.high = false ∧ up < 1024 * x.uv ∧ up + drive ≤ 1024 * x.uv then some true
  else if x.high = true ∧ 1024 * x.uv < down ∧ 1024 * x.uv ≤ down - drive then some false
  else none

/-- Whether a pin is on and its SLOPE takes edges of a direction (R315). -/
def State.pinDelivers (s : State) (c : Nat) (rising : Bool) : Bool :=
  let slope := s.fld (TIME_PIN_CFG_SLOPE c)
  s.flag (TIME_PIN_CFG_EN c) && (decide (slope = 2) || decide (slope = b2n (!rising)))

/-- Whether an edge of a channel reaches its TDC: the pin or comparator resolves it, is on with that slope, and has settled
after a change (R96 to R98, R315, R316). -/
def State.edgeDriven (s : State) (c : Nat) (t : Int) (x : Crossing) : Bool :=
  let d := s.dealTime (s.pair DEAL_NUM)
  match s.crossing c x with
  | none => false
  | some rising =>
    if c < 3 then
      s.pinDelivers c rising && !(bitOf s.time.settling c && decide (t < d + 100 * s.unitNs))
    else
      let e := (c - 3) % 2
      decide (e = b2n (!rising)) && s.cmpDelivers ((c - 3) / 2) e &&
        !(bitOf s.conv.settling ((c - 3) / 2) && decide (t < d + 32 * s.unitNs))

/-- A TDC channel times an edge at raw index n, offset o (R308): windows, channel registers, and its consumer. Channel 19,
when it replaces none, shows the phase of REFCLK and nothing else (R309). -/
def State.edge (s : State) (c : Nat) (n : Int) (o : Nat) (x : Crossing) : State :=
  if s.time.grid = false ∨ s.deal.stopped = true then s
  else if c = 19 then
    if s.fld TIME_CFG_SPARE_FOR = 0x1F ∧ s.chanWorks 19 = true then s.setPair (TIME_CH_LAST_IDX 19) (ofSigned 64 n) else s
  else
    let t := s.edgeTime n o
    if !s.chanWorks c || !s.edgeDriven c t x then s
    else
      let (ok, ival) := s.judgeEdge c t
      if ok then
        let ref := s.resultsLost
        let s := (s.useWindow c t).noteEdge c n o ref ival
        let s := s.startWindows c t
        if c = 0 then s.ppsAccept n o t else s.trigEdge c t ref
      else s

/-! ### The grid, the tables and the second boundary -/

/-- A grid marker of a converter die, at raw index 2,048 k, is timed at channel time t (R312): it joins the fit, or, more
than 4 LSB away from it, is left out. -/
def State.gridMarker (s : State) (die : Nat) (k : Int) (t : Nat) : State :=
  let f := instGet .reset s.time.fit die
  let put := fun (f : GridFit) => { s with time := { s.time with fit := instSet .reset s.time.fit die f } }
  let keep := fun (m : Option (Int × Nat)) => (m :: f.marks).take 64
  if f.points ≠ [] ∧ (f.line s.nsps).agrees (2048 * k) t = false then
    let f : GridFit := { f with marks := keep none, out := f.out + 1, agree := 0 }
    if f.out = 64 then ((put { f with bad := true }).setFld TIME_STAT_GRID_ERR 1).logEvent 0x0306 sevAttention die
    else (put f).setFld TIME_STAT_GRID_ERR 1
  else
    let f : GridFit := { f with marks := keep (some (2048 * k, t)), out := 0, agree := min 64 (f.agree + 1) }
    put { f with bad := f.bad && decide (f.agree < 64) }

/-- The code density of a channel has been measured (R311): with 2^20 hits its table is taken up. -/
def State.refreshTable (s : State) (c : Nat) (hits : List Nat) : State :=
  if 2 ^ 20 ≤ hits.sum ∧ hits.length = 512 then
    { s with time := { s.time with tables := instSet [] s.time.tables c (linearTable hits) } }
  else s

/-- The next second boundary of the timestamp to be judged: the first after the last one, and in deals of the epoch (R325). -/
def State.nextSecond (s : State) : Int :=
  let e := s.epoch
  let per : Int := ((65536 * s.nsps : Nat) : Int)
  let last := max s.time.second (65536 * s.dealRaw e.since - 1)
  e.x0 + ((last - e.x0) / per + 1) * per

/-- A second boundary of the timestamp, once it has come (R325): a second without an accepted PPS is counted. -/
def State.secondBoundary (s : State) : State :=
  let b := s.nextSecond
  if s.time.grid = false ∨ s.trigNow < timeOfPos b then s
  else
    let s := { s with time := { s.time with second := b } }
    if s.time.inSecond then { s with time := { s.time with inSecond := false } }
    else { s with time := { s.time with driftRun := 0 } }.addSat TIME_PPS_MISS_COUNT 1

/-- RESYNC is written 1 (R326): ignored with no epoch or no PPS in the last 2 s. -/
def State.resync (s : State) : State :=
  let recent := match s.time.lastPps with
    | some (t, _) => decide (s.rawNow * unitSample - t ≤ 2 * (s.nsps : Int) * unitSample)
    | none => false
  match s.time.lastErr with
  | some e => if s.epoch.isSet && recent then (s.setFld TIME_CTL_RESYNC 1).stageStep e else s.ignored TIME_CTL.addr
  | none => s.ignored TIME_CTL.addr

/-- TIME_EPOCH_SET_HI is written (R11, R323): inside the wait it gives the second of the next PPS. -/
def State.epochSetWrite (s : State) (hi : Word) : State :=
  let lo := sparseGet (fun _ => (0 : Word)) s.holdLo TIME_EPOCH_SET.addr
  let v := lo.toNat + 2 ^ 32 * (hi.toNat % 65536)
  let s := s.setPair TIME_EPOCH_SET v
  if s.flag TIME_STAT_EPOCH_WAIT then
    { s with time := { s.time with setSec := some v, counted := 0, lastEdge := none } }
  else s

/-- A PPS edge between the start of step 7 and converter start (R323), `ns` ns after step 7 began: counted after the
write when the pin resolves it and it lies at least 0.5 s after the one counted before. -/
def State.countPps (s : State) (ns : Nat) (x : Crossing) : State :=
  let seen := match s.crossing 0 x with
    | some rising => s.pinDelivers 0 rising
    | none => false
  let apart := match s.time.lastEdge with
    | some x => decide (x + 500000000 ≤ ns)
    | none => true
  if s.fld TIME_CFG_EPOCH_SRC = 2 ∧ s.time.counting = true ∧ s.time.setSec.isSome = true ∧ apart = true ∧ seen = true then
    { s with time := { s.time with counted := s.time.counted + 1, lastEdge := some ns } }
  else s

/-- ALIGN = 1 and no PPS within 2 s of converter start (R39). -/
def State.noPps (s : State) : State := if s.time.waitAlign then s.unaligned 0 else s

/-! ### A tick -/

/-- Step 3 of R49 at tick n: an epoch and a step that wait for this tick (R323, R326). -/
def State.timeTick (s : State) (n : Nat) : State :=
  let s : State := match s.time.epochDue with
    | some (x0, secAt) => s.putEpoch n x0 secAt (s.epochChange x0 secAt) s.deal.running
    | none => s
  let per := ((65536 * s.nsps : Nat) : Int)
  let s : State := match s.time.stepDue with
    | some e =>
      if s.epoch.isSet then
        let e' := if per = 0 then e else (e + per / 2) % per - per / 2
        let s := s.putEpoch n (s.epoch.x0 + e') s.epoch.secAt (-e') true
        ((s.setFld TIME_STAT_STEP 1).setFld TIME_CTL_RESYNC 0).logEvent 0x0303 sevInfo (ofSigned 32 (-e'))
      else s
    | none => s
  let t := s.time
  { s with time := { t with
      epochDue := t.epochLater, epochLater := none, stepDue := t.stepLater, stepLater := none, settling := 0 } }

/-- An EPOCH record of an amendment at tick n, step 5 of R49 (R324). -/
def State.amendEpoch (s : State) (n sec : Nat) : State :=
  let close := s.closePos n
  let per := ((65536 * s.nsps : Nat) : Int)
  let recent := match s.time.closePps with
    | some y => if close - y ≤ 2 * per then some y else none
    | none => none
  match recent with
  | some y => s.putEpoch n y sec (s.epochChange y sec) true
  | none =>
    let x0 := s.epoch.x0
    let m := if per = 0 then 0 else (close - x0) / per
    let secAt := (sec : Int) - m
    let s := s.putEpoch n x0 secAt (s.epochChange x0 secAt) true
    (s.setFld TIME_STAT_EPOCH_NOPPS 1).logEvent 0x0307 sevAttention 0

/-- Windows whose settings change at tick n begin anew (R314). -/
def State.chanTick (s : State) (n : Nat) : State :=
  let s := (List.range 20).foldl (fun s c =>
    let w := s.chanOf c
    if s.chanCfg c = w.cfg then s
    else s.setChan c { ChanWin.reset with cfg := s.chanCfg c, since := s.dealRaw n }) s
  let s := { s with time := { s.time with closePps := s.time.lastPps.map (fun (p : Int × Int) => p.2) } }
  if s.resultsLost then s.openRefSpan else s

/-- Whether a channel's OPEN and CLOSE break R314. `get` reads a register. -/
def windowBad (get : Nat → Word) (c : Nat) : Bool :=
  let op := (get (TIME_CH_OPEN c).addr).toInt
  let cl := (get (TIME_CH_CLOSE c).addr).toInt
  decide (cl ≤ op) || decide (1000000000 < cl - op)

/-! ### Meanings -/

/-- EDGE_TIMED (R308, R310). -/
def execEdgeTimed (c : Fin 20) (count : BitVec 48) (code : BitVec 9) (x : Crossing) (s : State) :
    Host.Outcome State Fault Refusal :=
  let p := s.gridPlace c count.toNat code.toNat
  done (s.edge c p.1 p.2 x)

/-- ACCEPTANCE_WINDOW_CLOSE (R314). -/
def execAcceptanceWindowClose (c : Fin 20) (s : State) : Host.Outcome State Fault Refusal := done (s.windowClose c)

/-- SECOND_BOUNDARY (R325). -/
def execSecondBoundary (s : State) : Host.Outcome State Fault Refusal := done s.secondBoundary

/-- GRID_MARKER (R312). -/
def execGridMarker (die : Fin 2) (k : Int) (count : BitVec 48) (code : BitVec 9) (s : State) :
    Host.Outcome State Fault Refusal := done (s.gridMarker die k (512 * count.toNat + code.toNat))

/-- CODE_DENSITY_REFRESH (R311). -/
def execCodeDensityRefresh (c : Fin 20) (hits : List Nat) (s : State) : Host.Outcome State Fault Refusal :=
  done (s.refreshTable c hits)

/-- RESYNC (R326). -/
def execResync (s : State) : Host.Outcome State Fault Refusal := done s.resync

/-- TIME_EPOCH_SET (R323). -/
def execTimeEpochSet (hi : Word) (s : State) : Host.Outcome State Fault Refusal := done (s.epochSetWrite hi)

/-- PPS_COUNTED_EDGE (R323). -/
def execPpsCountedEdge (ns : Nat) (x : Crossing) (s : State) : Host.Outcome State Fault Refusal := done (s.countPps ns x)

/-- UNALIGNED (R39). -/
def execUnaligned (s : State) : Host.Outcome State Fault Refusal := done s.noPps

end Sys2Proof.Machine
end

