-- ==== Sys2Proof/Machine/Zoom.lean ====
section
/-! DEFINITION. Zoom chains: the oscillator, filters and output of R252 to R260, the output grid (R261 to R263), limits
(R264), changes at a tick (R265 to R268) and power values (R269). -/

namespace Sys2Proof.Machine

/-! ### The oscillator (R255, R256) -/

/-- The angle 2πt / 2^18 scaled by 2^64. -/
def angle18 (t : Nat) : Nat := 2 * pi64 * t / 262144

/-- roundeven(131,071 sin(2πt / 2^18)) in the first quarter; no value of the table lies within 2 / 1,000,000 of a tie. -/
def sin18 (t : Nat) : Int := roundEven (131071 * ((angle18 t : Int) + sinTail (angle18 t) 15 1 (angle18 t))) 64

/-- roundeven(131,071 cos(2πt / 2^18)) in the first quarter. -/
def cos18 (t : Nat) : Int := roundEven (131071 * ((2 ^ 64 : Int) + cosTail (angle18 t) 15 1 (2 ^ 64))) 64

/-- The sine and cosine of R255 for t = 0 to 2^18 − 1, by quarters: (c, s). -/
def oscillator (t : Nat) : Int × Int :=
  let r := t % 65536
  match t / 65536 % 4 with
  | 0 => (cos18 r, sin18 r)
  | 1 => (-(sin18 r), cos18 r)
  | 2 => (-(cos18 r), -(sin18 r))
  | _ => (sin18 r, -(cos18 r))

/-- A chain. -/
def State.chainOf (s : State) (n : Nat) : ZoomChain := instGet .reset s.zoom.chains n

/-- Change a chain. -/
def State.setChain (s : State) (n : Nat) (x : ZoomChain) : State :=
  { s with zoom := { s.zoom with chains := instSet .reset s.zoom.chains n x } }

/-- The phase θ(n) (R256). -/
def ZoomChain.phase (x : ZoomChain) (n : Int) : Nat :=
  let c := x.cfg
  if c.pmode then (((x.theta : Int) + (c.freq : Int) * (n - x.thetaAt)) % (2 ^ 48 : Nat)).toNat
  else (((c.freq : Int) * n + ((c.phase * 2 ^ 32 : Nat) : Int)) % (2 ^ 48 : Nat)).toNat

/-- The mixer's product of a raw sample (R255). -/
def mix (theta : Nat) (x : Int) : Cx :=
  let (c, s) := oscillator (theta / 2 ^ 30)
  { re := roundEven (x * c) 11, im := roundEven (-(x * s)) 11 }

/-! ### Filters (R252, R255) -/

/-- What R253 and R255 say of a half-band that decimates by 2: the sum, and at frequencies of 1 / 131,072 of the input rate
each the flat band, ±0.4 of the output rate, and the band that folds into it, 85 dB down. -/
def halfGood (h : List Int) : Bool :=
  let p := fun (q : Nat) => powerAt h q
  decide (h.sum = 131072) &&
  (List.range 26215).all (fun q => dbWithin 1000 (p q) (p 0) && dbWithin 1000 (p 0) (p q)) &&
  (List.range (65537 - 39322)).all (fun i => decide (10 ^ 17 * p (39322 + i) ^ 2 ≤ p 0 ^ 2))

/-- A half-band's coefficients: the ROM's, symmetric, which the spec says meet R253 and R255; in their place, were they not to,
ones that keep symmetry and sum. -/
def halfBand (len : Nat) : List Int :=
  let h := (List.range len).map (fun t => toSigned 18 (ofSigned 18 (Config.halfBand len (min t (len - 1 - t)))))
  if halfGood h then h
  else (List.range len).map (fun t => if 2 * t + 1 = len then 65536 else if 2 * t + 3 = len ∨ 2 * t = len + 1 then 32768 else 0)

/-- A component after division by 2^17, and whether it was limited (R255). -/
def chainLimit (x : Int) : Int × Bool :=
  let r := roundEven x 17
  (clampInt (-8388607) 8388607 r, decide (clampInt (-8388607) 8388607 r ≠ r))

/-- A stage's output from its history, newest first, and its coefficients: with the OVF mark of what it used. -/
def filterOut (coef : List Int) (hist : List (Cx × Bool)) : Cx × Bool :=
  let acc := (List.zipWith (fun (c : Int) (h : Cx × Bool) => ({ re := c * h.1.re, im := c * h.1.im } : Cx)) coef hist).foldl
    (fun (a b : Cx) => ({ re := a.re + b.re, im := a.im + b.im } : Cx)) Cx.zero
  let re := chainLimit acc.re
  let im := chainLimit acc.im
  ({ re := re.1, im := im.1 }, re.2 || im.2 || (hist.take coef.length).any (fun h => h.2))

/-- The coefficients of stage i of a chain: F1, F2, H1 to Hm, then the FIR. -/
def ZoomCfg.stageCoef (c : ZoomCfg) (i : Nat) : List Int :=
  if i = 0 then halfBand 23
  else if i = 1 then halfBand 47
  else if i < c.m + 2 then halfBand 55
  else (List.range c.taps).map (fun t => toSigned 18 (c.coef.getD t 0))

/-- The total decimation R (R252). -/
def ZoomCfg.r (c : ZoomCfg) : Nat := 4 * 2 ^ c.m * c.df

/-- Raw samples per output of stage i. -/
def ZoomCfg.stageR (c : ZoomCfg) (i : Nat) : Nat := if i < c.m + 2 then 2 ^ (i + 1) else c.r

/-- A sample passes through the stages from stage i on, as far as raw index n completes their outputs. -/
def runStages (c : ZoomCfg) (n : Int) : Nat → Nat → Cx × Bool → List (List (Cx × Bool)) → List (List (Cx × Bool)) × Option (Cx × Bool)
  | 0, _, v, hist => (hist, some v)
  | left + 1, i, v, hist =>
    let h := (v :: hist.headD []).take 384
    if (n + 1) % (c.stageR i : Int) = 0 then
      let (rest, out) := runStages c n left (i + 1) (filterOut (c.stageCoef i) h) hist.tail
      (h :: rest, out)
    else (h :: hist.tail, none)

/-! ### Output (R259 to R263) -/

/-- The group delay G256 (R261). -/
def ZoomCfg.g256 (c : ZoomCfg) : Nat :=
  let gd := if c.gdMode then c.gd else 128 * (c.taps - 1)
  256 * (57 + 108 * (2 ^ c.m - 1)) + gd * 4 * 2 ^ c.m

/-- The DC block (R259): the output, its limit mark, and the estimate after it. -/
def dcBlock (c : ZoomCfg) (e y : Cx) : Cx × Bool × Cx :=
  if c.dcEn then
    let lim := fun (v : Int) => clampInt (-8388607) 8388607 v
    let re := y.re - roundEven e.re 24
    let im := y.im - roundEven e.im 24
    let step := fun (d v : Int) => if c.freeze then d else d + (v * (2 : Int) ^ 24 - d) / (2 : Int) ^ c.dcK
    ({ re := lim re, im := lim im }, decide (lim re ≠ re) || decide (lim im ≠ im), { re := step e.re y.re, im := step e.im y.im })
  else (y, false, e)

/-- The output word (R257, R260) and whether a component was limited; with its components. -/
def outWord (c : ZoomCfg) (y : Cx) : Nat × Bool × Cx :=
  let w := if c.wide8 then 8 else 16
  let lim : Int := (2 ^ (w - 1) : Nat) - 1
  let f := fun (v : Int) => clampInt (-lim) lim (roundEven v c.oshift)
  let hit := decide (f y.re ≠ roundEven y.re c.oshift) || decide (f y.im ≠ roundEven y.im c.oshift)
  let q := if c.conj then -(f y.im) else f y.im
  (ofSigned w (f y.re) + ofSigned w q <<< w, hit, { re := f y.re, im := q })

/-- The instant of output sample u in 1/65,536 sample (R262). -/
def zoomPos (r g256 : Nat) (u : Int) : Int := 65536 * ((r : Int) * u + r - 1) - 256 * (g256 : Int)

/-- The open segment closes (R263). -/
def ZoomChain.close (x : ZoomChain) (trunc degr : Bool) : ZoomChain :=
  if x.opened.isEmpty && !trunc then x
  else
    let g : ZoomSeg :=
      { deal := x.odeal, u := (x.opened.head?.map (fun o => o.u)).getD x.uNext, data := x.opened, trunc := trunc, degr := degr,
        skip := if x.opened.isEmpty then 0 else x.skip, r := x.cfg.r, g256 := x.cfg.g256, wide8 := x.cfg.wide8,
        input := x.cfg.input }
    { x with opened := [], skip := if x.opened.isEmpty then x.skip else 0, ready := x.ready ++ [g] }

/-- A delivered sample joins the power block (R269): LOG_AVG and enable as the register holds them. -/
def ZoomChain.power' (x : ZoomChain) (en : Bool) (l : Nat) (u : Int) (z : Cx) : ZoomChain :=
  let begins := fun (b : Option (Nat × Int × Nat)) =>
    match b with
    | some p => some p
    | none => if en && decide (u % ((2 ^ l : Nat) : Int) = 0) then some (l, u, 0) else none
  match begins x.power with
  | none => x
  | some (l, first, sum) =>
    let sum := sum + (z.re * z.re + z.im * z.im).toNat
    if u + 1 = first + ((2 ^ l : Nat) : Int) then
      let v := min (roundEven (sum : Int) l).toNat (2 ^ 32 - 1)
      let y := (zoomPos x.cfg.r x.cfg.g256 first + zoomPos x.cfg.r x.cfg.g256 u) / 2
      { x with power := none, values := x.values ++ [(v, y)] }
    else { x with power := some (l, first, sum) }

/-- Whether a chain skips outputs while CLK_CORE runs on the bridge clock (R343): T f_in / D_f above 37.248 × 10^9. -/
def State.zoomSkips (s : State) (c : ZoomCfg) : Bool :=
  s.bitSet CG_STAT_BRIDGE 0 && decide (37248000000 * (4 * 2 ^ c.m * c.df) < c.taps * s.nsps)

/-- One output of a chain's FIR at raw index n (R259 to R263, R266). -/
def State.zoomOutput (s : State) (k : Nat) (n : Int) (y : Cx × Bool) : State :=
  let x := s.chainOf k
  let c := x.cfg
  let u := (n + 1) / (c.r : Int) - 1
  let deg := s.flag (ZCN_STAT_DEG k)
  if s.zoomSkips c then
    let x := x.close false deg
    s.setChain k { x with uNext := u + 1, power := none, skip := if x.uFirst ≤ u then x.skip + 1 else x.skip }
  else
    let (d, lim1, e) := dcBlock c x.est y.1
    let (w, lim2, z) := outWord c d
    let x := { x with est := e, uNext := u + 1 }
    if u < x.uFirst then s.setChain k { x with power := none }
    else
      let ovf := y.2 || lim1 || lim2
      let deal := (n / ((400 * s.dealLen : Nat) : Int)).toNat
      let x := if deal ≠ x.odeal ∨ x.opened.length = 1024 then x.close false deg else x
      let z1 : ZoomSample := { u := u, word := w, ovf := ovf, degr := deg }
      let x := { x with opened := x.opened ++ [z1], odeal := deal }
      let x := if x.opened.length = 1024 then x.close false deg else x
      let x := x.power' (s.flag (ZCN_PWR_EN k)) (s.fld (ZCN_PWR_LOG_AVG k)) u z
      let s := s.setChain k x
      if ovf then (s.setFld (ZCN_STAT_OVF k) 1).stick ZC_STAT_OVF k else s

/-- One raw sample of its input reaches a chain. -/
def State.zoomSample (s : State) (k : Nat) (n v : Int) : State :=
  let x := s.chainOf k
  let (hist, out) := runStages x.cfg n (x.cfg.m + 3) 0 (mix (x.phase n) v, false) x.hist
  let s := s.setChain k { x with hist := hist }
  match out with
  | some y => s.zoomOutput k n y
  | none => s

/-- ZCn_SETTLE, ZCn_OUT_IDX and ZCn_DC_EST follow the chain (R270). -/
def State.zoomShow (s : State) (k : Nat) : State :=
  let x := s.chainOf k
  let left := if s.fld (ZCN_STAT_STATE k) = 1 then (x.uFirst - x.uNext).toNat else 0
  let s := (s.setFld (ZCN_SETTLE_LEFT k) left).setPair (ZCN_OUT_IDX k) (ofSigned 64 x.uNext)
  let part := fun (e : Int) => bitsOf (ofSigned 24 (roundEven e 24)) 8 16
  (s.setFld (ZCN_DC_EST_I k) (part x.est.re)).setFld (ZCN_DC_EST_Q k) (part x.est.im)

/-- Whether input i reaches chain k: a chain on the other converter die receives it over the raw exchange (R254, R16). -/
def State.zoomFed (s : State) (i k : Nat) : Bool := decide (k / 8 = i / 2) || !s.linkFailed 4

/-- A hop of an input's raw samples reaches the chains that select it; the first sample has raw index n. -/
def State.zoomHop (s : State) (i : Nat) (n : Int) (xs : List Int) : State :=
  ((List.range 16).filter (fun k => let c := (s.chainOf k).cfg; c.en && decide (c.input = i) && s.zoomFed i k)).foldl (fun s k =>
    ((xs.zipIdx).foldl (fun s v => s.zoomSample k (n + (v.2 : Int)) v.1) s).zoomShow k) s

/-! ### Limits (R258, R261, R264) -/

/-- A chain's settings as a set of register values gives them. -/
def zoomCfg (get : Nat → Word) (k : Nat) : ZoomCfg :=
  let f := fun (x : Field) => wordBits (get x.addr) x.lo x.width
  let taps := f (ZCN_FIR_CFG_TAPS k)
  { en := decide (f (ZCN_CTL_EN k) = 1), pmode := decide (f (ZCN_CTL_PMODE k) = 1), dcEn := decide (f (ZCN_CTL_DC_EN k) = 1),
    freeze := decide (f (ZCN_CTL_FREEZE k) = 1), input := f (ZCN_CTL_INPUT k), wide8 := decide (f (ZCN_CTL_WIDTH k) = 1),
    dcK := f (ZCN_CTL_DC_K k), m := f (ZCN_CTL_M k), df := f (ZCN_CTL_DF k), oshift := f (ZCN_CTL_OSHIFT k),
    conj := decide (f (ZCN_CTL_CONJ k) = 1),
    freq := ((get (ZCN_NCO_FREQ k).addr).toNat + 2 ^ 32 * (get ((ZCN_NCO_FREQ k).addr + 4)).toNat) % 2 ^ 48,
    phase := f (ZCN_NCO_PHASE_PHASE k), taps := taps, gdMode := decide (f (ZCN_FIR_GD_MODE k) = 1), gd := f (ZCN_FIR_GD_GD k),
    coef := (List.range 384).map (fun t => f (ZCN_COEF_C k t)) }

/-- Bits per output sample. -/
def ZoomCfg.bits (c : ZoomCfg) : Nat := if c.wide8 then 16 else 32

/-- A chain's breach of a limit, as ZC_REFUSE codes it: tap count (R258), or the FIR's symmetry (R261). -/
def ZoomCfg.breach (c : ZoomCfg) (nsps : Nat) : Option Nat :=
  if min 384 (96 * 1600000000 * c.df * 4 * 2 ^ c.m / max 1 nsps) < c.taps then some 1
  else if !c.gdMode && decide (c.coef.take c.taps ≠ (c.coef.take c.taps).reverse) then some 3
  else none

/-- A declared delay beyond its range, 0 to 256 × (T − 1) (R261, R270). -/
def zoomDelayOut (get : Nat → Word) (k : Nat) : Bool :=
  let f := fun (x : Field) => wordBits (get x.addr) x.lo x.width
  decide (256 * (f (ZCN_FIR_CFG_TAPS k) - 1) < f (ZCN_FIR_GD_GD k))

/-- The aggregate of enabled chains in bit/s, times 1,720,320 (a multiple of every R). -/
def zoomAggregate (cs : List ZoomCfg) (nsps : Nat) : Nat :=
  ((cs.filter (fun c => c.en)).map (fun c => nsps * c.bits * (1720320 / max 1 c.r))).sum

/-- The first failing cause and chain of a set of register values; chain 0x1F for the aggregate (R264). Every chain must meet
R258 and the symmetry check, whether it is enabled or not. -/
def zoomRefuse (get : Nat → Word) (nsps : Nat) : Option (Nat × Nat) :=
  let cs := (List.range 16).map (zoomCfg get)
  match (cs.zipIdx).find? (fun x => (x.1.breach nsps).isSome) with
  | some (c, k) => (c.breach nsps).map (fun b => (b, k))
  | none => if 400000000000 * 1720320 < zoomAggregate cs nsps then some (2, 0x1F) else none

/-! ### Changes at a tick (R265 to R268) -/

/-- Whether a change of settings is a full restart (R265). -/
def fullRestart (a b : ZoomCfg) : Bool :=
  (!a.en && b.en) || decide (a.input ≠ b.input) || decide (a.m ≠ b.m) || decide (a.df ≠ b.df) || decide (a.taps ≠ b.taps) ||
  decide (a.coef ≠ b.coef) || decide (a.gdMode ≠ b.gdMode) || decide (a.gd ≠ b.gd)

/-- Whether it is a DC restart. -/
def dcRestart (a b : ZoomCfg) : Bool := (!a.dcEn && b.dcEn) || (b.dcEn && decide (a.dcK ≠ b.dcK))

/-- The settling count S in raw samples (R266). -/
def ZoomCfg.settle (c : ZoomCfg) (full : Bool) : Nat :=
  (if full then 23 + 94 + 220 * (2 ^ c.m - 1) + 4 * 2 ^ c.m * c.taps else 0) +
  (if c.dcEn && !c.freeze then 16 * 2 ^ (c.dcK + c.m) * c.df else 0)

/-- The phase that a change of settings at raw index r0 leaves (R256). -/
def ZoomChain.retune (x : ZoomChain) (c : ZoomCfg) (r0 : Int) (full : Bool) : ZoomChain :=
  let abs := (((c.freq : Int) * r0 + ((c.phase * 2 ^ 32 : Nat) : Int)) % (2 ^ 48 : Nat)).toNat
  let last := x.phase (r0 - 1)
  let cont := (((last : Int) + c.freq + ((c.phase : Int) - x.cfg.phase) * (2 ^ 32 : Nat)) % (2 ^ 48 : Nat)).toNat
  { x with theta := if full then abs else cont, thetaAt := r0 }

/-- A chain's restart at raw index r0 (R265, R266). -/
def ZoomChain.restart (x : ZoomChain) (c : ZoomCfg) (r0 : Int) (full : Bool) : ZoomChain :=
  let r : Int := max 1 c.r
  let first := -(-(r0 + c.settle full) / r) - 1
  let x := { x with est := .zero, uFirst := first, skip := 0, power := none }
  if full then { x with hist := [], uNext := r0 / r } else x

/-- STATE and ZC_RUN (R268). -/
def State.setZoomState (s : State) (k st : Nat) : State :=
  (s.setFld (ZCN_STAT_STATE k) st).putBit ZC_RUN_RUN k (decide (st = 2))

/-- Whether the link of a chain's input has failed, or a lane of it beyond repair (R268, R86). -/
def State.zoomLinkBad (s : State) (k i : Nat) : Bool :=
  (decide (k / 8 ≠ i / 2) && s.linkFailed 4) || bitOf s.conv.degraded i

/-- A TRUNC segment ends a running chain's output (R267). -/
def State.zoomTrunc (s : State) (k : Nat) : State :=
  let x := s.chainOf k
  (s.setChain k (x.close true (s.flag (ZCN_STAT_DEG k)))).setFld (ZCN_STAT_TRUNC k) 1

/-- One chain at the tick that begins deal n (R265 to R268). -/
def State.zoomTickChain (s : State) (n k : Nat) : State :=
  let x := s.chainOf k
  let old := x.cfg
  let c := zoomCfg s.reg k
  let r0 := s.dealRaw n
  let s := if s.fld (ZCN_STAT_STATE k) = 1 ∧ x.uFirst < x.uNext then s.setZoomState k 2 else s
  let running := decide (s.fld (ZCN_STAT_STATE k) = 2)
  let full := fullRestart x.cfg c
  let dc := dcRestart x.cfg c
  let change := decide (x.cfg ≠ c)
  let s : State :=
    if x.cfg.en && (!c.en || full || dc) && running then s.zoomTrunc k
    else s.setChain k (x.close false (s.flag (ZCN_STAT_DEG k)))
  let x := s.chainOf k
  let s : State :=
    if !c.en then (s.setChain k { x with cfg := c, hist := [], power := none }).setZoomState k 0
    else if full || dc then
      let y := ({ x.retune c r0 full with cfg := c }).restart c r0 full
      (s.setChain k y).setZoomState k 1
    else if change then s.setChain k { x.retune c r0 false with cfg := c }
    else s
  let bad := (old.en && s.zoomLinkBad k old.input) || (c.en && s.zoomLinkBad k c.input)
  let s := if bad then s.setFld (ZCN_STAT_DEG k) 1 else s
  if change || c.en then s.zoomShow k else s

/-- ZCn_RATE, ZCn_GD_TOTAL and ZC_AGG follow the settings in force (R270). -/
def State.zoomRates (s : State) : State :=
  let cs := (List.range 16).map (zoomCfg s.reg)
  let n := s.nsps
  let s := (cs.zipIdx).foldl (fun s x =>
    let rate := if x.1.en then ceilDiv (n * x.1.bits) (1000 * max 1 x.1.r) else 0
    (s.setFld (ZCN_RATE_KBPS x.2) rate).setFld (ZCN_GD_TOTAL_G256 x.2) x.1.g256) s
  s.setFld ZC_AGG_KBPS (ceilDiv (zoomAggregate cs n) (1000 * 1720320))

/-- The chains at the tick that begins deal n. -/
def State.zoomTick (s : State) (n : Nat) : State :=
  ((List.range 16).foldl (fun s k => s.zoomTickChain n k) s).zoomRates

/-! ### Segments and power values handed on -/

/-- The ZOOM record of a segment (R387, R390). -/
def State.zoomRecord (s : State) (k : Nat) (g : ZoomSeg) : List Byte :=
  let h : RecHead :=
    { ty := 0x08, flags := flagIf (g.data.any (fun x => x.ovf)) flOvf ||| flagIf g.degr flDegr ||| flagIf g.trunc flTrunc,
      product := 0xFF, input := g.input, channel := 0xFFFF, logical := 0xFFFF, member := 0, block := 0x06, part := 0,
      deal := g.deal, pos := zoomPos g.r g.g256 g.u, gap := if g.skip = 0 then none else some (g.skip, g.skip), rawGap := false }
  let bytes := if g.wide8 then 2 else 4
  s.record h (leBytes 8 (ofSigned 64 g.u) ++ leBytes 2 g.data.length ++ leBytes 1 k ++ leBytes 1 (b2n g.wide8) ++ leBytes 4 0 ++
    g.data.flatMap (fun x => leBytes bytes x.word))

/-- A segment goes to the chain's streams (R263, R383), over the link from the chain's die to the port's (R16). -/
def State.zoomStream (s : State) (k : Nat) (g : ZoomSeg) : State :=
  (s.streamsOf kindZoom (fun p st => decide (s.fld (ETH_S_SRC_SEL p st) = k))).foldl (fun s x =>
    let (p, st) := x
    let g := { g with degr := g.degr || s.crossesFailed [2 * (k / 8) + p] }
    if s.flag (ETH_S_CFG_VDIF p st) then
      let b := s.vbits p st
      let w := if g.wide8 then 8 else 16
      g.data.foldl (fun s v =>
        let code := vdifCode b w (toSigned w v.word) + vdifCode b w (toSigned w (v.word / 2 ^ w)) <<< b
        s.vdifTake p st g.deal (zoomPos g.r g.g256 v.u) g.r 2 code g.degr) s
    else s.offerDeal p st g.deal (s.zoomRecord k g) false) s

/-- A closed segment is handed on: to its stream, and to the capture units (R263). -/
def State.zoomSegment (s : State) (k : Nat) : State :=
  let x := s.chainOf k
  match x.ready with
  | g :: t =>
    let s := s.setChain k { x with ready := t, given := (g.data.reverse ++ x.given).take 8192 }
    s.zoomStream k g
  | [] => s

/-- Suppression ends at u_first (R266, R268). -/
def State.zoomSettled (s : State) (k : Nat) : State :=
  let x := s.chainOf k
  if s.fld (ZCN_STAT_STATE k) = 1 ∧ x.uFirst ≤ x.uNext then (s.setZoomState k 2).zoomShow k else s

/-- A power value goes to TRG (R269). -/
def State.zoomPower (s : State) (k : Nat) : State :=
  let x := s.chainOf k
  match x.values with
  | (v, y) :: t => (s.setChain k { x with values := t }).trigLevel k v y
  | [] => s

/-! ### Meanings -/

/-- ZOOM_SEGMENT (R263). -/
def execZoomSegment (k : Fin 16) (s : State) : Host.Outcome State Fault Refusal := done (s.zoomSegment k)

/-- ZC_SETTLE_END (R266). -/
def execZcSettleEnd (k : Fin 16) (s : State) : Host.Outcome State Fault Refusal := done (s.zoomSettled k)

/-- ZC_POWER_VALUE (R269). -/
def execZcPowerValue (k : Fin 16) (s : State) : Host.Outcome State Fault Refusal := done (s.zoomPower k)

end Sys2Proof.Machine
end

