-- ==== Sys2Proof/Machine/Image.lean ====
section
/-! DEFINITION. The boot image (R475 to R489, R552): its records, the checks of R478 in their order with the causes of R489,
and what each record sets. A record's effect is made on a candidate state; the image as a whole is judged on it. -/

namespace Sys2Proof.Machine

/-! ### Records (R476) -/

/-- The number held in `n` bytes of a list from offset `o` on (R12). -/
def numAt (bs : List Byte) (o n : Nat) : Nat := leNat ((bs.drop o).take n)

/-- Bytes `o` to `o + n - 1` of a list are all 0. -/
def zeroAt (bs : List Byte) (o n : Nat) : Bool := decide (numAt bs o n = 0)

/-- The first record of a list of bytes, whether its check word holds, and the bytes after it. -/
def parseRecord (bs : List Byte) : Option (ImageRecord × Bool × List Byte) :=
  let len := numAt bs 4 4
  if bs.length < 16 ∨ len < 16 ∨ len % 4 ≠ 0 ∨ bs.length < len then none
  else
    let r : ImageRecord :=
      { kind := numAt bs 0 2, version := numAt bs 2 1, flags := numAt bs 3 1, target := numAt bs 8 4, body := (bs.take len).drop 16 }
    some (r, decide ((crc32c (bs.take 12 ++ r.body)).toNat = numAt bs 12 4), bs.drop len)

/-- A chain of records, each with whether its check word holds; or the index of the record that does not fit, 0xFFF when
bytes remain after the last. -/
def parseRecords : Nat → Nat → List Byte → Except Nat (List (ImageRecord × Bool))
  | 0, _, rest => if rest.isEmpty then .ok [] else .error 0xFFF
  | n + 1, i, bs =>
    match parseRecord bs with
    | none => .error i
    | some (r, ok, rest) => (parseRecords n (i + 1) rest).map (fun l => (r, ok) :: l)

/-- The record kinds of R479 with the register block that each configures. -/
def recordKinds : List (Nat × Nat) :=
  [ (0x01, 0x00), (0x02, 0xFF), (0x03, 0x03), (0x10, 0x05), (0x20, 0x11), (0x21, 0x11), (0x22, 0x11), (0x30, 0x11), (0x31, 0x10),
    (0x40, 0x11), (0x50, 0x11), (0x51, 0x11), (0x60, 0x09) ]

/-- The register block that a record of a kind configures (R489). -/
def recordBlock (kind : Nat) : Nat := ((recordKinds.find? (fun k => decide (k.1 = kind))).map (fun k => k.2)).getD 0xFF

/-- The header fields of a record that must be 0 (R552): FLAGS, and TARGET for a kind that has none. -/
def ImageRecord.headGood (r : ImageRecord) : Bool :=
  decide (r.flags = 0) && (decide (r.target = 0) || decide (r.kind = 0x10) || decide (r.kind = 0x50))

/-- An entry of a REG record (R480). -/
structure RegEntry where
  addr  : Nat
  value : Nat
  mask  : Nat
  deriving DecidableEq, Repr

/-- The whole entries of a REG payload. -/
def regEntries (body : List Byte) : List RegEntry :=
  (List.range (body.length / 12)).map (fun j =>
    { addr := numAt body (12 * j) 4, value := numAt body (12 * j + 4) 4, mask := numAt body (12 * j + 8) 4 : RegEntry })

/-- A register's value after an entry (R480). -/
def State.entryValue (s : State) (e : RegEntry) : Word :=
  mergeBits (s.reg e.addr) (BitVec.ofNat 32 e.mask) (BitVec.ofNat 32 e.value)

/-- A mask selects some bit of a field. -/
def FieldSpec.picked (f : FieldSpec) (m : Nat) : Bool := decide (bitsOf m f.lo (f.hi - f.lo + 1) ≠ 0)

/-- A field's value in a word is permitted (R551). -/
def FieldSpec.permits (f : FieldSpec) (v : Nat) : Bool := inRanges f.ok (bitsOf v f.lo (f.hi - f.lo + 1))

/-- An entry lies in a register of blocks 0x01 to 0x12, selects only fields of access RW, ST or LK, and gives them permitted
values (R480). -/
def State.entryGood (s : State) (e : RegEntry) : Bool :=
  decide (0x10000 ≤ e.addr) && decide (e.addr < 0x130000) && decide (e.addr % 4 = 0) &&
  match regAt e.addr with
  | none => false
  | some (r, _) =>
    let open' := accessMask .rw r.fields ||| accessMask .st r.fields ||| accessMask .lk r.fields
    decide (e.mask &&& open' = e.mask) &&
    r.fields.all (fun f => !f.picked e.mask || f.permits (s.entryValue e).toNat)

/-- Apply an entry. -/
def State.entryPut (s : State) (e : RegEntry) : State := s.setReg e.addr (s.entryValue e)

/-- Logical engines that a bitmap of 128 bytes names (R487). -/
def enginesOf (bs : List Byte) : List Nat :=
  (List.range 1024).filter (fun l => bitOf ((bs.getD (l / 8) 0).toNat) (l % 8))

/-- A mask segment's FIRST, LAST (R240). -/
def segSpan (w : Nat) : Int × Int := (toSigned 16 (bitsOf w 0 16), toSigned 16 (bitsOf w 16 16))

/-- Segments ascend and do not overlap (R240). -/
def segsAscend : List Nat → Bool
  | [] => true
  | [w] => decide ((segSpan w).1 ≤ (segSpan w).2)
  | w :: x :: t => decide ((segSpan w).1 ≤ (segSpan w).2) && decide ((segSpan w).2 < (segSpan x).1) && segsAscend (x :: t)

/-- A MASK payload: its engines, upper segments and lower segments; nothing when it breaks R240, R487 or R552. -/
def maskBody (body : List Byte) : Option (List Nat × List Nat × List Nat) :=
  let u := numAt body 0 1
  let l := numAt body 1 1
  let segs := (List.range (u + l)).map (fun j => numAt body (0x90 + 8 * j) 8)
  let up := segs.take u
  let lo := segs.drop u
  if u ≤ 64 ∧ l ≤ 64 ∧ zeroAt body 2 14 ∧ body.length = 0x90 + 8 * (u + l) ∧ segsAscend up ∧ segsAscend lo then
    some (enginesOf ((body.drop 0x10).take 128), up, lo)
  else none

/-- The segments of a mask lie within the kept range of every FMT program of the engines that it names (R107, R240). -/
def State.maskFits (s : State) (m : List Nat × List Nat × List Nat) : Bool :=
  m.1.all (fun l => (s.programsOf l).all (fun g =>
    decide (s.libId g ≠ 6) ||
    (m.2.1 ++ m.2.2).all (fun w =>
      let half : Int := ((400 * 2 ^ g.par 0 29 3 : Nat) : Int)
      decide (-half ≤ (segSpan w).1) && decide ((segSpan w).2 < half))))

/-- The bytes of a mask face (R241): upper segments at 0x000, lower ones at 0x200, their counts at 0x400 and 0x402. -/
def faceBytes (up lo : List Nat) : List Byte :=
  let part := fun (l : List Nat) => (l.flatMap (leBytes 8) ++ List.replicate 512 0).take 512
  part up ++ part lo ++ leBytes 2 up.length ++ leBytes 2 lo.length ++ List.replicate 0x3FC 0

/-- Remember the data of a record that loads engine memory (R137). -/
def State.putBlock (s : State) (src : Nat) (data : List Byte) : State :=
  { s with img := { s.img with blocks := instSet [] s.img.blocks src data } }

/-- Load record `src` into a preload region of an engine's memory (R137, R241). -/
def State.loadSram (s : State) (p : Nat) (x : Load) (data : List Byte) : State :=
  let e := (s.engOf p).repairSram x.base data
  let other := fun (y : Load) => !(decide (y.region = x.region) && decide (y.base = x.base))
  s.setEng p { e with loads := x :: e.loads.filter other }

/-- A preload region is declared (R160). -/
def State.declarePreload (s : State) (p r base len : Nat) : State :=
  ((s.setFld (ENG_PRELOAD_EN p r) 1).setFld (ENG_PRELOAD_LEN4K p r) len).setFld (ENG_PRELOAD_BASE4K p r) base

/-- The physical engines that hold a logical engine's preloads: its home and the one that serves it (R23). -/
def State.holders (s : State) (l : Nat) : List Nat :=
  let p := s.fld (HAND_MAP_PHYS l)
  if s.flag (HAND_MAP_VALID l) && decide (p ≠ homeOf l) then [homeOf l, p] else [homeOf l]

/-- Write a mask's tables into a face of the engines that it names: 2 KiB of preload region 1, from record `src` (R182, R241). -/
def State.putMask (s : State) (face : State → Nat → Nat) (src : Nat) (m : List Nat × List Nat × List Nat) : State :=
  let data := faceBytes m.2.1 m.2.2
  m.1.foldl (fun s l => (s.holders l).foldl (fun s p =>
    let s := if s.flag (ENG_PRELOAD_EN p 1) then s else s.declarePreload p 1 0x5E 2
    s.loadSram p { region := 1, base := 0x5E000 + 0x800 * face s l, len := 0x800, src := src } data) s) (s.putBlock src data)

/-! ### What each record sets -/

/-- What a load of microcode needs of a UCODE record: kind, record, VERSION, FIRST, words, EXPECT_CRC (R483). -/
structure Ucode where
  kind   : Nat
  idx    : Nat
  ver    : Nat
  first  : Nat
  words  : List Nat
  expect : Nat
  deriving DecidableEq, Repr

/-- A UCODE record of an image. -/
def ucodeOf (r : ImageRecord × Nat) : Ucode :=
  let b := r.1.body
  { kind := r.1.kind, idx := r.2, ver := numAt b 0 4, first := numAt b 4 2,
    words := (List.range (numAt b 6 2)).map (fun j => numAt b (16 + 32 * j) 32), expect := numAt b 8 4 }

/-- A PROGRAM payload (R484). -/
def programOf (b : List Byte) : Program :=
  { prog := numAt b 0 1, customer := bitOf (numAt b 1 1) 0, frameEntry := numAt b 2 2, dealEntry := numAt b 4 2,
    hop := numAt b 6 2, wlen := numAt b 8 2, xpubF := numAt b 0xA 1, xpubD := numAt b 0xB 1, woff := numAt b 0xC 4,
    f := numAt b 0x10 4, p := numAt b 0x14 4, param := (List.range 8).map (fun i => numAt b (0x20 + 4 * i) 4) }

/-- A PROGRAM payload's own values (R190, R484, R552). -/
def programGood (b : List Byte) : Bool :=
  let g := programOf b
  decide (b.length = 64) && decide (g.prog < 64) && decide (numAt b 1 1 ≤ 1) && decide (g.frameEntry ≤ 0x3FFF) &&
  decide (g.dealEntry ≤ 0x3FFF) && decide (1 ≤ g.hop) && decide (g.hop ≤ 16384) && decide (1 ≤ g.wlen) && decide (g.wlen ≤ 16384) &&
  decide (g.woff + g.wlen ≤ 131072) && zeroAt b 0x18 8 && decide (g.param.getD 7 0 % 65536 = 0)

/-- An entry of a PRODUCT payload (R485). -/
def productEntry (b : List Byte) (j : Nat) : Product :=
  let n := fun i => numAt b (8 * j + i) 1
  { number := n 0, prog := n 1, loc := n 2, rtype := n 3, stream := bitOf (n 4) 0, ring := bitOf (n 4) 1, render := bitOf (n 4) 2,
    merge := bitOf (n 4) 3, classW := bitOf (n 4) 7, port := n 5, strm := n 6, kind := n 7 }

/-- A PRODUCT entry's own values (R389, R485, R552). -/
def productGood (b : List Byte) (j : Nat) : Bool :=
  let x := productEntry b j
  decide (x.rtype ∈ [1, 2, 3, 4, 5, 6, 0x80]) && decide (bitsOf (numAt b (8 * j + 4) 1) 4 3 = 0) && decide (x.port ≤ 1) &&
  decide (x.strm ≤ 63) && decide (x.kind ≤ 8)

/-- A node of a HAND_TREE payload (R486). -/
def nodeOf (b : List Byte) (j : Nat) : HandNode :=
  let o := 4 + 24 * j
  let bytes := fun (o n : Nat) => (List.range n).map (fun i => numAt b (o + i) 1)
  { kind := numAt b o 1, parent := numAt b (o + 2) 2, place := numAt b (o + 4) 4, progs := bytes (o + 8) (min 8 (numAt b (o + 1) 1)),
    cbase := numAt b (o + 0x10) 2, clen := numAt b (o + 0x12) 2, cprod := (bytes (o + 0x14) 4).filter (fun x => decide (x ≠ 0xFF)) }

/-- A HAND_TREE payload's layout (R486). -/
def treeLayout (b : List Byte) : Bool :=
  let n := numAt b 0 2
  decide (1 ≤ n) && decide (n ≤ 2048) && decide (b.length = 4 + 24 * n) &&
  (List.range n).all (fun j => decide (numAt b (4 + 24 * j + 1) 1 ≤ 8))

/-- A REGION entry: USE, base, size (R488). -/
def regionOf (b : List Byte) (j : Nat) : Nat × Nat × Nat := (numAt b (24 * j) 1, numAt b (24 * j + 8) 8, numAt b (24 * j + 16) 8)

/-- A REGION entry's own values (R488, R552). -/
def regionGood (b : List Byte) (j : Nat) : Bool :=
  let r := regionOf b j
  decide (r.1 ≤ 11) && zeroAt b (24 * j + 1) 7 && decide (r.2.1 % 4096 = 0) && decide (r.2.2 % 4096 = 0) && decide (sdramBase ≤ r.2.1)

/-- Put a region in effect (R290, R488). -/
def State.putRegion (s : State) (r : Nat × Nat × Nat) : State :=
  let s := { s with img := { s.img with regions := s.img.regions ++ [r] } }
  if r.1 < 8 then (s.setPair (CAPU_BASE r.1) r.2.1).setPair (CAPU_SIZE r.1) r.2.2 else s

/-- Load a preload region of an engine (R137, R160, R487). -/
def State.putPreload (s : State) (p r base len src : Nat) (data : List Byte) : State :=
  (s.loadSram p { region := r, base := 4096 * base, len := 4096 * len, src := src } data).declarePreload p r base len

/-- Two preload regions of an engine meet (R160). -/
def State.preloadsMeet (s : State) (p : Nat) : Bool :=
  let span := fun r => (s.fld (ENG_PRELOAD_BASE4K p r), s.fld (ENG_PRELOAD_BASE4K p r) + s.fld (ENG_PRELOAD_LEN4K p r))
  s.flag (ENG_PRELOAD_EN p 0) && s.flag (ENG_PRELOAD_EN p 1) && spansMeet (span 0) (span 1)

/-- A refusal at item 9 of R478 for a record. -/
def badRecord (r : ImageRecord) (i : Nat) : Refuse := { cause := 0x0F, block := recordBlock r.kind, rec' := i }

/-- Update, or refuse when a condition does not hold. -/
def need (ok : Bool) (r : Refuse) (s : State) : Except Refuse State := if ok then .ok s else .error r

/-- The entries of a REG record, checked and put in order. -/
def State.putEntries (s : State) (i : Nat) : List RegEntry → Except Refuse State
  | [] => .ok s
  | e :: t => if s.entryGood e then (s.entryPut e).putEntries i t else .error { cause := 0x0F, block := e.addr / 65536 % 256, rec' := i }

/-- A SYSTEM record (R482). -/
def State.putSystem (s : State) (r : ImageRecord) (i : Nat) : Except Refuse State :=
  let b := r.body
  let nsps := numAt b 0 8
  let w := numAt b 8 2
  let e := numAt b 10 2
  if 16000000000 ≤ nsps ∧ nsps ≤ 20480000000 then
    need (decide (b.length = 16) && zeroAt b 12 4 && decide (w ≤ 60000) && decide (e ≤ 10000)) (badRecord r i)
      { s.setPair TIME_NSPS nsps with img := { s.img with epochWaitMs := w, ethWaitMs := e } }
  else .error { cause := 0x15, block := 0x00, rec' := i }

/-- A DEALER_COEF record (R110, R483). -/
def State.putCoef (s : State) (r : ImageRecord) (i : Nat) : Except Refuse State :=
  let h := (List.range 8192).map (fun m => toSigned 32 (numAt r.body (4 * m) 4))
  let crc := crc32c r.body
  need (decide (r.body.length = 32768) && decide (r.target ∈ [1, 2, 4, 8, 15]) &&
      h.all (fun x => decide (-131072 ≤ x) && decide (x ≤ 131071))) (badRecord r i)
    ((List.range 4).foldl (fun s n =>
      if bitOf r.target n then
        let s := s.setDealer n { s.dealerOf n with coef := some h }
        (s.setReg (CBKI_COEF_CRC n).addr crc).putBit CBK_STAT_COEF_DEFAULT n false
      else s) s)

/-- The layout of a UCODE record (R483, R552). -/
def ucodeGood (r : ImageRecord) : Bool :=
  let b := r.body
  let n := numAt b 6 2
  decide (1 ≤ n) && decide (n ≤ 16384) && decide (b.length = 16 + 32 * n) && zeroAt b 12 4 &&
  (decide (r.kind ≠ 0x21) || (zeroAt b 0 2 && zeroAt b 8 4))

/-- A PRODUCT record (R250, R485). -/
def State.putProducts (s : State) (r : ImageRecord) (i : Nat) : Except Refuse State :=
  let n := r.body.length / 8
  let xs := (List.range n).map (productEntry r.body)
  if ¬ (xs.map (fun x => x.number)).Nodup then .error { cause := 0x0E, block := 0x10, rec' := i }
  else
    need (decide (r.body.length % 8 = 0) && decide (n ≤ 256) && (List.range n).all (productGood r.body)) (badRecord r i)
      (xs.foldl (fun s x => s.putBit (POT_PROD_EN_EN (x.number / 32)) (x.number % 32) true) { s with img := { s.img with products := xs } })

/-- A PRELOAD record (R137, R160, R487). -/
def State.putPreloads (s : State) (r : ImageRecord) (i : Nat) : Except Refuse State :=
  let b := r.body
  let base := numAt b 0 1
  let len := numAt b 1 1
  let es := enginesOf ((b.drop 0x10).take 128)
  let t := es.foldl (fun s l => (s.holders l).foldl (fun s p => s.putPreload p r.target base len i (b.drop 0x90)) s)
    (s.putBlock i (b.drop 0x90))
  need (decide (r.target ≤ 1) && zeroAt b 2 14 && decide (1 ≤ len) && decide (len ≤ 64) && decide (b.length = 0x90 + 4096 * len) &&
      decide (0x20 ≤ base) && decide (base + len ≤ 0x60) && es.all (fun l => !t.preloadsMeet (homeOf l))) (badRecord r i) t

/-- A REGION record (R488). -/
def State.putRegions (s : State) (r : ImageRecord) (i : Nat) : Except Refuse State :=
  let n := r.body.length / 24
  let rs := (List.range n).map (regionOf r.body)
  if ¬ (rs.map (fun x => x.1)).Nodup then .error { cause := 0x0E, block := 0x09, rec' := i }
  else need (decide (r.body.length % 24 = 0) && (List.range n).all (regionGood r.body)) (badRecord r i) (rs.foldl State.putRegion s)

/-- Check the values of a record and put them into the candidate (item 9 of R478); microcode words wait. -/
def State.putRecord (s : State) (r : ImageRecord) (i : Nat) : Except Refuse State :=
  let b := r.body
  let bad := badRecord r i
  if !r.headGood then .error bad
  else
    match r.kind with
    | 0x01 => s.putSystem r i
    | 0x02 => if b.length % 12 ≠ 0 then .error bad else s.putEntries i (regEntries b)
    | 0x03 => need (decide (b.length = 8) && decide (numAt b 0 8 < 2 ^ 48)) bad { s with img := { s.img with epochSec := some (numAt b 0 8) } }
    | 0x10 => s.putCoef r i
    | 0x30 => need (programGood b) bad { s with img := { s.img with programs := s.img.programs ++ [programOf b] } }
    | 0x31 => s.putProducts r i
    | 0x40 => need (zeroAt b 2 2) bad { s with img := { s.img with nodes := (List.range (numAt b 0 2)).map (nodeOf b) } }
    | 0x50 => s.putPreloads r i
    | 0x51 => match maskBody b with
      | some m => .ok (s.putMask (fun _ _ => 0) i m)
      | none => .error bad
    | 0x60 => s.putRegions r i
    | _ => need (ucodeGood r) bad s

/-- All records in image order. -/
def State.putRecords (s : State) : List (ImageRecord × Nat) → Except Refuse State
  | [] => .ok s
  | (r, i) :: t =>
    match s.putRecord r i with
    | .ok s' => s'.putRecords t
    | .error e => .error e

/-! ### Microcode (R161 to R164, R173, R185, R483, R553) -/

/-- Put words into the control stores (R162). -/
def State.putWords (s : State) (first : Nat) (ws : List Nat) : State :=
  { s with hand := { s.hand with cstore := sparseWrite (fun _ => (0 : Nat)) s.hand.cstore first ws } }

/-- CRC-32C over control store words, each as 32 bytes with the lowest first (R186). -/
def State.storeCrc (s : State) (lo n : Nat) : Word :=
  crc32c ((sparseRead (fun _ => (0 : Nat)) s.hand.cstore lo n).flatMap (leBytes 32))

/-- A UCODE record's words lie in its region (R162). -/
def Ucode.inRegion (u : Ucode) : Bool :=
  if u.kind = 0x22 then decide (0x3000 ≤ u.first) && decide (u.first + u.words.length ≤ 0x4000)
  else decide (u.first + u.words.length ≤ 0x3000)

/-- The microcode records in the order of R164. -/
def loadOrder (us : List Ucode) : List Ucode :=
  us.filter (fun u => decide (u.kind = 0x20)) ++ us.filter (fun u => decide (u.kind = 0x21)) ++ us.filter (fun u => decide (u.kind = 0x22))

/-- Load the microcode and show it in the CS registers (R164, R186). -/
def State.putUcode (s : State) (us : List Ucode) : State :=
  let us := loadOrder us
  let s := us.foldl (fun s u => s.putWords u.first u.words) s
  let patches := us.filter (fun u => decide (u.kind = 0x21))
  let replaced := ((patches.flatMap (fun u => List.range' u.first u.words.length)).eraseDups).length
  let ver := fun k => BitVec.ofNat 32 (((us.find? (fun u => decide (u.kind = k))).map (fun u => u.ver)).getD 0)
  let cust := us.any (fun u => decide (u.kind = 0x22))
  let s := (s.setReg CS_VENDOR_VERSION.addr (ver 0x20)).setReg CS_CUSTOMER_VERSION.addr (ver 0x22)
  let s := (s.setFld CS_PATCH_LEVEL_LEVEL (((patches.getLast?).map (fun u => u.ver / 65536)).getD 0)).setFld CS_PATCH_LEVEL_WORDS replaced
  let s := (s.setFld CS_STAT_CUST_LOADED (b2n cust)).setFld CS_STAT_PATCHED (b2n !patches.isEmpty)
  (s.setReg CS_VENDOR_CRC.addr (s.storeCrc 0 0x3000)).setReg CS_CUSTOMER_CRC.addr (if cust then s.storeCrc 0x3000 0x1000 else 0)

/-- A UCODE record that breaks R162, or whose declared check word differs (R483). -/
def State.ucodeBad (s : State) (u : Ucode) : Bool :=
  let crc := (s.reg (if u.kind = 0x22 then CS_CUSTOMER_CRC.addr else CS_VENDOR_CRC.addr)).toNat
  !u.inRegion || (decide (u.kind ≠ 0x21) && decide (u.expect ≠ 0) && decide (u.expect ≠ crc))

/-- A program's entries lie in its region, and none names a directory word (R173, R553). -/
def entriesGood (g : Program) : Bool :=
  [g.frameEntry, g.dealEntry].all (fun e => decide (e = 0x3FFF) ||
    (if g.customer then decide (0x3000 ≤ e) else decide (2 ≤ e) && decide (e < 0x3000)))

/-! ### Rules over the whole configuration -/

/-- The clock rules of R331, and R335 for CLKOUT0 to CLKOUT2. -/
def State.clocksBad (s : State) : Bool :=
  let f := s.refMhz
  let bin := s.fld MEMC_CFG_SPEED
  (List.range 4).any (fun m =>
    let c := s.reg (CG_MDLL_CFG m).addr
    let d := wordBits c 24 4
    let n := wordBits c 12 12
    let need' := match m with
      | 0 => decide (f * n ≠ 4800 * d)
      | 1 => decide (f * n ≠ (4800 + 800 * bin) * d)
      | 2 => decide (f * n < 2000 * d) || decide (6400 * d < f * n)
      | _ => decide (f * n * 1000000 ≠ s.nsps * d)
    if s.mdllOn m then
      decide (d = 0) || decide (n < 80) || decide (2048 < n) || decide (f < 10 * d) || decide (25 * d < f) || need'
    else decide (m < 2) || (decide (m = 3) && s.flag CONV_CLK_SRC)) ||
  (List.range 3).any (fun o => s.flag (CG_OUT_CFG_EN (4 + o)) && !s.outLegal (s.reg (CG_OUT_CFG (4 + o)).addr))

/-- The display rules of R439, R455 and R457. -/
def State.displayBad (s : State) : Bool :=
  let on := s.flag DISP_CFG_EN
  let side := fun (total act fp sw lo hi max' : Nat) =>
    decide (act % 2 ≠ 0) || decide (act < lo) || decide (hi < act) || decide (max' < total) || decide (total < act + fp + sw + 1) ||
    decide (fp = 0) || decide (sw = 0)
  decide (on ≠ s.flag (CG_OUT_CFG_EN 3)) ||
  (on && (side (s.fld DISP_H_TIMING_TOTAL) s.hact (s.fld DISP_H_SYNC_FP) (s.fld DISP_H_SYNC_SW) 640 3840 8192 ||
    side (s.fld DISP_V_TIMING_TOTAL) s.vact (s.fld DISP_V_SYNC_FP) (s.fld DISP_V_SYNC_SW) 480 2160 4096 ||
    !modeFits (s.fld DISP_CFG_PDIV_M1) (s.fld DISP_CFG_LANES) (s.fld DISP_CFG_RATE))) ||
  (on && s.flag DISP_RND_CFG_EN &&
    (decide (s.fld DISP_RND_CFG_NBUF < (if s.flag DISP_RND_CFG_AUTO then 2 else 1)) || decide (s.fld DISP_RND_CFG_N = 0) ||
      (match s.productNo (s.fld DISP_RND_CFG_PROD) with
        | some x => !x.render || decide (x.kind ≠ 3)
        | none => true) ||
      decide (s.l0Region.2 < s.fld DISP_RND_CFG_NBUF * s.bufBytes)))

/-- All streams, as port and stream. -/
def allStreams : List (Nat × Nat) := (List.range 128).map (fun i => (i / 64, i % 64))

/-- What a stream takes that no other stream may take too: zoom chains, inputs (16 + i), capture units (32 + u). -/
def State.streamTakes (s : State) (p st : Nat) : List Nat :=
  let sel := s.fld (ETH_S_SRC_SEL p st)
  match s.fld (ETH_S_CFG_KIND p st) with
  | 1 => [sel]
  | 2 => [16 + sel]
  | 3 => ((List.range 8).filter (fun u => bitOf sel u)).map (fun u => 32 + u)
  | _ => []

/-- A VDIF stream's rule (R395), with the chain's rate as its registers give it. -/
def State.vdifRefused (s : State) (p st : Nat) : Bool :=
  s.flag (ETH_S_CFG_EN p st) && s.flag (ETH_S_CFG_VDIF p st) &&
  (if s.fld (ETH_S_CFG_KIND p st) = kindZoom then s.vdifBad p st (zoomCfg s.reg (s.fld (ETH_S_SRC_SEL p st))).r 2
    else s.vdifBad p st 1 1)

/-- A stream breaks a rule of R382, R383, R385 or R411 of its own. -/
def State.streamBad (s : State) (p st : Nat) : Bool :=
  let kind := s.fld (ETH_S_CFG_KIND p st)
  let on := s.flag (ETH_S_CFG_EN p st)
  let sel := s.fld (ETH_S_SRC_SEL p st)
  let frag := s.fld (ETH_S_CFG_FRAG p st)
  let vdif := s.flag (ETH_S_CFG_VDIF p st)
  ((on || decide (kind = kindKitty)) && !s.flag (ETHP_CFG_EN p)) ||
  (!s.flag (ETHP_CFG_MODE p) && decide (s.fld (ETH_S_CFG_LINK p st) ≠ 0)) ||
  (vdif && decide (kind ≠ kindZoom) && decide (kind ≠ kindRaw)) ||
  (decide (kind = kindZoom) && decide (15 < sel)) || (decide (kind = kindRaw) && decide (3 < sel)) ||
  (on && decide (s.fld (ETH_S_RATE_MBPS p st) = 0)) || (on && !vdif && (decide (frag < 8) || decide (143 < frag))) || s.vdifRefused p st

/-- Streams in conflict with one another (R383): two STATUS streams of a port, two KITTY streams, one source taken twice. -/
def State.streamsClash (s : State) : Bool :=
  let count := fun kind p => (allStreams.filter (fun x => decide (s.fld (ETH_S_CFG_KIND x.1 x.2) = kind) && decide (x.1 ∈ p))).length
  (List.range 2).any (fun p => decide (1 < count kindStatus [p])) || decide (1 < count kindKitty [0, 1]) ||
  decide (¬ (allStreams.flatMap (fun x => s.streamTakes x.1 x.2)).Nodup)

/-- The other stream rules of R382, R383, R395 and R399. -/
def State.streamsBad (s : State) : Bool :=
  allStreams.any (fun x => s.streamBad x.1 x.2) ||
  (List.range 2).any (fun p => s.flag (ETHP_CFG_SS_EN p) && decide (s.fld (ETH_S_CFG_KIND p (s.fld (ETHP_CFG_SSTREAM p))) ≠ kindStatus)) ||
  s.img.products.any (fun x => x.stream &&
    (!s.flag (ETH_S_CFG_EN x.port x.strm) || decide (s.fld (ETH_S_CFG_KIND x.port x.strm) ≠ kindProduct))) ||
  (overRate s.reg).isSome

/-- Trigger, window and zoom delay settings that no register write could put in force (R261, R281, R287, R314). -/
def State.settingBad (s : State) : Option Nat :=
  if (List.range 16).any (fun k => zoomDelayOut s.reg k) then some 0x06
  else if (List.range 8).any (fun n => timeoutShort s.reg n) then some 0x07
  else if (List.range 20).any (fun c => decide (s.fld (TIME_CH_CFG_ANCHOR c) ≠ 0) && windowBad s.reg c) then some 0x03
  else none

/-- The first record that holds a REG entry for which a test holds, counted from the last. -/
def lastWriter (recs : List (ImageRecord × Nat)) (test : RegEntry → Bool) : Nat :=
  ((recs.filter (fun r => decide (r.1.kind = 0x02) && (regEntries r.1.body).any test)).getLast?.map (fun r => r.2)).getD 0xFFF

/-- A register as the REG records of an image leave it. -/
def imageValue (recs : List (ImageRecord × Nat)) (a : Nat) : Nat :=
  (((recs.filter (fun r => decide (r.1.kind = 0x02))).flatMap (fun r => regEntries r.1.body)).filter (fun e => decide (e.addr = a))).foldl
    (fun v e => (mergeBits (BitVec.ofNat 32 v) (BitVec.ofNat 32 e.mask) (BitVec.ofNat 32 e.value)).toNat) (regReset a).toNat

/-- The records of a kind. -/
def ofKind (recs : List (ImageRecord × Nat)) (k : Nat) : List (ImageRecord × Nat) := recs.filter (fun r => decide (r.1.kind = k))

/-- The second record of a kind, in image order. -/
def second (recs : List (ImageRecord × Nat)) (k : Nat) : Option (ImageRecord × Nat) := (ofKind recs k)[1]?

/-- A record that repeats what an earlier one sets: a DEALER_COEF input or a PROGRAM number (R479). -/
def repeats (recs : List (ImageRecord × Nat)) : Option (ImageRecord × Nat) :=
  recs.find? (fun r => recs.any (fun q => decide (q.2 < r.2) && decide (q.1.kind = r.1.kind) &&
    ((decide (r.1.kind = 0x10) && decide (q.1.target &&& r.1.target ≠ 0)) ||
      (decide (r.1.kind = 0x30) && decide (numAt q.1.body 0 1 = numAt r.1.body 0 1)))))

/-- Item 8 of R478: required records, duplicates and conflicts (R39, R479). -/
def item8 (recs : List (ImageRecord × Nat)) : Option Refuse :=
  let src := bitsOf (imageValue recs TIME_CFG_EPOCH_SRC.addr) 4 2
  let align := bitOf (imageValue recs DEAL_CFG_ALIGN.addr) 7
  let dup := ([0x01, 0x20, 0x22, 0x31, 0x40, 0x60, 0x03].filterMap (second recs)) ++ (repeats recs).toList
  let epoch := ofKind recs 0x03
  match dup with
  | d :: _ => if (ofKind recs 0x01).isEmpty then some (refuse 0x0D 0x00)
    else if (ofKind recs 0x20).isEmpty then some (refuse 0x0D 0x11)
    else some { cause := 0x0E, block := recordBlock d.1.kind, rec' := d.2 }
  | [] =>
    firstRefuse
      [ ((ofKind recs 0x01).isEmpty, refuse 0x0D 0x00),
        ((ofKind recs 0x20).isEmpty, refuse 0x0D 0x11),
        (decide (src = 1) && epoch.isEmpty, refuse 0x0D 0x03),
        (decide (src ≠ 1) && !epoch.isEmpty, { cause := 0x0E, block := 0x03, rec' := (epoch.head?.map (fun e => e.2)).getD 0xFFF }),
        (align && decide (src = 0),
          { cause := 0x0E, block := 0x01,
            rec' := lastWriter recs (fun e => (decide (e.addr = DEAL_CFG_ALIGN.addr) && bitOf e.mask 7) ||
              (decide (e.addr = TIME_CFG_EPOCH_SRC.addr) && decide (bitsOf e.mask 4 2 ≠ 0))) }) ]

/-! ### The checks in order (R478) -/

/-- Items 1 to 6: header, target, record chain, check words and signature. The answer is the records with their indexes. -/
def State.imageFrame (s : State) (bs : List Byte) : Except Refuse (List (ImageRecord × Nat)) :=
  let len := numAt bs 8 4
  let count := numAt bs 0xC 4
  let signed := bitOf (numAt bs 6 2) 0
  let e := len - (if signed then 132 else 4)
  let key := ((bs.drop (e + 4)).take 64)
  let num := fun i => beNat ((bs.drop (e + 4 + 32 * i)).take 32)
  let secure := s.flag SUP_STAT_SECURE_BOOT
  let head := firstRefuse
    [ (decide (numAt bs 0 4 ≠ 0x4B524247), refuse 0x02 0xFF),
      (decide (numAt bs 4 2 ≠ 1), refuse 0x03 0xFF),
      (decide (len % 4 ≠ 0) || decide (len < 84) || decide (16777216 < len) || decide (count = 0) || decide (4095 < count), refuse 0x04 0xFF),
      (decide ((crc32c (bs.take 0x1C)).toNat ≠ numAt bs 0x1C 4), refuse 0x05 0xFF),
      (decide (numAt bs 0x19 3 ≠ (s.reg SUP_DEV_ID.addr).toNat / 256), refuse 0x0B 0xFF),
      (decide (len < (if signed then 212 else 84)), refuse 0x04 0xFF) ]
  match head with
  | some r => .error r
  | none =>
    match parseRecords count 0 ((bs.take e).drop 0x40) with
    | .error i => .error { cause := 0x04, block := 0xFF, rec' := i }
    | .ok rs =>
      let recs := rs.zipIdx
      match recs.find? (fun r => !r.1.2) with
      | some r => .error { cause := 0x06, block := recordBlock r.1.1.kind, rec' := r.2 }
      | none =>
        let tail := firstRefuse
          [ (decide ((crc32c (bs.take e)).toNat ≠ numAt bs e 4), refuse 0x07 0xFF),
            (secure && !signed, refuse 0x08 0xFF),
            (secure && (!s.boot.fuses.pkhSet || decide (leNat (sha256 key) ≠ s.boot.fuses.pkh)), refuse 0x09 0xFF),
            (signed && !ecdsaGood (sha256 (bs.take (e + 4))) (num 0) (num 1) (num 2) (num 3), refuse 0x0A 0xFF) ]
        match tail with
        | some r => .error r
        | none => .ok (recs.map (fun r => (r.1.1, r.2)))

/-- Item 7: kinds and versions (R479). -/
def item7 (recs : List (ImageRecord × Nat)) : Option Refuse :=
  (recs.find? (fun r => !(recordKinds.any (fun k => decide (k.1 = r.1.kind))) || decide (r.1.version ≠ 1))).map (fun r =>
    { cause := 0x0C, block := recordBlock r.1.kind, rec' := r.2 })

/-- The values that a record gives a library program, and a product's KIND (R222, R553): the first refusal. -/
def State.libraryBad (s : State) (recs : List (ImageRecord × Nat)) : Option Refuse :=
  match (ofKind recs 0x30).find? (fun r =>
      let g := programOf r.1.body
      let id := s.libId g
      decide (id ≠ 0) && !paramsGood id g s.k) with
  | some r => some (badRecord r.1 r.2)
  | none =>
    let at' := ((ofKind recs 0x31).head?.map (fun r => r.2)).getD 0xFFF
    firstRefuse [(s.img.products.any (fun x => !s.kindGood x || (s.programNo x.prog).isNone), { cause := 0x0F, block := 0x10, rec' := at' })]

/-- Items 10 and 11, then the values that depend on the hand tree: the first refusal. -/
def State.treeRefuse (s : State) (recs : List (ImageRecord × Nat)) : Option Refuse :=
  let at' := fun k => ((ofKind recs k).head?.map (fun r => r.2)).getD 0xFFF
  let layout := match (ofKind recs 0x40).head? with
    | some r => treeLayout r.1.body
    | none => true
  let known := s.img.nodes.all (fun n => n.progs.all (fun g => (s.programNo g).isSome))
  let mask := (ofKind recs 0x51).find? (fun r => match maskBody r.1.body with
    | some m => !s.maskFits m
    | none => true)
  firstRefuse
    [ (!layout || !s.treeGood || !known, { cause := 0x11, block := 0x11, rec' := at' 0x40 }),
      (s.leaves.any (fun l => !s.leafValues l), refuse 0x0F 0x11),
      (s.img.products.any (fun x => decide (x.classW ≠ s.classWOf x)), { cause := 0x0F, block := 0x10, rec' := at' 0x31 }),
      (mask.isSome, { cause := 0x0F, block := 0x11, rec' := (mask.map (fun r => r.2)).getD 0xFFF }) ]

/-- The zoom limits of a configuration (R264), shown in ZC_REFUSE and DEAL_BUDGET_ENG. -/
def State.judgeZoom (s : State) : State × Bool :=
  match zoomRefuse s.reg s.nsps with
  | none => (s, false)
  | some (cause, chain) =>
    let s := (s.setFld ZC_REFUSE_CAUSE cause).setFld ZC_REFUSE_CHAIN chain
    (if cause = 2 then s.setReg DEAL_BUDGET_ENG.addr (BitVec.ofNat 32 (2 ^ 31 + 4 * 2 ^ 28)) else s, true)

/-- Item 12: budgets, volume, zoom limits, display and stream rules. -/
def State.judgeLimits (s : State) : State × Option Refuse :=
  let (s, budget) := s.judgeBudget
  if budget then (s, some (refuse 0x12 0x01))
  else if s.volumeBad then (s, some (refuse 0x13 0x10))
  else
    let (s, zoom) := s.judgeZoom
    (s, firstRefuse [(zoom, refuse 0x14 0x06), (s.streamsBad, refuse 0x0F 0x0A), (s.streamsClash, refuse 0x0E 0x0A), (s.displayBad, refuse 0x0F 0x0E)])

/-- Item 10: the microcode checks. -/
def State.judgeUcode (s : State) (us : List Ucode) (recs : List (ImageRecord × Nat)) : State × Option Refuse :=
  match us.find? s.ucodeBad, (ofKind recs 0x30).find? (fun r => !entriesGood (programOf r.1.body)) with
  | some u, _ => (s, some { cause := 0x10, block := 0x11, rec' := u.idx })
  | none, some r => (s, some { cause := 0x10, block := 0x11, rec' := r.2 })
  | none, none =>
    let (t, bad) := s.recount
    (t, if bad then some (refuse 0x10 0x11) else none)

/-- What a configuration reads before any image record sets it: default prototypes (R110, R111). -/
def State.imageBase (s : State) : State :=
  (List.range 4).foldl (fun s i => s.setReg (CBKI_COEF_CRC i).addr 0x6A1C53E7) (s.setFld CBK_STAT_COEF_DEFAULT 15)

/-- Items 9 to 12 on the candidate. -/
def State.judgeConfig (s : State) (bs : List Byte) (recs : List (ImageRecord × Nat)) : State × Option Refuse :=
  if !zeroAt bs 0x20 32 || decide (numAt bs 6 2 / 2 ≠ 0) || !zeroAt bs 0x18 1 then (s, some (refuse 0x0F 0xFF))
  else
    match s.imageBase.putRecords recs with
    | .error r => (s, some r)
    | .ok t =>
      let us := (recs.filter (fun r => decide (0x20 ≤ r.1.kind) && decide (r.1.kind ≤ 0x22))).map ucodeOf
      let t := t.putUcode us
      let defined := fun w b => t.img.products.any (fun x => decide (x.number = 32 * w + b))
      let t := (List.range 256).foldl (fun t n => if defined (n / 32) (n % 32) then t else t.putBit (POT_PROD_EN_EN (n / 32)) (n % 32) false) t
      match t.settingBad with
      | some b => (t, some (refuse 0x0F b))
      | none =>
        if t.clocksBad then (t, some (refuse 0x16 0x02))
        else
          match t.libraryBad recs with
          | some r => (t, some r)
          | none =>
            match t.judgeUcode us recs with
            | (t, some r) => (t, some r)
            | (t, none) =>
              match t.treeRefuse recs with
              | some r => (t, some r)
              | none => t.judgeLimits

/-- Check an image against R478: the candidate as far as it was formed, and the first refusal. -/
def State.judgeImage (s : State) (bs : List Byte) : State × Option Refuse :=
  match s.imageFrame bs with
  | .error r => (s, some r)
  | .ok recs =>
    match item7 recs, item8 recs with
    | some r, _ => (s, some r)
    | none, some r => (s, some r)
    | none, none => s.judgeConfig bs recs

end Sys2Proof.Machine
end

