-- ==== Sys2Proof/Machine/Reset.lean ====
section
/-! DEFINITION. Full resets (R460 to R466), the states of the start (R470), HALT and CONFIG_ERROR (R469), and the supplies
that begin a start (R525). -/

namespace Sys2Proof.Machine

/-! ### States of SUP_STAT.STATE (R470) -/

/-- RESET. -/
def stReset : Nat := 0

/-- RUN. -/
def stRun : Nat := 12

/-- CONFIG_ERROR. -/
def stConfigError : Nat := 13

/-- HALT. -/
def stHalt : Nat := 14

/-- The state that SUP_STAT shows. -/
def State.sup (s : State) : Nat := s.fld SUP_STAT_STATE

/-- The start moves on. -/
def State.setSup (s : State) (n : Nat) : State := s.setFld SUP_STAT_STATE n

/-- The supervisor works: from step 2 on, but not after a failed ROM check (R467, R469). -/
def State.alive (s : State) : Bool :=
  decide (2 ≤ s.sup) && !(decide (s.sup = stHalt) && decide (s.fld SUP_BOOT_STAT_CAUSE = 0x1A))

/-! ### What an interrupted operation leaves (R462, R474, R493, R494) -/

/-- `n` free bytes. -/
def State.freeBytes (s : State) (n : Nat) : List Byte × State :=
  ((List.range n).map (fun i => (Config.freeValue (s.free + i)).truncate 8), { s with free := s.free + n })

/-- The bytes of the boot flash; an unlisted one is erased. -/
def flashDefault (_ : Nat) : Byte := 0xFF

/-- Write bytes of the flash array. -/
def State.flashPut (s : State) (o : Nat) (bs : List Byte) : State :=
  { s with boot := { s.boot with flash := sparseWrite flashDefault s.boot.flash o bs } }

/-- The bytes that a flash command changes (R474). -/
def flashSpan (op : Nat) : Nat := match op with
  | 1 => 256
  | 2 => 4096
  | 3 => 65536
  | _ => 0

/-- A flash command that a reset interrupts leaves the bytes that it was changing open. -/
def State.cutFlash (s : State) : State :=
  match s.boot.flashOp with
  | none => s
  | some (op, a) =>
    let (bs, s) := s.freeBytes (flashSpan op)
    (s.flashPut a bs)

/-- The eight data words of TEST_OTP_DATA as one number, word 0 lowest (R494). -/
def State.otpData (s : State) : Nat :=
  (List.range 8).foldl (fun n w => n + (s.reg (TEST_OTP_DATA w).addr).toNat * 2 ^ (32 * w)) 0

/-- A 256-bit free value. -/
def State.free256 (s : State) : Nat × State :=
  let v := fun i => (Config.freeValue (s.free + i)).toNat
  (v 0 + v 1 * 2 ^ 64 + v 2 * 2 ^ 128 + v 3 * 2 ^ 192, { s with free := s.free + 4 })

/-- An OTP operation that a reset interrupts: the pulse in progress is finished (R462); how far the operation had come is
open. Bits only ever become blown. -/
def State.cutOtp (s : State) : State :=
  match s.boot.otpOp with
  | none => s
  | some op =>
    let (m, s) := s.free256
    let (b, s) := s.fresh
    let full := b.getLsbD 0
    let bits := if full then s.otpData else s.otpData &&& m
    let f := s.boot.fuses
    let f := match op with
      | 1 => { f with secret := f.secret ||| bits, keySet := full }
      | 2 => { f with pkh := f.pkh ||| bits, pkhSet := full }
      | _ => { f with secure := full }
    { s with boot := { s.boot with fuses := f } }

/-- A life-cycle transition that a reset interrupts: how far it had come is open; the key goes before the state (R492,
R493). -/
def State.cutLc (s : State) : State :=
  match s.boot.lcOp with
  | none => s
  | some target =>
    let (b, s) := s.fresh
    let f := s.boot.fuses
    let zero := f.keyZero || (decide (3 ≤ target) && b.getLsbD 0)
    let blown := b.getLsbD 1 && (zero || decide (target < 3))
    let f := { f with keyZero := zero, lc := if blown then f.lc ||| 2 ^ (target - 1) else f.lc }
    { s with boot := { s.boot with fuses := f } }

/-! ### The full reset (R462 to R464) -/

/-- The registers that RESET_N and PCIE_PERST_N keep (R464), and the last FATAL event of the run that ends. -/
def State.keptRegs (s : State) : List (Nat × Word) :=
  let s := if s.lastFatal.1 = 0 then s
    else (s.setReg SUP_LAST_FATAL.addr (BitVec.ofNat 32 s.lastFatal.1)).setReg SUP_LAST_FATAL_ARG.addr (BitVec.ofNat 32 s.lastFatal.2)
  s.regs.filter (fun x => decide (x.1 ∈ [SUP_RESET_CAUSE_COUNT.addr, SUP_BOOT_NEXT_SEL.addr, SUP_LAST_FATAL.addr, SUP_LAST_FATAL_ARG.addr]))

/-- A full reset takes hold (R462, R464). Fuses, OTP, calibration store and flash stay; so does the test access port, which
only TRST_N resets (R463) while the rails are up. `power` says that the kept registers are cleared too. -/
def State.fullReset (s : State) (power : Bool) : State :=
  let s := s.cutFlash.cutOtp.cutLc
  { State.reset with
    regs := if power then [] else s.keptRegs
    rdata := s.rdata
    out := s.out
    boot := { BootState.reset with fuses := s.boot.fuses, flash := s.boot.flash }
    test := { TestState.reset with store := s.test.store, wear := s.test.wear, bad := s.test.bad, seen := s.test.seen }
    ports := if power then .reset else { PortState.reset with tap := s.ports.tap, seized := s.ports.seized }
    free := s.free
    pending := s.pending }

/-- Step 2 begins: SUP_RESET_CAUSE is written (R470, R496) and the start is logged. -/
def State.beginRom (s : State) : State :=
  let count := if bitOf s.boot.cause 0 then 0 else min (s.fld SUP_RESET_CAUSE_COUNT + 1) 0xFFFF
  let s := s.setReg SUP_RESET_CAUSE_COUNT.addr (BitVec.ofNat 32 (count * 65536 + s.boot.cause))
  (s.setSup 2).logEvent 0x0001 sevInfo (s.reg SUP_RESET_CAUSE_COUNT.addr).toNat

/-- A full reset, and the start from a step (R460): `cause` is what SUP_RESET_CAUSE's low bits will show. -/
def State.restartFrom (s : State) (power : Bool) (cause step : Nat) : State :=
  let s := s.fullReset power
  let s := { s with boot := { s.boot with cause := cause } }
  if step = 2 then s.beginRom else s.setSup step

/-- The rails are removed and the device is OFF, or VIN is too low: 1 thermal, 2 overvoltage, 3 undervoltage. -/
def State.railsOff (s : State) (power : Bool) (why : Nat) : State :=
  let s := s.fullReset power
  { s with boot := { s.boot with off := why }, ports := .reset }

/-- VIN rises through its undervoltage threshold, or falls below it for more than 10 µs (R460, R465). `cool`: the junction
is below 95 °C. -/
def State.powerOn (s : State) (rise cool : Bool) : State :=
  let off := s.boot.off
  if rise then
    if off = 2 ∨ s.sup ≠ stReset ∨ (off = 1 ∧ cool = false) then s
    else s.restartFrom true (1 + (if off = 1 then 8 else 0)) 1
  else if off = 0 then s.railsOff true 3
  else s

/-- A RESET_N pulse of `ns` ns (R461, R465): below 100 ns nothing happens, from 1 µs on always a full reset; between them
`taken` says which. It wakes a device that is OFF and `cool`. -/
def State.resetPulse (s : State) (ns : Nat) (taken cool : Bool) : State :=
  if ns < 100 ∨ (ns < 1000 ∧ taken = false) then s
  else
    match s.boot.off with
    | 0 => if s.sup ≤ 1 then s else s.restartFrom false 2 2
    | 1 => if cool then s.restartFrom false 10 1 else s
    | _ => s

/-- PCIE_PERST_N asserts and is released (R417): as RESET_N, but it does not wake a device that is OFF. -/
def State.perst (s : State) : State := if s.boot.off ≠ 0 ∨ s.sup ≤ 1 then s else s.restartFrom false 4 2

/-- The junction reaches 115 °C (R465). -/
def State.thermalOff (s : State) : State := if s.boot.off = 0 then s.railsOff false 1 else s

/-- VIN falls below 18.5 V after an overvoltage stop: a start as at power-on (R525). -/
def State.overvoltageOver (s : State) : State := if s.boot.off = 2 then s.restartFrom true 1 1 else s

/-- The input current has been at its limit for 5 ms (R525): VREG_STAT.ILIMIT sets before the rails go, and the start begins
again at step 1; neither the bit nor an event survives. -/
def State.currentLimit (s : State) (ma : Nat) : State :=
  if s.boot.off ≠ 0 then s
  else ((s.setFld VREG_STAT_ILIMIT 1).logEvent 0x1205 sevAttention ma).restartFrom true 1 1

/-- The rails are not good 100 ms after step 1 began (R212, R467). -/
def State.railsLate (s : State) : State := if s.sup = 1 then { s with railsBad := true } else s

/-- The supervisor's watchdog expires (R466). -/
def State.supWatchdog (s : State) : State := if s.alive then s.setFld SUP_STAT_WDOG 1 else s

/-! ### The ends of a start that fails (R469) -/

/-- With SUP_BOOT_NEXT.ONCE = 1, SEL returns to 0 at the end of a start (R473). -/
def State.endStart (s : State) : State := if s.flag SUP_BOOT_NEXT_ONCE then s.setFld SUP_BOOT_NEXT_SEL 0 else s

/-- SUP_BOOT_STAT's layout (R489, R496). -/
def bootStat (cause block rec' step : Nat) : Nat := cause <<< 24 + block <<< 16 + rec' <<< 4 + step

/-- HALT (R469): FAULT_N asserts directly. -/
def State.halt (s : State) (cause step : Nat) : State :=
  let s := s.setReg SUP_BOOT_STAT_CAUSE.addr (BitVec.ofNat 32 (bootStat cause 0xFF 0xFFF step))
  ({ s with halted := true }.setSup stHalt).endStart

/-- The converters and the display stay stopped (R469); what they drive has not begun before the first deal. -/
def State.stopUnits (s : State) : State :=
  let s := s.setFld DISP_STAT_LINK 0
  { s with
    time := { s.time with grid := false }
    disp := { s.disp with due := none, phase := 4, sending := false } }

/-- A refusal moves the device to CONFIG_ERROR (R469). -/
def State.configError (s : State) (cause block rec' step : Nat) : State :=
  let v := bootStat cause block rec' step
  let s := s.setReg SUP_BOOT_STAT_CAUSE.addr (BitVec.ofNat 32 v)
  let s := ((s.setFld SUP_STAT_CFG_ERROR 1).setFld HOST_STAT_CFG_ERR 1).setSup stConfigError
  { s.stopUnits.endStart with imgDone := decide (6 ≤ step) }.logEvent 0x0003 sevFatal v

/-! ### Meanings -/

/-- POWER_ON (R460). -/
def execPowerOn (rise cool : Bool) (s : State) : Host.Outcome State Fault Refusal := done (s.powerOn rise cool)

/-- RESET_N (R461). -/
def execResetN (ns : Nat) (taken cool : Bool) (s : State) : Host.Outcome State Fault Refusal := done (s.resetPulse ns taken cool)

/-- PCIE_PERST (R417). -/
def execPciePerst (s : State) : Host.Outcome State Fault Refusal := done s.perst

/-- SUPERVISOR_WATCHDOG (R466). -/
def execSupervisorWatchdog (s : State) : Host.Outcome State Fault Refusal := done s.supWatchdog

/-- THERMAL_SHUTDOWN (R465). -/
def execThermalShutdown (s : State) : Host.Outcome State Fault Refusal := done s.thermalOff

/-- OVERVOLTAGE_STOP (R525): every rail is removed. Above 20 V the spec gives no behaviour. -/
def execOvervoltageStop (mv : Nat) (s : State) : Host.Outcome State Fault Refusal :=
  if 20000 < mv then .fault .absoluteMaximum else done (if s.boot.off = 0 then s.railsOff true 2 else s)

/-- OVERVOLTAGE_RELEASE (R525). -/
def execOvervoltageRelease (s : State) : Host.Outcome State Fault Refusal := done s.overvoltageOver

/-- ILIMIT (R525). -/
def execIlimit (ma : Nat) (s : State) : Host.Outcome State Fault Refusal := done (s.currentLimit ma)

/-- RAILS_NOT_GOOD (R467). -/
def execRailsNotGood (s : State) : Host.Outcome State Fault Refusal := done s.railsLate

end Sys2Proof.Machine
end

