-- ==== Sys2Proof/Machine/Store.lean ====
section
/-! DEFINITION. The calibration store (R513 to R521): its records and rings, what is read at start, and what is written. The
slots' offsets and the layout of the payloads are the model's own choice where R513 and R514 give none. -/

namespace Sys2Proof.Machine

/-- What a store byte that nothing has written reads as. DESIGN CHOICE: an erased byte. -/
def storeDefault (_ : Nat) : Byte := 0xFF

/-- Bytes of the store. -/
def State.csRead (s : State) (o n : Nat) : List Byte := sparseRead storeDefault s.test.store o n

/-- Write bytes of the store. -/
def State.csWrite (s : State) (o : Nat) (bs : List Byte) : State :=
  { s with test := { s.test with store := sparseWrite storeDefault s.test.store o bs } }

/-- Where copy B lies (R513). -/
def copyB : Nat := 0x800000

/-- The slots of a KIND and KEY in copy A, with the bytes of a slot (R514). -/
def storeRing (kind key : Nat) : List Nat × Nat :=
  let ring := fun (base n size : Nat) => ((List.range n).map (fun i => base + i * size), size)
  match kind with
  | 1 => ring (0x20000 * (key % 4)) 64 2048
  | 2 => ring (0x80000 + 2048 * (key % 4)) 1 2048
  | 3 => ring 0x82000 1 1024
  | 4 => ring (0x90000 + 0x4000 * (key % 4)) 64 256
  | 5 => ring 0x100000 256 2048
  | 6 => ring 0x200000 16 65536
  | _ => ring 0x300000 64 256

/-- A record read from a slot: generation, key, payload. -/
structure StoreRec where
  gen  : Nat
  key  : Nat
  body : List Byte
  deriving DecidableEq, Repr

/-! ### Payloads -/

/-- A lane's trims as its two register words hold them (R75). -/
def wordTrims (a b : Nat) : TrimVals := { gain := bitsOf a 18 14, offset := bitsOf a 0 12, skew := bitsOf b 0 10, bw := bitsOf b 26 6 }

/-- A trim set as CONV_TRIM and FACTORY_CONV records hold it. -/
def TrimSet.bytes (t : TrimSet) : List Byte :=
  (t.trims.flatMap (fun x => leBytes 4 x.1 ++ leBytes 4 x.2)) ++ t.lanes.flatMap (leBytes 1) ++ leBytes 1 t.ruler ++ leBytes 3 t.spare

/-- A trim set read from a payload, when its fields lie in range (R515). -/
def trimSet? (b : List Byte) : Option TrimSet :=
  let t : TrimSet :=
    { trims := (List.range 33).map (fun l => (numAt b (8 * l) 4, numAt b (8 * l + 4) 4)), lanes := (List.range 32).map (fun i => numAt b (264 + i) 1),
      ruler := numAt b 296 1, spare := numAt b 297 3 }
  if b.length = 300 ∧ t.lanes.all (fun l => decide (l ≤ 32)) ∧ (t.ruler ≤ 32 ∨ t.ruler = 0x3F) ∧ t.spare ≤ 1 then some t else none

/-- A memory that R506 names: its UNIT and MEM. -/
def memKnown (unit mem : Nat) : Bool :=
  (decide (unit < 1088) && decide (0x40 ≤ mem) && decide (mem ≤ 0x46)) ||
  (decide (0x1000 ≤ unit) && decide (unit < 0x1040) && decide (0x50 ≤ mem) && decide (mem ≤ 0x54)) ||
  (decide (0x2000 ≤ unit) && decide (unit < 0x2004) && decide (0x60 ≤ mem) && decide (mem < 0x70))

/-- The fields of a payload lie in range for its KIND and KEY (R514, R515). -/
def storeBodyGood (kind key : Nat) (b : List Byte) : Bool :=
  match kind with
  | 1 => decide (key < 4) && (trimSet? b).isSome
  | 2 => decide (key < 4) && (trimSet? b).isSome
  | 4 => decide (key < 4) && decide (b.length % 8 = 0) && (List.range (b.length / 8)).all (fun j => decide (numAt b (8 * j + 4) 2 < 64))
  | 3 => decide (key = 0) && decide (b.length = 48)
  | 5 => decide (b.length = 92) && decide (numAt b 0 1 < 8) && decide (numAt b 1 1 ≤ 2)
  | 6 => decide (key = 0) && decide (b.length % 8 = 0) && (List.range (b.length / 8)).all (fun j =>
      memKnown (numAt b (8 * j) 2) (numAt b (8 * j + 2) 2) && decide (numAt b (8 * j + 6) 2 < 64))
  | 7 => decide (key = 0) && decide (b.length = 136)
  | _ => decide (key = 0)

/-- The record of a KIND that a slot holds, when it is valid (R513, R515). -/
def State.csRecord (s : State) (kind o size : Nat) : Option StoreRec :=
  let head := s.csRead o 16
  let len := numAt head 12 4
  if numAt head 0 2 = kind ∧ numAt head 2 1 = 1 ∧ numAt head 3 1 ≤ 1 ∧ 20 ≤ len ∧ len % 4 = 0 ∧ len ≤ size then
    let bs := s.csRead o len
    let body := (bs.take (len - 4)).drop 16
    if (crc32c (bs.take (len - 4))).toNat = numAt bs (len - 4) 4 ∧ storeBodyGood kind (numAt head 8 4) body = true then
      some { gen := numAt head 4 4, key := numAt head 8 4, body := body }
    else none
  else none

/-- The newer of two records; the first when their generations agree. -/
def newer (a b : Option (Nat × StoreRec)) : Option (Nat × StoreRec) :=
  match a, b with
  | some x, some y => if x.2.gen < y.2.gen then b else a
  | none, _ => b
  | _, none => a

/-- The valid record of the highest generation of a KIND and KEY, and the slot of copy A that holds it; copy A before copy B
(R515). -/
def State.csNewest (s : State) (kind key : Nat) : Option (Nat × StoreRec) :=
  let (slots, size) := storeRing kind key
  let find := fun (half : Nat) => slots.foldl (fun best o =>
    newer best ((s.csRecord kind (half + o) size).bind (fun r => if r.key = key then some (o, r) else none))) none
  newer (find 0) (find copyB)

/-- Its payload. -/
def State.csBody (s : State) (kind key : Nat) : Option (List Byte) := (s.csNewest kind key).map (fun r => r.2.body)

/-! ### What the store gives -/

/-- The trims and lane map in effect for an input (R517). -/
def State.trimsNow (s : State) (i : Nat) : TrimSet :=
  { trims := (List.range 33).map (fun l => ((s.reg (CONVI_TRIM_A i l).addr).toNat, (s.reg (CONVI_TRIM_B i l).addr).toNat)),
    lanes := (List.range 32).map (fun t => s.fld (CONVI_SLOT_LANE_LANE i t)), ruler := s.fld (CONVI_LANE_STAT_SPARE_LANE i),
    spare := b2n (s.bitSet CONV_STAT_SPARE_USED i) }

/-- The newest trims of an input: CONV_TRIM or FACTORY_CONV. -/
def State.storedTrims (s : State) (kind i : Nat) : Option TrimSet := (s.csBody kind i).bind trimSet?

/-- The band stored for an MDLL at its programmed frequency (R340, R514). -/
def State.storedBand (s : State) (m : Nat) : Option Nat :=
  match s.csBody 4 m with
  | none => none
  | some b =>
    let n := b.length / 8
    ((List.range n).find? (fun j => decide (numAt b (8 * j) 4 = s.mdllKhz m))).map (fun j => numAt b (8 * j + 4) 2)

/-- The training table of a DIMM for a channel and the declared speed bin (R363): the words of both subchannels. -/
def State.storedTrain (s : State) (serial ch : Nat) : Option (List Nat × List Nat) :=
  match s.csBody 5 serial with
  | none => none
  | some b =>
    if b.length = 92 ∧ numAt b 0 1 = ch ∧ numAt b 1 1 = s.fld MEMC_CFG_SPEED then
      some ((List.range 11).map (fun i => numAt b (4 + 4 * i) 4), (List.range 11).map (fun i => numAt b (48 + 4 * i) 4))
    else none

/-- A subchannel's training words: CA_DLY, then DLY and VREF of lanes 0 to 4. -/
def trainRegs (i : Nat) : List Nat :=
  (MEMCS_CA_DLY i).addr :: (List.range 5).flatMap (fun l => [(MEMC_LANE_DLY i l).addr, (MEMC_LANE_VREF i l).addr])

/-- The physical engines that the joker map names (R202, R514). -/
def State.jokerMap (s : State) : List Nat :=
  match s.csBody 7 0 with
  | some b => (List.range 1088).filter (fun p => bitOf (numAt b (p / 8) 1) (p % 8))
  | none => []

/-! ### Writing (R516 to R518) -/

/-- TEST_CAL_STAT.BUSY. -/
def State.showCal (s : State) : State :=
  s.setFld TEST_CAL_STAT_BUSY (b2n (!s.test.queue.isEmpty || s.test.load.isSome))

/-- A record is due; a write of the same KIND and KEY that waits is merged with it (R517). -/
def State.queueRec (s : State) (kind key : Nat) : State :=
  (if (kind, key) ∈ s.test.queue then s
    else { s with test := { s.test with queue := s.test.queue ++ [(kind, key)] } }).showCal

/-- The trims of all four inputs are taken, and their records are due (R517). -/
def State.queueTrims (s : State) : State :=
  (List.range 4).foldl (fun s i =>
    ({ s with test := { s.test with saved := instSet { trims := [], lanes := [], ruler := 0, spare := 0 } s.test.saved i (s.trimsNow i) } }).queueRec
      1 i) s

/-- What the blocks have left to be stored becomes due (R84, R202, R340, R365). -/
def State.gatherDue (s : State) : State :=
  let s := if s.conv.saveQ.isEmpty then s else { s.queueTrims with conv := { s.conv with saveQ := [] } }
  let s := if s.hand.jmapQ.isEmpty && s.test.edits.isEmpty then s else s.queueRec 7 0
  let s := if s.test.repairs.isEmpty then s else s.queueRec 6 0
  let s := s.clk.bands.foldl (fun s x => s.queueRec 4 x.1) s
  let s := s.mem.store.foldl (fun s ch =>
    if s.subLive (2 * ch) || s.subLive (2 * ch + 1) then s.queueRec 5 (s.reg (MEMCS_SERIAL (2 * ch)).addr).toNat else s) s
  { s with mem := { s.mem with store := [] } }

/-- The channel that holds a DIMM. -/
def State.channelOf (s : State) (serial : Nat) : Nat :=
  ((List.range 8).find? (fun ch => decide ((s.reg (MEMCS_SERIAL (2 * ch)).addr).toNat = serial) &&
    decide (s.subState (2 * ch) ≠ 0))).getD 0

/-- The payload that a KIND and KEY is written with, and the state with what it holds no longer waiting. -/
def State.duePayload (s : State) (kind key : Nat) : List Byte × State :=
  let old := (s.csBody kind key).getD []
  match kind with
  | 1 => ((instGet { trims := [], lanes := [], ruler := 0, spare := 0 } s.test.saved key).bytes, s)
  | 4 =>
    let khz := s.mdllKhz key
    let (word, s) := s.fresh
    let keep := (List.range (old.length / 8)).flatMap (fun j => if numAt old (8 * j) 4 = khz then [] else (old.drop (8 * j)).take 8)
    let band := ((s.clk.bands.find? (fun x => decide (x.1 = key))).map (fun x => x.2)).getD 0
    ((leBytes 4 khz ++ leBytes 2 band ++ leBytes 2 word.toNat ++ keep).take 232,
      { s with clk := { s.clk with bands := s.clk.bands.filter (fun x => decide (x.1 ≠ key)) } })
  | 5 =>
    let ch := s.channelOf key
    (leBytes 1 ch ++ leBytes 1 (s.fld MEMC_CFG_SPEED) ++ zeros 2 ++
      ((trainRegs (2 * ch) ++ trainRegs (2 * ch + 1)).flatMap (fun a => leBytes 4 (s.reg a).toNat)), s)
  | 6 =>
    (old ++ s.test.repairs.flatMap (fun r => leBytes 2 r.1 ++ leBytes 2 r.2.1 ++ leBytes 2 r.2.2.1 ++ leBytes 2 r.2.2.2),
      { s with test := { s.test with repairs := [] } })
  | _ =>
    let set := (s.jokerMap ++ s.hand.jmapQ)
    let set := s.test.edits.foldl (fun (l : List Nat) e => if e.1 then l.filter (fun p => decide (p ≠ e.2)) else l ++ [e.2]) set
    ((List.range 136).map (fun i => BitVec.ofNat 8 (((List.range 8).map (fun b => if 8 * i + b ∈ set then 2 ^ b else 0)).sum)),
      { s with hand := { s.hand with jmapQ := [] }, test := { s.test with edits := [] } })

/-- A slot may take a write: it is not bad, and it does not hold the newest record of its key. -/
def State.slotFree (s : State) (kind o size : Nat) : Bool :=
  decide (o ∉ s.test.bad) &&
  match newer ((s.csRecord kind o size).map (fun r => (o, r))) ((s.csRecord kind (copyB + o) size).map (fun r => (o, r))) with
  | some (_, r) => decide ((s.csNewest kind r.key).map (fun x => x.1) ≠ some o)
  | none => true

/-- How long ago the DIMM of a slot was seen: its place in the list of serial numbers. -/
def State.seenRank (s : State) (o size : Nat) : Nat :=
  match (s.csRecord 5 o size) with
  | some r => s.test.seen.idxOf r.key
  | none => s.test.seen.length

/-- The slots that a write may go to, in the order in which they are tried: round the ring from the newest record's slot
on; for DIMM_TRAIN the free slots, then those of the serial numbers not seen for longest (R514, R516). -/
def State.slotOrder (s : State) (kind key : Nat) : List Nat :=
  let (slots, size) := storeRing kind key
  let good := slots.filter (fun o => decide (o ∉ s.test.bad))
  let at' := match s.csNewest kind key with
    | some (o, _) => slots.idxOf o + 1
    | none => 0
  let ring := (slots.drop at' ++ slots.take at').filter (fun o => decide (o ∈ good))
  if kind = 5 then
    let free := ring.filter (fun o => s.slotFree 5 o size)
    let held := ring.filter (fun o => !s.slotFree 5 o size)
    let n := s.test.seen.length + 1
    free ++ (List.range n).flatMap (fun i => held.filter (fun o => decide (s.seenRank o size = n - 1 - i)))
  else ring

/-- Write a record into a slot of both halves (R513, R516). -/
def State.putSlot (s : State) (o : Nat) (bs : List Byte) : State :=
  let s := (s.csWrite o bs).csWrite (copyB + o) bs
  { s with test := { s.test with wear := instSet 0 s.test.wear o (instGet 0 s.test.wear o + 1) } }

/-- A slot fails its read-back and leaves its ring (R518). -/
def State.badSlot (s : State) (o : Nat) : State :=
  { s with test := { s.test with bad := s.test.bad ++ [o], wear := instSet 0 s.test.wear o (instGet 0 s.test.wear o + 1) } }

/-- TEST_CS_WEAR (R518). -/
def State.showWear (s : State) : State :=
  s.setReg TEST_CS_WEAR.addr (BitVec.ofNat 32 ((s.test.wear.map (fun x => x.2)).foldl max 0))

/-- A record may be written: not within 1 s of the last write of its KIND and KEY (R517). -/
def State.recReady (s : State) (x : Nat × Nat) : Bool :=
  match s.test.wrote.find? (fun y => decide (y.1 = x)) with
  | some y => decide (y.2 + s.second ≤ s.now)
  | none => true

/-- A record has been written; while deals run the time is kept, for the next write of its KIND and KEY (R517). -/
def State.noteWrite (s : State) (x : Nat × Nat) : State :=
  if s.deal.running then
    { s with test := { s.test with wrote := (x, s.now) :: s.test.wrote.filter (fun y => decide (y.1 ≠ x)) } }
  else s

/-- The record written next: the first that is due, but a trim write-back yields to a repair-map update (R59). -/
def nextDue (q : List (Nat × Nat)) : Option (Nat × Nat) :=
  match q with
  | [] => none
  | x :: _ => if x.1 = 1 then some ((q.find? (fun y => decide (y.1 = 6))).getD x) else some x

/-- The next record is written; `fails` slots of its ring fail their read-back first (R516 to R518). -/
def State.storeWrite (s : State) (fails : Nat) : State :=
  if s.flag SUP_STAT_WDOG then s
  else
    let s := s.gatherDue
    match nextDue (s.test.queue.filter s.recReady) with
    | none => s
    | some (kind, key) =>
      let rest := s.test.queue.erase (kind, key)
      let order := s.slotOrder kind key
      let gen := ((s.csNewest kind key).map (fun r => r.2.gen + 1)).getD 0
      let (body, s) := s.duePayload kind key
      let s := { s with test := { s.test with queue := rest } }
      let s := (order.take fails).foldl State.badSlot s
      let last := decide (rest.all (fun x => decide (x.1 ≠ kind)))
      let s := match order.drop fails with
        | o :: _ =>
          let head := leBytes 2 kind ++ leBytes 1 1 ++ leBytes 1 0 ++ leBytes 4 gen ++ leBytes 4 key ++ leBytes 4 (body.length + 20)
          let s := s.putSlot o (head ++ body ++ leBytes 4 (crc32c (head ++ body)).toNat)
          let s := (s.addSat TEST_CAL_WRITES_COUNT 1).noteWrite (kind, key)
          let s := s.setIf (last && decide (kind = 1)) TEST_STAT_CAL_SAVED
          if last then s.logEvent 0x0F07 sevInfo kind else s
        | [] => ((s.setFld TEST_CAL_STAT_ERR 4).setFld TEST_STAT_CAL_WRITE_FAIL 1).logEvent 0x0F08 sevAttention (kind + (key % 2 ^ 24) <<< 8)
      s.showWear.showCal

/-! ### Loading trims while the device works (R520) -/

/-- The stored trims become one trim set of an input, for the next tick. -/
def State.stageTrims (s : State) (src i : Nat) : State :=
  match s.storedTrims src i with
  | some t =>
    let c := s.calibOf i
    let ch : CalChange :=
      { trims := (t.trims.zipIdx).map (fun x => (x.2, wordTrims x.1.1 x.1.2)), swap := none, load := true }
    s.setCalib i { c with staged := c.staged ++ [ch] }
  | none => s

/-- TEST_CAL_CTL.LOAD is written: SRC, INPUTS. -/
def State.calLoad (s : State) (src inputs : Nat) : State :=
  let s := (s.setFld TEST_CAL_CTL_SRC src).setFld TEST_CAL_CTL_INPUTS inputs
  let kind := if src = 1 then 2 else 1
  let is := (List.range 4).filter (fun i => bitOf inputs i)
  let refuse' := fun (e : Nat) => s.setFld TEST_CAL_STAT_ERR e
  if s.flag TEST_CAL_STAT_BUSY then refuse' 3
  else if is.any (fun i => (s.storedTrims kind i).isNone) then refuse' 1
  else if is.any (fun i => match s.storedTrims kind i with
      | some t => decide (t.lanes ≠ (s.trimsNow i).lanes)
      | none => true) then refuse' 2
  else
    let late := s.deal.closed
    let s := { s with test := { s.test with load := some (inputs + (if late then 16 else 0), src) } }
    (if late then s else is.foldl (fun s i => s.stageTrims kind i) s).showCal

/-- A load at a tick, after step 2 of R49: its trims have taken effect unless a snapshot still holds them (R91, R520); one
that came after the close point is staged for the next tick. -/
def State.loadTick (s : State) : State :=
  match s.test.load with
  | none => s
  | some (inputs, src) =>
    let is := (List.range 4).filter (fun i => bitOf inputs i)
    if 16 ≤ inputs then
      let s := { s with test := { s.test with load := some (inputs - 16, src) } }
      is.foldl (fun s i => s.stageTrims (if src = 1 then 2 else 1) i) s
    else if is.any (fun i => (s.calibOf i).staged.any (fun c => c.load)) then s
    else
      let s := { s with test := { s.test with load := none } }
      ((s.setFld TEST_STAT_CAL_LOADED 1).logEvent 0x0F09 sevInfo (inputs + 16 * src)).showCal

/-! ### Meanings -/

/-- CAL_SAVE (R517). -/
def execCalSave (s : State) : Host.Outcome State Fault Refusal := done s.queueTrims

/-- The periodic save (R517): every TEST_CAL_CFG.HOURS from the first tick, of the trims, and of the training tables of DIMMs
where a retraining has changed a delay. -/
def State.calSaveDue (s : State) : State :=
  if s.deal.running = false ∨ (s.now - s.test.savedAt) * 400 < 3600 * s.fld TEST_CAL_CFG_HOURS * s.nsps then s
  else
    let s := { s with test := { s.test with savedAt := s.now }, mem := { s.mem with store := s.mem.store ++ s.mem.moved, moved := [] } }
    s.queueTrims.gatherDue

/-- CAL_SAVE_DUE (R517). -/
def execCalSaveDue (s : State) : Host.Outcome State Fault Refusal := done s.calSaveDue

/-- CAL_STORE_WRITE (R516). -/
def execCalStoreWrite (fails : Nat) (s : State) : Host.Outcome State Fault Refusal := done (s.storeWrite fails)

/-- CAL_LOAD (R520). -/
def execCalLoad (src : Bool) (inputs : BitVec 4) (s : State) : Host.Outcome State Fault Refusal := done (s.calLoad (b2n src) inputs.toNat)

/-- TEST_JMAP_EDIT is written (R522): the change waits for the next start. -/
def State.jmapEdit (s : State) (remove : Bool) (p : Nat) : State :=
  if 1088 ≤ p then s.ignored TEST_JMAP_EDIT.addr
  else
    let s := (s.setFld TEST_JMAP_EDIT_OP (b2n remove)).setFld TEST_JMAP_EDIT_PHYS p
    let s := { s with test := { s.test with edits := s.test.edits ++ [(remove, p)] } }
    s.gatherDue.logEvent 0x0F0A sevInfo (p + b2n remove <<< 15)

/-- JMAP_EDIT (R522). -/
def execJmapEdit (remove : Bool) (p : Fin 2048) (s : State) : Host.Outcome State Fault Refusal := done (s.jmapEdit remove p)

/-- TEST_CS_DATA is read (R522): the word at ADDR, and ADDR advances by 4. -/
def State.csDataRead (s : State) : State :=
  let a := s.fld TEST_CS_ADDR_ADDR / 4 * 4
  let s := { s with rdata := [BitVec.ofNat 32 (leNat (s.csRead a 4))] }
  s.setFld TEST_CS_ADDR_ADDR ((a + 4) % 2 ^ 24)

/-- TEST_CS_DATA_READ (R522). -/
def execTestCsDataRead (s : State) : Host.Outcome State Fault Refusal := done s.csDataRead

end Sys2Proof.Machine
end

