-- ==== Sys2Proof/Machine/Boot.lean ====
section
/-! DEFINITION. Steps 1 to 6 of the start (R467): rails, ROM, life cycle, boot BIST with its report (R498 to R506), the
calibration store (R515, R82), and the image with its slots (R471 to R473) and what accepting it sets up. -/

namespace Sys2Proof.Machine

/-! ### Step 3: the fuses (R490 to R495) -/

/-- The number of the highest blown state fuse (R490). -/
def lcState (lc : Nat) : Nat := if bitOf lc 3 then 4 else if bitOf lc 2 then 3 else if bitOf lc 1 then 2 else if bitOf lc 0 then 1 else 0

/-- The device secret's 32 bytes. -/
def State.secretBytes (s : State) : List Byte := leBytes 32 s.boot.fuses.secret

/-- The registers that show the fuses as they are now (R494, R495). -/
def State.showFuses (s : State) : State :=
  let f := s.boot.fuses
  let s := (s.setFld TEST_LC_STAT_FUSED (lcState f.lc)).setFld TEST_LC_STAT_KEY_SET (b2n f.keySet)
  let s := (s.setFld TEST_LC_STAT_KEY_ZERO (b2n f.keyZero)).setFld TEST_LC_STAT_PKH_SET (b2n f.pkhSet)
  let s := s.setFld TEST_LC_STAT_SECURE_BOOT (b2n f.secure)
  let kcv := if f.keySet && !f.keyZero then leNat ((hmac256 s.secretBytes (zeros 32)).take 4) else 0
  let s := s.setReg TEST_KEY_CHECK.addr (BitVec.ofNat 32 kcv)
  (List.range 8).foldl (fun s w => s.setReg (TEST_PKH w).addr (BitVec.ofNat 32 (if f.pkhSet then f.pkh / 2 ^ (32 * w) else 0))) s

/-- Zeroisation has blown KEY_ZERO and every key bit but `left` (R493). -/
def State.zeroised (s : State) (left : Nat) : State :=
  let s := { s with boot := { s.boot with fuses := { s.boot.fuses with keyZero := true, keyLeft := left } } }
  let s := s.setFld TEST_LC_STAT_KEY_BITS_LEFT left
  if left = 0 then s else s.logEvent 0x0007 sevAttention left

/-- Step 3: an interrupted zeroisation is completed, the state is latched (R490, R493). -/
def State.readFuses (s : State) (zeroed : Bool) (left : Nat) : State :=
  let lc := lcState s.boot.fuses.lc
  let s : State :=
    if 3 ≤ lc ∧ s.boot.fuses.keyZero = false then
      (if zeroed then s.zeroised (min left 256) else (s.setFld TEST_LC_STAT_ERR 6).logEvent 0x0006 sevAttention 6)
    else s
  let s := (s.setFld SUP_STAT_LC lc).setFld TEST_LC_STAT_STATE lc
  let s := (s.setFld SUP_STAT_SECURE_BOOT (b2n (s.boot.fuses.secure && decide (1 ≤ lc) && decide (lc ≤ 3)))).showFuses
  if lc = 0 ∨ lc = 4 then s.halt 0x19 3 else s.setSup 4

/-! ### Step 4: boot BIST (R498 to R507) -/

/-- The life-cycle state in effect shows signatures and passed memories (R491). -/
def State.fullReports (s : State) : Bool := decide (s.fld SUP_STAT_LC = 1) || decide (s.fld SUP_STAT_LC = 3)

/-- An entry of the memory BIST report in its 16 bytes (R505). -/
def mbBytes (ty step unit word bit spare mem xor : Nat) : List Byte :=
  leBytes 1 ty ++ leBytes 1 step ++ leBytes 2 unit ++ leBytes 4 word ++ leBytes 1 bit ++ leBytes 1 spare ++ leBytes 2 mem ++ leBytes 4 xor

/-- Add an entry to the report: 2,048 at most, further ones are counted (R505). -/
def State.report (s : State) (e : List Byte) : State :=
  if s.test.report.length < 2048 then
    let s := { s with test := { s.test with report := s.test.report ++ [e] } }
    s.setFld TEST_MB_COUNT_COUNT s.test.report.length
  else s.addSat TEST_MB_COUNT_LOST 1

/-- The words of a row of a memory (R502). -/
def rowWords (mem : Nat) : Nat := if mem ≤ 0x46 then 128 else 512

/-- The spare rows of a memory where R502 gives their number: of a cluster memory 16 per MiB of its size (R161, R196, R197,
R246); the sizes of the task store and of the die-level memories are not given. -/
def spareRows (mem : Nat) : Option Nat :=
  if mem < 0x46 then some 4 else if mem = 0x46 then some 2 else if mem = 0x50 then some 8 else if mem = 0x51 then some 16
  else if mem = 0x52 then some 32 else if mem = 0x54 then some 48 else none

/-- The entries of the repair map: UNIT, MEM, row, spare (R514). -/
def State.repairMap (s : State) : List (Nat × Nat × Nat × Nat) :=
  let b := (s.csBody 6 0).getD []
  (List.range (b.length / 8)).map (fun j => (numAt b (8 * j) 2, numAt b (8 * j + 2) 2, numAt b (8 * j + 4) 2, numAt b (8 * j + 6) 2))

/-- An entry of the march is a failure. -/
def mbFails (e : MbEntry) : Bool := decide (e.ty.val = 1) || decide (e.ty.val = 2)

/-- The row that an entry's word lies in. -/
def mbRow (e : MbEntry) : Nat := e.word.toNat / rowWords e.mem.toNat

/-- The failing rows of a memory are no more than its free spares (R502); `used` is the repair map in use. -/
def repairable (used : List (Nat × Nat × Nat × Nat)) (mb : List MbEntry) (unit mem : Nat) : Bool :=
  let mine := mb.filter (fun e => mbFails e && decide (e.unit.toNat = unit) && decide (e.mem.toNat = mem))
  match spareRows mem with
  | some n => decide ((mine.map mbRow).eraseDups.length + (used.filter (fun r => decide (r.1 = unit) && decide (r.2.1 = mem))).length ≤ n)
  | none => mine.all (fun e => decide (e.ty.val = 1))

/-- A repair is added to the map, to be stored in the background (R501, R517). -/
def State.addRepair (s : State) (r : Nat × Nat × Nat × Nat) : State :=
  let s := { s with test := { s.test with repairs := s.test.repairs ++ [r] } }
  (s.logEvent 0x0F04 sevInfo (r.1 + r.2.1 <<< 16)).queueRec 6 0

/-- The spare row that repairs a row: the one that a repair of this run gave it, else the lowest-numbered free one; of a memory
whose spares are not known, the one that the march names. -/
def State.spareFor (s : State) (used : List (Nat × Nat × Nat × Nat)) (e : MbEntry) : Nat :=
  let mine := fun (r : Nat × Nat × Nat × Nat) => decide (r.1 = e.unit.toNat) && decide (r.2.1 = e.mem.toNat)
  match s.test.repairs.find? (fun r => mine r && decide (r.2.2.1 = mbRow e)) with
  | some r => r.2.2.2
  | none =>
    match spareRows e.mem.toNat with
    | some n => ((List.range n).find? (fun k => !(used ++ s.test.repairs).any (fun r => mine r && decide (r.2.2.2 = k)))).getD 0xFF
    | none => e.spare.toNat % 64

/-- One entry of the march enters the report with the TYPE that R502 gives it, and a new repair enters the map. -/
def State.takeEntry (s : State) (used : List (Nat × Nat × Nat × Nat)) (mb : List MbEntry) (e : MbEntry) : State :=
  let unit := e.unit.toNat
  let mem := e.mem.toNat
  let step := e.bg.val * 16 + e.elem.val
  if mbFails e then
    let ok := repairable used mb unit mem
    let spare := if ok then s.spareFor used e else 0xFF
    let s := s.report (mbBytes (if ok then 1 else 2) step unit e.word.toNat e.bit.toNat spare mem e.xor.toNat)
    if ok && !(s.test.repairs.any (fun r => decide (r.1 = unit) && decide (r.2.1 = mem) && decide (r.2.2.1 = mbRow e))) then
      s.addRepair (unit, mem, mbRow e, spare)
    else s
  else if e.ty.val = 4 ∧ s.fullReports = true then s.report (mbBytes 4 0 unit e.word.toNat 0xFF 0xFF mem 0)
  else s

/-- The memories that the march found unrepairable: (UNIT, MEM). -/
def deadMems (used : List (Nat × Nat × Nat × Nat)) (mb : List MbEntry) : List (Nat × Nat) :=
  ((mb.filter (fun e => mbFails e && !repairable used mb e.unit.toNat e.mem.toNat)).map (fun e => (e.unit.toNat, e.mem.toNat))).eraseDups

/-- The resource bit of FAILRES that a cluster memory stands for (R503, R506); the result store has none. -/
def resBit (mem : Nat) : Option Nat := match mem with
  | 0x50 => some 0
  | 0x51 => some 3
  | 0x52 => some 2
  | 0x53 => some 1
  | _ => none

/-- Count an engine as unusable (R522). -/
def State.countBad (s : State) (p : Nat) : State :=
  let c := clusterOf p
  let s := s.putBit (TEST_BIST_CLU_FAILMAP c) (p % 17) true
  (s.addSat (TEST_BIST_CLU_ENG_FAIL c) 1).addSat TEST_BIST_SUM_ENG_FAIL 1

/-- An engine is RETIRED before the first deal (R158, R202, R503). -/
def State.retireAtBoot (s : State) (p : Nat) : State :=
  let s := (s.setFld (ENG_STAT_STATE p) esRetired).countBad p
  s.addSat (HAND_CLU_RETIRED (clusterOf p)) 1

/-- An engine that boot BIST finds unusable: logged for each kind of failure, RETIRED and added to the joker map (R503). -/
def State.bistEngine (s : State) (p : Nat) (logic memory : Bool) : State :=
  let s := if logic then s.logEvent 0x0F01 sevAttention (p + 1 <<< 12) else s
  let s := if memory then s.logEvent 0x0F01 sevAttention (p + 2 <<< 12) else s
  let s := s.retireAtBoot p
  { s with hand := { s.hand with jmapQ := s.hand.jmapQ ++ [p] } }.queueRec 7 0

/-- A cluster with failed shared resources (R503): `res` as FAILRES holds them. -/
def State.bistCluster (s : State) (c res : Nat) (rstore : Bool) : State :=
  let s := s.setFld (TEST_BIST_CLU_FAILRES c) res
  let s := (s.setFld (TEST_BIST_CLU_RSTORE c) (b2n rstore)).addSat TEST_BIST_SUM_CLU_FAIL 1
  let s := s.logEvent 0x0F02 sevAttention (c + res <<< 8 + b2n rstore <<< 12)
  let s := if bitOf res 0 then s.putBit (HAND_CLU_FAILRES c) 0 true else s
  [1, 2, 3].foldl (fun s b => if bitOf res b then s.sharedFail c b else s) s

/-- A die-level failure (R503). -/
def State.bistDie (s : State) (d unit : Nat) : State :=
  let s := { s with test := { s.test with dieFail := true } }.setFld TEST_STAT_DIE_FAIL 1
  s.logEvent 0x0F03 sevFatal (d + unit <<< 8)

/-- The TDC channels that fail their check (R309): channel 19 takes the place of the lowest of channels 0 to 10. -/
def State.bistTdc (s : State) (mask : Nat) : State :=
  let bad := (List.range 20).filter (fun c => bitOf mask c)
  let spared := if bitOf mask 19 then none else bad.find? (fun c => decide (c ≤ 10))
  let s : State := match spared with
    | some c => ((s.setFld TIME_CFG_SPARE_FOR c).setFld TIME_STAT_CH_SPARED 1).logEvent 0x0308 sevInfo c
    | none => s
  bad.foldl (fun s c =>
    if spared = some c then s
    else { s with time := { s.time with failed := s.time.failed ||| 2 ^ c } }.logEvent 0x0309 sevAttention c) s

/-- Step 4, with what the marches, the signatures and the TDC check showed; a partition passes only with the vendor's signature,
which one not listed has (R500). Engines of the joker map are not tested (R498);
the repair map is applied first (R501). -/
def State.bist (s : State) (mb : List MbEntry) (lb : List (Nat × BitVec 64)) (tdc : Nat) (ms : Nat) : State :=
  let jmap := s.jokerMap
  let used := s.repairMap
  let mb := mb.filter (fun e => decide (e.unit.toNat ∉ jmap))
  let lb := lb.filter (fun x => decide (x.1 < 4480) && decide (x.2 ≠ Config.lbistExpected x.1) && !(decide (x.1 < 4352) && decide (x.1 / 4 ∈ jmap)))
  let s := used.foldl (fun s r => s.report (mbBytes 3 0 r.1 (r.2.2.1 * rowWords r.2.1) 0xFF r.2.2.2 r.2.1 0)) s
  let s := mb.foldl (fun s e => s.takeEntry used mb e) s
  let dead := deadMems used mb
  let s := { s with test := { s.test with
    bistRun := true
    lbist := jmap.foldl (fun m p => (List.range 4).foldl (fun m k => instSet (1, false) m (4 * p + k) (0, false)) m)
      (lb.foldl (fun m (x : Nat × BitVec 64) => instSet (1, false) m x.1 (2, false)) [])
    lbSig := lb.foldl (fun m (x : Nat × BitVec 64) => instSet 0 m x.1 x.2) [] } }
  let logic := fun (lo n : Nat) => lb.any (fun (x : Nat × BitVec 64) => decide (lo ≤ x.1) && decide (x.1 < lo + n))
  let s := (jmap.filter (fun p => decide (p < 1088))).foldl (fun s p => (s.retireAtBoot p).logEvent 0x1108 sevInfo p) s
  let s := (List.range 1088).foldl (fun s p =>
    let l := logic (4 * p) 4
    let m := dead.any (fun x => decide (x.1 = p))
    if l || m then s.bistEngine p l m else s) s
  let s := (List.range 64).foldl (fun s c =>
    let mems : List Nat := (dead.filter (fun x => decide (x.1 = 0x1000 + c))).map (fun x => x.2)
    let res : Nat := (mems.filterMap resBit).foldl (fun n b => n ||| 2 ^ b) 0
    let rstore : Bool := decide (0x54 ∈ mems) || logic (4352 + c) 1
    if res ≠ 0 ∨ rstore = true then s.bistCluster c res rstore else s) s
  let s := (List.range 4).foldl (fun s d =>
    let parts := (lb.filter (fun x => decide (4416 + 16 * d ≤ x.1) && decide (x.1 < 4432 + 16 * d))).map (fun x => x.1 - 4416 - 16 * d)
    let mems := (dead.filter (fun x => decide (x.1 = 0x2000 + d))).map (fun x => x.2 - 0x60)
    (parts ++ mems).foldl (fun s u => s.bistDie d u) s) s
  let s := s.bistTdc tdc
  let fixed := (((used ++ s.test.repairs).map (fun r => r.1)).filter (fun u => decide (u < 1088))).eraseDups.length
  let s := s.setFld TEST_BIST_SUM_ENG_REPAIRED fixed
  let found := mb.any mbFails || !lb.isEmpty || decide (tdc % 2 ^ 20 ≠ 0)
  ((s.setFld TEST_STAT_BIST_FAIL (b2n found)).setFld TEST_BIST_MS_MS (min ms 0xFFFF)).setSup 5

/-! ### Step 5: the calibration store (R82, R99, R348, R515) -/

/-- A record is absent (R515). -/
def State.missing (s : State) (kind key : Nat) : State :=
  let s := (s.stick TEST_CAL_STAT_MISSING (kind - 1)).setFld TEST_STAT_CAL_MISSING 1
  s.logEvent 0x0F06 sevAttention (kind + (key % 2 ^ 24) <<< 8)

/-- The trims that an input has when the store holds none (R82). -/
def nominalTrims : TrimSet :=
  { trims := List.replicate 33 (0x2000 * 2 ^ 18, 0x20 * 2 ^ 26), lanes := List.range 32, ruler := 32, spare := 0 }

/-- Give an input a whole set of trims, lane map and ruler; without a ruler its calibrator works blind (R85, R87). -/
def State.putTrims (s : State) (i : Nat) (t : TrimSet) : State :=
  let s := (t.trims.zipIdx).foldl (fun s x => s.putTrim i x.2 (wordTrims x.1.1 x.1.2)) s
  let s := (t.lanes.zipIdx).foldl (fun s x => s.setFld (CONVI_SLOT_LANE_LANE i x.2) x.1) s
  let s := s.setFld (CONVI_LANE_STAT_MODE i) (if t.ruler = 0x3F then modeBlind else modeRotate)
  (s.setFld (CONVI_LANE_STAT_SPARE_LANE i) t.ruler).putBit CONV_STAT_SPARE_USED i (decide (t.spare = 1))

/-- The ruler's gain and bandwidth come from the factory record (R75). -/
def State.rulerTrims (s : State) (i : Nat) (t : TrimSet) : TrimSet :=
  match s.storedTrims 2 i with
  | some f =>
    match t.trims[t.ruler]?, f.trims[f.ruler]? with
    | some a, some b =>
      let x := wordTrims a.1 a.2
      let y := wordTrims b.1 b.2
      { t with trims := t.trims.set t.ruler (y.gain * 2 ^ 18 + x.offset, y.bw * 2 ^ 26 + x.skew) }
    | _, _ => t
  | none => t

/-- An input's trims at start (R82). -/
def State.bootTrims (s : State) (i : Nat) : State :=
  match s.storedTrims 1 i, s.storedTrims 2 i with
  | some t, _ => s.putTrims i (s.rulerTrims i t)
  | none, some t => s.putTrims i t
  | none, none =>
    let s := (s.putTrims i nominalTrims).logEvent 0x0403 sevAttention i
    s.setCalib i { s.calibOf i with forced := true }

/-- The factory's comparator and output skews (R99, R348). -/
def State.bootSkews (s : State) : State :=
  match s.csBody 3 0 with
  | some b =>
    let s := (List.range 4).foldl (fun s i =>
      (s.setFld (CONVI_COMP_SKEW_HI i) (numAt b (16 + 4 * i) 2)).setFld (CONVI_COMP_SKEW_LO i) (numAt b (18 + 4 * i) 2)) s
    [4, 5, 6].foldl (fun s o => s.setFld (CG_OUT_SKEW_PS o) (numAt b (32 + 2 * o) 2)) s
  | none =>
    let s := (List.range 4).foldl (fun s i => s.logEvent 0x0407 sevAttention i) s
    [4, 5, 6].foldl (fun s o => s.logEvent 0x0205 sevAttention o) s

/-- The joker of a cluster serves the failed slot engine of lowest slot, if it works itself (R503, R504); every other failed
engine's logical engine is not served. -/
def State.mapCluster (s : State) (c : Nat) : State :=
  let j := jokerOf c
  let dead := fun p => decide (s.engState p = esRetired)
  let lost := (List.range 16).filter (fun i => dead (17 * c + i))
  let s := (List.range 16).foldl (fun s i =>
    (s.setFld (HAND_MAP_VALID (16 * c + i)) (b2n !(dead (17 * c + i)))).setFld (HAND_MAP_PHYS (16 * c + i)) (17 * c + i)) s
  if dead j then s.setFld (HAND_CLU_JSTATE c) 3
  else
    match lost with
    | [] => s
    | i :: _ =>
      let l := 16 * c + i
      let s := (s.setFld (HAND_CLU_JSTATE c) 2).setFld (HAND_CLU_JFOR c) i
      let s := ((s.setFld (HAND_MAP_VALID l) 1).setFld (HAND_MAP_SUB l) 1).setFld (HAND_MAP_PHYS l) j
      s.addSat HAND_SUB_COUNT_IN_USE 1

/-- Step 5: every record read; what is absent takes its nominal values. -/
def State.readStore (s : State) : State :=
  let keys := (List.range 4).flatMap (fun i => [(1, i), (2, i)]) ++ [(3, 0)] ++ (List.range 4).map (fun m => (4, m)) ++ [(6, 0), (7, 0)]
  let absent := fun (x : Nat × Nat) => if x.1 ≤ 2 then (s.storedTrims x.1 x.2).isNone else (s.csBody x.1 x.2).isNone
  let s := (keys.filter absent).foldl (fun s x => s.missing x.1 x.2) s
  let s := ((List.range 4).foldl State.bootTrims s).bootSkews
  let s := ((List.range 64).foldl State.mapCluster s).showWear
  let sel := s.fld SUP_BOOT_NEXT_SEL
  let slots := match sel with
    | 1 => [1]
    | 2 => [0]
    | _ => [0, 1]
  { s with boot := { s.boot with slots := slots, slot := slots.headD 0 } }.setSup 6

/-! ### Step 6: the image (R471 to R473, R478) -/

/-- The bytes read from a slot: LENGTH bytes, or the header alone when LENGTH is not valid. -/
def State.slotBytes (s : State) (slot : Nat) : List Byte :=
  let o := if slot = 0 then 0 else s.fld SUP_FLASH_INFO_SIZE_MIB * 524288
  let head := sparseRead flashDefault s.boot.flash o 64
  let len := numAt head 8 4
  if 84 ≤ len ∧ len ≤ 16777216 then sparseRead flashDefault s.boot.flash o len else head

/-- The line bytes of a record of `n` bytes in packets (R385, R399). -/
def lineBytes (n frag : Nat) : Nat := n + ceilDiv n (max 1 frag) * 82

/-- The line bytes per deal of a product on a stream. -/
def State.productLine (s : State) (x : Product) (frag : Nat) : Nat :=
  (s.leaves.map (fun l =>
    match (s.programsOf l).find? (fun g => decide (g.prog = x.prog)) with
    | some g => match s.figures g with
      | some y => (((y.recs.filter (fun r => decide (r.1 = x.kind))).flatMap (fun r => r.2)).map (fun e => lineBytes (64 + 8 * e) frag)).sum
      | none => 0
    | none => 0)).sum +
  (if x.merge then (s.mergeScopes x).length * lineBytes (80 + 16 * s.fld POT_CFG_PKS_NTOP) frag else 0)

/-- A stream's offered line rate in Mbit/s, rounded up (R399). -/
def State.offeredRate (s : State) (p st : Nat) : Nat :=
  let frag := 64 * s.fld (ETH_S_CFG_FRAG p st)
  let sel := s.fld (ETH_S_SRC_SEL p st)
  let n := s.nsps
  let vdif := fun (c r : Nat) =>
    let spf := s.vspf p st c
    if spf = 0 then 0 else ceilDiv (n * 8 * (98 + 8 * s.fld (ETH_S_VDIF_LEN_VLEN p st))) (1000000 * max 1 r * spf)
  match s.fld (ETH_S_CFG_KIND p st) with
  | 0 =>
    let b := ((s.img.products.filter (fun x => x.stream && decide (x.port = p) && decide (x.strm = st))).map (fun x => s.productLine x frag)).sum
    ceilDiv (b * 8 * n) (400 * s.dealLen * 1000000)
  | 1 =>
    let c := zoomCfg s.reg sel
    if s.flag (ETH_S_CFG_VDIF p st) then vdif 2 c.r
    else
      let seg := 1024 * (if c.wide8 then 2 else 4)
      ceilDiv (s.fld (ZCN_RATE_KBPS sel) * lineBytes (80 + seg) frag) (seg * 1000)
  | 2 =>
    if s.flag (ETH_S_CFG_VDIF p st) then vdif 1 1
    else
      let m := 16 * (s.fld (ETH_S_SRC_RAWENT_M1 p st) + 1)
      let data := if s.flag (ETH_S_SRC_RFMT p st) then 3 * m / 2 else 2 * m
      ceilDiv (n * 8 * lineBytes (80 + data) frag) (m * 1000000)
  | _ => 0

/-- OFFERED and OVERSUB of every stream (R399): at load and at every amendment. -/
def State.judgeOffered (s : State) : State :=
  let s := allStreams.foldl (fun s x =>
    let r := s.offeredRate x.1 x.2
    let above := s.flag (ETH_S_CFG_EN x.1 x.2) && decide (s.fld (ETH_S_RATE_MBPS x.1 x.2) < r)
    let s := if above && !s.flag (ETH_S_STAT_OVERSUB x.1 x.2) then s.logEvent 0x0A04 sevAttention (x.1 <<< 8 + x.2) else s
    (s.setFld (ETH_S_STAT_OFFERED x.1 x.2) (min r 0xFFFFFF)).setFld (ETH_S_STAT_OVERSUB x.1 x.2) (b2n above)) s
  (List.range 2).foldl (fun s p =>
    s.putBit ETH_STAT_OVERSUB p ((List.range 64).any (fun st => s.flag (ETH_S_STAT_OVERSUB p st)))) s

/-- The engine that serves a logical engine is assigned and goes to IDLE (R158). -/
def State.assign (s : State) (l : Nat) : State :=
  if s.flag (HAND_MAP_VALID l) then
    let p := s.fld (HAND_MAP_PHYS l)
    ((s.setFld (ENG_ID_ACTIVE p) 1).setFld (ENG_ID_LOGICAL p) l).setFld (ENG_STAT_STATE p) esIdle
  else s

/-- A cluster whose engines are not started (R163, R503). -/
def State.darkCluster (s : State) (c : Nat) : State :=
  let s := (List.range 16).foldl (fun s i =>
    let l := 16 * c + i
    ((s.setFld (HAND_MAP_VALID l) 0).setFld (HAND_MAP_SUB l) 0).setFld (HAND_MAP_PHYS l) (homeOf l)) s
  let used := decide (s.fld (HAND_CLU_JSTATE c) = 2)
  let s := if used then ((s.setFld (HAND_CLU_JSTATE c) 0).setFld (HAND_CLU_JFOR c) 0x1F).setFld HAND_SUB_COUNT_IN_USE (s.fld HAND_SUB_COUNT_IN_USE - 1)
    else s
  { s with hand := { s.hand with cluNext := if c ∈ s.hand.cluNext then s.hand.cluNext else s.hand.cluNext ++ [c] } }

/-- The engines are started (R163, R503, R504): clusters whose control store fails or whose result store failed stay GATED;
a failed engine that no joker covers is handled as R207 lays down. -/
def State.startEngines (s : State) (bad : List (Fin 64)) : State :=
  let s := (List.range 64).foldl (fun s c =>
    let store := bad.any (fun b => decide (b.val = c)) || s.bitSet (HAND_CLU_FAILRES c) 0
    let s := if store then (s.putBit (HAND_CLU_FAILRES c) 0 true).logEvent 0x1109 sevAttention c else s
    if store || s.flag (TEST_BIST_CLU_RSTORE c) then s.darkCluster c else s) s
  let s := (List.range 1024).foldl State.assign s
  (List.range 1024).foldl (fun s l =>
    if !s.flag (HAND_MAP_VALID l) && decide (l / 16 ∉ s.hand.cluNext) then
      let s := (s.handLeaves l).foldl (fun s x => s.setLeaf x { s.leafOf x with always := true }) s
      (s.setFld HAND_STAT_NO_JOKER 1).logEvent 0x1102 sevAttention (homeOf l)
    else s) s

/-- The accepted image becomes the configuration: what the start shows of it, the engines, and the figures the supervisor
computes at load. -/
def State.accept (s : State) (bs : List Byte) (bad : List (Fin 64)) : State :=
  let signed := bitOf (numAt bs 6 2) 0
  let e := numAt bs 8 4 - (if signed then 132 else 4)
  let s := (s.setFld SUP_BOOT_INFO_SLOT s.boot.slot).setFld SUP_BOOT_INFO_SIGNED (b2n signed)
  let s := (s.setFld SUP_BOOT_INFO_RECORDS (numAt bs 0xC 4)).setPair SUP_IMAGE_BUILD (numAt bs 0x10 8)
  let s := s.setReg SUP_IMAGE_CRC.addr (BitVec.ofNat 32 (numAt bs e 4))
  let s := s.setFld TIME_STAT_EPOCH_WAIT (b2n (decide (s.fld TIME_CFG_EPOCH_SRC = 2)))
  let s := s.setFld DEAL_STAT_CLASS_W (b2n (s.img.products.any (fun x => x.classW)))
  let s := (s.startEngines bad).judgeMargins.zoomRates.judgeOffered
  let (nonce, s) := s.fresh
  { s.setPair DEAL_AMD_NONCE nonce.toNat with imgDone := true }.setSup 7

/-- The registers of a refused candidate that go on showing why (R44, R185, R264): budget, zoom and microcode figures. -/
def shownRegs : List Nat :=
  [DEAL_BUDGET_AVAIL.addr, DEAL_BUDGET_LIMIT.addr, DEAL_BUDGET_WORST.addr, DEAL_BUDGET_ENG.addr, ZC_REFUSE_CAUSE.addr,
    CS_VENDOR_VERSION_MAJOR.addr, CS_CUSTOMER_VERSION_MAJOR.addr, CS_PATCH_LEVEL_LEVEL.addr, CS_STAT_PATCHED.addr,
    CS_VENDOR_CRC.addr, CS_CUSTOMER_CRC.addr, CS_ROUTINE_MAX.addr]

/-- What a final refusal of an image leaves to be read. -/
def State.showRefused (s t : State) : State :=
  let s := shownRegs.foldl (fun s a => s.setReg a (t.reg a)) s
  { s with img := { s.img with programs := t.img.programs, recount := t.img.recount } }

/-- Step 6, one slot (R471, R473): `sfdp` is the flash's size in MiB and whether it declares a 64 KiB erase. -/
def State.tryImage (s : State) (sfdp : Option (Nat × Bool)) (bad : List (Fin 64)) : State :=
  match sfdp with
  | none => s.configError 0x01 0xFF 0xFFF 6
  | some (mib, e64) =>
    if mib < 32 ∨ 512 < mib then s.configError 0x01 0xFF 0xFFF 6
    else
      let s := ((s.setFld SUP_FLASH_INFO_VALID 1).setFld SUP_FLASH_INFO_ERASE64 (b2n e64)).setFld SUP_FLASH_INFO_SIZE_MIB mib
      let s := s.setFld SUP_BOOT_INFO_ADDR4 1
      let bs := s.slotBytes s.boot.slot
      match s.judgeImage bs with
      | (t, none) => t.accept bs bad
      | (t, some r) =>
        match s.boot.slots with
        | _ :: next :: rest =>
          let v := bootStat r.cause r.block r.rec' 6
          let s := (s.setReg SUP_BOOT_A_STAT_CAUSE.addr (BitVec.ofNat 32 v)).setFld SUP_BOOT_INFO_FALLBACK 1
          { s with boot := { s.boot with slot := next, slots := next :: rest } }.logEvent 0x0002 sevAttention v
        | _ => (s.showRefused t).configError r.cause r.block r.rec' 6

end Sys2Proof.Machine
end

