-- ==== Sys2Proof/Machine/Life.lean ====
section
/-! DEFINITION. The flash service (R474), life-cycle transitions (R492, R493) and OTP programming (R494). -/

namespace Sys2Proof.Machine

/-! ### The flash service (R474) -/

/-- What a command's ADDR must be a multiple of, and the bytes it touches. -/
def flashAlign (op : Nat) : Nat := if op = 0 then 256 else flashSpan op

/-- The 256 bytes of SUP_FLASH_BUF. -/
def State.flashBuf (s : State) : List Byte := (List.range 64).flatMap (fun w => leBytes 4 (s.reg (SUP_FLASH_BUF w).addr).toNat)

/-- Programming clears bits of a NOR flash (R471); a bit that would have to be set again is left open. -/
def State.programBytes (s : State) (old new : List Byte) : List Byte × State :=
  let (f, s) := s.freeBytes new.length
  (((old.zip new).zip f).map (fun x => if x.1.1 &&& x.1.2 = x.1.2 then x.1.2 else x.2), s)

/-- The flash's bytes change as the command lays down. -/
def State.flashApply (s : State) (op a : Nat) : State :=
  match op with
  | 0 => s
  | 1 =>
    let (bs, s) := s.programBytes (sparseRead flashDefault s.boot.flash a 256) s.flashBuf
    s.flashPut a bs
  | _ => s.flashPut a (List.replicate (flashSpan op) 0xFF)

/-- SUP_FLASH_CMD is written with GO = 1. -/
def State.flashCmd (s : State) (op : Nat) : State :=
  let s := s.setFld SUP_FLASH_CMD_OP op
  let a := s.fld SUP_FLASH_ADDR_ADDR
  if s.alive = false ∨ s.flag SUP_STAT_WDOG = true then s
  else if s.sup ≤ 6 ∨ s.flag SUP_FLASH_CMD_BUSY = true ∨ (op = 3 ∧ s.flag SUP_FLASH_INFO_ERASE64 = false) then s.setFld SUP_FLASH_CMD_ERR 2
  else if a % flashAlign op ≠ 0 ∨ s.fld SUP_FLASH_INFO_SIZE_MIB * 1048576 ≤ a then s.setFld SUP_FLASH_CMD_ERR 3
  else
    let s := s.flashApply op a
    ({ s with boot := { s.boot with flashOp := some (op, a) } }.setFld SUP_FLASH_CMD_BUSY 1).setFld SUP_FLASH_CMD_ERR 0

/-- The flash reports ready, or has not within 5 s: what a program or erase was changing is then left open. -/
def State.flashDone (s : State) (ready : Bool) : State :=
  match s.boot.flashOp with
  | none => s
  | some (op, a) =>
    let s : State :=
      if ready then
        (if op = 0 then
          (List.range 64).foldl (fun s w =>
            s.setReg (SUP_FLASH_BUF w).addr (BitVec.ofNat 32 (leNat (sparseRead flashDefault s.boot.flash (a + 4 * w) 4)))) s
        else s)
      else s.cutFlash.setFld SUP_FLASH_CMD_ERR 1
    ({ s with boot := { s.boot with flashOp := none } }.setFld SUP_FLASH_CMD_BUSY 0).setFld SUP_STAT_FLASH_DONE 1

/-! ### Life-cycle transitions (R492, R493) -/

/-- A refused TEST_LC_ADV write. -/
def State.lcRefuse (s : State) (err : Nat) : State := (s.setFld TEST_LC_STAT_ERR err).ignored TEST_LC_ADV.addr

/-- TEST_LC_ADV is written. -/
def State.lcAdvance (s : State) (confirm target : Nat) : State :=
  let now := lcState s.boot.fuses.lc
  if s.alive = false ∨ s.flag SUP_STAT_WDOG = true then s
  else if confirm ≠ 0x4C43 then s.lcRefuse 1
  else if ¬ ((now = 2 ∧ (target = 3 ∨ target = 4)) ∨ (now = 3 ∧ target = 4)) then s.lcRefuse 2
  else if s.flag TEST_LC_STAT_BUSY then s.lcRefuse 3
  else { s with boot := { s.boot with lcOp := some target } }.setFld TEST_LC_STAT_BUSY 1

/-- A transition or OTP operation ends. -/
def State.lcOver (s : State) : State :=
  let s := { s with boot := { s.boot with lcOp := none, otpOp := none } }
  ((s.setFld TEST_LC_STAT_BUSY 0).setFld SUP_STAT_LC_DONE 1).showFuses

/-- A fuse fails its verification. -/
def State.lcFail (s : State) : State := ((s.setFld TEST_LC_STAT_ERR 6).logEvent 0x0006 sevAttention 6).lcOver

/-- A transition ends: whether KEY_ZERO verified, the key bits left unblown, whether the state fuse verified. -/
def State.lcDone (s : State) (zeroed : Bool) (left : Nat) (blown : Bool) : State :=
  match s.boot.lcOp with
  | none => s
  | some t =>
    let due := !s.boot.fuses.keyZero
    if due && !zeroed then s.lcFail
    else
      let s := if due then s.zeroised (min left 256) else s
      if blown then
        let s := { s with boot := { s.boot with fuses := { s.boot.fuses with lc := s.boot.fuses.lc ||| 2 ^ (t - 1) } } }
        s.lcOver.logEvent 0x0005 sevInfo t
      else s.lcFail

/-! ### OTP (R494) -/

/-- Why an OTP operation is refused: 0 when it is not. -/
def State.otpRefusal (s : State) (op : Nat) : Nat :=
  let f := s.boot.fuses
  let lc := s.fld SUP_STAT_LC
  let done := match op with
    | 1 => f.keySet || f.keyZero
    | 2 => f.pkhSet
    | _ => f.secure
  if s.flag TEST_LC_STAT_BUSY then 3
  else if lc ≠ 1 ∧ lc ≠ 2 then 4
  else if done then 5
  else if op = 3 ∧ f.pkhSet = false then 7
  else 0

/-- TEST_OTP_CTL is written with GO = 1. -/
def State.otpStart (s : State) (op : Nat) : State :=
  let s := s.setFld TEST_OTP_CTL_OP op
  if s.alive = false ∨ s.flag SUP_STAT_WDOG = true then s
  else
    let e := s.otpRefusal op
    if e ≠ 0 then s.setFld TEST_LC_STAT_ERR e
    else { s with boot := { s.boot with otpOp := some op } }.setFld TEST_LC_STAT_BUSY 1

/-- An OTP operation ends: the fuses are blown, the flag last, and the data words clear. -/
def State.otpDone (s : State) : State :=
  match s.boot.otpOp with
  | none => s
  | some op =>
    let f := s.boot.fuses
    let f := match op with
      | 1 => { f with secret := f.secret ||| s.otpData, keySet := true }
      | 2 => { f with pkh := f.pkh ||| s.otpData, pkhSet := true }
      | _ => { f with secure := true }
    let s := { s with boot := { s.boot with fuses := f } }
    let s := (List.range 8).foldl (fun s w => s.setReg (TEST_OTP_DATA w).addr 0) s
    s.lcOver.logEvent 0x0008 sevInfo op

/-! ### Meanings -/

/-- FLASH_READ (R474). -/
def execFlashRead (s : State) : Host.Outcome State Fault Refusal := done (s.flashCmd 0)

/-- FLASH_PROGRAM (R474). -/
def execFlashProgram (s : State) : Host.Outcome State Fault Refusal := done (s.flashCmd 1)

/-- FLASH_ERASE_4K (R474). -/
def execFlashErase4k (s : State) : Host.Outcome State Fault Refusal := done (s.flashCmd 2)

/-- FLASH_ERASE_64K (R474). -/
def execFlashErase64k (s : State) : Host.Outcome State Fault Refusal := done (s.flashCmd 3)

/-- FLASH_DONE (R474). -/
def execFlashDone (ready : Bool) (s : State) : Host.Outcome State Fault Refusal := done (s.flashDone ready)

/-- LC_ADVANCE (R492). -/
def execLcAdvance (confirm : BitVec 16) (target : Fin 8) (s : State) : Host.Outcome State Fault Refusal :=
  done (s.lcAdvance confirm.toNat target)

/-- LC_TRANSITION_DONE (R492). -/
def execLcTransitionDone (zeroed : Bool) (left : Nat) (blown : Bool) (s : State) : Host.Outcome State Fault Refusal :=
  done (s.lcDone zeroed left blown)

/-- OTP_KEY (R494). -/
def execOtpKey (s : State) : Host.Outcome State Fault Refusal := done (s.otpStart 1)

/-- OTP_PKH (R494). -/
def execOtpPkh (s : State) : Host.Outcome State Fault Refusal := done (s.otpStart 2)

/-- OTP_SECURE (R494). -/
def execOtpSecure (s : State) : Host.Outcome State Fault Refusal := done (s.otpStart 3)

/-- OTP_PROGRAMMED (R494). -/
def execOtpProgrammed (s : State) : Host.Outcome State Fault Refusal := done s.otpDone

end Sys2Proof.Machine
end

