-- ==== Sys2Proof/Machine/Capture.lean ====
section
/-! DEFINITION. Capture units: sources and rows (R289, R290), segments in memory (R291 to R293), arming and triggers (R294
to R300), gaps (R301) and DEGRADED (R302). -/

namespace Sys2Proof.Machine

/-! ### Units, sources and shapes (R289 to R291) -/

/-- A capture unit. -/
def State.unitOf (s : State) (u : Nat) : CapUnit := instGet .reset s.cap.units u

/-- Change a capture unit. -/
def State.setUnit (s : State) (u : Nat) (x : CapUnit) : State :=
  { s with cap := { s.cap with units := instSet .reset s.cap.units u x } }

/-- A unit's source as a set of register values gives it. -/
def capSource (get : Nat → Word) (u : Nat) : CapSource :=
  let f := fun (x : Field) => wordBits (get x.addr) x.lo x.width
  { ty := f (CAPU_CTL_SRC_TYPE u), pack := decide (f (CAPU_CTL_PACK u) = 1) && decide (f (CAPU_CTL_SRC_TYPE u) = 0),
    inputs := (List.range 4).filter (fun i => bitOf (f (CAPU_CTL_INPUTS u)) i), input := f (CAPU_SRC_INPUT u),
    chan0 := f (CAPU_SRC_FIRST u), nch := f (CAPU_SRC_NCH_M1 u) + 1, chain := f (CAPU_SRC_CHAIN u),
    wide8 := decide (f (ZCN_CTL_WIDTH (f (CAPU_SRC_CHAIN u))) = 1) }

/-- The number of streams S (R289). -/
def CapSource.count (c : CapSource) : Nat :=
  match c.ty with
  | 0 => c.inputs.length
  | 1 => c.nch
  | _ => 1

/-- Samples per block (R290). -/
def CapSource.spb (c : CapSource) : Nat :=
  match c.ty with
  | 0 => if c.pack then 2720 else 2048
  | 1 => 1024
  | _ => if c.wide8 then 2048 else 1024

/-- Bytes of a segment (R291). -/
def segSize (len : Nat) : Nat := 4096 * (1 + ceilDiv len 256 + len)

/-- LEN in effect. -/
def State.capLen (s : State) (u : Nat) : Nat := s.fld (CAPU_LEN_ACT_LEN u)

/-- POST in effect. -/
def State.capPost (s : State) (u : Nat) : Nat := s.pair (CAPU_POST_ACT u) % 2 ^ 48

/-- The samples of one stream that a segment holds, C (R291). -/
def State.capC (s : State) (u : Nat) : Nat :=
  let c := (s.unitOf u).src
  s.capLen u / max 1 c.count * c.spb

/-- The device address of the segment being filled. -/
def State.segBase (s : State) (u : Nat) : Nat := s.pair (CAPU_BASE u) + s.fld (CAPU_STAT_SEG u) * segSize (s.capLen u)

/-- Unit states (R295). -/
def capIdle : Nat := 0

/-- Armed. -/
def capArmed : Nat := 1

/-- Triggered. -/
def capTriggered : Nat := 2

/-- A unit's state, with CAP_RUN. -/
def State.setCapState (s : State) (u st : Nat) : State :=
  ((s.setFld (CAPU_STAT_STATE u) st).putBit CAP_RUN_ARMED u (decide (st ≠ capIdle))).putBit CAP_RUN_TRIGGERED u
    (decide (st = capTriggered))

/-! ### Stream indexes and instants -/

/-- Raw samples per stream index, of a unit's source. -/
def State.capStride (s : State) (c : CapSource) : Nat :=
  match c.ty with
  | 0 => 1
  | 1 => 400
  | _ => (s.chainOf c.chain).cfg.r

/-- The first stream index of a deal: zoom output u belongs to the deal of raw index R u + R − 1 (R261). -/
def State.capFirst (s : State) (c : CapSource) (n : Nat) : Int := s.dealRaw n / (max 1 (s.capStride c) : Nat)

/-- The input that a unit's samples come from (R389). -/
def State.capInput (s : State) (c : CapSource) : Nat :=
  match c.ty with
  | 0 => c.inputs.headD 0
  | 1 => c.input
  | _ => (s.chainOf c.chain).cfg.input

/-- The instant of a stream index in 1/65,536 sample. -/
def State.capPos (s : State) (c : CapSource) (x : Int) : Int :=
  match c.ty with
  | 0 => 65536 * x
  | 1 => s.coarsePos c.input (2 * x.toNat)
  | _ => zoomPos (s.chainOf c.chain).cfg.r (s.chainOf c.chain).cfg.g256 x

/-- The trigger sample of an instant in 1/65,536 sample (R296). -/
def State.capTrig (s : State) (c : CapSource) (y : Int) : Int :=
  match c.ty with
  | 0 => y / 65536
  | 1 => (y - 65536 * 399 + 256 * (s.fld (CBKI_GD_GD c.input) : Int)) / (65536 * 400)
  | _ =>
    let z := (s.chainOf c.chain).cfg
    (y - 65536 * ((z.r : Int) - 1) + 256 * (z.g256 : Int)) / (65536 * (max 1 z.r : Nat))

/-! ### Samples (R289, R290) -/

/-- A sample on its way into a block: its element as the block holds it, OVR, and whether its segment was flagged DEGRADED. -/
structure CapSample where
  elem : Nat
  ovr  : Bool
  degr : Bool
  deriving DecidableEq, Repr

/-- The element of a raw container: whole, or its 12 significant bits (R290). -/
def rawElem (right pack : Bool) (v : Nat) : Nat := if pack then (if right then v % 4096 else v / 16) else v

/-- The samples of a raw stream in an index range; those that did not come are none. -/
def State.rawSamples (s : State) (c : CapSource) (i : Nat) (first : Int) (n : Nat) : List (Option CapSample) :=
  let es := (s.tapOf i).given
  let right := s.flag (CONVI_FMT_ALIGN i)
  (List.range n).map (fun (k : Nat) =>
    let x := first + (k : Int)
    (es.find? (fun (e : TapEntry) => decide (e.index = x / 16))).map (fun e =>
      { elem := rawElem right c.pack (leNat ((e.data.drop (2 * (x % 16).toNat)).take 2)), ovr := bitOf e.tag 5, degr := false : CapSample }))

/-- The samples of a coarse stream. -/
def State.coarseSamples (s : State) (i ch : Nat) (first : Int) (n : Nat) : List (Option CapSample) :=
  let d := s.dealerOf i
  (List.range n).map (fun (k : Nat) =>
    let x := first + (k : Int)
    match d.ring[(d.j - 1 - x).toNat]? with
    | some h =>
      if h.j = x ∧ x < d.j ∧ h.reaches (4 * ch) = true then
        some { elem := (h.z.getD ch 0).toNat, ovr := s.satOf i ch (x / (s.dealLen : Int)).toNat, degr := false : CapSample }
      else none
    | none => none)

/-- The samples of a chain that have been handed on, or that its closed segments hold. -/
def State.zoomGiven (s : State) (k : Nat) : List ZoomSample :=
  let x := s.chainOf k
  x.given.reverse ++ x.ready.flatMap (fun g => g.data)

/-- The samples of a zoom stream. -/
def State.zoomSamples (s : State) (k : Nat) (first : Int) (n : Nat) : List (Option CapSample) :=
  let zs := s.zoomGiven k
  (List.range n).map (fun (i : Nat) =>
    (zs.find? (fun (z : ZoomSample) => decide (z.u = first + (i : Int)))).map (fun z => { elem := z.word, ovr := z.ovf, degr := z.degr : CapSample }))

/-- The streams of a unit, each with its samples in an index range (R289). -/
def State.capStreams (s : State) (c : CapSource) (first : Int) (n : Nat) : List (List (Option CapSample)) :=
  match c.ty with
  | 0 => c.inputs.map (fun i => s.rawSamples c i first n)
  | 1 => (List.range c.nch).map (fun k => s.coarseSamples c.input (c.chan0 + k) first n)
  | _ => [s.zoomSamples c.chain first n]

/-- The samples before the first one that did not come. -/
def presentRun : List (Option CapSample) → List CapSample
  | some x :: t => x :: presentRun t
  | _ => []

/-- Whether nothing of an index range can still come: it is all there, or later samples are. -/
def State.capPassed (s : State) (c : CapSource) (first : Int) (n : Nat) : Bool :=
  let last := first + (n : Int) - 1
  match c.ty with
  | 0 => decide (last < s.rawNow) && c.inputs.all (fun i => s.tapStuck i ||
      (s.tapOf i).given.any (fun (e : TapEntry) => decide (last / 16 ≤ e.index)))
  | 1 => decide (last < (s.dealerOf c.input).j)
  | _ => (s.zoomGiven c.chain).any (fun z => decide (last ≤ z.u))

/-- Elements packed `b` bits apart, little-endian. -/
def packBits (b : Nat) : List Nat → Nat
  | [] => 0
  | x :: t => x + packBits b t <<< b

/-- A block's 4,096 bytes (R290). -/
def CapSource.blockBytes (c : CapSource) (xs : List CapSample) : List Byte :=
  let es := xs.map (fun x => x.elem)
  let bytes : List Byte := match c.ty with
    | 0 =>
      if c.pack then
        -- Two elements fill three bytes, so pairs are packed one by one.
        (List.range ((es.length + 1) / 2)).flatMap (fun i => leBytes 3 (packBits 12 ((es.drop (2 * i)).take 2)))
      else es.flatMap (leBytes 2)
    | 1 => es.flatMap (leBytes 4)
    | _ => es.flatMap (leBytes (if c.wide8 then 2 else 4))
  bytes ++ zeros (4096 - bytes.length)

/-! ### Rows (R292, R301, R302) -/

/-- Whether a block of stream `i` carries DEGRADED (R302): zoom samples by the flag of their segments; a zoom chain's output
crosses the link from its converter die to ADIE1 (R14, R16). -/
def State.capDegraded (s : State) (c : CapSource) (i : Nat) (xs : List CapSample) : Bool :=
  s.cap.retired ||
  (match c.ty with
    | 0 => let input := c.inputs.getD i 0; s.tapStuck input || bitOf s.conv.degraded input
    | 1 => false
    | _ => xs.any (fun v => v.degr) || s.crossesFailed [2 * (c.chain / 8) + 1])

/-- Whether an index range holds the first sample of a deal. -/
def State.holdsTick (s : State) (c : CapSource) (first : Int) (n : Nat) : Bool :=
  let r : Int := (max 1 (s.capStride c) : Nat)
  let len : Int := ((400 * s.dealLen : Nat) : Int)
  let deal := fun (x : Int) => (if c.ty = 2 then r * x + r - 1 else r * x) / len
  decide (deal (first - 1) < deal (first + (n : Int) - 1))

/-- A block map entry (R292). -/
def mapEntry (first : Int) (lost count : Nat) (trig tick ovr degr trunc : Bool) (stream armseq : Nat) : List Byte :=
  let lost := min lost (2 ^ 32 - 1)
  leBytes 8 (ofSigned 64 first) ++ leBytes 4 lost ++
  leBytes 2 (count + 4096 * b2n (decide (0 < lost)) + 8192 * b2n trig + 16384 * b2n tick + 32768 * b2n ovr) ++
  leBytes 1 stream ++ leBytes 1 (16 * armseq + 8 * b2n degr + 4 * b2n trunc)

/-- The device address of a slot's map entry. -/
def State.mapAddr (s : State) (u slot : Nat) : Nat := s.segBase u + 4096 + 16 * slot

/-- The device address of a slot's data. -/
def State.capSlotAddr (s : State) (u slot : Nat) : Nat := s.segBase u + 4096 * (1 + ceilDiv (s.capLen u) 256 + slot)

/-- Whether a row holds the trigger sample. -/
def CapUnit.trigIn (x : CapUnit) (first : Int) (count : Nat) : Bool :=
  match x.trig with
  | some (_, t, _) => decide (first ≤ t) && decide (t < first + (count : Int))
  | none => false

/-- Samples of every stream of a unit are lost in an index range (R301). -/
def State.loseSamples (s : State) (u : Nat) (first : Int) (n : Nat) : State :=
  if n = 0 then s
  else
    let x := s.unitOf u
    let s := s.setUnit u { x with
      gapNow := x.gapNow + n, gapSeg := x.gapSeg + n, gaps := x.gaps ++ [(first, first + (n : Int))] }
    (s.addSat (CAPU_GAP_LOST_COUNT u) n).stick CAP_STAT_GAP u

/-- A row of `count` samples is written, the last of the `want` that belong to it being lost (R290 to R292, R301). -/
def State.writeRow (s : State) (u count want : Nat) : State :=
  let x := s.unitOf u
  let c := x.src
  let len := s.capLen u
  let trunc := decide (count < c.spb)
  let armseq := s.fld (CAPU_STAT_ARMSEQ u)
  let blocks := (s.capStreams c x.row count).map presentRun
  let tick := s.holdsTick c x.row count
  let degrs := blocks.zipIdx.map (fun b => s.capDegraded c b.2 b.1)
  let put := fun (s : State) (b : List CapSample × Nat) =>
    let ovr := b.1.any (fun v => v.ovr)
    let s := s.sdWrite (s.capSlotAddr u (x.slot + b.2)) (c.blockBytes b.1)
    s.sdWrite (s.mapAddr u (x.slot + b.2))
      (mapEntry x.row x.gapNow count (x.trigIn x.row count) tick ovr (degrs.getD b.2 false) trunc b.2 armseq)
  let s := (blocks.zipIdx).foldl put s
  let row : CapRow :=
    { first := x.row, slot := x.slot, count := count, degr := degrs.any id, ovr := blocks.any (fun b => b.any (fun v => v.ovr)) }
  let rows := x.rows ++ [row]
  let keep := len / max 1 c.count
  let s := s.setUnit u { x with
    rows := rows.drop (rows.length - keep), slot := (x.slot + c.count) % max 1 len, row := x.row + (c.spb : Int), gapNow := 0,
    staged := x.staged + c.count }
  (s.setFld (CAPU_STAT_DEG u) (b2n row.degr)).loseSamples u (x.row + (count : Int)) (want - count)

/-- A row is dropped (R301). -/
def State.dropRow (s : State) (u : Nat) : State :=
  let x := s.unitOf u
  (s.loseSamples u x.row x.src.spb).setUnit u
    { (s.loseSamples u x.row x.src.spb).unitOf u with row := x.row + (x.src.spb : Int) }

/-- The row being filled is complete: written, or dropped when staging has less free space than the row or no sample of it came
(R301). -/
def State.takeRow (s : State) (u : Nat) : State :=
  let x := s.unitOf u
  let n := ((s.capStreams x.src x.row x.src.spb).map (fun l => (presentRun l).length)).foldl min x.src.spb
  if x.staged + x.src.count ≤ 512 ∧ n ≠ 0 then s.writeRow u n x.src.spb else s.dropRow u

/-- Memory has acknowledged blocks of a unit: they leave staging. -/
def State.unstage (s : State) (u n : Nat) : State :=
  let x := s.unitOf u
  s.setUnit u { x with staged := x.staged - n }

/-- Raw entries that no armed unit needs any more are let go. -/
def State.capPrune (s : State) : State :=
  (List.range 4).foldl (fun s i =>
    let rows := (List.range 8).filterMap (fun u =>
      let x := s.unitOf u
      if s.fld (CAPU_STAT_STATE u) ≠ capIdle ∧ x.src.ty = 0 ∧ i ∈ x.src.inputs then some x.row else none)
    let q := s.tapOf i
    match rows with
    | [] => if q.given.isEmpty then s else s.setTap i { q with given := [] }
    | r :: t =>
      let low := t.foldl min r
      s.setTap i { q with given := q.given.dropWhile (fun (e : TapEntry) => decide (16 * e.index + 15 < low)) }) s

/-- CAPTURE_ROW_COMPLETE: a unit that is armed or triggered completes the row it is filling; since its last row, memory has
acknowledged `acked` of its staged blocks (R301). The stop row, written or dropped, ends the segment (R298). -/
def State.rowComplete (s : State) (u acked : Nat) : State :=
  let x := s.unitOf u
  if s.fld (CAPU_STAT_STATE u) = capIdle ∨ x.ended = true ∨ s.capPassed x.src x.row x.src.spb = false then s
  else
    let s := (s.unstage u acked).takeRow u
    let y := s.unitOf u
    let s := if y.trig.isSome && decide (y.stop ≤ x.row) then s.setUnit u { y with ended := true } else s
    s.capPrune

/-! ### Descriptors (R293, R298, R299) -/

/-- The samples of a stream that the segment's valid blocks hold below an index (R298). -/
def CapUnit.preValid (x : CapUnit) (below : Option Int) : Nat :=
  (x.rows.map (fun r => match below with
    | some t => min r.count (t - r.first).toNat
    | none => r.count)).sum

/-- Whether a valid block of the segment carries DEGRADED (R302). -/
def CapUnit.degraded (x : CapUnit) : Bool := x.rows.any (fun r => r.degr)

/-- Whether one carries OVR (R292). -/
def CapUnit.ovr (x : CapUnit) : Bool := x.rows.any (fun r => r.ovr)

/-- Whether a deal that carries TIME_STEP overlaps the segment's valid blocks (R293). -/
def State.capStep (s : State) (x : CapUnit) : Bool :=
  match x.rows.head?, x.rows.getLast? with
  | some a, some b =>
    let r : Int := (max 1 (s.capStride x.src) : Nat)
    let len : Int := ((400 * s.dealLen : Nat) : Int)
    let deal := fun (i : Int) => ((if x.src.ty = 2 then r * i + r - 1 else r * i) / len).toNat
    let d0 := deal a.first
    let d1 := deal (b.first + (b.count : Int) - 1)
    s.time.epochs.any (fun e => e.step.isSome && decide (d0 ≤ e.since) && decide (e.since ≤ d1))
  | _, _ => false

/-- The 64-byte segment descriptor (R293). -/
def State.descriptor (s : State) (u : Nat) (trunc : Bool) : List Byte :=
  let x := s.unitOf u
  let c := x.src
  let (idx, tidx, tfrac, cond, src, lat, slot, ref) := match x.trig with
    | some (d, t, ns) =>
      let (n, f) := trigIndex d.ev.time
      (ofSigned 64 t, ofSigned 64 n, f, d.ev.ty + 16 * b2n d.ev.isB, d.ev.src, min ns (2 ^ 32 - 1), d.slot, d.ev.ref)
    | none => (2 ^ 64 - 1, 0, 0, 0, 0, 0, 0, false)
  let lost := min x.gapSeg (2 ^ 32 - 1)
  let inGap := match x.trig with
    | some (_, t, _) => x.gaps.any (fun g => decide (g.1 ≤ t) && decide (t < g.2))
    | none => false
  let flags := b2n x.trig.isSome + 2 * b2n trunc + 4 * b2n (decide (0 < lost)) + 8 * b2n inGap + 16 * b2n x.degraded + 32 * b2n x.ovr +
    64 * b2n x.short + 128 * b2n (s.capStep x) + 256 * b2n ref
  leBytes 4 0x5041434B ++ leBytes 2 (s.fld (CAPU_STAT_SEG u)) ++ leBytes 1 (u + 16 * c.ty + 64 * b2n c.pack) ++
  leBytes 1 (slot + 16 * s.fld (CAPU_STAT_ARMSEQ u)) ++ leBytes 2 flags ++ leBytes 2 c.count ++ leBytes 4 (s.capLen u) ++
  leBytes 8 idx ++ leBytes 8 tidx ++ leBytes 2 tfrac ++ leBytes 1 cond ++ leBytes 1 src ++
  leBytes 4 (s.fld (CAPU_SEG_DONE_COUNT u) + 1) ++ leBytes 8 (x.preValid (x.trig.map (fun t => t.2.1))) ++
  leBytes 4 ((x.rows.head?.map (fun r => r.slot)).getD 0) ++ leBytes 4 (x.rows.length * c.count) ++ leBytes 4 lost ++ leBytes 4 lat

/-- The CAPT record of a completed segment (R387, R391). -/
def State.captRecord (s : State) (u : Nat) (trunc degr : Bool) (desc : List Byte) : Nat × List Byte :=
  let x := s.unitOf u
  let c := x.src
  let oldest := (x.rows.head?.map (fun r => r.first)).getD x.start
  let pos := match x.trig with
    | some (d, _, _) => let (n, f) := trigIndex d.ev.time; 65536 * n + (f : Int)
    | none => s.capPos c oldest
  let deal := (pos / 65536 / ((400 * s.dealLen : Nat) : Int)).toNat
  let lost := min x.gapSeg (2 ^ 32 - 1)
  let h : RecHead :=
    { ty := 0x07, flags := flagIf x.ovr flOvf ||| flagIf (x.degraded || degr) flDegr ||| flagIf trunc flTrunc, product := 0xFF,
      input := s.capInput c, channel := if c.ty = 1 then c.chan0 else 0xFFFF, logical := 0xFFFF, member := 0, block := 0x08,
      part := u * 2 ^ 24 + s.fld (CAPU_SEG_DONE_COUNT u) % 2 ^ 24, deal := deal, pos := pos,
      gap := if lost = 0 then none else some (0, lost), rawGap := true }
  (deal, s.record h desc)

/-- The segment's descriptor is written and its record emitted (R293). -/
def State.finishSegment (s : State) (u : Nat) (trunc : Bool) : State :=
  let desc := s.descriptor u trunc
  let s := s.sdWrite (s.segBase u) (desc ++ zeros 4032)
  let s := (s.addSat (CAPU_SEG_DONE_COUNT u) 1).stick CAP_STAT_SEG_DONE u
  if s.flag (CAPU_CTL_REC u) then
    s.captOut u (s.captRecord u trunc false desc).1 (fun degr => (s.captRecord u trunc degr desc).2)
  else s

/-- A unit goes IDLE: ARM in effect is 0 (R295). -/
def State.capStop (s : State) (u : Nat) : State :=
  let q := (s.unitOf u).queue
  (((s.setCapState u capIdle).setFld (CAPU_CTL_ARM u) 0).setUnit u { CapUnit.reset with queue := q }).setFld (CAPU_STAT_DEG u) 0

/-- A segment begins: MAGIC is 0, and nothing is held (R295). -/
def State.beginSegment (s : State) (u seg : Nat) (start : Int) : State :=
  let x := s.unitOf u
  let s := (s.setFld (CAPU_STAT_SEG u) seg).setUnit u
    { CapUnit.reset with
      src := x.src, start := start, row := start, queue := x.queue, gapNow := x.gapNow, staged := x.staged }
  (s.sdWrite (s.segBase u) (zeros 4)).setCapState u capArmed

/-- The cause of R294 that an arm with a set of register values would meet; none if it passes. -/
def armRefusal (get : Nat → Word) (size u : Nat) : Option Nat :=
  let f := fun (x : Field) => wordBits (get x.addr) x.lo x.width
  let c := capSource get u
  let n := c.count
  let len := f (CAPU_LEN_LEN u)
  let segs := f (CAPU_SEGS_SEGS_M1 u) + 1
  let post := ((get (CAPU_POST u).addr).toNat + 2 ^ 32 * (get ((CAPU_POST u).addr + 4)).toNat) % 2 ^ 48
  if size = 0 ∨ size < segs * segSize len then some 1
  else if (c.ty = 0 ∧ n = 0) ∨ (c.ty = 1 ∧ 255 < c.chan0 + c.nch - 1) then some 4
  else if len % max 1 n ≠ 0 ∨ len < 2 * n then some 2
  else if post = 0 ∨ len / max 1 n * c.spb < post then some 3
  else none

/-- An arm or a move is refused (R294). -/
def State.refuseArm (s : State) (u cause : Nat) : State :=
  let s := ((s.capStop u).setFld (CAPU_STAT_ERR u) cause).stick CAP_STAT_ARM_ERR u
  s.ignored (CAPU_CTL u).addr

/-- SEGMENT_COMPLETE: the stop row stands in memory; the next segment begins with the next row, or the unit goes IDLE
(R295). -/
def State.segmentComplete (s : State) (u : Nat) : State :=
  let x := s.unitOf u
  if s.fld (CAPU_STAT_STATE u) ≠ capTriggered ∨ x.ended = false then s
  else
    let s := (s.unstage u x.staged).finishSegment u false
    let seg := s.fld (CAPU_STAT_SEG u)
    let last := decide (seg = s.fld (CAPU_SEGS_ACT_SEGS_M1 u))
    if last ∧ s.flag (CAPU_CTL_MODE u) = false then s.capStop u
    else
      let size := s.pair (CAPU_SIZE u)
      if size < (s.fld (CAPU_SEGS_ACT_SEGS_M1 u) + 1) * segSize (s.capLen u) then s.refuseArm u 1
      else s.beginSegment u (if last then 0 else seg + 1) x.row

/-! ### Triggers (R297, R298) -/

/-- A trigger that is not accepted. -/
def State.missTrigger (s : State) (u : Nat) (stale : Bool) : State :=
  (s.addSat (if stale then CAPU_MISSED_STALE u else CAPU_MISSED_BUSY u) 1).stick CAP_STAT_MISSED u

/-- The map entry of a written row that holds the trigger sample shows TRIG (R292). -/
def State.markTrig (s : State) (u : Nat) : State :=
  let x := s.unitOf u
  match x.rows.find? (fun r => x.trigIn r.first r.count) with
  | some r =>
    (List.range x.src.count).foldl (fun s i =>
      let a := s.mapAddr u (r.slot + i) + 0xD
      s.sdWrite a (leBytes 1 (leNat (s.sdRead a 1) ||| 0x20))) s
  | none => s

/-- TRIGGER_ARRIVAL: the oldest decision on its way reaches the unit, `ns` after its trigger time. -/
def State.trigArrive (s : State) (u ns : Nat) : State :=
  let x := s.unitOf u
  match x.queue with
  | [] => s
  | d :: t =>
    let s := s.setUnit u { x with queue := t }
    let c := x.src
    if s.fld (CAPU_STAT_STATE u) ≠ capArmed then s.missTrigger u false
    else
      let (n, f) := trigIndex d.ev.time
      let xt := s.capTrig c (65536 * n + (f : Int))
      if xt < x.start ∨ xt < x.row - (s.capC u : Int) then s.missTrigger u true
      else
        let want := xt + (s.capPost u : Int) - 1
        let row := x.start + (want - x.start) / (c.spb : Int) * (c.spb : Int)
        let short := decide (row < x.row)
        let s := s.setUnit u { x with
          queue := t, trig := some (d, xt, ns), stop := if short then x.row else row, short := short }
        (s.setCapState u capTriggered).markTrig u

/-! ### Arms and disarms at a tick (R294, R295, R299, R302) -/

/-- A unit is armed at tick n (R295): the source as the registers give it; segment 0 begins with the first sample of the
deal, or, while a zoom source is settling, with its first delivered sample. -/
def State.arm (s : State) (u n : Nat) : State :=
  let c := capSource s.reg u
  let first := s.capFirst c n
  let first := if c.ty = 2 then max first (s.chainOf c.chain).uFirst else first
  let s := s.setFld (CAPU_STAT_ARMSEQ u) ((s.fld (CAPU_STAT_ARMSEQ u) + 1) % 16)
  let s := (s.setFld (CAPU_LEN_ACT_LEN u) (s.fld (CAPU_LEN_LEN u))).setFld (CAPU_SEGS_ACT_SEGS_M1 u) (s.fld (CAPU_SEGS_SEGS_M1 u))
  let s := s.setPair (CAPU_POST_ACT u) (s.pair (CAPU_POST u) % 2 ^ 48)
  let s := (s.setFld (CAPU_GAP_LOST_COUNT u) 0).setFld (CAPU_SEG_DONE_COUNT u) 0
  let s := s.setUnit u { CapUnit.reset with src := c, queue := (s.unitOf u).queue }
  s.beginSegment u 0 first

/-- Rows that end before an index are taken, then the partial last row (R299). -/
def State.closeRows (s : State) (u : Nat) (stop : Int) : Nat → State
  | 0 => s
  | fuel + 1 =>
    let x := s.unitOf u
    if x.row + (x.src.spb : Int) ≤ stop then State.closeRows ((s.unstage u x.staged).takeRow u) u stop fuel
    else if x.row < stop then
      let want := (stop - x.row).toNat
      let n := ((s.capStreams x.src x.row want).map (fun l => (presentRun l).length)).foldl min want
      if n = 0 then s.loseSamples u x.row want else s.writeRow u n want
    else s

/-- The segment of a unit that stops at tick n closes (R299). -/
def State.closeUnit (s : State) (u n : Nat) : State :=
  let x := s.unitOf u
  let s := if x.ended then s else s.closeRows u (s.capFirst x.src n) 65536
  (s.finishSegment u (!x.ended)).capStop u

/-- Capture units at tick n (R294, R295, R299). `old` is the state before the tick, for the settings of zoom chains. -/
def State.capTick (s old : State) (n : Nat) : State :=
  (List.range 8).foldl (fun s u =>
    let x := s.unitOf u
    let busy := decide (s.fld (CAPU_STAT_STATE u) ≠ capIdle)
    let a := (old.chainOf x.src.chain).cfg
    let b := (s.chainOf x.src.chain).cfg
    let lost := decide (x.src.ty = 2) && (fullRestart a b || decide (a.wide8 ≠ b.wide8))
    if busy && (!s.flag (CAPU_CTL_ARM u) || lost) then
      -- The deal's last samples are those of the chain as it was.
      let stop := old.capFirst x.src n
      let t := if x.ended then s else s.closeRows u stop 65536
      (t.finishSegment u (!x.ended)).capStop u
    else if !busy && s.flag (CAPU_CTL_ARM u) then
      match armRefusal s.reg (s.pair (CAPU_SIZE u)) u with
      | some e => s.refuseArm u e
      | none => s.arm u n
    else s) s |>.capPrune

/-- A re-striping clips capture regions (R302, R368): a unit whose segment no longer lies within its region closes. -/
def State.capClip (s : State) (n : Nat) : State :=
  (List.range 8).foldl (fun s u =>
    match s.img.regions.find? (fun r => decide (r.1 = u)) with
    | some (_, base, size) =>
      let usable := min size (s.capacity - (base - sdramBase))
      let busy := decide (s.fld (CAPU_STAT_STATE u) ≠ capIdle)
      let past := decide (usable < (s.fld (CAPU_STAT_SEG u) + 1) * segSize (s.capLen u))
      let s := s.setPair (CAPU_SIZE u) usable
      if busy && past then (s.closeUnit u n).setFld (CAPU_STAT_ERR u) 1 else s
    | none => s) s

/-! ### Meanings -/

/-- TRIGGER_ARRIVAL (R297). -/
def execTriggerArrival (u : Fin 8) (ns : Nat) (s : State) : Host.Outcome State Fault Refusal := done (s.trigArrive u ns)

/-- CAPTURE_ROW_COMPLETE (R301). -/
def execCaptureRowComplete (u : Fin 8) (acked : Nat) (s : State) : Host.Outcome State Fault Refusal :=
  done (s.rowComplete u acked)

/-- SEGMENT_COMPLETE (R293). -/
def execSegmentComplete (u : Fin 8) (s : State) : Host.Outcome State Fault Refusal := done (s.segmentComplete u)

end Sys2Proof.Machine
end

