-- ==== Sys2Proof/Machine/Deal.lean ====
section
/-! DEFINITION. Deals, staged writes, the gate, the close point and the tick (R37, R38, R46 to R51, R468), and the application
of an amendment at its tick (R56, R58, R182). -/

namespace Sys2Proof.Machine

/-! ### Staged writes (R10, R47, R48) -/

/-- DEAL_STAT shows what is staged and what is held (R48, R64). -/
def State.showStaged (s : State) : State :=
  (s.setFld DEAL_STAT_STAGED_PENDING (b2n (!s.deal.due.isEmpty || !s.deal.later.isEmpty))).setFld DEAL_STAT_GATE_HELD
    (b2n (!s.deal.held.isEmpty))

/-- A write takes its place in the order of arrival. -/
def insertWrite (w : StagedWrite) : List StagedWrite → List StagedWrite
  | [] => [w]
  | x :: t => if x.seq ≤ w.seq then x :: insertWrite w t else w :: x :: t

/-- Two sets of staged writes as one, in the order of arrival: a newer write to the same field wins (R48). -/
def mergeWrites (a b : List StagedWrite) : List StagedWrite := b.foldl (fun l w => insertWrite w l) a

/-- A write to staged fields: held while the gate is closed, otherwise for the first tick whose close point is ahead. -/
def State.stage (s : State) (w : StagedWrite) : State :=
  let w := { w with seq := s.deal.writes }
  let d := { s.deal with writes := s.deal.writes + 1 }
  let d : DealState :=
    if s.flag DEAL_CTL_STAGE_GATE then { d with held := d.held ++ [w] }
    else if d.closed then { d with later := d.later ++ [w] }
    else { d with due := d.due ++ [w] }
  { s with deal := d }.showStaged

/-- The held set moves, as one, to the first tick whose close point is ahead (R48). -/
def State.releaseHeld (s : State) : State :=
  let d := s.deal
  let d : DealState :=
    if d.closed then { d with later := mergeWrites d.later d.held, held := [] }
    else { d with due := mergeWrites d.due d.held, held := [] }
  { s with deal := d }.showStaged

/-- DEAL_CTL.STAGE_GATE is written; 0 releases a held set (R48). -/
def State.gateWrite (s : State) (gate : Bool) : State :=
  let s := s.setFld DEAL_CTL_STAGE_GATE (b2n gate)
  if gate then s else s.releaseHeld

/-- A staged write takes effect. -/
def State.putWrite (s : State) (w : StagedWrite) : State := s.setReg w.addr (mergeBits (s.reg w.addr) w.mask w.value)

/-- The settings that would be in force after staged writes. -/
def State.afterWrites (s : State) (ws : List StagedWrite) : State := ws.foldl (fun t w => t.putWrite w) s

/-- The pending amendment's tick: the later of its target and the first tick that can take it (R56, R58). -/
def State.amdTick (s : State) : Nat := max (s.pair DEAL_COMMIT) s.deal.amdEarly

/-- A pending amendment is applied at tick n (R56). Under WDOG it is never applied (R466). -/
def State.amdDue (s : State) (n : Nat) : Bool :=
  decide (s.deal.amdState = .pending) && decide (s.amdTick ≤ n) && !s.flag SUP_STAT_WDOG

/-- The staged writes of tick n, in the order of arrival: those due, with the held set that the tick's amendment took (R48). -/
def State.writesAt (s : State) (n : Nat) : List StagedWrite :=
  if s.amdDue n then mergeWrites s.deal.due s.deal.amdHeld else s.deal.due

/-- The settings that would be in force at the next tick after staged writes and the amendment that it applies (R49, R264). -/
def State.inForce (s : State) (ws : List StagedWrite) : State :=
  let t := s.afterWrites ws
  if s.amdDue s.deal.next then
    s.deal.amdRecs.foldl (fun t r => if r.kind = 0x02 then (regEntries r.body).foldl (fun t e => t.entryPut e) t else t) t
  else t

/-- A staged write lies in a block. -/
def StagedWrite.inBlock (w : StagedWrite) (b : Nat) : Bool := decide (w.addr / 0x10000 = b)

/-! ### The close point (R47, R264, R287, R305, R314, R399) -/

/-- Writes that a test selects are discarded, and each is recorded at INFO (R551). -/
def State.discard (s : State) (ws : List StagedWrite) (bad : Bool) (sel : StagedWrite → Bool) : State × List StagedWrite :=
  if bad then ((ws.filter sel).foldl (fun s w => s.ignored w.addr) s, ws.filter (fun x => !sel x)) else (s, ws)

/-- The zoom limits: every ZC write of the set falls together (R264). -/
def State.judgeZoomWrites (s : State) (ws : List StagedWrite) : State × List StagedWrite :=
  match ws.any (fun w => w.inBlock 6), zoomRefuse (s.inForce ws).reg s.nsps with
  | true, some (cause, chain) =>
    let s := (((s.setFld ZC_STAT_REFUSED 1).setFld ZC_REFUSE_CAUSE cause).setFld ZC_REFUSE_CHAIN chain)
    (s.logEvent 0x0601 sevAttention (cause <<< 8 + chain), ws.filter (fun w => !w.inBlock 6))
  | _, _ => (s, ws)

/-- A declared delay beyond the range that T leaves it is ignored (R261, R264). -/
def State.judgeDelayWrites (s : State) (ws : List StagedWrite) (k : Nat) : State × List StagedWrite :=
  s.discard ws (zoomDelayOut (s.inForce ws).reg k) (fun w => decide (w.addr = (ZCN_FIR_GD_GD k).addr))

/-- The rate sum of a link: every write of an ETH stream field falls together (R399). -/
def State.judgeEthWrites (s : State) (ws : List StagedWrite) : State × List StagedWrite :=
  match ws.any (fun w => w.inBlock 10), overRate (s.inForce ws).reg with
  | true, some (p, l) =>
    ((s.setFld ETH_STAT_REFUSED 1).logEvent 0x0A06 sevAttention (p <<< 8 + l), ws.filter (fun w => !w.inBlock 10))
  | _, _ => (s, ws)

/-- The registers of a trigger slot that hold its setting. -/
def slotWrite (n : Nat) (w : StagedWrite) : Bool := decide ((TRGS_CFG_EN n).addr ≤ w.addr) && decide (w.addr < (TRGS_CFG_EN n).addr + 0x30)

/-- An encoding not permitted in a slot's settings (R276, R285), checked when they would take effect. -/
def State.slotCodes (s : State) (n : Nat) : Bool :=
  [TRGS_CFG_EN n, TRGS_A_CFG_TYPE n, TRGS_B_CFG_TYPE n].any (fun (f : Field) =>
    match regAt f.addr with
    | some (r, _) => outOfRange true r.fields (s.reg f.addr).toNat
    | none => false)

/-- A slot's setting that breaks R281 or uses an encoding not permitted is discarded; the slot keeps its old one (R287). -/
def State.judgeSlotWrites (s : State) (ws : List StagedWrite) (n : Nat) : State × List StagedWrite :=
  let t := s.inForce ws
  s.discard ws (timeoutShort t.reg n || t.slotCodes n) (slotWrite n)

/-- A pulse width of 0 is discarded (R305). -/
def State.judgeOutWrites (s : State) (ws : List StagedWrite) (o : Nat) : State × List StagedWrite :=
  s.discard ws (decide ((s.inForce ws).fld (TRG_OUT_CFG_WIDTH o) = 0)) (fun w => decide (w.addr = (TRG_OUT_CFG_WIDTH o).addr))

/-- A window that breaks R314 is discarded: writes of OPEN or CLOSE, or of an anchor that would use it. -/
def State.judgeWindowWrites (s : State) (ws : List StagedWrite) (c : Nat) : State × List StagedWrite :=
  let t := s.inForce ws
  let edges := fun (w : StagedWrite) => decide (w.addr = (TIME_CH_OPEN c).addr) || decide (w.addr = (TIME_CH_CLOSE c).addr)
  let uses := decide (t.fld (TIME_CH_CFG_ANCHOR c) ≠ 0)
  s.discard ws (windowBad t.reg c) (fun w => edges w || (uses && decide (w.addr = (TIME_CH_CFG_ANCHOR c).addr)))

/-- The checks of R551 that wait for the close point, on one set of writes: those that stay. -/
def State.judgeWrites (s : State) (ws : List StagedWrite) : State × List StagedWrite :=
  if ws.isEmpty then (s, ws)
  else
    let x := (List.range 16).foldl (fun (y : State × List StagedWrite) k => y.1.judgeDelayWrites y.2 k) (s, ws)
    let x := x.1.judgeZoomWrites x.2
    let x := x.1.judgeEthWrites x.2
    let x := (List.range 8).foldl (fun (y : State × List StagedWrite) n => y.1.judgeSlotWrites y.2 n) x
    let x := (List.range 2).foldl (fun (y : State × List StagedWrite) o => y.1.judgeOutWrites y.2 o) x
    (List.range 20).foldl (fun (y : State × List StagedWrite) c => y.1.judgeWindowWrites y.2 c) x

/-- The writes of the next tick are judged together: those due, and the held set of the amendment that it applies. -/
def State.judgeDue (s : State) : State :=
  let (s, ws) := s.judgeWrites (s.writesAt s.deal.next)
  let stays := fun (w : StagedWrite) => ws.any (fun x => decide (x.seq = w.seq))
  let d := s.deal
  let held := if s.amdDue d.next then d.amdHeld.filter stays else d.amdHeld
  { s with deal := { d with due := d.due.filter stays, amdHeld := held } }

/-- The close point of the next tick passes (R47). -/
def State.closePoint (s : State) : State :=
  if s.deal.closed ∨ s.deal.stopped ∨ s.sup < 11 ∨ 12 < s.sup then s
  else
    let s := s.judgeDue
    { s with deal := { s.deal with closed := true } }.showStaged

/-! ### An amendment at its tick (R56, R58, R182) -/

/-- The face that a mask amendment at tick n writes: the one written for this tick already, or the one that no descriptor of
deals n − 2 and n − 1 names (R182). -/
def Leaf.freeFace (x : Leaf) (n : Nat) : Nat :=
  match x.faces with
  | (m, f) :: _ => if m = n then f else pick
  | [] => pick
where
  /-- The first face out of use. -/
  pick : Nat :=
    ((List.range 3).find? (fun f => decide (f ≠ x.faceAt (n - 1)) && decide (f ≠ x.faceAt (n - 2)))).getD 2

/-- One engine's part of a mask amendment at tick n (R182). -/
def State.newFace (s : State) (n l : Nat) : State :=
  let s := if 3 ≤ n ∧ s.leafOwes l (n - 3) = true then s.overrun (s.handLeader l) (n - 3) else s
  let s := s.preempt (s.fld (HAND_MAP_PHYS l))
  let x := s.leafOf l
  let f := x.freeFace n
  s.setLeaf l { x with faces := ((n, f) :: x.faces.filter (fun e => decide (e.1 ≠ n))).take 8 }

/-- Record `i` of an amendment takes effect at tick n. -/
def State.amendRecord (s : State) (n : Nat) (r : ImageRecord) (i : Nat) : State :=
  match r.kind with
  | 0x02 => (regEntries r.body).foldl (fun s e => s.entryPut e) s
  | 0x03 => s.amendEpoch n (numAt r.body 0 6)
  | _ =>
    match maskBody r.body with
    | some m => (m.1.foldl (fun s l => s.newFace n l) s).putMask (fun s l => (s.leafOf l).faceAt n) (2 ^ 32 + 2 ^ 12 * n + i) m
    | none => s

/-- Some record of an amendment writes a display register. -/
def amendsDisplay (rs : List ImageRecord) : Bool :=
  rs.any (fun r => decide (r.kind = 0x02) && (regEntries r.body).any (fun e => decide (e.addr / 0x10000 = 0x0E)))

/-- Step 5 of R49 at tick n: a pending amendment whose tick has come. -/
def State.amendTick (s : State) (n : Nat) : State :=
  if s.amdDue n = false then s
  else
    let rs := s.deal.amdRecs
    let target := s.pair DEAL_COMMIT
    let s := rs.zipIdx.foldl (fun s r => s.amendRecord n r.1 r.2) s
    let s := if amendsDisplay rs then s.dispCommit else s
    let late := decide (target ≠ 0) && decide (target < n)
    let s := { s with deal := { s.deal with
      amdState := .idle, amdRecs := [], amdHeld := [],
      lateDeals := if late then n :: s.deal.lateDeals else s.deal.lateDeals } }
    let s := ((s.setFld DEAL_STAT_AMD_PENDING 0).setFld DEAL_STAT_AMD_DONE 1).setPair DEAL_AMD_APPLIED n
    let s := s.when late (fun s => (s.setFld DEAL_STAT_LATE 1).addSat DEAL_LATE_COUNT_COUNT 1)
    s.zoomRates.judgeOffered

/-! ### The tick (R46, R49) -/

/-- Comparators and pins whose settings changed at a tick suppress their edges at the start of the deal (R96, R315). -/
def State.settleInputs (s old : State) : State :=
  let moved := fun (f : List Field) => f.any (fun x => decide (s.fld x ≠ old.fld x))
  let cmp := (List.range 4).foldl (fun m i =>
    m ||| (if moved [CONVI_CMP_HI_EN i, CONVI_CMP_HI_SLOPE i, CONVI_CMP_HI_THRESH i] then 2 ^ (2 * i) else 0)
      ||| (if moved [CONVI_CMP_LO_EN i, CONVI_CMP_LO_SLOPE i, CONVI_CMP_LO_THRESH i] then 2 ^ (2 * i + 1) else 0)) 0
  let pins := (List.range 3).foldl (fun m x =>
    m ||| (if s.reg (TIME_PIN_CFG_EN x).addr ≠ old.reg (TIME_PIN_CFG_EN x).addr then 2 ^ x else 0)) 0
  { s with conv := { s.conv with settling := cmp }, time := { s.time with settling := pins } }

/-- The first tick (R468): READY and FIRST_DEAL; KITTY_HOLD follows R407 from now on. -/
def State.firstDeal (s : State) (ms : Nat) : State :=
  let s := { s with deal := { s.deal with running := true }, pins := { s.pins with ready := true } }
  let s := ((s.setFld HOST_STAT_READY 1).setFld SUP_STAT_FIRST_DEAL 1).setSup stRun
  let s := (s.setFld SUP_START_MS_MS ms).endStart
  let begins : Int := max s.now ((s.pair DEAL_NUM * s.dealLen : Nat) : Int)
  let s := (List.range 4).foldl (fun s q => s.setIft q { s.iftOf q with since := begins }) s
  let s := { s with test := { s.test with savedAt := begins } }
  (s.logEvent 0x0004 sevInfo ms).kitShow

/-- Step 1 of R49, with the regions that it clips. -/
def State.stripeTick (s : State) (n : Nat) : State :=
  let t := s.restripe
  if t.capacity = s.capacity then t else ((t.capClip n).clipSpill).dispClip

/-- The Dealers' coarse index at a tick is at least the deal's first. -/
def State.dealersAt (s : State) (n : Nat) : State :=
  let j : Int := ((n * s.dealLen : Nat) : Int)
  (List.range 4).foldl (fun s i =>
    let d := s.dealerOf i
    if d.j < j then s.setDealer i { d with j := j, sat := 0, ovr := 0 } else s) s

/-- The blocks act on the settings that the tick has put in force. -/
def State.blockTicks (s old : State) (n : Nat) : State :=
  let s := (s.settleInputs old).ethTick n
  let s := ((s.trigTick n).chanTick n).zoomTick n
  let s := s.capTick old n
  let s := { s with linkDegr := s.links, hand := { s.hand with cluDegr := s.hand.cluDegr ++ s.hand.cluNext, cluNext := [] } }
  let s := (s.restripeLater.renderTick n).kitPump.wakeSr
  (List.range 2).foldl (fun s p => s.showUp p) s

/-- The tick of deal n (R49): the six steps, then the blocks. -/
def State.tickSteps (s : State) (n : Nat) : State :=
  let old := s
  let s := ((s.stripeTick n).convTick.loadTick).timeTick n
  let s := s.afterWrites (s.writesAt n)
  let s := (s.amendTick n).prodTick n
  let s := ((s.dealersAt n).blockTicks old n).dealOnlyTasks n
  let d := s.deal
  { s with deal := { d with closed := false, due := d.later, later := [] } }.showStaged

/-- Ticks occur: the Dealers put out samples, and the sample clock runs (R38, R71). -/
def State.ticking (s : State) : Bool :=
  (decide (s.sup = 11) || decide (s.sup = 12)) && (s.dealerOf 0).on && !s.deal.stopped && !s.time.waitAlign

/-- A tick, `ms` ms after the release of reset (R37, R46, R468). -/
def State.tick (s : State) (ms : Nat) : State :=
  if s.ticking = false then s
  else
    let n := s.deal.next
    let first := !s.deal.running
    let s := s.closePoint
    let s := (s.setPair DEAL_NUM n).setFld DEAL_STAT_TICK 1
    let s := { s with deal := { s.deal with next := n + 1 } }
    let s := if first then s.firstDeal ms else s
    s.tickSteps n

/-- The sample that a Dealer puts out next carries the mark of the next tick: ticks are counted from the sample clock, and
the tick travels with the first coarse sample of its deal (R17). -/
def State.tickFalls (s : State) (i : Nat) : Bool :=
  let d := s.dealerOf i
  s.ticking && d.emits && decide (d.j = ((s.deal.next * s.dealLen : Nat) : Int))

/-- 400 raw samples of input i: the tick that falls at their coarse sample, the Dealer (R105), and the zoom chains of the
input (R254). How long the start took is not known from the samples: the first tick's SUP_START_MS is a free value. -/
def State.rawHop (s : State) (i : Nat) (xs : List Int) : State :=
  if xs.length ≠ 400 ∨ s.deal.stopped = true ∨ s.time.grid = false then s
  else
    let s := if s.tickFalls i then s.fresh.2.tick (s.fresh.1.toNat % 2 ^ 32) else s
    let t := (s.hop i xs).releaseOuts
    if s.deal.running && (s.dealerOf i).emits then t.zoomHop i (400 * (s.dealerOf i).j) (xs.map clipCode) else t

/-! ### Meanings -/

/-- DEALER_HOP (R105). -/
def execDealerHop (i : Fin 4) (xs : List Int) (s : State) : Host.Outcome State Fault Refusal := done (s.rawHop i xs)

/-- CLOSE_POINT (R47). -/
def execClosePoint (s : State) : Host.Outcome State Fault Refusal := done s.closePoint

/-- DEAL_TICK (R46). -/
def execDealTick (ms : Nat) (s : State) : Host.Outcome State Fault Refusal := done (s.tick ms)

/-- STAGE_GATE_WRITE (R48). -/
def execStageGateWrite (gate : Bool) (s : State) : Host.Outcome State Fault Refusal := done (s.gateWrite gate)

/-- STAGE_RELEASE (R48). -/
def execStageRelease (s : State) : Host.Outcome State Fault Refusal := done s.releaseHeld

end Sys2Proof.Machine
end

