-- ==== Sys2Proof/Machine/Amend.lean ====
section
/-! DEFINITION. Amendments (R52 to R58, R479, R481): submission, the checks of R55 in their order, and cancellation. -/

namespace Sys2Proof.Machine

/-- What a byte of the amendment buffer reads as that nothing has written. DESIGN CHOICE (unsafe): the spec gives the buffer no
content at reset; it reads 0. -/
def amdDefault (_ : Nat) : Byte := 0

/-- The bytes of the amendment buffer from an offset on. -/
def State.amdBytes (s : State) (o n : Nat) : List Byte := sparseRead amdDefault s.deal.amdBuf o n

/-- A refusal of an amendment: its code, and the record it names (0xFFFF = none). -/
structure AmdRefusal where
  code : Nat
  rec' : Nat
  deriving DecidableEq, Repr

/-- A refusal that names no record. -/
def amdCode (code : Nat) : AmdRefusal := { code := code, rec' := 0xFFFF }

/-- The first refusal whose condition holds. -/
def firstCode : List (Bool × AmdRefusal) → Option AmdRefusal
  | [] => none
  | (b, r) :: t => if b then some r else firstCode t

/-! ### Items 1 to 5 (R52, R54, R55) -/

/-- The tag of an amendment matches under a secret that is programmed, not zeroised and not all zero (R54). -/
def State.tagGood (s : State) (bs : List Byte) : Bool :=
  let f := s.boot.fuses
  let n := bs.length - 32
  f.keySet && !f.keyZero && decide (lcState f.lc < 3) && decide (f.secret ≠ 0) &&
  decide (hmac256 s.secretBytes (bs.take n) = bs.drop n)

/-- Header, record chain, check words, tag, nonce and sequence: the records in order. -/
def State.amdFrame (s : State) : Except AmdRefusal (List ImageRecord) :=
  let head := s.amdBytes 0 32
  let len := numAt head 8 4
  let count := numAt head 0xC 2
  let tagged := bitOf (numAt head 6 2) 0
  let stop := len - (if tagged then 32 else 0)
  match firstCode
      [ (decide (numAt head 0 4 ≠ 0x4B52414D), amdCode 0x01),
        (decide (numAt head 4 2 ≠ 1), amdCode 0x02),
        (decide (len % 4 ≠ 0) || decide (len < 36) || decide (16384 < len) || decide (1024 < count) || decide (stop < 32) ||
          decide (numAt head 6 2 / 2 ≠ 0) || !zeroAt head 0xE 2, amdCode 0x03) ] with
  | some r => .error r
  | none =>
    let bs := s.amdBytes 0 len
    match parseRecords count 0 ((bs.take stop).drop 32) with
    | .error _ => .error (amdCode 0x03)
    | .ok rs =>
      match rs.findIdx? (fun (r : ImageRecord × Bool) => !r.2) with
      | some i => .error { code := 0x04, rec' := i }
      | none =>
        match firstCode
            [ (!tagged && s.flag DEAL_CFG_AMD_AUTH_REQ, amdCode 0x05),
              (tagged && !s.tagGood bs, amdCode 0x06),
              (decide (numAt head 0x18 8 ≠ s.pair DEAL_AMD_NONCE), amdCode 0x07),
              (decide (numAt head 0x10 8 ≤ s.pair DEAL_AMD_SEQ), amdCode 0x08) ] with
        | some r => .error r
        | none => .ok (rs.map (fun (r : ImageRecord × Bool) => r.1))

/-! ### Items 6 and 7: kinds and values (R53, R479, R481, R552) -/

/-- The bits of a register that an amendment may select (R481). -/
def amdMask (a : Nat) : Nat :=
  match regAt a with
  | none => 0
  | some (r, inst) =>
    let st := accessMask .st r.fields
    let rw' := accessMask .rw r.fields
    match a / 0x10000 with
    | 3 => if r.base = (TIME_PIN_CFG_EN 0).addr ∧ inst ≠ [0] then st else 0
    | 4 => st
    | 6 => if r.base = (ZCN_PWR_EN 0).addr then rw' else st
    | 7 => st
    | 8 => if (CAPU_CTL 0).addr ≤ a then st ||| rw' else 0
    | 10 => st
    | 14 => rw'
    | _ => 0

/-- An entry selects a locked field: judged with the values (R481). -/
def RegEntry.picksLocked (e : RegEntry) : Bool :=
  match regAt e.addr with
  | some (r, _) => decide (e.mask &&& accessMask .lk r.fields ≠ 0)
  | none => false

/-- A record's kind, version and fields are permitted (item 6). -/
def ImageRecord.kindAllowed (r : ImageRecord) : Bool :=
  (decide (r.kind = 0x02) || decide (r.kind = 0x03) || decide (r.kind = 0x51)) && decide (r.version = 1) &&
  (decide (r.kind ≠ 0x02) || (regEntries r.body).all (fun e => e.picksLocked || decide (e.mask &&& amdMask e.addr = e.mask)))

/-- An EPOCH payload: one TAI second below 2^48 (R482). -/
def epochBody (b : List Byte) : Bool := decide (b.length = 8) && decide (numAt b 0 8 < 2 ^ 48)

/-- A record's own values are permitted, in the configuration as the records before it leave it (item 7). -/
def State.recordGood (s : State) (r : ImageRecord) : Bool :=
  r.headGood && decide (r.target = 0) &&
  match r.kind with
  | 0x02 => decide (r.body.length % 12 = 0) && (regEntries r.body).all (fun e => !e.picksLocked && s.entryGood e)
  | 0x03 => epochBody r.body
  | _ => match maskBody r.body with
    | some m => s.maskFits m
    | none => false

/-- The configuration that a record's entries leave. -/
def State.afterRecord (s : State) (r : ImageRecord) : State :=
  if r.kind = 0x02 then (regEntries r.body).foldl (fun t e => t.entryPut e) s else s

/-- The records in order: the resulting configuration, or the first record whose values are not permitted. -/
def State.afterRecords (s : State) (epoch : Bool) : List (ImageRecord × Nat) → Except AmdRefusal State
  | [] => .ok s
  | (r, i) :: t =>
    if !s.recordGood r || (epoch && decide (r.kind = 0x03)) then .error { code := 0x0A, rec' := i }
    else (s.afterRecord r).afterRecords (epoch || decide (r.kind = 0x03)) t

/-- The last record with an entry whose address a test selects. -/
def lastTouch (rs : List (ImageRecord × Nat)) (sel : Nat → Bool) : Option Nat :=
  ((rs.filter (fun r => decide (r.1.kind = 0x02) && (regEntries r.1.body).any (fun e => sel e.addr))).getLast?).map (fun r => r.2)

/-- An address lies in the span of `n` bytes from a base. -/
def inSpan (base n a : Nat) : Bool := decide (base ≤ a) && decide (a < base + n)

/-- A stream that the resulting configuration `t` may not have: enabled on a disabled port (R382), or VDIF that breaks R395. -/
def State.streamRefused (t : State) (p st : Nat) : Bool :=
  (t.flag (ETH_S_CFG_EN p st) && !t.flag (ETHP_CFG_EN p)) || t.vdifRefused p st

/-- The registers on which a stream's legality rests: its own, and its chain's. -/
def State.streamSpan (t : State) (p st a : Nat) : Bool :=
  inSpan (ETH_S_CFG_EN p st).addr 0x40 a ||
  (decide (t.fld (ETH_S_CFG_KIND p st) = kindZoom) && inSpan (ZCN_CTL_EN (t.fld (ETH_S_SRC_SEL p st))).addr 0x800 a)

/-- Settings of the resulting configuration `t` that no single field shows to be wrong: TIMEOUT, the zoom FIR limits and declared delays, the
stream rules, and arms that would be refused (R264, R287, R294, R382, R395). The record named is the last that contributes. -/
def State.resultRefusal (s t : State) (rs : List (ImageRecord × Nat)) : Option AmdRefusal :=
  let bad := fun (b : Bool) (sel : Nat → Bool) => if b then lastTouch rs sel else none
  let slots := (List.range 8).map (fun n => bad (timeoutShort t.reg n) (inSpan (TRGS_CFG_EN n).addr 0x30))
  let zoom : Option Nat := match zoomRefuse t.reg t.nsps with
    | some (c, k) => bad (decide (c ≠ 2)) (inSpan (ZCN_CTL_EN k).addr 0x800)
    | none => none
  let streams := allStreams.map (fun x => bad (t.streamRefused x.1 x.2) (t.streamSpan x.1 x.2))
  let arms := (List.range 8).map (fun u =>
    bad (t.flag (CAPU_CTL_ARM u) && decide (s.fld (CAPU_STAT_STATE u) = capIdle) && (armRefusal t.reg (s.pair (CAPU_SIZE u)) u).isSome)
      (inSpan (CAPU_CTL u).addr 0x100))
  let delays := (List.range 16).map (fun k => bad (zoomDelayOut t.reg k) (inSpan (ZCN_CTL_EN k).addr 0x800))
  ((slots ++ delays ++ [zoom] ++ streams ++ arms).find? (fun x => x.isSome)).join.map (fun i => { code := 0x0A, rec' := i })

/-- Item 8: the zoom aggregate (R264) and the rate of a link (R399). -/
def State.amdBudget (t : State) (rs : List (ImageRecord × Nat)) : Option Bool :=
  let zoom := match zoomRefuse t.reg t.nsps with
    | some (c, _) => decide (c = 2) && (lastTouch rs (fun a => decide (a / 0x10000 = 6))).isSome
    | none => false
  if zoom then some true
  else if (overRate t.reg).isSome && (lastTouch rs (fun a => decide (a / 0x10000 = 10))).isSome then some false
  else none

/-- The configuration on which the amendment would act: what is staged for its tick, and the held set it took (R48). -/
def State.amdBase (s : State) : State :=
  let later := if s.deal.next < s.amdTick then s.deal.later else []
  s.afterWrites (mergeWrites (s.deal.due ++ later) s.deal.amdHeld)

/-- All the checks of R55: the records, or the refusal, and whether the zoom aggregate failed. -/
def State.checkAmendment (s : State) : Except (AmdRefusal × Bool) (List ImageRecord) :=
  match s.amdFrame with
  | .error r => .error (r, false)
  | .ok records =>
    let rs := records.zipIdx
    match rs.find? (fun (r : ImageRecord × Nat) => !r.1.kindAllowed) with
    | some r => .error ({ code := 0x09, rec' := r.2 }, false)
    | none =>
      match s.amdBase.afterRecords false rs with
      | .error r => .error (r, false)
      | .ok t =>
        match s.resultRefusal t rs with
        | some r => .error (r, false)
        | none =>
          match t.amdBudget rs with
          | some zoom => .error (amdCode 0x0B, zoom)
          | none => .ok records

/-! ### The states (R48, R56) -/

/-- DEAL_COMMIT_HI is written (R56): IDLE goes to CHECK and the held set goes along; otherwise the write is ignored. Under WDOG
only the DEAL_COMMIT registers change (R466). -/
def State.amdSubmit (s : State) (hi : Word) : State :=
  let lo := sparseGet (fun _ => (0 : Word)) s.holdLo DEAL_COMMIT.addr
  let t := s.setPair DEAL_COMMIT (lo.toNat + 2 ^ 32 * hi.toNat)
  if s.flag SUP_STAT_WDOG then t
  else if s.deal.amdState ≠ .idle then s.ignored (DEAL_COMMIT.addr + 4)
  else
    let d := s.deal
    let d : DealState := { d with
      amdState := .check, amdCancel := false, amdHeld := d.held, held := [], amdEarly := d.next + b2n d.closed }
    { t with deal := d }.setFld DEAL_STAT_AMD_BUSY 1 |>.showStaged

/-- The amendment ends refused or cancelled: its set returns, ahead of newer held writes (R48, R55, R56). -/
def State.amdRefuse (s : State) (r : AmdRefusal) : State :=
  let d := s.deal
  let d : DealState := { d with amdState := .idle, amdCancel := false, amdRecs := [], held := d.amdHeld ++ d.held, amdHeld := [] }
  let s := (({ s with deal := d }.setFld DEAL_STAT_AMD_BUSY 0).setFld DEAL_STAT_AMD_PENDING 0).setFld DEAL_STAT_AMD_REFUSED 1
  let s := (s.setFld DEAL_CTL_AMD_CANCEL 0).setReg DEAL_AMD_STAT_CODE.addr (BitVec.ofNat 32 (r.rec' <<< 16 + r.code))
  s.showStaged

/-- The supervisor has finished the checks (R55, R56). -/
def State.amdChecked (s : State) : State :=
  if s.deal.amdState ≠ .check ∨ s.flag SUP_STAT_WDOG = true then s
  else
    let res := s.checkAmendment
    let zoom : Bool := match res with
      | .error (_, z) => z
      | .ok _ => false
    let s := s.setReg DEAL_BUDGET_ENG_FAIL.addr (if zoom then BitVec.ofNat 32 (2 ^ 31 + 4 * 2 ^ 28) else 0)
    match res with
    | .error (r, _) => s.amdRefuse r
    | .ok recs =>
      if s.deal.amdCancel then s.amdRefuse (amdCode 0x0C)
      else
        let s := { s with deal := { s.deal with amdState := .pending, amdRecs := recs } }
        let s := (s.setFld DEAL_STAT_AMD_BUSY 0).setFld DEAL_STAT_AMD_PENDING 1
        let s := s.setPair DEAL_AMD_SEQ (leNat (s.amdBytes 0x10 8))
        if s.deal.closed && s.amdDue s.deal.next then s.judgeDue.showStaged else s

/-- AMD_CANCEL is written (R56). -/
def State.amdCancelWrite (s : State) : State :=
  if s.flag SUP_STAT_WDOG then s
  else
    match s.deal.amdState with
    | .idle => s.ignored DEAL_CTL_AMD_CANCEL.addr
    | .check => { s with deal := { s.deal with amdCancel := true } }.setFld DEAL_CTL_AMD_CANCEL 1
    | .pending => if s.amdTick ≤ s.deal.next ∧ s.deal.closed = true then s else s.amdRefuse (amdCode 0x0C)

/-! ### Meanings -/

/-- AMENDMENT_SUBMIT (R56). -/
def execAmendmentSubmit (hi : Word) (s : State) : Host.Outcome State Fault Refusal := done (s.amdSubmit hi)

/-- AMENDMENT_CHECKED (R55). -/
def execAmendmentChecked (s : State) : Host.Outcome State Fault Refusal := done s.amdChecked

/-- AMD_CANCEL (R56). -/
def execAmdCancel (s : State) : Host.Outcome State Fault Refusal := done s.amdCancelWrite

end Sys2Proof.Machine
end

