-- ==== Sys2Proof/Machine/Shown.lean ====
section
/-! DEFINITION. What the device's addresses read as: registers whose value is computed at the read, and the memory regions of
R28. Nothing here changes the state. -/

namespace Sys2Proof.Machine

/-! ### Registers computed at the read -/

/-- A 32-bit word from a number, modulo 2^32. -/
def word (n : Nat) : Word := BitVec.ofNat 32 n

/-- DEAL_TO_TICK: coarse samples left before the next tick (R64); 0 while no tick is to come. -/
def State.toTick (s : State) : Word :=
  if s.ticking then word ((((s.deal.next * s.dealLen : Nat) : Int) - s.now).toNat % 2 ^ 25) else 0

/-- The timestamp at the read (R328): SEC, IDX, FRAC; nothing before the sample grid exists. -/
def State.stampNow (s : State) : Int × Nat × Nat :=
  if s.time.grid then s.epoch.stamp s.nsps (65536 * s.rawNow) else (0, 0, 0)

/-- TIME_NOW_LO, _HI, TIME_NOW_SEC_LO and _HI, by number. -/
def State.timeNow (s : State) (i : Nat) : Word :=
  let (sec, idx, frac) := s.stampNow
  let sec48 := ofSigned 48 sec
  match i with
  | 0 => word (idx % 65536 * 65536 + frac)
  | 1 => word (idx / 65536)
  | 2 => word sec48
  | _ => word (b2n s.epoch.isSet * 2 ^ 31 + b2n (s.refLostDeal (s.pair DEAL_NUM)) * 2 ^ 30 + sec48 / 2 ^ 32)

/-- HAND_TREE_INFO (R214). -/
def State.treeInfo (s : State) : Word :=
  let nodes := List.range s.nodeCount
  let depth := (nodes.map (fun i => (s.chain 2048 i).length)).foldl max 0
  let leaves := nodes.countP (fun i => match s.node? i with
    | some n => decide (n.kind = 0)
    | none => false)
  word (min 15 depth * 2 ^ 28 + leaves * 2 ^ 12 + s.nodeCount)

/-- HAND_NODE for node i (R214). -/
def State.nodeInfo (s : State) (i : Nat) : Word :=
  match s.node? i with
  | none => 0
  | some n =>
    let ls := s.leavesOf i
    let spans := ls.any (fun l => decide (quadrantOf l ≠ quadrantOf (ls.headD 0)))
    let progs := (s.programsOf (s.leaderOf 2049 i)).length
    word (n.kind * 2 ^ 30 + b2n spans * 2 ^ 29 + (s.members i).length * 2 ^ 24 + (progs - 1) * 2 ^ 21 + n.parent * 2 ^ 10 +
      s.leaderOf 2049 i)

/-- CS_PROG_INFO, _F, _P, _RECOUNT_F and _RECOUNT_P of a program number (R186), by number. -/
def State.progInfo (s : State) (g i : Nat) : Word :=
  match s.programNo g with
  | none => 0
  | some p =>
    match i with
    | 0 => word (2 ^ 31 + b2n p.customer * 2 ^ 30 + p.dealEntry * 2 ^ 14 + p.frameEntry)
    | 1 => word p.f
    | 2 => word p.p
    | 3 => word (s.recountFor p).1
    | _ => word (s.recountFor p).2

/-- POT_PROD_INFO and POT_PROD_BYTES of a product number (R251). -/
def State.prodInfo (s : State) (n i : Nat) : Word :=
  match s.productNo n with
  | none => 0
  | some x =>
    if i = 0 then
      word (2 ^ 31 + b2n x.classW * 2 ^ 30 + x.kind * 2 ^ 26 + b2n x.stream * 2 ^ 25 + b2n x.ring * 2 ^ 24 + b2n x.render * 2 ^ 23 +
        b2n x.merge * 2 ^ 22 + x.prog * 2 ^ 16 + x.loc * 2 ^ 8)
    else word (ceilDiv (s.prodBytes x) 64)

/-- TEST_LB_RESULT of a partition (R507): a partition that no failure names passed, once boot BIST has run. -/
def State.lbResult (s : State) (i : Nat) : Word :=
  if !s.test.bistRun || decide (4480 ≤ i) then 0
  else
    let (r, f) := instGet (1, false) s.test.lbist i
    word (r * 2 ^ 30 + b2n f * 2 ^ 29)

/-- TEST_LB_SIG and TEST_LB_EXP, as 64-bit numbers: 0 in DEPLOYED (R491, R507). -/
def State.lbSignature (s : State) (i : Nat) (vendor : Bool) : Nat :=
  if !s.fullReports || !s.test.bistRun || decide (4480 ≤ i) then 0
  else
    let r := (instGet (1, false) s.test.lbist i).1
    if vendor || decide (r = 1) then (Config.lbistExpected i).toNat
    else if r = 2 then (instGet 0 s.test.lbSig i).toNat
    else 0

/-- A half of a 64-bit number. -/
def half64 (x : Nat) (high : Bool) : Word := word (if high then x / 2 ^ 32 else x)

/-- Registers of the engines that are computed (R160): IN_WR, and the cycles of the last completed deal. -/
def State.shownEng (s : State) (p o : Nat) : Option Word :=
  match o with
  | 0x18 => some (half64 (s.inWr p) false)
  | 0x1C => some (half64 (s.inWr p) true)
  | 0x30 => some (s.engCycles p).1
  | 0x34 => some (s.engCycles p).2
  | _ => none

/-- Registers of the TEST block that are computed (R522). -/
def State.shownTest (s : State) (a : Nat) : Option Word :=
  let e := s.test.report.getD (s.fld TEST_MB_IDX_IDX) []
  let i := s.fld TEST_LB_IDX_IDX
  let at' := fun (b : Nat) => decide (a = b)
  if (TEST_MB_ENTRY_DATA 0).addr ≤ a ∧ a < (TEST_MB_ENTRY_DATA 0).addr + 16 then
    some (word (numAt e (a - (TEST_MB_ENTRY_DATA 0).addr) 4))
  else if at' TEST_LB_RESULT_RESULT.addr then some (s.lbResult i)
  else if at' TEST_LB_SIG.addr then some (half64 (s.lbSignature i false) false)
  else if at' (TEST_LB_SIG.addr + 4) then some (half64 (s.lbSignature i false) true)
  else if at' TEST_LB_EXP.addr then some (half64 (s.lbSignature i true) false)
  else if at' (TEST_LB_EXP.addr + 4) then some (half64 (s.lbSignature i true) true)
  else if at' TEST_CS_DATA_DATA.addr then some (word (leNat (s.csRead (s.fld TEST_CS_ADDR_ADDR / 4 * 4) 4)))
  else none

/-- Registers of the HAND block, with the CS registers, that are computed (R186, R214). -/
def State.shownHand (s : State) (a : Nat) : Option Word :=
  let i := s.fld HAND_NODE_IDX_IDX
  let g := s.fld CS_PROG_IDX_IDX
  if a = HAND_TREE_INFO_DEPTH.addr then some s.treeInfo
  else if a = HAND_NODE_KIND.addr then some (s.nodeInfo i)
  else if a = HAND_NODE_MARGIN_NS.addr then some (if i < s.nodeCount then word (s.nodeMargin i) else 0)
  else if CS_PROG_INFO_VALID.addr ≤ a ∧ a ≤ CS_PROG_RECOUNT_P_P.addr then some (s.progInfo g ((a - CS_PROG_INFO_VALID.addr) / 4))
  else none

/-- Registers of the POT block that are computed (R251). -/
def State.shownPot (s : State) (a : Nat) : Option Word :=
  let i := s.fld POT_PROD_IDX_IDX
  if a = POT_PROD_INFO_VALID.addr then some (s.prodInfo i 0)
  else if a = POT_PROD_BYTES_BYTES64.addr then some (s.prodInfo i 1)
  else if (POT_Q_VOLUME_KIB 0).addr ≤ a ∧ a ≤ (POT_Q_VOLUME_KIB 3).addr ∧ (a - (POT_Q_VOLUME_KIB 0).addr) % 4 = 0 then
    some (word (ceilDiv (s.quadVolume ((a - (POT_Q_VOLUME_KIB 0).addr) / 4)) 1024))
  else none

/-- A slot's status shows hold-off as it stands (R305). -/
def State.shownSlot (s : State) (a : Nat) : Option Word :=
  ((List.range 8).find? (fun n => decide (a = (TRGS_STAT_HOLDING n).addr))).map (fun n =>
    (s.setFld (TRGS_STAT_HOLDING n) (b2n (s.holding n))).reg a)

/-- A register whose value is computed at the read. -/
def State.computed (s : State) (a : Nat) : Option Word :=
  match a / 0x10000 with
  | 0x01 => if a = DEAL_TO_TICK_COUNT.addr then some s.toTick else none
  | 0x03 => if TIME_NOW.addr ≤ a ∧ a < TIME_NOW.addr + 16 then some (s.timeNow ((a - TIME_NOW.addr) / 4)) else none
  | 0x05 => ((List.range 4).find? (fun i => decide (a = (CBKI_COEF_DATA_COEF i).addr))).map (fun i =>
      BitVec.ofInt 32 ((s.dealerOf i).coefAt (s.fld (CBKI_COEF_IDX_IDX i))))
  | 0x07 => s.shownSlot a
  | 0x09 => ((List.range 16).find? (fun i => decide (a = (MEMCS_PD i).addr))).map s.shownResidency
  | 0x0F => s.shownTest a
  | 0x10 => s.shownPot a
  | 0x11 => s.shownHand a
  | _ => if 0x1000000 ≤ a then s.shownEng ((a - 0x1000000) / 0x2000) (a % 0x2000) else none

/-- A register's value as a read shows it: the value in effect, write-only bits 0 (R9). -/
def State.shown (s : State) (r : RegSpec) (a : Nat) : Word :=
  ((s.computed a).getD (s.reg a)) &&& ~~~(word (accessMask .wo r.fields))

/-! ### The memory regions of R28 -/

/-- The regions of the device address space. -/
inductive Region where
  | register
  | log
  | amendment
  | engine
  | control
  | mirror
  | replay
  | overlay'
  | sdram
  | reserved
  deriving DecidableEq, Repr

/-- The region of an address (R28). -/
def regionAt (a : Nat) : Region :=
  if a < 0x130000 then .register
  else if within 0xF00000 0x1000 a then .log
  else if within 0xF10000 0x4000 a then .amendment
  else if within 0x1000000 0x880000 a then .register
  else if within 0x100000000 0x22000000 a then .engine
  else if within 0x200000000 0x2000000 a then .control
  else if within 0x210000000 0x4000000 a then .mirror
  else if within 0x220000000 0x8000000 a then .replay
  else if within 0x300000000 0x100000 a then .overlay'
  else if within sdramBase 0x10000000000 a then .sdram
  else .reserved

/-- Whether the host and DMA may write a region. -/
def Region.writable : Region → Bool
  | .amendment => true
  | .overlay' => true
  | .sdram => true
  | .register => true
  | _ => false

/-- The regions with their first address and size, for a transfer that must lie within one (R427). -/
def regionSpans : List (Nat × Nat × Region) :=
  [ (0, 0x130000, .register), (0xF00000, 0x1000, .log), (0xF10000, 0x4000, .amendment), (0x1000000, 0x880000, .register),
    (0x100000000, 0x22000000, .engine), (0x200000000, 0x2000000, .control), (0x210000000, 0x4000000, .mirror),
    (0x220000000, 0x8000000, .replay), (0x300000000, 0x100000, .overlay'), (sdramBase, 0x10000000000, .sdram) ]

/-- An event log entry in its 16 bytes (R210). -/
def LogEntry.bytes (e : LogEntry) : List Byte :=
  leBytes 4 e.seq ++ leBytes 2 e.code ++ leBytes 1 e.sev ++ leBytes 1 e.merged ++ leBytes 4 e.deal ++ leBytes 4 e.arg

/-- A byte of the engines' local memory (R28, R31, R129): committed values of the accumulator store. -/
def State.engByte (s : State) (o : Nat) : Byte :=
  let p := o / 0x80000
  let a := o % 0x80000
  let e := s.engOf p
  if a < 0x20000 then
    let w := if s.flag (ENG_ID_ACTIVE p) then s.ringWord (s.logicalOf p) (a / 4) else (Config.idleRing p (a / 4)).toNat
    BitVec.ofNat 8 (w >>> (8 * (a % 4)))
  else if a < 0x60000 then sparseGet (fun _ => (0 : Byte)) e.cur.sram a
  else if a < 0x70000 then BitVec.ofNat 8 ((instGet 0 e.acc ((a - 0x60000) / 8)) >>> (8 * (a % 8)))
  else 0

/-- A byte of a memory region (R28). -/
def State.memByte (s : State) (a : Nat) : Byte :=
  match regionAt a with
  | .log =>
    let o := a - 0xF00000
    match s.hand.log[o / 16]? with
    | some e => e.bytes.getD (o % 16) 0
    | none => 0
  | .amendment => sparseGet amdDefault s.deal.amdBuf (a - 0xF10000)
  | .engine => s.engByte (a - 0x100000000)
  | .control =>
    let o := a - 0x200000000
    BitVec.ofNat 8 ((s.storeWord (o / 0x80000) (o % 0x80000 / 32)) >>> (8 * (o % 32)))
  | .mirror =>
    let o := a - 0x210000000
    BitVec.ofNat 8 ((instGet 0 s.hand.mirror (o / 8)) >>> (8 * (o % 8)))
  | .replay =>
    let o := a - 0x220000000
    BitVec.ofNat 8 ((s.ringWord (o / 0x20000) (o % 0x20000 / 4)) >>> (8 * (o % 4)))
  | .overlay' => sparseGet (fun _ => (0 : Byte)) s.disp.overlay (a - 0x300000000)
  | .sdram => if s.sdDumb (a - sdramBase) then 0 else s.sdByte (a - sdramBase)
  | _ => 0

/-- An address that reads as 0 and takes no write (R33): reserved, beyond installed capacity, or the part of an engine's
local memory that R129 reserves. -/
def State.absent (s : State) (a : Nat) : Bool :=
  match regionAt a with
  | .reserved => true
  | .sdram => decide (s.capacity ≤ a - sdramBase)
  | .engine => decide (0x70000 ≤ (a - 0x100000000) % 0x80000)
  | _ => false

end Sys2Proof.Machine
end

