-- ==== Sys2Proof/Machine/Test.lean ====
section
/-! DEFINITION. In-field tests (R508 to R512): turns, skips, the stand-in by the cluster's joker, results and handback. -/

namespace Sys2Proof.Machine

/-- Completed visits of every engine of every quadrant (R522): the fewest rounds of any quadrant. -/
def State.showRounds (s : State) : State :=
  let r := fun (q : Nat) => (s.iftOf q).visits / 272
  s.setFld TEST_IFT_STAT_ROUNDS (min 0xFFFF (min (min (r 0) (r 1)) (min (r 2) (r 3))))

/-- A test begins: a serving engine's work goes to its joker at a frame boundary (R509 steps 1 and 2); a joker, or an
engine that serves nothing, is tested where it stands. -/
def State.startIft (s : State) (q p : Nat) : State :=
  let c := clusterOf p
  let j := jokerOf c
  let s := (s.setIft q { s.iftOf q with run := some p, ended := false }).putBit TEST_IFT_STAT_ACTIVE q true
  if p = j ∨ s.flag (ENG_ID_ACTIVE p) = false then s.setFld (ENG_STAT_STATE p) esTest
  else
    let l := s.logicalOf p
    let s := (s.preempt p).setPair (ENG_IN_WR p) (s.inWr p)
    let s := s.takeUp { logical := l, failed := p, taker := j, cause := 0 }
    let s := (s.setFld (ENG_STAT_STATE p) esTest).setFld (ENG_ID_ACTIVE p) 0
    let s := (s.setFld (HAND_CLU_JSTATE c) 1).setFld (HAND_CLU_JFOR c) (p % 17)
    let s := { s with hand := { s.hand with standin := s.hand.standin ++ [(p, j)] } }.setFld HAND_STAT_STANDIN 1
    if (s.engOf j).task.isSome then s.fetch j .clean else s

/-- Whether the hand of the leaf that an engine serves has too small a margin for a stand-in (R508). -/
def State.marginLow (s : State) (p : Nat) : Bool :=
  s.flag (ENG_ID_ACTIVE p) && !s.flag TEST_IFT_CFG_FORCE_LOW && (s.leafNode? (s.logicalOf p)).isSome &&
    decide (s.leafMargin (s.logicalOf p) < s.hidingBound)

/-- An engine's turn comes (R508): it passes, is skipped and counted, or its test begins. -/
def State.turn (s : State) (q p : Nat) : State :=
  if s.engState p = esRetired then s
  else if 2 ≤ s.fld (HAND_CLU_JSTATE (clusterOf p)) then (s.addSat TEST_IFT_SKIPS_JOKER 1).setFld TEST_STAT_IFT_SKIP 1
  else if s.marginLow p then (s.addSat TEST_IFT_SKIPS_MARGIN 1).setFld TEST_STAT_IFT_SKIP 1
  else s.startIft q p

/-- The next engine of a quadrant's order takes its turn (R508). -/
def State.nextTurn (s : State) (q : Nat) : State :=
  let x := s.iftOf q
  let s := s.setIft q { x with next := (x.next + 1) % 272, visits := x.visits + 1 }
  s.showRounds.turn q (272 * q + x.next)

/-- Engines asked for stand at the head of the order (R512). -/
def State.takeAsked (s : State) (q : Nat) : List Nat → State
  | [] => s.setIft q { s.iftOf q with asked := [] }
  | p :: t =>
    if (s.iftOf q).run.isSome then s.setIft q { s.iftOf q with asked := p :: t }
    else State.takeAsked (s.turn q p) q t

/-- With no test running, engines asked for are tested, and then the turns that waited (R511, R512). -/
def State.iftNext (s : State) (q : Nat) : State :=
  let s := s.takeAsked q (s.iftOf q).asked
  let x := s.iftOf q
  (List.range x.waiting).foldl (fun s _ =>
    if (s.iftOf q).run.isSome then s
    else (s.setIft q { s.iftOf q with waiting := (s.iftOf q).waiting - 1 }).nextTurn q) s

/-- Tests go on while deals do and the supervisor works. -/
def State.testsOn (s : State) : Bool := s.deal.running && !s.flag SUP_STAT_WDOG

/-- The coarse samples between two tests of a quadrant: HOURS × 3,600 s / 272 (R508). -/
def State.iftPeriod (s : State) : Int := (3600 * s.fld TEST_IFT_CFG_HOURS * s.nsps : Nat) / (400 * 272)

/-- A test falls due in a quadrant, one interval after the first tick or after the last one (R508): it waits for a running one
(R511). -/
def State.iftDue (s : State) (q : Nat) : State :=
  let x := s.iftOf q
  let due := x.since + s.iftPeriod
  if !s.testsOn || !s.flag TEST_IFT_CFG_EN || decide (s.now < due) then s
  else
    let since := if s.now < due + s.iftPeriod then due else s.now
    (s.setIft q { x with waiting := x.waiting + 1, since := since }).iftNext q

/-- TEST_IFT_CTL is written with RUN = 1 (R512). -/
def State.iftRun (s : State) (p : Nat) : State :=
  let q := p / 272
  if 1088 ≤ p then s.ignored TEST_IFT_CTL.addr
  else if p ∈ (s.iftOf q).asked ∨ (s.iftOf q).run = some p then (s.setFld TEST_IFT_CTL_PHYS p).ignored TEST_IFT_CTL.addr
  else
    let s := s.setFld TEST_IFT_CTL_PHYS p
    let s := s.setIft q { s.iftOf q with asked := (s.iftOf q).asked ++ [p] }
    if s.testsOn then s.iftNext q else s

/-- The quadrant is free for its next test. -/
def State.iftOver (s : State) (q : Nat) : State :=
  ((s.setIft q { s.iftOf q with run := none, ended := false }).putBit TEST_IFT_STAT_ACTIVE q false).iftNext q

/-- The four partitions' results of a tested engine (R507). -/
def State.putLbist (s : State) (p : Nat) (lb : List (Fin 4 × BitVec 64)) : State :=
  (List.range 4).foldl (fun s k =>
    let bad := lb.find? (fun x => decide (x.1.val = k))
    let i := 4 * p + k
    { s with test := { s.test with
        lbist := instSet (1, false) s.test.lbist i (if bad.isSome then 2 else 1, true)
        lbSig := instSet 0 s.test.lbSig i ((bad.map (fun (x : Fin 4 × BitVec 64) => x.2)).getD 0) } }) s

/-- A failed engine retires (R510): a joker that stands in keeps the work. -/
def State.iftRetire (s : State) (p : Nat) : State :=
  let c := clusterOf p
  let stood := s.hand.standin.any (fun x => decide (x.1 = p))
  let s := ((s.setFld (ENG_STAT_STATE p) esRetired).setFld (ENG_ID_ACTIVE p) 0).addSat (HAND_CLU_RETIRED c) 1
  if stood then
    let s := { s with hand := { s.hand with standin := s.hand.standin.filter (fun x => decide (x.1 ≠ p)) } }
    let s := (s.setFld HAND_STAT_STANDIN (b2n !s.hand.standin.isEmpty)).setFld (HAND_CLU_JSTATE c) 2
    s.setFld HAND_SUB_COUNT_IN_USE (s.fld HAND_SUB_COUNT_IN_USE + 1)
  else if p = jokerOf c then s.setFld (HAND_CLU_JSTATE c) 3
  else s

/-- The test of a quadrant ends, with the partitions' signatures, where one not listed has the vendor's, and the march's entries
(R500, R510). -/
def State.iftTestEnd (s : State) (q : Nat) (lb : List (Fin 4 × BitVec 64)) (mb : List MbEntry) : State :=
  let x := s.iftOf q
  match x.run with
  | none => s
  | some p =>
    if x.ended then s
    else
      let lb := lb.filter (fun y => decide (y.2 ≠ Config.lbistExpected (4 * p + y.1.val)))
      let used := s.repairMap ++ s.test.repairs
      let mb := mb.filter (fun e => decide (e.unit.toNat = p))
      let s := (mb.foldl (fun s e => s.takeEntry used mb e) s).putLbist p lb
      let dead := !(deadMems used mb).isEmpty
      let memory := mb.any mbFails
      let s := (s.setFld TEST_IFT_LAST_PHYS p).setFld TEST_STAT_IFT_DONE 1
      if lb.isEmpty && !memory then
        let s := (s.setFld TEST_IFT_LAST_RESULT 1).addSat TEST_IFT_COUNT_PASS 1
        let s := s.setFld (ENG_STAT_STATE p) (if p = jokerOf (clusterOf p) then esGated else esIdle)
        if s.hand.standin.any (fun y => decide (y.1 = p)) then s.setIft q { s.iftOf q with ended := true }
        else s.iftOver q
      else
        let s := (s.setFld TEST_IFT_LAST_RESULT 2).addSat TEST_IFT_COUNT_FAIL 1
        let kind := if !lb.isEmpty then 1 else if dead then 3 else 2
        let s := (s.setFld TEST_STAT_IFT_FAIL 1).logEvent 0x0F05 sevAttention (p + kind <<< 12)
        let s := s.iftRetire p
        let s : State := if kind = 2 then s
          else { s with hand := { s.hand with jmapQ := s.hand.jmapQ ++ [p] } }.queueRec 7 0
        s.iftOver q

/-- The work returns to the tested engine at the joker's frame boundary, and the joker is gated (R509 step 5). -/
def State.iftHandback (s : State) (q : Nat) : State :=
  let x := s.iftOf q
  match x.run with
  | none => s
  | some p =>
    let c := clusterOf p
    let j := jokerOf c
    if !x.ended || !s.hand.standin.any (fun y => decide (y.1 = p)) then s
    else
      let l := s.logicalOf j
      let s := (s.preempt j).setPair (ENG_IN_WR j) (s.inWr j)
      let s := s.takeUp { logical := l, failed := j, taker := p, cause := 0 }
      let s := (s.setFld (ENG_STAT_STATE j) esGated).setFld (ENG_ID_ACTIVE j) 0
      let s := (s.setFld (HAND_CLU_JSTATE c) 0).setFld (HAND_CLU_JFOR c) 0x1F
      let s := { s with hand := { s.hand with standin := s.hand.standin.filter (fun y => decide (y.1 ≠ p)) } }
      let s := s.setFld HAND_STAT_STANDIN (b2n !s.hand.standin.isEmpty)
      let s := if (s.engOf p).task.isSome then s.fetch p .clean else s
      s.iftOver q

/-! ### Meanings -/

/-- IFT_DUE (R508). -/
def execIftDue (q : Fin 4) (s : State) : Host.Outcome State Fault Refusal := done (s.iftDue q)

/-- IFT_TEST_END (R510). -/
def execIftTestEnd (q : Fin 4) (lb : List (Fin 4 × BitVec 64)) (mb : List MbEntry) (s : State) : Host.Outcome State Fault Refusal :=
  done (s.iftTestEnd q lb mb)

/-- IFT_HANDBACK (R509). -/
def execIftHandback (q : Fin 4) (s : State) : Host.Outcome State Fault Refusal := done (s.iftHandback q)

/-- IFT_RUN (R512). -/
def execIftRun (p : Fin 2048) (s : State) : Host.Outcome State Fault Refusal := done (s.iftRun p)

end Sys2Proof.Machine
end

