-- ==== Sys2Proof/Machine/Access.lean ====
section
/-! DEFINITION. Reads and writes of the device address space by the host, DMA and SMBus (R5 to R11, R28 to R35, R57, R418 to
R423, R551): registers under their access codes, the writes that make the device act, the memory regions in bursts, and the
data port. -/

namespace Sys2Proof.Machine

/-! ### Who counts, and what is reachable -/

/-- A host access was ignored or read 0 under R6, R7, R32, R33 or R420 (R434). -/
def State.portErr (s : State) (src : Source) : State :=
  match src with
  | .dma => s
  | .smbus => s
  | _ => (s.setFld HOST_STAT_PORT_ERR 1).addSat HOST_ERRS_PORT 1

/-- An access recorded at INFO that also counts as a PORT_ERR. -/
def State.refuseAccess (s : State) (src : Source) (a : Nat) : State := (s.ignored a).portErr src

/-- The device address that an address of the HOST block's aliases stands for (R418). -/
def aliased (a : Nat) : Nat :=
  if within 0xC8000 0x100 a then a - 0xC8000 + 0x10000 else if within 0xC9000 0x100 a then a - 0xC9000 else a

/-- What the data port and the aperture reach (R423): everything once the image step has ended. -/
def State.reachable (s : State) (src : Source) (a : Nat) : Bool :=
  match src with
  | .port => s.imgDone || decide (a / 0x10000 ∈ [0x00, 0x0C, 0x0F]) || within 0xF00000 0x1000 a
  | .aperture => s.imgDone || decide (a / 0x10000 ∈ [0x00, 0x0C, 0x0F]) || within 0xF00000 0x1000 a
  | _ => true

/-- The registers of the data port, which it cannot reach itself (R420). -/
def portReg (a : Nat) : Bool := within 0xC1000 0x10 a

/-! ### The MSI-X table and its pending bits (R418, R425) -/

/-- The pending bits of vectors that may send now send. -/
def State.sendUnmasked (s : State) : State :=
  (List.range 32).foldl (fun t v =>
    if bitOf t.host.pba v && !t.host.funcMask && !(sparseGet msixDefault t.host.table (16 * v + 12)).getLsbD 0 then
      { t with host := { t.host with pba := t.host.pba - 2 ^ v } }.sendMsix v
    else t) s

/-- A word of the MSI-X table is written; only bit 0 of a vector's control word is kept. -/
def State.tableWrite (s : State) (o : Nat) (v : Word) : State :=
  let v := if o % 16 = 12 then v &&& 1 else v
  { s with host := { s.host with table := sparseSet msixDefault s.host.table o v } }.sendUnmasked

/-- HOST_INT_PEND bit v is written 1 (R425): cleared, and set again with a further message while vector v is active. -/
def State.pendClear (s : State) (v : Nat) : State :=
  let s := s.putBit HOST_INT_PEND_PEND v false
  let s := { s with host := { s.host with pba := s.host.pba - (if bitOf s.host.pba v then 2 ^ v else 0) } }
  if s.vectorActive v then (s.stick HOST_INT_PEND_PEND v).sendMsix v else s

/-- HOST_INT_PEND is written. -/
def State.pendWrite (s : State) (mask : Word) : State :=
  ((List.range 32).filter (fun v => mask.getLsbD v)).foldl (fun t v => t.pendClear v) s

/-! ### DMA channel control (R427, R429) -/

/-- A channel is in RUN or STOPPING. -/
def State.dmaBusy (s : State) (c : Nat) : Bool := decide (s.fld (DMA_STAT_STATE c) = 1) || decide (s.fld (DMA_STAT_STATE c) = 2)

/-- A channel reaches DONE, STOPPED or ERROR. -/
def State.dmaEnd (s : State) (c state err : Nat) : State :=
  ((s.setFld (DMA_STAT_STATE c) state).setFld (DMA_STAT_ERR c) err).stick HOST_DMA_DONE_DONE c

/-- Whether a device range lies wholly within one region and within installed capacity (R427). -/
def State.oneRegion (s : State) (a n : Nat) : Bool :=
  regionSpans.any (fun r => decide (r.1 ≤ a) && decide (a + n ≤ r.1 + r.2.1) &&
    (decide (r.2.2 ≠ .sdram) || decide (a + n ≤ sdramBase + s.capacity)))

/-- Why a START is refused; 0 when it is not (R427). -/
def State.dmaRefusal (s : State) (c : Nat) : Nat :=
  let src := s.pair (DMA_SRC c)
  let dst := s.pair (DMA_DST c)
  let n := s.fld (DMA_CNT_BYTES c)
  let dir := s.flag (DMA_CTL_DIR c)
  let dev := if dir then dst else src
  if src % 64 ≠ 0 ∨ dst % 64 ≠ 0 ∨ n % 64 ≠ 0 then 1
  else if 2 ^ 48 ≤ dev ∨ s.oneRegion dev n = false then 2
  else if dir = true ∧ (regionAt dev).writable = false then 3
  else 0

/-- START is written 1 (R427, R429); in RUN and STOPPING it has no further effect. -/
def State.dmaGo (s : State) (c : Nat) : State :=
  if !s.flag (DMA_CTL_EN c) then s.ignored (DMA_CTL c).addr
  else if s.dmaBusy c then s
  else
    let fresh := (s.setFld (DMA_STAT_ERR c) 0).setFld (DMA_STAT_CLIPPED c) 0
    if s.fld (DMA_CNT_BYTES c) = 0 then fresh.dmaEnd c 3 0
    else
      let e := s.dmaRefusal c
      if e = 0 then (fresh.setFld (DMA_STAT_STATE c) 1).wakeAll
      else (s.dmaEnd c 5 e).logEvent 0x0D01 sevInfo (c + e <<< 8)

/-- DMAc_CTL is written (R429): a change of DIR while the channel is busy is ignored. -/
def State.dmaCtl (s : State) (c : Nat) (en start ie dir : Bool) : State :=
  let busy := s.dmaBusy c
  let turned := busy && decide (dir ≠ s.flag (DMA_CTL_DIR c))
  let s := s.when turned (fun t => t.ignored (DMA_CTL c).addr)
  let s := (s.setFld (DMA_CTL_EN c) (b2n en)).setFld (DMA_CTL_IE c) (b2n ie)
  let s := if busy then s else s.setFld (DMA_CTL_DIR c) (b2n dir)
  let s := if !en && decide (s.fld (DMA_STAT_STATE c) = 1) then s.setFld (DMA_STAT_STATE c) 2 else s
  if start then s.dmaGo c else s

/-! ### Writes of registers -/

/-- DEAL_CTL is written: the gate, then the release, then the cancel (R48, R56). -/
def State.dealCtl (s : State) (v : Word) : State :=
  let s := s.gateWrite (v.getLsbD 0)
  let s := if v.getLsbD 1 then s.releaseHeld else s
  if v.getLsbD 2 then s.amdCancelWrite else s

/-- CONV_CTL is written: CAL_HOLD of every input, then the requests (R80, R81). -/
def State.convCtl (s : State) (v : Word) : State :=
  let s := (List.range 4).foldl (fun t i => t.calHold i (v.getLsbD (4 + i))) s
  ((List.range 4).filter (fun i => v.getLsbD (8 + i))).foldl (fun t i => t.calRequest i) s

/-- The bits of a POT_PROD_EN word that name defined products (R250). -/
def State.prodMask (s : State) (w : Nat) : Word :=
  word (((List.range 32).filter (fun b => (s.productNo (32 * w + b)).isSome)).foldl (fun m b => m + 2 ^ b) 0)

/-- POT_PROD_EN(w) is written: the bit of a product that the image does not define stays 0 (R250). -/
def State.prodWrite (s : State) (w : Nat) (v : Word) : State :=
  let m := s.prodMask w
  let s := s.when (decide (v &&& ~~~m ≠ 0)) (fun t => t.ignored (POT_PROD_EN w).addr)
  s.stage { addr := (POT_PROD_EN w).addr, mask := BitVec.allOnes 32, value := v &&& m }

/-- The DMA registers of a channel, by offset within its set (R435): all but START and EN are refused while it is busy. -/
def State.dmaWrite (s : State) (c o : Nat) (v : Word) : Option State :=
  if o = 0x14 then some (s.dmaCtl c (v.getLsbD 31) (v.getLsbD 30) (v.getLsbD 29) (v.getLsbD 28))
  else if o < 0x14 ∧ s.dmaBusy c = true then some (s.ignored (0xD0000 + 0x40 * c + o))
  else none

/-- The CG registers whose write is checked and applied by the clock generator (R336, R341). -/
def State.clockWrite (s : State) (a : Nat) (v : Word) : Option State :=
  if a = (CG_MDLL_CFG 2).addr then some (s.mdll2Write v)
  else ((List.range 3).find? (fun i => decide (a = (CG_OUT_CFG (i + 4)).addr))).map (fun i => s.outWrite (i + 4) v)

/-- An enable of a stream whose port is off is ignored when it arrives (R382, R551). -/
def State.ethWrite (s : State) (a : Nat) (v : Word) : Option State :=
  let p := (a - 0xA1000) / 0x1000
  if 0xA1000 ≤ a ∧ (a - 0xA1000) % 0x40 = 0 ∧ v.getLsbD 31 = true ∧ s.flag (ETHP_CFG_EN p) = false then some (s.ignored a) else none

/-- A register whose write has a meaning of its own, instead of its fields' access codes alone. -/
def State.ownWrite (s : State) (a : Nat) (v : Word) : Option State :=
  match a / 0x10000 with
  | 0x01 =>
    if a = DEAL_CTL.addr then some (s.dealCtl v)
    else if a = DEAL_COMMIT.addr + 4 then some (s.amdSubmit v)
    else none
  | 0x02 => s.clockWrite a v
  | 0x03 => if a = TIME_EPOCH_SET.addr + 4 then some (s.epochSetWrite v) else none
  | 0x04 => if a = CONV_CTL.addr then some (s.convCtl v) else none
  | 0x0A => s.ethWrite a v
  | 0x0B => if a = KIT_WM.addr then some (s.kitWmWrite v) else none
  | 0x0C => if a = HOST_INT_PEND_PEND.addr then some (s.pendWrite v) else none
  | 0x0D => s.dmaWrite ((a - 0xD0000) / 0x40) (a % 0x40) v
  | 0x0E =>
    if within DISP_L0_Y.addr 16 a && s.flag DISP_RND_CFG_EN && s.flag DISP_RND_CFG_AUTO then some (s.ignored a) else none
  | 0x0F => if a = TEST_LC_ADV.addr then some (s.lcAdvance (wordBits v 16 16) (wordBits v 0 3)) else none
  | 0x10 => if within (POT_PROD_EN 0).addr 32 a then some (s.prodWrite ((a - (POT_PROD_EN 0).addr) / 4) v) else none
  | 0x11 =>
    if a = HAND_CFG.addr then some (s.handCfg v)
    else if a = HAND_FORCE.addr then some (s.handForceWrite v)
    else none
  | _ => none

/-- MEMC_CTL's strobes (R363, R365). -/
def State.memcStrobe (s : State) (v : Word) : State :=
  let s := if v.getLsbD 1 then s.memcStore else s
  if v.getLsbD 0 then s.memcRetrain (wordBits v 16 4) else s

/-- DISP_CTL's strobes (R438, R450). -/
def State.dispStrobe (s : State) (v : Word) : State :=
  let s := if v.getLsbD 1 then s.retrainLink else s
  if v.getLsbD 0 then s.dispCommit else s

/-- The TEST block's strobes (R494, R512, R517, R520, R522). -/
def State.testStrobe (s : State) (a : Nat) (v : Word) : State :=
  let go := v.getLsbD 31
  if a = TEST_OTP_CTL.addr then (if go && decide (wordBits v 0 2 ≠ 0) then s.otpStart (wordBits v 0 2) else s)
  else if a = TEST_IFT_CTL.addr then (if go then s.iftRun (wordBits v 0 11) else s)
  else if a = TEST_CAL_CTL.addr then
    let s := if go then s.queueTrims else s
    if v.getLsbD 30 then s.calLoad (wordBits v 29 1) (wordBits v 0 4) else s
  else if a = TEST_JMAP_EDIT.addr then (if go then s.jmapEdit (v.getLsbD 30) (wordBits v 0 11) else s)
  else s

/-- An output whose phase target was written begins to step (R337). -/
def State.phaseStrobe (s : State) (a : Nat) : State :=
  match (List.range 3).find? (fun i => decide (a = (CG_OUT_PHASE (i + 4)).addr)) with
  | some i => s.setFld (CG_OUT_PHASE_STEPPING (i + 4)) (b2n (decide (s.fld (CG_OUT_PHASE_CUR (i + 4)) ≠ s.fld (CG_OUT_PHASE_TGT (i + 4)))))
  | none => s

/-- What a write sets going through its W1S fields, once its other fields are stored. -/
def State.strobe (s : State) (a : Nat) (v : Word) : State :=
  match a / 0x10000 with
  | 0x00 => if a = SUP_FLASH_CMD.addr ∧ v.getLsbD 31 = true then s.flashCmd (wordBits v 0 2) else s
  | 0x02 => s.phaseStrobe a
  | 0x03 => if a = TIME_CTL.addr ∧ v.getLsbD 0 = true then s.resync else s
  | 0x04 =>
    match (List.range 4).find? (fun i => decide (a = (CONVI_INJECT i).addr)) with
    | some i => if v.getLsbD 31 then s.snapGo i (wordBits v 0 15) else s
    | none => s
  | 0x07 => if a = TRG_FORCE.addr then s.trigForce (wordBits v 0 8) s.rawNow else s
  | 0x09 => if a = MEMC_CTL.addr then s.memcStrobe v else s
  | 0x0B => if a = KIT_CTL.addr ∧ v.getLsbD 0 = true then s.kitDropWrite else s
  | 0x0E => if a = DISP_CTL.addr then s.dispStrobe v else s
  | 0x0F => s.testStrobe a v
  | _ => s

/-- The bits of a register that a write can change at once: RW, WO, and LK before the end of the image step (R9). -/
def State.directMask (s : State) (fs : List FieldSpec) : Word :=
  word (accessMask .rw fs ||| accessMask .wo fs ||| (if s.imgDone then 0 else accessMask .lk fs))

/-- Whether a write would change locked bits (R9). -/
def State.lkDiffers (s : State) (a : Nat) (fs : List FieldSpec) (v : Word) : Bool :=
  s.imgDone && decide ((s.reg a ^^^ v) &&& word (accessMask .lk fs) ≠ 0)

/-- The fields of a register take a write under their access codes (R9, R10). -/
def State.putFields (s : State) (a : Nat) (fs : List FieldSpec) (v : Word) : State :=
  let clear := v &&& word (accessMask .w1c fs)
  let s := s.setReg a (mergeBits (s.reg a) (s.directMask fs) v &&& ~~~clear)
  let st := word (accessMask .st fs)
  if st = 0 then s else s.stage { addr := a, mask := st, value := v }

/-- A _LO register whose bits a write can change holds it until _HI is written (R11). -/
def State.holds (s : State) (r : RegSpec) : Bool :=
  decide (r.half = .low) && decide (s.directMask r.fields ||| word (accessMask .st r.fields) ≠ 0)

/-- The held half of a pair takes effect when _HI is written (R11). -/
def State.putLow (s : State) (a : Nat) : State :=
  match regAt (a - 4) with
  | some (r, _) => if s.holds r then s.putFields (a - 4) r.fields (sparseGet (fun _ => (0 : Word)) s.holdLo (a - 4)) else s
  | none => s

/-- A register that the tables hold is written (R9 to R11, R551). -/
def State.writeFields (s : State) (r : RegSpec) (a : Nat) (v : Word) : State :=
  if outOfRange false r.fields v.toNat then s.ignored a
  else
    match s.ownWrite a v with
    | some t => t
    | none =>
      let s := s.when (s.lkDiffers a r.fields v) (fun t => t.ignored a)
      if s.holds r then { s with holdLo := sparseSet (fun _ => (0 : Word)) s.holdLo a v }
      else
        let s := if r.half = .high then s.putLow a else s
        (s.putFields a r.fields v).strobe a v

/-- A word of a register region is written; the address is no alias. -/
def State.regWrite (s : State) (src : Source) (a : Nat) (v : Word) : State :=
  match regAt a with
  | some (r, _) => if src = .port ∧ portReg a = true then s.refuseAccess src a else s.writeFields r a v
  | none => if within 0xC4000 0x200 a then s.tableWrite (a - 0xC4000) v else if within 0xC5000 4 a then s else s.portErr src

/-! ### Writes of memory (R28, R32, R33, R35, R57) -/

/-- One byte of a region that the host may write. -/
def State.memPut (s : State) (a : Nat) (b : Byte) : State :=
  match regionAt a with
  | .amendment => { s with deal := { s.deal with amdBuf := sparseSet amdDefault s.deal.amdBuf (a - 0xF10000) b } }
  | .overlay' => { s with disp := { s.disp with overlay := sparseSet (fun _ => (0 : Byte)) s.disp.overlay (a - 0x300000000) b } }
  | .sdram => s.sdPut (a - sdramBase) b
  | _ => s

/-- Whether a byte's write is ignored because its region is RO or it does not exist (R32, R33). -/
def State.noWrite (s : State) (a : Nat) : Bool := s.absent a || !(regionAt a).writable

/-- A burst of at most 64 bytes is written to memory: what is ignored is recorded once, with its first address. -/
def State.burstWrite (s : State) (src : Source) (a : Nat) (bs : List Byte) : State :=
  let xs := (bs.zipIdx).map (fun (x : Byte × Nat) => (a + x.2, x.1))
  let busy := fun (b : Nat) => decide (regionAt b = .amendment) && s.flag DEAL_STAT_AMD_BUSY
  let t := (xs.filter (fun (x : Nat × Byte) => !s.noWrite x.1 && !busy x.1)).foldl (fun t (x : Nat × Byte) => t.memPut x.1 x.2) s
  match xs.find? (fun (x : Nat × Byte) => s.noWrite x.1), xs.find? (fun (x : Nat × Byte) => busy x.1) with
  | some x, _ => t.refuseAccess src x.1
  | none, some x => t.ignored x.1
  | none, none => t

/-! ### Reads of registers (R6, R7, R11) -/

/-- A read of a _LO register captures what the pair held (R11). -/
def State.captureAll (s : State) (r : RegSpec) (a : Nat) : State :=
  r.captures.foldl (fun t o =>
    match regAt (a + o) with
    | some (h, _) => { t with capture := sparseSet (fun _ => (0 : Word)) t.capture (a + o) (s.shown h (a + o)) }
    | none => t) s

/-- Reads that advance an index after they have shown its word (R125, R522). -/
def State.readEffect (s : State) (a : Nat) : State :=
  match (List.range 4).find? (fun i => decide (a = (CBKI_COEF_DATA_COEF i).addr)) with
  | some i => s.coefRead i
  | none => if a = TEST_CS_DATA_DATA.addr then s.csDataRead else s

/-- A word of a register region is read; the address is no alias. -/
def State.regRead (s : State) (src : Source) (a : Nat) : Word × State :=
  match regAt a with
  | some (r, _) =>
    if src = .port ∧ portReg a = true then (0, s.refuseAccess src a)
    else if r.captured then (sparseGet (fun _ => (0 : Word)) s.capture a, s)
    else if a = KIT_TAG.addr then (s.kitTagRead.rdata.headD 0, s.kitTagRead)
    else (s.shown r a, (s.captureAll r a).readEffect a)
  | none =>
    if within 0xC4000 0x200 a then (sparseGet msixDefault s.host.table (a - 0xC4000), s)
    else if within 0xC5000 4 a then (word s.host.pba, s)
    else (0, s.portErr src)

/-- A burst of at most 64 bytes is read from memory: bytes that do not exist read 0 and are recorded once (R33). -/
def State.burstRead (s : State) (src : Source) (a n : Nat) : List Byte × State :=
  let as := (List.range n).map (fun i => a + i)
  let bs := as.map (fun b => if s.absent b then 0 else s.memByte b)
  let s := match as.find? (fun b => decide (regionAt b = .sdram) && !s.absent b && s.sdDumb (b - sdramBase)) with
    | some b => s.memUe (b - sdramBase)
    | none => s
  match as.find? (fun b => s.absent b) with
  | some b => (bs, s.refuseAccess src b)
  | none => (bs, s)

/-! ### One access, and the data port (R419 to R423) -/

/-- A word is written at an aligned address; PORT_DATA itself is not taken for the data port. -/
def State.wordWrite (s : State) (src : Source) (a : Nat) (v : Word) : State :=
  let a := aliased a
  if !s.reachable src a then s
  else if regionAt a = .register then s.regWrite src a v
  else s.burstWrite src a (leBytes 4 v.toNat)

/-- A word is read at an aligned address; PORT_DATA itself is not taken for the data port. -/
def State.wordRead (s : State) (src : Source) (a : Nat) : Word × State :=
  let a := aliased a
  if !s.reachable src a then (0, s)
  else if regionAt a = .register then s.regRead src a
  else ((word (leNat (s.burstRead src a 4).1)), (s.burstRead src a 4).2)

/-- PORT_ADDR (R419). -/
def State.portAddr (s : State) : Nat := s.pair PORT_ADDR % 2 ^ 48 / 4 * 4

/-- PORT_ADDR advances by the increment that PORT_INC selects, modulo 2^48 (R419). -/
def State.portAdvance (s : State) (a : Nat) : State :=
  let step := match s.fld PORT_INC_INC with
    | 0 => 0
    | 1 => 4
    | 2 => 8
    | _ => 64
  s.setPair PORT_ADDR ((a + step) % 2 ^ 48)

/-- PORT_DATA is read. -/
def State.portRead (s : State) : Word × State :=
  let a := s.portAddr
  let x := s.wordRead .port a
  (x.1, x.2.portAdvance a)

/-- PORT_DATA is written. -/
def State.portWrite (s : State) (v : Word) : State :=
  let a := s.portAddr
  (s.wordWrite .port a v).portAdvance a

/-- An aligned word is written, through any path. -/
def State.accessWrite (s : State) (src : Source) (a : Nat) (v : Word) : State :=
  if a = PORT_DATA.addr ∧ src ≠ .port then s.portWrite v else s.wordWrite src a v

/-- An aligned word is read, through any path. -/
def State.accessRead (s : State) (src : Source) (a : Nat) : Word × State :=
  if a = PORT_DATA.addr ∧ src ≠ .port then s.portRead else s.wordRead src a

/-! ### A range of bytes (R421, R428) -/

/-- The bytes that one access of a range takes from address `a` on: up to the next word of a register region, or the next 64
bytes of a memory region. -/
def unitLen (a left : Nat) : Nat :=
  let u := if regionAt a = .register then 4 else 64
  min left (u - a % u)

/-- One access of a range writes: a partial word of a register region is ignored (R6). -/
def State.unitWrite (s : State) (src : Source) (a : Nat) (bs : List Byte) : State :=
  if regionAt a = .register then
    if !s.reachable src (aliased a) then s
    else if a % 4 = 0 ∧ bs.length = 4 then s.accessWrite src a (word (leNat bs))
    else s.refuseAccess src (aliased a)
  else if s.reachable src a then s.burstWrite src a bs else s

/-- A range of bytes is written, in ascending address order; `fuel` bounds the accesses. -/
def State.rangeWrite (s : State) (src : Source) (a : Nat) (bs : List Byte) : Nat → State
  | 0 => s
  | fuel + 1 =>
    if bs.isEmpty then s
    else
      let n := unitLen a bs.length
      State.rangeWrite (s.unitWrite src a (bs.take n)) src (a + n) (bs.drop n) fuel

/-- One access of a range reads: a partial word of a register region reads 0 (R6). -/
def State.unitRead (s : State) (src : Source) (a n : Nat) : List Byte × State :=
  if regionAt a = .register then
    if !s.reachable src (aliased a) then (zeros n, s)
    else if a % 4 = 0 ∧ n = 4 then (leBytes 4 (s.accessRead src a).1.toNat, (s.accessRead src a).2)
    else (zeros n, s.refuseAccess src (aliased a))
  else if s.reachable src a then s.burstRead src a n else (zeros n, s)

/-- A range of bytes is read, in ascending address order; `fuel` bounds the accesses. -/
def State.rangeRead (s : State) (src : Source) (a n : Nat) : Nat → List Byte × State
  | 0 => ([], s)
  | fuel + 1 =>
    if n = 0 then ([], s)
    else
      let m := unitLen a n
      let x := s.unitRead src a m
      let y := State.rangeRead x.2 src (a + m) (n - m) fuel
      (x.1 ++ y.1, y.2)

/-- Bytes as little-endian words, for what a read returns; `fuel` bounds them. -/
def packWords (bs : List Byte) : Nat → List Word
  | 0 => []
  | fuel + 1 => if bs.isEmpty then [] else word (leNat (bs.take 4)) :: packWords (bs.drop 4) fuel

/-! ### One write of the host, DMA or SMBus -/

/-- The registers that SMBus may write (R536). -/
def smbusWritable (a : Nat) : Bool :=
  within TIME_EPOCH_SET.addr 8 a || decide (a = SUP_BOOT_NEXT.addr) || decide (a = SUP_FLASH_ADDR.addr) ||
  decide (a = SUP_FLASH_CMD.addr) || within (SUP_FLASH_BUF 0).addr 256 a || decide (a = VREG_STAT.addr) ||
  decide (a = VREG_INT_EN.addr) || decide (a = VREG_ALERT_CFG.addr)

/-- A write of `bytes` bytes at a device address. BAR0 reaches the HOST block alone (R418); registers take aligned words only
(R6). While SUP_STAT.WDOG is set the SMBus target does not serve (R466). -/
def State.writeAccess (s : State) (src : Source) (a bytes : Nat) (v : Word) : State :=
  if s.alive = false ∨ (src = .smbus ∧ s.flag SUP_STAT_WDOG = true) then s
  else if src = .bar ∧ within 0xC0000 0x10000 a = false then s.portErr src
  else if src = .smbus ∧ smbusWritable (aliased a) = false then s.ignored (aliased a)
  else if !s.reachable src (aliased a) then s
  else if bytes ≠ 4 ∨ a % 4 ≠ 0 then s.refuseAccess src (aliased a)
  else s.accessWrite src a v

/-! ### Meanings -/

/-- REGISTER_WRITE (R9). -/
def execRegisterWrite (src : Source) (addr bytes : Nat) (value : Word) (s : State) : Host.Outcome State Fault Refusal :=
  done (s.writeAccess src addr bytes value)

/-- PORT_DATA_READ (R419). -/
def execPortDataRead (s : State) : Host.Outcome State Fault Refusal :=
  done (if s.alive then { s.portRead.2 with rdata := [s.portRead.1] } else s)

/-- PORT_DATA_WRITE (R419). -/
def execPortDataWrite (value : Word) (s : State) : Host.Outcome State Fault Refusal :=
  done (if s.alive then s.portWrite value else s)

/-- An aperture request (R421): a write of bytes, or a read of `len` bytes. -/
def State.apertureAccess (s : State) (off len : Nat) (data : Option (List Byte)) : State :=
  let a := s.portAddr + off
  let n := match data with
    | some bs => bs.length
    | none => len
  if s.alive = false ∨ 0x10000 < off + n then s
  else
    match data with
    | some bs => s.rangeWrite .aperture a bs n
    | none =>
      let x := s.rangeRead .aperture a n n
      { x.2 with rdata := packWords x.1 n }

/-- APERTURE_ACCESS (R421). -/
def execApertureAccess (off : Fin 65536) (len : Nat) (data : Option (List Byte)) (s : State) : Host.Outcome State Fault Refusal :=
  done (s.apertureAccess off len data)

/-- HOST_INT_PEND_CLEAR (R425). -/
def execHostIntPendClear (mask : Word) (s : State) : Host.Outcome State Fault Refusal := done (s.pendWrite mask)

/-- DMA_START (R427): START is written 1, with EN, IE and DIR. -/
def execDmaStart (c : Fin 16) (en ie dir : Bool) (s : State) : Host.Outcome State Fault Refusal := done (s.dmaCtl c en true ie dir)

/-- DMA_STOP (R429): EN is written 0. -/
def execDmaStop (c : Fin 16) (ie dir : Bool) (s : State) : Host.Outcome State Fault Refusal := done (s.dmaCtl c false false ie dir)

end Sys2Proof.Machine
end

