-- ==== Sys2Proof/Machine/Link.lean ====
section
/-! DEFINITION. The PCIe endpoint (R415 to R417, R426) and the DMA channels at run time (R428 to R431). -/

namespace Sys2Proof.Machine

/-! ### DMA at run time (R428 to R431) -/

/-- The channel that takes the next burst: round robin over the channels in RUN and STOPPING. -/
def State.dmaNext (s : State) : Option Nat :=
  ((List.range 16).map (fun i => (s.dmaTurn + i) % 16)).find? (fun c => s.dmaBusy c)

/-- SRC and DST advance by a burst's length, and CNT falls by it (R428). -/
def State.dmaAdvance (s : State) (c n : Nat) : State :=
  ((s.setPair (DMA_SRC c) (s.pair (DMA_SRC c) + n)).setPair (DMA_DST c) (s.pair (DMA_DST c) + n)).setFld (DMA_CNT_BYTES c)
    (s.fld (DMA_CNT_BYTES c) - n)

/-- Part of a burst lies beyond installed capacity (R430). -/
def State.dmaClip (s : State) (c dev n : Nat) : State :=
  s.setIf (decide (sdramBase ≤ dev) && decide (sdramBase + s.capacity < dev + n)) (DMA_STAT_CLIPPED c)

/-- The burst in progress completes (R428, R429); `data` is what the host returned for a burst toward the device. -/
def State.dmaBurst (s : State) (data : List Byte) : State :=
  match s.dmaNext with
  | none => s
  | some c =>
    let n := min 4096 (s.fld (DMA_CNT_BYTES c))
    let dir := s.flag (DMA_CTL_DIR c)
    if dir && decide (data.length ≠ n) then s
    else
      let dev := s.pair (if dir then DMA_DST c else DMA_SRC c)
      let s := s.dmaClip c dev n
      let s : State :=
        if dir then s.rangeWrite .dma dev data n
        else
          let x := s.rangeRead .dma dev n n
          { x.2 with out := x.2.out ++ [.dma (s.pair (DMA_DST c)) x.1] }
      let s : State := { s.dmaAdvance c n with dmaTurn := (c + 1) % 16 }
      if s.fld (DMA_STAT_STATE c) = 2 then s.dmaEnd c 4 (s.fld (DMA_STAT_ERR c))
      else if s.fld (DMA_CNT_BYTES c) = 0 then s.dmaEnd c 3 (s.fld (DMA_STAT_ERR c))
      else s

/-- A burst that failed leaves a mix of old and new data (R431): each word is written or not, a free choice. -/
def State.mixWrite (s : State) (a : Nat) (data : List Byte) : State :=
  (List.range (data.length / 4)).foldl (fun t w =>
    let x := t.fresh
    if x.1.getLsbD 0 then x.2.accessWrite .dma (a + 4 * w) (word (leNat ((data.drop (4 * w)).take 4))) else x.2) s

/-- A host-side request of a transfer toward the device fails (R431). -/
def State.dmaFail (s : State) (c : Nat) (data : List Byte) : State :=
  if s.dmaBusy c && s.flag (DMA_CTL_DIR c) then
    let n := min 4096 (s.fld (DMA_CNT_BYTES c))
    ((s.mixWrite (s.pair (DMA_DST c)) (data.take n)).dmaEnd c 5 4).logEvent 0x0D01 sevInfo (c + 4 <<< 8)
  else s

/-- Every channel in RUN or STOPPING goes to ERROR with ERR = LINK (R417, R429). -/
def State.dmaUnlink (s : State) : State :=
  ((List.range 16).filter (fun c => s.dmaBusy c)).foldl (fun t c => t.dmaEnd c 5 5) s

/-! ### The endpoint (R417, R426) -/

/-- A field takes its reset value. -/
def State.clearFld (s : State) (f : Field) : State := s.setFld f (wordBits (regReset f.addr) f.lo f.width)

/-- The endpoint is reset (R417, R434): configuration space, the MSI-X table, HOST_INT_PEND and every HOST and PORT field but
the counters and the live signals; running DMA stops. -/
def State.endpointReset (s : State) : State :=
  let s := [ HOST_STAT_LINK_DOWN, HOST_STAT_HOT_RESET, HOST_STAT_CPL_LATE, HOST_STAT_PORT_ERR, HOST_INT_EN_EN, HOST_LINK_SPEED,
    HOST_LINK_WIDTH, HOST_INT_PEND_PEND, HOST_DMA_DONE_DONE, PORT_ADDR_LO_ADDR, PORT_ADDR_HI_ADDR, PORT_INC_INC ].foldl
    (fun t f => t.clearFld f) s
  let s := { s with
    host := .reset, holdLo := sparseErase PORT_ADDR.addr s.holdLo, capture := sparseErase (PORT_ADDR.addr + 4) s.capture }
  s.dmaUnlink

/-- A hot reset (0), a link disable (1) or entry to D3hot (2), which stops DMA alone (R417, R436). -/
def State.hotReset (s : State) (kind : Nat) : State :=
  if s.alive then
    ((if kind = 2 then s.dmaUnlink else s.endpointReset).setFld HOST_STAT_HOT_RESET 1).logEvent 0x0C02 sevInfo kind
  else s

/-- The link is lost (R417, R436). -/
def State.linkDown (s : State) : State :=
  if s.alive then
    let arg := (s.reg HOST_LINK.addr).toNat
    ((s.endpointReset.addSat HOST_LINK_DOWNS 1).setFld HOST_STAT_LINK_DOWN 1).logEvent 0x0C01 sevInfo arg
  else s

/-- The link comes up at a rate (1 to 5) and width (R415). -/
def State.linkUp (s : State) (rate width : Nat) : State :=
  if s.alive then
    { (s.setFld HOST_LINK_SPEED rate).setFld HOST_LINK_WIDTH width with host := { s.host with linkUp := true } }
  else s

/-- The MSI-X enable and function mask are written: on enabling, a message for every HOST_INT_PEND bit (R426). -/
def State.msixEnable (s : State) (en fmask : Bool) : State :=
  let begins := en && !s.host.msixEn
  let s := { s with host := { s.host with msixEn := en, funcMask := fmask, pba := if begins then 0 else s.host.pba } }
  if begins then ((List.range 32).filter (fun v => s.bitSet HOST_INT_PEND_PEND v)).foldl (fun t v => t.sendMsix v) s
  else if en then s.sendUnmasked
  else s

/-- A completion came too late for the host (R416). -/
def State.cplLate (s : State) (a : Nat) : State :=
  ((s.addSat HOST_ERRS_CPL_LATE 1).setFld HOST_STAT_CPL_LATE 1).logEvent 0x0C03 sevInfo (a % 2 ^ 32)

/-! ### Meanings -/

/-- HOT_RESET (R417). -/
def execHotReset (kind : Fin 3) (s : State) : Host.Outcome State Fault Refusal := done (s.hotReset kind)

/-- PCIE_LINK_DOWN (R417). -/
def execPcieLinkDown (s : State) : Host.Outcome State Fault Refusal := done s.linkDown

/-- PCIE_LINK_UP (R415). -/
def execPcieLinkUp (rate : Fin 5) (width : Fin 4) (s : State) : Host.Outcome State Fault Refusal :=
  done (s.linkUp (rate + 1) (2 ^ width.val))

/-- CPL_LATE (R416). -/
def execCplLate (addr : Nat) (s : State) : Host.Outcome State Fault Refusal := done (s.cplLate addr)

/-- MSIX_ENABLE (R426). -/
def execMsixEnable (en fmask : Bool) (s : State) : Host.Outcome State Fault Refusal := done (s.msixEnable en fmask)

/-- DMA_BURST_COMPLETE (R428). -/
def execDmaBurstComplete (data : List Byte) (s : State) : Host.Outcome State Fault Refusal := done (s.dmaBurst data)

/-- DMA_ERR (R431). -/
def execDmaErr (c : Fin 16) (data : List Byte) (s : State) : Host.Outcome State Fault Refusal := done (s.dmaFail c data)

end Sys2Proof.Machine
end

