-- ==== Sys2Proof/Machine/Power.lean ====
section
/-! DEFINITION. The SMBus target (R534 to R537), telemetry and its warnings (R525, R531, R533, R549, R550), and the test access
port (R547, R548). -/

namespace Sys2Proof.Machine

/-! ### VREG flags and their alert (R537, R549) -/

/-- A sticky VREG_STAT bit sets; SMB_ALERT_N asserts on a new setting that VREG_ALERT_CFG.SMB_EN selects. -/
def State.vregStick (s : State) (f : Field) : State :=
  let new := !s.flag f && bitOf (s.fld VREG_ALERT_CFG_SMB_EN) f.lo
  { s.setFld f 1 with pins := { s.pins with smbAlert := s.pins.smbAlert || new } }

/-- A VREG event: its bit sets and it is logged. -/
def State.vregEvent (s : State) (f : Field) (code sev arg : Nat) : State := (s.vregStick f).logEvent code sev arg

/-! ### Telemetry (R531, R533, R549) -/

/-- The signed value of a 16-bit field. -/
def State.signed16 (s : State) (f : Field) : Int := toSigned 16 (s.fld f)

/-- VIN, the input current and their product, with its peak; the energy since full reset. -/
def State.telePower (s : State) (mv ma mj : Nat) : State :=
  let p := min (mv * ma / 100000) 0xFFFF
  let was := s.fld VREG_PIN_NOW
  let limit := 10 * s.fld VREG_ALERT_CFG_PIN_WARN
  let s := (s.setFld VREG_VIN_MV (min mv 0xFFFF)).setFld VREG_IIN_MA (min ma 0xFFFF)
  let s := (s.setFld VREG_PIN_NOW p).maxFld VREG_PIN_PEAK p
  let s := s.setPair VREG_ENERGY (s.pair VREG_ENERGY + mj)
  s.when (decide (was ≤ limit) && decide (limit < p)) (fun t => t.vregEvent VREG_STAT_PIN_WARN 0x1204 sevInfo p)

/-- The five temperatures in 1/4 °C, the hottest of them and its peak; `first` marks the first measurement since full reset. -/
def State.teleTemps (s : State) (temps : List Int) (first : Bool) : State :=
  let hot := temps.foldl max (temps.headD 0)
  let sensor := (temps.findIdx? (fun t => decide (t = hot))).getD 0
  let was := if first then -32768 else s.signed16 VREG_TEMP_MAX_NOW
  let peak := if first then hot else max (s.signed16 VREG_TEMP_MAX_PEAK) hot
  let warn := 4 * (s.fld VREG_ALERT_CFG_TEMP_WARN : Int)
  let arg := sensor + ofSigned 16 hot <<< 16
  let s := (temps.zipIdx).foldl (fun t (x : Int × Nat) => t.setFld (VREG_TEMP_T x.2) (ofSigned 16 x.1)) s
  let s := (s.setFld VREG_TEMP_MAX_NOW (ofSigned 16 hot)).setFld VREG_TEMP_MAX_PEAK (ofSigned 16 peak)
  let s := s.setFld VREG_STAT_HOT (b2n (decide (420 ≤ hot)))
  let s := s.when (decide (was < warn) && decide (warn ≤ hot)) (fun t => t.vregEvent VREG_STAT_TEMP_WARN 0x1202 sevInfo arg)
  s.when (decide (was < 420) && decide (420 ≤ hot)) (fun t => t.vregEvent VREG_STAT_TEMP_HIGH 0x1203 sevAttention arg)

/-- One update of the VREG registers: VIN in mV, current in mA, the five temperatures in 1/4 °C, the energy in mJ since the
last update, and a rail that has left ±5 % for more than 1 ms with its voltage in mV. -/
def State.telemetry (s : State) (mv ma : Nat) (temps : List Int) (mj : Nat) (rail : Option (Nat × Nat)) : State :=
  if s.alive = false ∨ temps.length ≠ 5 then s
  else
    let first := decide (s.fld VREG_VIN_MV = 0)
    let s := (s.telePower mv ma mj).teleTemps temps first
    match rail with
    | some (n, v) => s.vregEvent VREG_STAT_RAIL_FAULT 0x1206 sevFatal (n % 256 + (v % 65536) <<< 16)
    | none => s

/-- VIN has been below 4.5 V for 1 ms (R525). -/
def State.vinLow (s : State) (mv : Nat) : State :=
  if s.alive = true ∧ mv < 4500 then s.vregEvent VREG_STAT_VIN_LOW 0x1201 sevAttention mv else s

/-! ### The SMBus target (R534 to R537) -/

/-- The target answers from step 2 on, but not after a failed ROM check, nor while SUP_STAT.WDOG is set (R466, R469, R534). -/
def State.smbusUp (s : State) : Bool := s.alive && !s.flag SUP_STAT_WDOG

/-- A word leaves over SMBus. -/
def State.smbusOut (s : State) (w : Word) : State := { s with rdata := [w], out := s.out ++ [.smbus w] }

/-- The pointer advances by 4. -/
def State.smbusNext (s : State) : State := { s with ports := { s.ports with smbPtr := (s.ports.smbPtr + 4) % 2 ^ 32 } }

/-- The word at the pointer, which reaches the register blocks and the event log (R535). -/
def State.smbusRead (s : State) : State :=
  let a := s.ports.smbPtr
  if ¬ (regionAt a = .register ∨ regionAt a = .log) then (s.smbusOut 0).smbusNext
  else if a % 4 ≠ 0 then ((s.ignored a).smbusOut 0).smbusNext
  else
    let x := s.accessRead .smbus a
    (x.2.smbusOut x.1).smbusNext

/-- A word is written at the pointer (R536). -/
def State.smbusWrite (s : State) (v : Word) : State := (s.writeAccess .smbus s.ports.smbPtr 4 v).smbusNext

/-- The 7-bit address of the target (R534). -/
def smbusAddress : Word := 0x4A

/-- An Alert Response Address read is answered while SMB_ALERT_N is asserted, which releases it (R537). -/
def State.alertResponse (s : State) : State :=
  if s.smbusUp && s.pins.smbAlert then
    { s.smbusOut smbusAddress with pins := { s.pins with smbAlert := false } }
  else s

/-! ### The test access port (R547, R548) -/

/-- IDCODE as R547 lays it out. -/
def tapIdcode : Word := word (2 ^ 28 + 0x4820 * 2 ^ 12 + Config.jedecCode.toNat * 2 + 1)

/-- Whether an instruction takes the pins from the device's own logic (R548). -/
def seizes (i : TapInstr) : Bool :=
  match i with
  | .extest => true
  | .extestPulse => true
  | .extestTrain => true
  | .clamp => true
  | .highz => true
  | _ => false

/-- The links go DOWN when the pins are taken from a device in RUN or CONFIG_ERROR (R548). -/
def State.seizePins (s : State) : State :=
  if s.sup = stRun ∨ s.sup = stConfigError then
    (List.range 8).foldl (fun t i => t.ethDown (i / 4) (i % 4) 0) s
  else s

/-- An instruction takes effect at the port. -/
def State.tapTake (s : State) (i : TapInstr) : State :=
  let s := s.when (seizes i && !s.ports.seized) State.seizePins
  let s := { s with ports := { s.ports with tap := i, seized := seizes i } }
  if i = .idcode then { s with out := s.out ++ [.tdo tapIdcode] } else s

/-! ### Meanings -/

/-- SMBUS_ADDR (R535). -/
def execSmbusAddr (addr : Word) (pec : Bool) (s : State) : Host.Outcome State Fault Refusal :=
  done (if s.smbusUp && pec then { s with ports := { s.ports with smbPtr := addr.toNat } } else s)

/-- SMBUS_DATA_READ (R535). -/
def execSmbusDataRead (s : State) : Host.Outcome State Fault Refusal := done (if s.smbusUp then s.smbusRead else s)

/-- SMBUS_DATA_WRITE (R536). -/
def execSmbusDataWrite (value : Word) (pec : Bool) (s : State) : Host.Outcome State Fault Refusal :=
  done (if s.smbusUp && pec then s.smbusWrite value else s)

/-- SMBUS_STATUS (R535). -/
def execSmbusStatus (s : State) : Host.Outcome State Fault Refusal :=
  done (if s.smbusUp then s.smbusOut (word ((s.reg SUP_STAT.addr).toNat / 65536)) else s)

/-- ALERT_RESPONSE (R537). -/
def execAlertResponse (s : State) : Host.Outcome State Fault Refusal := done s.alertResponse

/-- TELEMETRY_UPDATE (R533). -/
def execTelemetryUpdate (mv ma : Nat) (temps : List Int) (mj : Nat) (rail : Option (Nat × Nat)) (s : State) :
    Host.Outcome State Fault Refusal := done (s.telemetry mv ma temps mj rail)

/-- VIN_LOW (R525). -/
def execVinLow (mv : Nat) (s : State) : Host.Outcome State Fault Refusal := done (s.vinLow mv)

/-- TAP_INSTRUCTION (R547): the port works whenever the rails are up, from step 2 on. A private scan instruction works only in
MANUFACTURE and FIELD_RETURN, and the spec does not say what it does there; elsewhere it selects the bypass register. A TAP
reset selects IDCODE. -/
def execTapInstruction (t : TapInstr) (s : State) : Host.Outcome State Fault Refusal :=
  if s.sup < 2 then done s
  else
  match t with
  | .internalScan => if s.fullReports then .refused .privateScan else done (s.tapTake .bypass)
  | .tapReset => done { s with ports := { s.ports with tap := .idcode, seized := false } }
  | j => done (s.tapTake j)

end Sys2Proof.Machine
end

