-- ==== Sys2Proof/Machine/Start.lean ====
section
/-! DEFINITION. Steps 7 to 11 of the start (R467): clocks (R340), converters (R70, R323, R482), capture memory (R351 to
R354, R363, R34, R369, R373), Ethernet, and the beginning of the Dealers' output (R38, R39). -/

namespace Sys2Proof.Machine

/-! ### Step 7: clocks (R340) -/

/-- An MDLL is locked at start. -/
def State.lockMdll (s : State) (m : Nat) : State :=
  ((s.setFld (CG_MDLL_STAT_LOCKED m) 1).putBit CG_STAT_LOCKED m true)

/-- An enabled MDLL locks from its stored band, or searches every band. -/
def State.startMdll (s : State) (stored : BitVec 4) (found : List (Nat × Nat)) (m : Nat) : State :=
  match if stored.getLsbD m then s.storedBand m else none with
  | some b => ((s.setFld (CG_MDLL_STAT_BAND m) b).lockMdll m).measure m
  | none =>
    match found.find? (fun x => decide (x.1 = m) && decide (x.2 < 63)) with
    | some x => ((s.bandSearch m (some (BitVec.ofNat 6 x.2)) 0).lockMdll m).measure m
    | none => s.bandSearch m none 0

/-- An enabled MDLL coasts on its stored word, with REFCLK absent. -/
def State.coastMdll (s : State) (m : Nat) : State :=
  match s.storedBand m with
  | some b => s.setFld (CG_MDLL_STAT_BAND m) b
  | none => s

/-- Step 7. -/
def State.startClocks (s : State) (refclk : Bool) (stored : BitVec 4) (found : List (Nat × Nat))
    (tables : List (Nat × List Nat)) : State :=
  let on := (List.range 4).filter s.mdllOn
  let s := if refclk then on.foldl (fun s m => s.startMdll stored found m) (s.setFld TIME_STAT_REF_PRESENT 1)
    else (on.foldl State.coastMdll (s.setFld TIME_STAT_REF_PRESENT 0)).coastAll
  if on.any (fun m => if refclk then !s.flag (CG_MDLL_STAT_LOCKED m) else (s.storedBand m).isNone) then s.configError 0x16 0x02 0xFFF 7
  else
    let s := s.setFld CG_STAT_BRIDGE 0
    let s := tables.foldl (fun s t => if t.1 < 20 then s.refreshTable t.1 t.2 else s) s
    let s := { s with time := { s.time with counting := true }, clk := { s.clk with started := true } }
    let s := s.dispStart
    s.gatherDue.setSup 8

/-! ### Step 8: converters (R70, R82, R323, R482) -/

/-- Whether the measured sample clock is refused (R70). -/
def State.sclkBad (s : State) (khz : Nat) : Bool :=
  let n := s.nsps
  let hz := 1000 * khz
  decide (hz < 16000000000) || decide (20480000000 < hz) || decide (n < 1000 * (if hz < n then n - hz else hz - n))

/-- The converters start: the sample grid exists, and the epoch wait is over. -/
def State.startGrid (s : State) : State :=
  let src := s.fld TIME_CFG_EPOCH_SRC
  let s := if src = 1 then { s with time := { s.time with setSec := s.img.epochSec } } else s
  let noPps := decide (src = 2) && s.time.setSec.isNone
  let s := if noPps then (s.setFld TIME_STAT_EPOCH_NOPPS 1).logEvent 0x0307 sevAttention 0 else s
  let s := s.setFld TIME_STAT_EPOCH_WAIT 0
  let s := (List.range 4).foldl (fun s i => s.setDealer i { s.dealerOf i with raw := [] }) s
  let align := s.flag DEAL_CFG_ALIGN
  let s := { s with time := { s.time with counting := false, grid := true, waitAlign := align && !noPps } }
  if align && noPps then s.unaligned 0 else s

/-- With EPOCH_SRC = 2 step 8 holds converter start for a write of TIME_EPOCH_SET_HI, at most EPOCH_WAIT_MS (R482). -/
def State.epochAwaited (s : State) (waited : Nat) : Bool :=
  decide (s.fld TIME_CFG_EPOCH_SRC = 2) && s.time.setSec.isNone && decide (waited < s.img.epochWaitMs)

/-- Step 8; it has not ended while the epoch is awaited. -/
def State.startConverters (s : State) (refclk : Bool) (khz waited : Nat) : State :=
  if refclk then
    let s := s.setFld CONV_SCLK_MEAS_FREQ_KHZ (min khz 0x1FFFFFF)
    if s.sclkBad khz then s.configError 0x15 0x04 0xFFF 8 else if s.epochAwaited waited then s else s.startGrid.setSup 9
  else if s.epochAwaited waited then s
  else (s.logEvent 0x0401 sevAttention 0).startGrid.setSup 9

/-! ### Step 9: capture memory -/

/-- Whether a DIMM is one of R351's. -/
def Dimm.known (d : Dimm) : Bool :=
  d.rdimm && decide ((d.gib, d.ranks, d.x4) ∈ [(16, 1, false), (32, 2, false), (32, 1, true), (64, 2, true), (128, 2, true)])

/-- Whether a DIMM is excluded by itself (R353). -/
def State.dimmPoor (s : State) (d : Dimm) : Bool := !Dimm.known d || decide (d.bin < s.fld MEMC_CFG_SPEED)

/-- Whether a DIMM differs from the reference DIMM (R353). -/
def dimmDiffers (r d : Dimm) : Bool := decide (r.gib ≠ d.gib) || decide (r.ranks ≠ d.ranks) || decide (r.x4 ≠ d.x4)

/-- A subchannel is excluded (R353, R363). -/
def State.excludeSub (s : State) (i cause : Nat) : State :=
  ((s.setFld (MEMCS_STAT_STATE i) 1).setFld (MEMCS_STAT_CAUSE i) cause).putBit MEMC_LIVE_RETIRED i true

/-- The bits that a register's fields take; the others read 0. -/
def fieldsMask : List FieldSpec → Nat
  | [] => 0
  | f :: t => ((2 ^ (f.hi - f.lo + 1) - 1) <<< f.lo) ||| fieldsMask t

/-- The bits that the fields of the register at an address take. -/
def regMask (a : Nat) : Word :=
  match regAt a with
  | some (r, _) => BitVec.ofNat 32 (fieldsMask r.fields)
  | none => 0

/-- A training's settings go into the subchannel's registers. -/
def State.putTrain (s : State) (i : Nat) (ws : List Nat) : State :=
  let s := ((trainRegs i).zip ws).foldl (fun s x => s.setReg x.1 (BitVec.ofNat 32 x.2 &&& regMask x.1)) s
  let (t, s) := s.fresh
  (s.setFld (MEMCS_TEMP_TRAINED i) (t.toNat % 256)).enterSub i 2

/-- The lanes that a training measures. -/
def trainLanes (t : Training) : List Eye := [t.lane0, t.lane1, t.lane2, t.lane3, t.lane4]

/-- The settings that a sweep finds, in the order of the registers (R376). -/
def trainSettings (t : Training) : List Nat :=
  (t.cs ++ t.ca).toNat :: (trainLanes t).flatMap (fun e => [(eyeDly e).toNat, (eyeVref e).toNat])

/-- A subchannel trains from its stored table, where one verifies and MEMC_CFG.SWEEP is 0, else by a sweep; without a working
setting on every lane it is excluded (R363, R364). -/
def State.trainSub (s : State) (i : Nat) (table : Option (List Nat)) (t : Training) : State :=
  let stored := if t.verified && !s.flag MEMC_CFG_SWEEP then table else none
  match stored with
  | some ws => s.putTrain i ws
  | none =>
    if (trainLanes t).all eyeWorks then
      let s := (s.putTrain i (trainSettings t)).logEvent 0x0902 sevInfo i
      { s with mem := { s.mem with store := s.mem.store ++ [i / 2] } }
    else
    let s := ((s.excludeSub i 1).setFld MEMC_STAT_TRAIN_FAIL 1).setFld MEMC_STAT_DEG 1
    { s with cap := { s.cap with retired := true } }.logEvent 0x0901 sevAttention (i / 2 + 1 <<< 8)

/-- The SPD's figures of a channel. -/
def State.showDimm (s : State) (ch : Nat) (d : Dimm) : State :=
  [2 * ch, 2 * ch + 1].foldl (fun s i =>
    let s := ((s.setFld (MEMCS_DIMM_CAP_GIB i) d.gib).setFld (MEMCS_DIMM_RANKS i) (d.ranks - 1)).setFld (MEMCS_DIMM_X4 i) (b2n d.x4)
    (s.setFld (MEMCS_DIMM_MAXBIN i) d.bin).setReg (MEMCS_SERIAL i).addr d.serial) s

/-- A channel at start: shown, excluded or trained. -/
def State.startChannel (s : State) (ref : Option Dimm) (ch : Nat) (d : Option Dimm) : State :=
  match d with
  | none => s
  | some d =>
    let s := s.showDimm ch d
    let s := { s with mem := { s.mem with limits := instSet 85 s.mem.limits ch d.limit } }
    let differs := match ref with
      | some r => dimmDiffers r d
      | none => true
    if s.dimmPoor d || differs then
      ((s.excludeSub (2 * ch) 3).excludeSub (2 * ch + 1) 3).logEvent 0x0901 sevAttention (ch + 3 <<< 8)
    else
      let t := s.storedTrain d.serial.toNat ch
      let s := s.trainSub (2 * ch) (t.map (fun x => x.1)) d.train0
      s.trainSub (2 * ch + 1) (t.map (fun x => x.2)) d.train1

/-- The order in which granules go round the subchannels (R354). -/
def stripeOrder : List Nat := (List.range 8).flatMap (fun i => [i, i + 8])

/-- Striping, capacity and rates of what is live (R354, R372); every installed byte is zero (R467). -/
def State.stripeUp (s : State) (ref : Option Dimm) : State :=
  let live := stripeOrder.filter (fun i => decide (s.subState i = 2))
  let csub := match ref with
    | some r => r.gib * 2 ^ 29
    | none => 0
  let s := { s with
    sdram := []
    mem := { s.mem with
      stripe := live, csub := csub, ranks := (ref.map (fun (r : Dimm) => r.ranks)).getD 1,
      row8 := (ref.map (fun (r : Dimm) => r.x4)).getD false } }
  let s := s.setFld MEMC_LIVE_LIVE ((live.map (fun i => 2 ^ i)).sum)
  let s := s.setPair MEMC_CAPACITY (live.length * csub)
  s.setFld MEMC_BW_SUST_MBPS s.sustained

/-- Regions overlap, or lie beyond the installed capacity (R34); the ring, L0 and spill stay out of the top C_sub (R369). -/
def State.regionsBad (s : State) : Bool :=
  let rs := s.img.regions.filter (fun r => decide (0 < r.2.2))
  anyMeet (rs.map (fun r => (r.2.1, r.2.1 + r.2.2))) ||
  rs.any (fun r =>
    let e := r.2.1 + r.2.2 - sdramBase
    decide (s.capacity < e) || (decide (8 ≤ r.1) && decide (s.capacity < e + s.mem.csub)))

/-- The reservation of R373 in MB/s, rounded up. -/
def State.reservation (s : State) : Nat :=
  let ring := ((s.img.products.filter (fun x => x.ring)).map (fun x => s.prodBytes x)).sum
  let p := s.pitch * s.vact * 3
  let n := max 1 (s.fld DISP_RND_CFG_N)
  let dealDen := 400 * s.dealLen * n * 2
  let render := if s.dispOn && s.flag DISP_RND_CFG_EN then p else 0
  let deals := (ring * n * 2 + render) * s.nsps
  let lineDen := 2 * (s.fld DISP_CFG_PDIV_M1 + 1) * max 1 (s.fld DISP_H_TIMING_TOTAL) * max 1 (s.fld DISP_V_TIMING_TOTAL)
  let fetch := if s.dispOn then p * 600000000 * (1 + s.fld DISP_CFG_XFADE) else 0
  let spill := 2 * (s.fld (ETHP_SPILL_RATE_MBPS 0) + s.fld (ETHP_SPILL_RATE_MBPS 1))
  ceilDiv (deals * lineDen + fetch * dealDen) (dealDen * lineDen * 1000000) + spill + 8000

/-- Whether the reservation leaves too little for an evacuation (R373). -/
def State.reservationBad (s : State) (rsv : Nat) : Bool :=
  let n := s.mem.stripe.length
  let one := (s.mem.stripe.head?.map s.subRate).getD 0
  match n with
  | 0 => false
  | 1 => decide (one < rsv)
  | _ => decide ((n - 1) * one < rsv + 25600)

/-- Step 9. -/
def State.startMemory (s : State) (dimms : List (Option Dimm)) : State :=
  let dimms := (dimms ++ List.replicate 8 none).take 8
  let ref := (dimms.filterMap id).find? (fun d => !s.dimmPoor d)
  let s := (dimms.zipIdx).foldl (fun s x => s.startChannel ref x.2 x.1) s
  let here := (dimms.filterMap id).map (fun (d : Dimm) => d.serial.toNat)
  let s := { s with test := { s.test with seen := here ++ s.test.seen.filter (fun n => decide (n ∉ here)) } }
  let s := (s.stripeUp ref).gatherDue
  let rsv := s.reservation
  let s := s.setFld MEMC_BW_RSV_MBPS rsv
  if s.regionsBad then s.configError 0x17 0x09 0xFFF 9
  else if s.reservationBad rsv then s.configError 0x18 0x09 0xFFF 9
  else s.setSup 10

/-! ### Steps 10 and 11 -/

/-- The links that carry an enabled stream and are not UP (R467): bit 4p + l. -/
def State.linksWaited (s : State) : Nat :=
  let ls := ((allStreams.filter (fun x => s.flag (ETH_S_CFG_EN x.1 x.2) && !s.streamUp x.1 x.2)).map
    (fun x => 4 * x.1 + s.linkOf x.1 x.2)).eraseDups
  (ls.map (fun i => 2 ^ i)).sum

/-- Step 11 begins: the Dealers put out samples, and the first deal is the first whose tick still lies ahead (R38, R467). -/
def State.startDealers (s : State) : State :=
  let s := (List.range 4).foldl (fun s i => s.setDealer i { s.dealerOf i with on := true }) s
  let s := s.setSup 11
  if s.time.waitAlign then s
  else if s.flag DEAL_CFG_ALIGN && !s.flag DEAL_STAT_UNALIGNED then
    let first := max s.deal.first (ceilDiv (s.dealerOf 0).j.toNat s.dealLen)
    { s with deal := { s.deal with next := first, first := first } }
  else s.countUnaligned

/-- Step 10 ends: every link awaited is UP, or ETH_WAIT_MS has passed (R467, R482). -/
def State.endEthWait (s : State) (waited : Nat) : State :=
  let w := s.linksWaited
  if w = 0 then s.startDealers
  else if waited < s.img.ethWaitMs then s
  else (s.logEvent 0x000A sevInfo w).startDealers

/-- A start step ends (R467); a result that does not belong to the step in progress changes nothing. -/
def State.startStep (s : State) (r : StepResult) : State :=
  match s.sup, r with
  | 1, .ended => { s with railsBad := false }.beginRom
  | 2, .rom good version =>
    if good then (s.setReg SUP_ROM_VERSION_MAJOR.addr version).setSup 3 else s.halt 0x1A 2
  | 3, .fuses zeroed left => s.readFuses zeroed left
  | 4, .bist mb lb tdc ms => s.bist mb lb tdc.toNat ms
  | 5, .ended => s.readStore
  | 6, .image sfdp bad => s.tryImage sfdp bad
  | 7, .clocks refclk stored found tables => s.startClocks refclk stored found tables
  | 8, .converters refclk khz waited => s.startConverters refclk khz waited
  | 9, .ddr dimms => s.startMemory dimms
  | 10, .links waited => s.endEthWait waited
  | _, _ => s

/-- START_STEP_COMPLETE (R467). -/
def execStartStepComplete (r : StepResult) (s : State) : Host.Outcome State Fault Refusal := done (s.startStep r)

end Sys2Proof.Machine
end

