-- ==== Sys2Proof/Machine/Dispatch.lean ====
section
/-! DEFINITION. One arm for each command: a direct call of its meaning. -/

namespace Sys2Proof.Machine

/-- The effect of a command on everything but the queue. -/
def exec (i : Instr) (s : State) : Host.Outcome State Fault Refusal :=
  match i with
  | .registerWrite src addr bytes value => Sys2Proof.Machine.execRegisterWrite src addr bytes value s
  | .closePoint => Sys2Proof.Machine.execClosePoint s
  | .dealTick ms => Sys2Proof.Machine.execDealTick ms s
  | .stageGateWrite gate => Sys2Proof.Machine.execStageGateWrite gate s
  | .stageRelease => Sys2Proof.Machine.execStageRelease s
  | .amendmentSubmit hi => Sys2Proof.Machine.execAmendmentSubmit hi s
  | .amendmentChecked => Sys2Proof.Machine.execAmendmentChecked s
  | .amdCancel => Sys2Proof.Machine.execAmdCancel s
  | .dealWorkLate leader deal => Sys2Proof.Machine.execDealWorkLate leader deal s
  | .overrun leader deal => Sys2Proof.Machine.execOverrun leader deal s
  | .sclkLost => Sys2Proof.Machine.execSclkLost s
  | .calDwellEnd input meas => Sys2Proof.Machine.execCalDwellEnd input meas s
  | .calReq input => Sys2Proof.Machine.execCalReq input s
  | .calHoldWrite input hold => Sys2Proof.Machine.execCalHoldWrite input hold s
  | .snapshotGo input lenM1 => Sys2Proof.Machine.execSnapshotGo input lenM1 s
  | .snapshotFillStart input => Sys2Proof.Machine.execSnapshotFillStart input s
  | .snapshotFillEnd input => Sys2Proof.Machine.execSnapshotFillEnd input s
  | .snapshotRetire input => Sys2Proof.Machine.execSnapshotRetire input s
  | .rawTapEntry input entry samples => Sys2Proof.Machine.execRawTapEntry input entry samples s
  | .dealerHop input samples => Sys2Proof.Machine.execDealerHop input samples s
  | .coefDataRead input => Sys2Proof.Machine.execCoefDataRead input s
  | .taskDispatch p up => Sys2Proof.Machine.execTaskDispatch p up s
  | .load p slot ecc => Sys2Proof.Machine.execLoad p slot ecc s
  | .st p slot => Sys2Proof.Machine.execSt p slot s
  | .stAdd p slot ecc => Sys2Proof.Machine.execStAdd p slot ecc s
  | .stHist p slot => Sys2Proof.Machine.execStHist p slot s
  | .push p slot => Sys2Proof.Machine.execPush p slot s
  | .cmul p slot => Sys2Proof.Machine.execCmul p slot s
  | .pwr p slot => Sys2Proof.Machine.execPwr p slot s
  | .add p slot => Sys2Proof.Machine.execAdd p slot s
  | .sub p slot => Sys2Proof.Machine.execSub p slot s
  | .ldv p slot => Sys2Proof.Machine.execLdv p slot s
  | .clr p slot => Sys2Proof.Machine.execClr p slot s
  | .cselMax p slot => Sys2Proof.Machine.execCselMax p slot s
  | .cselMin p slot => Sys2Proof.Machine.execCselMin p slot s
  | .log2 p slot => Sys2Proof.Machine.execLog2 p slot s
  | .exp p slot => Sys2Proof.Machine.execExp p slot s
  | .norm p slot => Sys2Proof.Machine.execNorm p slot s
  | .bfly4 p slot => Sys2Proof.Machine.execBfly4 p slot s
  | .bfly2 p slot => Sys2Proof.Machine.execBfly2 p slot s
  | .move p slot => Sys2Proof.Machine.execMove p slot s
  | .vperm p slot => Sys2Proof.Machine.execVperm p slot s
  | .moveExp p slot => Sys2Proof.Machine.execMoveExp p slot s
  | .setsc p slot => Sys2Proof.Machine.execSetsc p slot s
  | .setscB p slot => Sys2Proof.Machine.execSetscB p slot s
  | .setscE p slot => Sys2Proof.Machine.execSetscE p slot s
  | .bexpClr p slot => Sys2Proof.Machine.execBexpClr p slot s
  | .agBase p slot => Sys2Proof.Machine.execAgBase p slot s
  | .agOff p slot => Sys2Proof.Machine.execAgOff p slot s
  | .agStep p slot => Sys2Proof.Machine.execAgStep p slot s
  | .agLstr p slot => Sys2Proof.Machine.execAgLstr p slot s
  | .agMod p slot => Sys2Proof.Machine.execAgMod p slot s
  | .agBr p slot => Sys2Proof.Machine.execAgBr p slot s
  | .agInwin p slot => Sys2Proof.Machine.execAgInwin p slot s
  | .agParam p slot => Sys2Proof.Machine.execAgParam p slot s
  | .agCarry p slot => Sys2Proof.Machine.execAgCarry p slot s
  | .tw p slot => Sys2Proof.Machine.execTw p slot s
  | .twInc p slot => Sys2Proof.Machine.execTwInc p slot s
  | .idxr p slot => Sys2Proof.Machine.execIdxr p slot s
  | .hb p slot => Sys2Proof.Machine.execHb p slot s
  | .hm p slot => Sys2Proof.Machine.execHm p slot s
  | .hl p slot => Sys2Proof.Machine.execHl p slot s
  | .xpub p slot => Sys2Proof.Machine.execXpub p slot s
  | .xwait p slot => Sys2Proof.Machine.execXwait p slot s
  | .xwaitSatisfied p => Sys2Proof.Machine.execXwaitSatisfied p s
  | .ropen p slot => Sys2Proof.Machine.execRopen p slot s
  | .rclose p slot => Sys2Proof.Machine.execRclose p slot s
  | .carrySet p slot => Sys2Proof.Machine.execCarrySet p slot s
  | .carryAdd p slot => Sys2Proof.Machine.execCarryAdd p slot s
  | .nextWord p up => Sys2Proof.Machine.execNextWord p up s
  | .repeatLoop p count stop up => Sys2Proof.Machine.execRepeatLoop p count stop up s
  | .jmp p target up => Sys2Proof.Machine.execJmp p target up s
  | .br p cond target up => Sys2Proof.Machine.execBr p cond target up s
  | .commit p ends target up => Sys2Proof.Machine.execCommit p ends target up s
  | .resultFifoDrain p => Sys2Proof.Machine.execResultFifoDrain p s
  | .routineRestart p bad up => Sys2Proof.Machine.execRoutineRestart p bad up s
  | .issueWatchdog p => Sys2Proof.Machine.execIssueWatchdog p s
  | .takeoverComplete logical ns bad shared => Sys2Proof.Machine.execTakeoverComplete logical ns bad shared s
  | .handForce value => Sys2Proof.Machine.execHandForce value s
  | .handCfgWrite value => Sys2Proof.Machine.execHandCfgWrite value s
  | .recordRelease => Sys2Proof.Machine.execRecordRelease s
  | .recordAbsent deal => Sys2Proof.Machine.execRecordAbsent deal s
  | .fmtEventArrival index => Sys2Proof.Machine.execFmtEventArrival index s
  | .arbitrationWindowClose scope => Sys2Proof.Machine.execArbitrationWindowClose scope s
  | .pksMerge product deal scope => Sys2Proof.Machine.execPksMerge product deal scope s
  | .zoomSegment chain => Sys2Proof.Machine.execZoomSegment chain s
  | .zcSettleEnd chain => Sys2Proof.Machine.execZcSettleEnd chain s
  | .zcPowerValue chain => Sys2Proof.Machine.execZcPowerValue chain s
  | .edgeTimed channel count code x => Sys2Proof.Machine.execEdgeTimed channel count code x s
  | .timeoutFire slot isB => Sys2Proof.Machine.execTimeoutFire slot isB s
  | .todFire g => Sys2Proof.Machine.execTodFire g s
  | .trgForce mask idx => Sys2Proof.Machine.execTrgForce mask idx s
  | .trigOutAssert o late => Sys2Proof.Machine.execTrigOutAssert o late s
  | .trigOutRelease o => Sys2Proof.Machine.execTrigOutRelease o s
  | .triggerArrival unit ns => Sys2Proof.Machine.execTriggerArrival unit ns s
  | .captureRowComplete unit acked => Sys2Proof.Machine.execCaptureRowComplete unit acked s
  | .segmentComplete unit => Sys2Proof.Machine.execSegmentComplete unit s
  | .acceptanceWindowClose channel => Sys2Proof.Machine.execAcceptanceWindowClose channel s
  | .secondBoundary => Sys2Proof.Machine.execSecondBoundary s
  | .gridMarker die k count code => Sys2Proof.Machine.execGridMarker die k count code s
  | .codeDensityRefresh channel hits => Sys2Proof.Machine.execCodeDensityRefresh channel hits s
  | .resync => Sys2Proof.Machine.execResync s
  | .timeEpochSet hi => Sys2Proof.Machine.execTimeEpochSet hi s
  | .refLost quiet edges => Sys2Proof.Machine.execRefLost quiet edges s
  | .refRequal windows fewest most => Sys2Proof.Machine.execRefRequal windows fewest most s
  | .relockComplete locked ns => Sys2Proof.Machine.execRelockComplete locked ns s
  | .cgUnlock m => Sys2Proof.Machine.execCgUnlock m s
  | .cgBandSearch m band ns => Sys2Proof.Machine.execCgBandSearch m band ns s
  | .cgMdll2CfgWrite value => Sys2Proof.Machine.execCgMdll2CfgWrite value s
  | .clkoutCfgWrite o value => Sys2Proof.Machine.execClkoutCfgWrite o value s
  | .phaseStep o => Sys2Proof.Machine.execPhaseStep o s
  | .dieLinkRetransmit link => Sys2Proof.Machine.execDieLinkRetransmit link s
  | .linkFail link => Sys2Proof.Machine.execLinkFail link s
  | .memoryRequest off write cls ecc served => Sys2Proof.Machine.execMemoryRequest off write cls ecc served s
  | .refreshDue sub rank bank => Sys2Proof.Machine.execRefreshDue sub rank bank s
  | .powerDownEntry sub sr => Sys2Proof.Machine.execPowerDownEntry sub sr s
  | .dimmTempPoll ch t => Sys2Proof.Machine.execDimmTempPoll ch t s
  | .retrainWindow sub ends => Sys2Proof.Machine.execRetrainWindow sub ends s
  | .memcRetrain sub => Sys2Proof.Machine.execMemcRetrain sub s
  | .memcStore => Sys2Proof.Machine.execMemcStore s
  | .evacuationGranuleCopy answers ue => Sys2Proof.Machine.execEvacuationGranuleCopy answers ue s
  | .scrubStep sub ces ue => Sys2Proof.Machine.execScrubStep sub ces ue s
  | .ethSignalDetect port link => Sys2Proof.Machine.execEthSignalDetect port link s
  | .linkUp port link => Sys2Proof.Machine.execLinkUp port link s
  | .ethAlignTimeout port link => Sys2Proof.Machine.execEthAlignTimeout port link s
  | .linkDown port link cause => Sys2Proof.Machine.execLinkDown port link cause s
  | .ethFrameReceived port link corr uncorr => Sys2Proof.Machine.execEthFrameReceived port link corr uncorr s
  | .packetTransmit port link ns => Sys2Proof.Machine.execPacketTransmit port link ns s
  | .recordAgeExpiry port stream => Sys2Proof.Machine.execRecordAgeExpiry port stream s
  | .spillReadBack port ue => Sys2Proof.Machine.execSpillReadBack port ue s
  | .gapRecord port stream => Sys2Proof.Machine.execGapRecord port stream s
  | .statRecord port => Sys2Proof.Machine.execStatRecord port s
  | .vdifFrame port stream => Sys2Proof.Machine.execVdifFrame port stream s
  | .kittyWord word last => Sys2Proof.Machine.execKittyWord word last s
  | .kitCut => Sys2Proof.Machine.execKitCut s
  | .kitTagRead => Sys2Proof.Machine.execKitTagRead s
  | .kitDrop => Sys2Proof.Machine.execKitDrop s
  | .pciePerst => Sys2Proof.Machine.execPciePerst s
  | .hotReset kind => Sys2Proof.Machine.execHotReset kind s
  | .pcieLinkDown => Sys2Proof.Machine.execPcieLinkDown s
  | .portDataRead => Sys2Proof.Machine.execPortDataRead s
  | .portDataWrite value => Sys2Proof.Machine.execPortDataWrite value s
  | .apertureAccess off len data => Sys2Proof.Machine.execApertureAccess off len data s
  | .cplLate addr => Sys2Proof.Machine.execCplLate addr s
  | .hostIntPendClear mask => Sys2Proof.Machine.execHostIntPendClear mask s
  | .msixEnable en fmask => Sys2Proof.Machine.execMsixEnable en fmask s
  | .dmaStart c en ie dir => Sys2Proof.Machine.execDmaStart c en ie dir s
  | .dmaStop c ie dir => Sys2Proof.Machine.execDmaStop c ie dir s
  | .dmaBurstComplete data => Sys2Proof.Machine.execDmaBurstComplete data s
  | .dmaErr c data => Sys2Proof.Machine.execDmaErr c data s
  | .dispHpd up => Sys2Proof.Machine.execDispHpd up s
  | .irqHpd => Sys2Proof.Machine.execIrqHpd s
  | .dispTrainingEnd good => Sys2Proof.Machine.execDispTrainingEnd good s
  | .dispRetrain => Sys2Proof.Machine.execDispRetrain s
  | .lineStart line gotY gotC => Sys2Proof.Machine.execLineStart line gotY gotC s
  | .lineMatch => Sys2Proof.Machine.execLineMatch s
  | .dispClosePoint => Sys2Proof.Machine.execDispClosePoint s
  | .frameDone => Sys2Proof.Machine.execFrameDone s
  | .vblankStart => Sys2Proof.Machine.execVblankStart s
  | .frameBegin => Sys2Proof.Machine.execFrameBegin s
  | .dispCommit => Sys2Proof.Machine.execDispCommit s
  | .renderStart => Sys2Proof.Machine.execRenderStart s
  | .renderDone => Sys2Proof.Machine.execRenderDone s
  | .powerOn rise cool => Sys2Proof.Machine.execPowerOn rise cool s
  | .resetN ns taken cool => Sys2Proof.Machine.execResetN ns taken cool s
  | .startStepComplete r => Sys2Proof.Machine.execStartStepComplete r s
  | .supervisorWatchdog => Sys2Proof.Machine.execSupervisorWatchdog s
  | .thermalShutdown => Sys2Proof.Machine.execThermalShutdown s
  | .flashRead => Sys2Proof.Machine.execFlashRead s
  | .flashProgram => Sys2Proof.Machine.execFlashProgram s
  | .flashErase4k => Sys2Proof.Machine.execFlashErase4k s
  | .flashErase64k => Sys2Proof.Machine.execFlashErase64k s
  | .flashDone ready => Sys2Proof.Machine.execFlashDone ready s
  | .lcAdvance confirm target => Sys2Proof.Machine.execLcAdvance confirm target s
  | .lcTransitionDone zeroed left blown => Sys2Proof.Machine.execLcTransitionDone zeroed left blown s
  | .otpKey => Sys2Proof.Machine.execOtpKey s
  | .otpPkh => Sys2Proof.Machine.execOtpPkh s
  | .otpSecure => Sys2Proof.Machine.execOtpSecure s
  | .otpProgrammed => Sys2Proof.Machine.execOtpProgrammed s
  | .iftDue q => Sys2Proof.Machine.execIftDue q s
  | .iftTestEnd q lb mb => Sys2Proof.Machine.execIftTestEnd q lb mb s
  | .iftHandback q => Sys2Proof.Machine.execIftHandback q s
  | .iftRun p => Sys2Proof.Machine.execIftRun p s
  | .calSave => Sys2Proof.Machine.execCalSave s
  | .calSaveDue => Sys2Proof.Machine.execCalSaveDue s
  | .calStoreWrite fails => Sys2Proof.Machine.execCalStoreWrite fails s
  | .calLoad src inputs => Sys2Proof.Machine.execCalLoad src inputs s
  | .jmapEdit remove p => Sys2Proof.Machine.execJmapEdit remove p s
  | .testCsDataRead => Sys2Proof.Machine.execTestCsDataRead s
  | .smbusAddr addr pec => Sys2Proof.Machine.execSmbusAddr addr pec s
  | .smbusDataRead => Sys2Proof.Machine.execSmbusDataRead s
  | .smbusDataWrite value pec => Sys2Proof.Machine.execSmbusDataWrite value pec s
  | .smbusStatus => Sys2Proof.Machine.execSmbusStatus s
  | .alertResponse => Sys2Proof.Machine.execAlertResponse s
  | .telemetryUpdate mv ma temps mj rail => Sys2Proof.Machine.execTelemetryUpdate mv ma temps mj rail s
  | .vinLow mv => Sys2Proof.Machine.execVinLow mv s
  | .overvoltageStop mv => Sys2Proof.Machine.execOvervoltageStop mv s
  | .ilimit ma => Sys2Proof.Machine.execIlimit ma s
  | .overvoltageRelease => Sys2Proof.Machine.execOvervoltageRelease s
  | .pcieLinkUp rate width => Sys2Proof.Machine.execPcieLinkUp rate width s
  | .unaligned => Sys2Proof.Machine.execUnaligned s
  | .kitClkLost => Sys2Proof.Machine.execKitClkLost s
  | .tapInstruction t => Sys2Proof.Machine.execTapInstruction t s
  | .subchannelPhyFailure sub => Sys2Proof.Machine.execSubchannelPhyFailure sub s
  | .railsNotGood => Sys2Proof.Machine.execRailsNotGood s
  | .ppsCountedEdge ns x => Sys2Proof.Machine.execPpsCountedEdge ns x s

end Sys2Proof.Machine
end

