-- ==== Sys2Proof/Safety.lean ====
section
/-! DEFINITION. What counts as a safe step, and the words in which statements say what a command leaves as it was: the fields
of registers, and the parts of the state, that it does not write. -/

namespace Sys2Proof

open Sys2Proof.Machine

/-- The outcome is a next state. -/
def Completes (o : Host.Outcome State Fault Refusal) : Prop := ∃ t, o = .next t

/-! ### The derived signals -/

/-- A field of a register that shows no derived signal: not FAULT in SUP_STAT or HOST_STAT, not ALERT in VREG_STAT, not
HOST_INT_REQ or HOST_INT_PEND. Every command brings those five up to date with the conditions behind them. -/
def quiet (f : Field) : Bool :=
  decide (f.addr ≠ HOST_INT_REQ_REQ.addr) && decide (f.addr ≠ HOST_INT_PEND_PEND.addr) &&
  [SUP_STAT_FAULT, HOST_STAT_FAULT, VREG_STAT_ALERT].all (fun g =>
    decide (f.addr ≠ g.addr) || decide (g.lo < f.lo) || decide (f.lo + f.width ≤ g.lo))

/-- The derived signals are what R212, R425 and R537 say of the conditions behind them: FAULT_N and the two bits that show it,
SMB_ALERT_N and the bit that shows it, and HOST_INT_REQ. -/
def Signals (s : State) : Prop :=
  s.pins.fault = s.faultCond ∧ s.flag SUP_STAT_FAULT = s.pins.fault ∧ s.flag HOST_STAT_FAULT = s.pins.fault ∧
  s.flag VREG_STAT_ALERT = s.pins.smbAlert ∧
  (s.pins.smbAlert = true →
    s.pins.fault = true ∨ (s.reg VREG_STAT.addr).toNat &&& s.fld VREG_ALERT_CFG_SMB_EN ≠ 0) ∧
  (∀ v < 32, s.bitSet HOST_INT_REQ_REQ v = s.vectorActive v)

/-! ### What stays as it was -/

/-- Two fields share no bit. -/
def apart (f g : Field) : Prop := f.addr ≠ g.addr ∨ g.lo + g.width ≤ f.lo ∨ f.lo + f.width ≤ g.lo

/-- Every field of every register stays as it was, but for the fields of `w` and the derived signals. -/
def KeepsFields (w : List Field) (s t : State) : Prop :=
  ∀ f : Field, quiet f = true → (∀ g ∈ w, apart f g) → t.fld f = s.fld f

/-- A state is another in every part but its registers, FAULT_N and SMB_ALERT_N, the pending bits of MSI-X, and the
messages sent. -/
def SameParts (u t : State) : Prop :=
  t = { u with regs := t.regs, out := t.out, host := { u.host with pba := t.host.pba },
               pins := { u.pins with fault := t.pins.fault, smbAlert := t.pins.smbAlert } }

/-- Nothing has left the device but MSI-X messages. -/
def OnlyMsix (s t : State) : Prop := ∃ vs : List Nat, t.out = s.out ++ vs.map Out.msix

/-- Command `c` completes from `s` in a state of which `result` holds. Of the registers it writes the fields `w` at most; the
other parts of the state are those of `parts t`, a state built of `s` and of the parts of the outcome `t` that the command may
change; and it sends `sent`, then MSI-X messages at most. -/
def Runs (c : Instr) (s : State) (w : List Field) (parts : State → State) (result : State → Prop)
    (sent : List Out := []) : Prop :=
  ∃ t, exec c s = .next t ∧ result t ∧ KeepsFields w s t ∧ SameParts (parts t) t ∧
    OnlyMsix { s with out := s.out ++ sent } t

/-- The two registers of a pair, whole. -/
def pairFields (p : Pair) : List Field := [{ addr := p.addr, lo := 0, width := 32 }, { addr := p.addr + 4, lo := 0, width := 32 }]

/-- A register, whole. -/
def wholeReg (a : Nat) : Field := { addr := a, lo := 0, width := 32 }

/-- What logging an event can write in the registers (R211, R212). -/
def logFields : List Field := [HAND_LOG_COUNT_COUNT, HAND_STAT_LOG_ATTN, HAND_STAT_LOG_FATAL]

/-- A state with the event log of another. -/
def withLogOf (s t : State) : State := { s with hand := { s.hand with log := t.hand.log }, lastFatal := t.lastFatal }

/-- A slot of physical engine `p`'s running microword takes the state that its slots write to `core`, and changes nothing else. -/
def SlotGives (c : Instr) (s : State) (p : Nat) (core : EngCore) : Prop :=
  Runs c s [] (fun t => { s with hand := { s.hand with eng := t.hand.eng } })
    (fun t => t.engOf p = { s.engOf p with cur := core } ∧ ∀ q : Nat, q ≠ p → t.engOf q = s.engOf q)

end Sys2Proof
end

