-- ==== Sys2Proof/WellFormed.lean ====
section
/-! DEFINITION. Which commands are well formed: the limits that the types of the operands do not carry. A command that is not
well formed is one that no sender can make: a hop of another number of samples, a linearisation table of another length, a request
off its 64-byte grid. -/

namespace Sys2Proof

/-- A list of exactly `n` samples at a converter's input, in LSB: the converter clips them (R68). -/
def samplesOk (n : Nat) (xs : List Int) : Bool := decide (xs.length = n)

/-- What a start step found is within its ranges (R467). -/
def StepResult.wf : StepResult → Bool
  | .ended => true
  | .rom _ _ => true
  | .fuses _ _ => true
  | .bist _ lb _ _ => lb.all (fun x => decide (x.1 < 4480))
  | .image _ _ => true
  | .clocks _ _ found tables =>
    found.all (fun x => decide (x.1 < 4)) && tables.all (fun x => decide (x.1 < 20) && decide (x.2.length = 512))
  | .converters _ _ _ => true
  | .links _ => true
  | .ddr dimms => decide (dimms.length = 8)

/-- Words of the shared memories lie in a slot's section: 16,384 in the replay ring, 8,192 in the mirror (R196, R197). -/
def sharedOk (l : List SharedWord) : Bool := l.all (fun x => decide (x.word < (if x.res = 1 then 16384 else 8192)))

/-- A command is well formed. -/
def Instr.wf : Instr → Bool
  | .registerWrite _ addr bytes _ => decide (addr < 2 ^ 48) && decide (1 ≤ bytes) && decide (bytes ≤ 64)
  | .rawTapEntry _ _ samples => samplesOk 16 samples
  | .dealerHop _ samples => samplesOk 400 samples
  | .takeoverComplete _ _ bad shared => bad.all (fun x => decide (0x20000 ≤ x) && decide (x < 0x60000)) && sharedOk shared
  | .routineRestart _ shared _ => sharedOk shared
  | .codeDensityRefresh _ hits => decide (hits.length = 512)
  | .memoryRequest off write _ _ _ => decide (off % 64 = 0) && (match write with
    | some bs => decide (bs.length = 64)
    | none => true)
  | .apertureAccess off len data => (match data with
    | some bs => decide (0 < bs.length) && decide (off.val + bs.length ≤ 65536)
    | none => decide (0 < len) && decide (off.val + len ≤ 65536))
  | .dmaBurstComplete data => decide (data.length ≤ 4096)
  | .dmaErr _ data => decide (data.length ≤ 4096)
  | .startStepComplete r => r.wf
  | .telemetryUpdate _ _ temps _ _ => decide (temps.length = 5)
  | _ => true

end Sys2Proof
end

