-- ==== Sys2Proof/Certificates/Slice0/Obligations.lean ====
section
/-! DEFINITION. The statements for the provers. A statement of what a command does is a `Runs` of Safety.lean: it completes; the
result holds; the fields of registers and the parts of the state that it may write are named; and what it sends. -/

open Sys2Proof Sys2Proof.Machine

/-! ### The machine as a whole -/

/-- A step runs the command at the front of the queue, and an empty queue idles. A step at a state whose queue begins with a
command is the command's effect on the state with the queue's rest. A step on an empty queue answers the state itself
(the model's choice, log entry §idle§). (spec/opcode_table.json; spec/INDEX.md) -/
def Obligations.StepRunsFrontCommand : Prop :=
  (∀ (c : Instr) (s : State), Sys2Proof.Machine.step { s with pending := c :: s.pending } = exec c s) ∧
  (∀ (c : Instr) (rest : List Instr) (s : State), s.pending = c :: rest →
    Sys2Proof.Machine.step s = exec c { s with pending := rest }) ∧
  (∀ s : State, s.pending = [] → Sys2Proof.Machine.step s = .next s)

/-- Every step keeps FAULT_N, SMB_ALERT_N and the interrupt requests as their conditions are. From every state in which
FAULT_N is asserted exactly while one of the five conditions of R212 holds and SUP_STAT.FAULT and HOST_STAT.FAULT show
it, VREG_STAT.ALERT shows SMB_ALERT_N, SMB_ALERT_N is asserted only with FAULT_N or a selected VREG_STAT bit, and
HOST_INT_REQ shows exactly the active vectors, every step that answers a next state gives a state of which the same
holds. (R212; R424; R425; R537) -/
def Obligations.EveryStepKeepsTheDerivedSignals : Prop :=
  ∀ s t : State, Signals s → Sys2Proof.Machine.step s = .next t → Signals t

/-- The derived signals agree with their conditions after reset. In the state after reset FAULT_N, SMB_ALERT_N and the bits
that show them, and HOST_INT_REQ, are what their conditions say. (R212; R424; R425; R537) -/
def Obligations.ResetHasTheDerivedSignals : Prop := Signals State.reset

/-- While the watchdog status is set no event is logged and FAULT_N is asserted. While SUP_STAT.WDOG is set, an event is
neither written to the log nor counted and sets neither LOG_ATTN nor LOG_FATAL nor SUP_LAST_FATAL: logging leaves the
state as it is; and any command that completes and leaves WDOG set leaves FAULT_N asserted. (R212; R466) -/
def Obligations.WatchdogSilencesTheLog : Prop :=
  (∀ (s : State) (code sev arg : Nat), s.flag SUP_STAT_WDOG = true → s.logEvent code sev arg = s) ∧
  (∀ (c : Instr) (s t : State), exec c s = .next t → t.flag SUP_STAT_WDOG = true →
    t.pins.fault = true ∧ t.flag SUP_STAT_FAULT = true ∧ t.flag HOST_STAT_FAULT = true)

/-! ### The event log and CRC-32C -/

/-- CRC-32C gives the manual's check value. Over the nine ASCII bytes 123456789 the CRC of records and headers gives
0xE3069283. (spec/17_start_reset_life_cycle.md, CRC-32C under R476) -/
def Obligations.Crc32cCheckValue : Prop :=
  crc32c [0x31, 0x32, 0x33, 0x34, 0x35, 0x36, 0x37, 0x38, 0x39] = 0xE3069283#32

/-- An event enters the log in the slot, with the count and the status bit, that the manual gives. Outside WDOG: an INFO
event with the code and argument of the newest entry raises that entry's REPEAT, up to 255, and writes nothing else. Any
other event advances HAND_LOG_COUNT by one, from 0xFFFFFFFF to 1. It takes an unwritten slot while there is one; in a
full log an ATTENTION or FATAL event takes a slot whose entry is of the largest age, an INFO event a slot whose entry is
of the largest age among INFO entries, or none where there is no INFO entry. The entry holds the new count, the code,
severity, deal number and argument. ATTENTION sets LOG_ATTN, FATAL sets LOG_FATAL. (spec/07_hands_jokers_recovery.md,
the slots and severities of the event log (R210, R211, R212)) -/
def Obligations.EventLogTakesTheSlotAndCount : Prop :=
  ∀ (s : State) (code sev arg : Nat), s.flag SUP_STAT_WDOG = false → s.hand.log.length ≤ 256 →
    let count := s.fld HAND_LOG_COUNT_COUNT
    let same := fun (e : LogEntry) => logAge count e = 0 ∧ e.code = code ∧ e.arg = arg % 2 ^ 32
    let t := s.logEvent code sev arg
    ((sev = sevInfo ∧ ∃ e ∈ s.hand.log, same e) →
      t = { s with hand := { s.hand with log := t.hand.log } } ∧ t.hand.log.length = s.hand.log.length ∧
      ∀ (i : Nat) (e : LogEntry), s.hand.log[i]? = some e →
        (same e → t.hand.log[i]? = some { e with merged := min (e.merged + 1) 255 }) ∧ (¬same e → t.hand.log[i]? = some e)) ∧
    (¬(sev = sevInfo ∧ ∃ e ∈ s.hand.log, same e) →
      let count' := if count = 0xFFFFFFFF then 1 else count + 1
      let entry : LogEntry :=
        { seq := count', code := code, sev := sev, merged := 0, deal := s.pair DEAL_NUM % 2 ^ 32, arg := arg % 2 ^ 32 }
      t.fld HAND_LOG_COUNT_COUNT = count' ∧
      t.flag HAND_STAT_LOG_ATTN = (decide (sev = sevAttention) || s.flag HAND_STAT_LOG_ATTN) ∧
      t.flag HAND_STAT_LOG_FATAL = (decide (sev = sevFatal) || s.flag HAND_STAT_LOG_FATAL) ∧
      (s.hand.log.length < 256 → t.hand.log = s.hand.log ++ [entry]) ∧
      (s.hand.log.length = 256 →
        (∃ (i : Nat) (old : LogEntry), s.hand.log[i]? = some old ∧ (sev = sevInfo → old.sev = sevInfo) ∧
          (∀ e ∈ s.hand.log, (sev = sevInfo → e.sev = sevInfo) → logAge count' e ≤ logAge count' old) ∧
          t.hand.log = s.hand.log.set i entry) ∨
        (sev = sevInfo ∧ (∀ e ∈ s.hand.log, e.sev ≠ sevInfo) ∧ t.hand.log = s.hand.log)))

/-! ### Registers, deals and amendments (00, 01, 02) -/

/-- A register write follows the access code of each bit. An aligned word that may reach a single register, holds no value
the register does not permit, and sets no operation of its own going: each RW and WO bit takes the value written, an LK
bit does so before the end of the image step only, a 1 clears a W1C bit, and every other bit keeps its value in effect;
the staged bits, where there are any, join the held set while the gate is closed, otherwise the writes due at the first
tick whose close point is ahead. A write whose locked bits differ after the image step is recorded at INFO. Nothing else
changes. (R9; R10; R48; R551; spec/00_scope.md) -/
def Obligations.RegisterWriteFollowsTheAccessCodes : Prop :=
  ∀ (s : State) (src : Source) (a : Nat) (v : Word) (r : RegSpec) (inst : List Nat),
    s.alive = true → a % 4 = 0 → aliased a = a → regionAt a = .register → s.reachable src a = true →
    (src = .bar → within 0xC0000 0x10000 a = true) →
    (src = .smbus → s.flag SUP_STAT_WDOG = false ∧ smbusWritable a = true) →
    (a = PORT_DATA.addr → src = .port) → ¬(src = .port ∧ portReg a = true) →
    regAt a = some (r, inst) → r.half = .single → outOfRange false r.fields v.toNat = false →
    s.ownWrite a v = none → (∀ u : State, u.strobe a v = u) →
    let mask := fun (c : Access) (i : Nat) => (word (accessMask c r.fields)).getLsbD i
    let d := s.deal
    let staged : StagedWrite := { addr := a, mask := word (accessMask .st r.fields), value := v, seq := d.writes }
    Runs (.registerWrite src a 4 v) s ([wholeReg a, DEAL_STAT_STAGED_PENDING, DEAL_STAT_GATE_HELD] ++ logFields)
      (fun t => { withLogOf s t with deal := t.deal })
      (fun t =>
        (∀ i < 32, quiet { addr := a, lo := i, width := 1 } = true →
          (t.reg a).getLsbD i =
            if mask .w1c i && v.getLsbD i then false
            else if mask .rw i || mask .wo i || (mask .lk i && !s.imgDone) then v.getLsbD i
            else (s.reg a).getLsbD i) ∧
        (t.deal =
          if staged.mask = 0 then d
          else if s.flag DEAL_CTL_STAGE_GATE then { d with held := d.held ++ [staged], writes := d.writes + 1 }
          else if d.closed then { d with later := d.later ++ [staged], writes := d.writes + 1 }
          else { d with due := d.due ++ [staged], writes := d.writes + 1 }) ∧
        t.hand.log =
          (if s.imgDone && decide ((s.reg a ^^^ v) &&& word (accessMask .lk r.fields) ≠ 0) then s.ignored a else s).hand.log)

/-- Writes that the rules turn away change nothing but the record of them. A write of another size than one aligned word is
ignored and recorded at INFO; from the host it also sets HOST_STAT.PORT_ERR and counts in HOST_ERRS, from DMA it does
not. An aligned word with a value that the register does not permit is ignored and recorded at INFO. A write through
BAR0 outside the HOST block is ignored and counted under PORT_ERR without an entry (the model's reading, log entry
§barOutside§). Before a device is alive a write does nothing. (R6; R9; R418; R434; R551) -/
def Obligations.RefusedWritesChangeNothing : Prop :=
  ∀ (s : State) (src : Source) (a bytes : Nat) (v : Word),
    (s.alive = false → Runs (.registerWrite src a bytes v) s [] (fun _ => s) (fun _ => True)) ∧
    (s.alive = true → src ≠ .smbus → (src = .bar → within 0xC0000 0x10000 a = true) → s.reachable src (aliased a) = true →
      bytes ≠ 4 ∨ a % 4 ≠ 0 →
      let fromHost := decide (src ≠ .dma)
      Runs (.registerWrite src a bytes v) s (logFields ++ [HOST_STAT_PORT_ERR, HOST_ERRS_PORT]) (fun t => withLogOf s t)
        (fun t => t.hand.log = (s.ignored (aliased a)).hand.log ∧
          t.flag HOST_STAT_PORT_ERR = (fromHost || s.flag HOST_STAT_PORT_ERR) ∧
          t.fld HOST_ERRS_PORT = if fromHost then min (s.fld HOST_ERRS_PORT + 1) 0xFFFF else s.fld HOST_ERRS_PORT)) ∧
    (s.alive = true → within 0xC0000 0x10000 a = false →
      Runs (.registerWrite .bar a bytes v) s [HOST_STAT_PORT_ERR, HOST_ERRS_PORT] (fun _ => s)
        (fun t => t.flag HOST_STAT_PORT_ERR = true ∧ t.fld HOST_ERRS_PORT = min (s.fld HOST_ERRS_PORT + 1) 0xFFFF)) ∧
    (∀ (r : RegSpec) (inst : List Nat), s.alive = true → s.reachable .dma a = true → aliased a = a → a % 4 = 0 →
      regionAt a = .register → regAt a = some (r, inst) → a ≠ PORT_DATA.addr → outOfRange false r.fields v.toNat = true →
      Runs (.registerWrite .dma a 4 v) s logFields (fun t => withLogOf s t)
        (fun t => t.hand.log = (s.ignored a).hand.log))

/-- The gate holds staged writes, and its opening or a release moves the whole held set. Writing 1 to STAGE_GATE closes the
gate and leaves every staged and held write where it is. Writing 0, and STAGE_RELEASE, move the whole held set, as one,
to the writes of the first tick whose close point is still ahead; there the two sets stand in the order in which the
writes arrived. STAGED_PENDING and GATE_HELD show what is left. No setting in effect changes. (R47; R48) -/
def Obligations.GateHoldsAndReleasesTheHeldSet : Prop :=
  ∀ s : State,
    let d := s.deal
    let moved : DealState :=
      if d.closed then { d with later := mergeWrites d.later d.held, held := [] }
      else { d with due := mergeWrites d.due d.held, held := [] }
    let shown := [DEAL_STAT_STAGED_PENDING, DEAL_STAT_GATE_HELD]
    let pending := fun (t : State) => t.flag DEAL_STAT_GATE_HELD = false ∧
      t.flag DEAL_STAT_STAGED_PENDING = (!moved.due.isEmpty || !moved.later.isEmpty)
    Runs (.stageGateWrite true) s [DEAL_CTL_STAGE_GATE] (fun _ => s) (fun t => t.flag DEAL_CTL_STAGE_GATE = true) ∧
    Runs (.stageGateWrite false) s (DEAL_CTL_STAGE_GATE :: shown) (fun _ => { s with deal := moved })
      (fun t => t.flag DEAL_CTL_STAGE_GATE = false ∧ pending t) ∧
    Runs .stageRelease s shown (fun _ => { s with deal := moved }) pending

/-- The close point fixes what is due at the tick, and the tick starts a new set. While deals run, the close point passes
once: from then on new writes are for the tick after the next, and of the writes due, and of the held set that the
tick's amendment took, it keeps all but those that the checks at the close point discard, in their order; none takes
effect. Outside running deals, or when it has passed already, nothing changes. A tick leaves the close point of the next
tick ahead and nothing due later; where ticks do not occur (the sample clock has stopped, the start has not ended, or
the device waits for its PPS) it changes nothing. (R46; R47; R264; R399; R71) -/
def Obligations.ClosePointFixesTheTicksWrites : Prop :=
  ∀ (s : State) (ms : Nat),
    (s.deal.closed = false → s.deal.stopped = false → 11 ≤ s.sup → s.sup ≤ 12 →
      Runs .closePoint s
        ([ZC_STAT_REFUSED, ZC_REFUSE_CAUSE, ZC_REFUSE_CHAIN, ETH_STAT_REFUSED, DEAL_STAT_STAGED_PENDING, DEAL_STAT_GATE_HELD] ++
          logFields)
        (fun t => { withLogOf s t with deal := { s.deal with closed := true, due := t.deal.due, amdHeld := t.deal.amdHeld } })
        (fun t => t.deal.closed = true ∧ t.deal.due.Sublist s.deal.due ∧ t.deal.amdHeld.Sublist s.deal.amdHeld ∧
          (s.amdDue s.deal.next = false → t.deal.amdHeld = s.deal.amdHeld))) ∧
    ((s.deal.closed = true ∨ s.deal.stopped = true ∨ s.sup < 11 ∨ 12 < s.sup) →
      Runs .closePoint s [] (fun _ => s) (fun _ => True)) ∧
    (s.ticking = true → ∃ t, exec (.dealTick ms) s = .next t ∧ t.deal.closed = false ∧ t.deal.later = [] ∧
      t.flag DEAL_STAT_STAGED_PENDING = !t.deal.due.isEmpty ∧ t.flag DEAL_STAT_GATE_HELD = !t.deal.held.isEmpty) ∧
    (s.ticking = false → Runs (.dealTick ms) s [] (fun _ => s) (fun _ => True))

/-- An amendment moves through IDLE, CHECK and PENDING as the state table says. DEAL_COMMIT_HI in IDLE stores the target,
takes the held set with it and goes to CHECK with AMD_BUSY; in CHECK or PENDING it is ignored and recorded. When the
checks end, a refusal returns the set ahead of newer held writes and goes to IDLE with AMD_REFUSED, CODE and RECORD, a
held cancel does the same with CODE 0x0C, and an amendment that passes goes to PENDING with AMD_PENDING and its SEQ
recorded; where the close point of its tick has passed, its held set is judged then (the model's choice, log entry
§amdJudge§). AMD_CANCEL in IDLE is ignored and recorded, in CHECK is held, in PENDING before the close point of its tick
ends the amendment with CODE 0x0C, after it does nothing. Under WDOG a submission changes only DEAL_COMMIT and neither
check nor cancel does anything. (R48; R55; R56; R466) -/
def Obligations.AmendmentMovesThroughItsStates : Prop :=
  ∀ (s : State) (hi : Word),
    let d := s.deal
    let lo := sparseGet (fun _ => (0 : Word)) s.holdLo DEAL_COMMIT.addr
    let shown := [DEAL_STAT_STAGED_PENDING, DEAL_STAT_GATE_HELD]
    let judged := [ZC_STAT_REFUSED, ZC_REFUSE_CAUSE, ZC_REFUSE_CHAIN, ETH_STAT_REFUSED]
    let back : DealState :=
      { d with amdState := .idle, amdCancel := false, amdRecs := [], held := d.amdHeld ++ d.held, amdHeld := [] }
    let ended := [DEAL_STAT_AMD_BUSY, DEAL_STAT_AMD_PENDING, DEAL_STAT_AMD_REFUSED, DEAL_CTL_AMD_CANCEL, wholeReg DEAL_AMD_STAT_CODE.addr]
    let refusedAs := fun (code rec' : Nat) (t : State) =>
      t.flag DEAL_STAT_AMD_BUSY = false ∧ t.flag DEAL_STAT_AMD_PENDING = false ∧ t.flag DEAL_STAT_AMD_REFUSED = true ∧
      t.fld DEAL_AMD_STAT_CODE = code % 256 ∧ t.fld DEAL_AMD_STAT_RECORD = rec' % 65536 ∧
      t.flag DEAL_STAT_GATE_HELD = !back.held.isEmpty
    (s.flag SUP_STAT_WDOG = false → d.amdState = .idle →
      Runs (.amendmentSubmit hi) s (pairFields DEAL_COMMIT ++ DEAL_STAT_AMD_BUSY :: shown)
        (fun t => { s with deal := t.deal })
        (fun t => t.deal = { d with
            amdState := .check, amdCancel := false, amdHeld := d.held, held := [], amdEarly := if d.closed then d.next + 1 else d.next } ∧
          t.flag DEAL_STAT_AMD_BUSY = true ∧ t.flag DEAL_STAT_GATE_HELD = false ∧
          t.pair DEAL_COMMIT = lo.toNat + 2 ^ 32 * hi.toNat)) ∧
    (s.flag SUP_STAT_WDOG = false → d.amdState ≠ .idle →
      Runs (.amendmentSubmit hi) s logFields (fun t => withLogOf s t)
        (fun t => t.hand.log = (s.ignored (DEAL_COMMIT.addr + 4)).hand.log)) ∧
    (s.flag SUP_STAT_WDOG = true →
      Runs (.amendmentSubmit hi) s (pairFields DEAL_COMMIT) (fun _ => s) (fun _ => True) ∧
      Runs .amendmentChecked s [] (fun _ => s) (fun _ => True) ∧ Runs .amdCancel s [] (fun _ => s) (fun _ => True)) ∧
    (s.flag SUP_STAT_WDOG = false → d.amdState = .check →
      (∀ (r : AmdRefusal) (zoom : Bool), s.checkAmendment = .error (r, zoom) →
        Runs .amendmentChecked s (wholeReg DEAL_BUDGET_ENG_FAIL.addr :: ended ++ shown) (fun _ => { s with deal := back })
          (refusedAs r.code r.rec')) ∧
      (∀ rs : List ImageRecord, s.checkAmendment = .ok rs → d.amdCancel = true →
        Runs .amendmentChecked s (wholeReg DEAL_BUDGET_ENG_FAIL.addr :: ended ++ shown) (fun _ => { s with deal := back })
          (refusedAs 0x0C 0xFFFF)) ∧
      (∀ rs : List ImageRecord, s.checkAmendment = .ok rs → d.amdCancel = false →
        let now := d.closed && decide (s.amdTick ≤ d.next)
        Runs .amendmentChecked s
          (wholeReg DEAL_BUDGET_ENG_FAIL.addr :: DEAL_STAT_AMD_BUSY :: DEAL_STAT_AMD_PENDING :: pairFields DEAL_AMD_SEQ ++
            if now then judged ++ shown ++ logFields else [])
          (fun t => { (if now then withLogOf s t else s) with
            deal := { d with amdState := .pending, amdRecs := rs, due := t.deal.due, amdHeld := t.deal.amdHeld } })
          (fun t => t.flag DEAL_STAT_AMD_BUSY = false ∧ t.flag DEAL_STAT_AMD_PENDING = true ∧
            t.pair DEAL_AMD_SEQ = leNat (s.amdBytes 0x10 8) % 2 ^ 64 ∧
            t.deal.due.Sublist d.due ∧ t.deal.amdHeld.Sublist d.amdHeld ∧
            (now = false → t.deal.due = d.due ∧ t.deal.amdHeld = d.amdHeld))) ∧
      Runs .amdCancel s [DEAL_CTL_AMD_CANCEL] (fun _ => { s with deal := { d with amdCancel := true } })
        (fun t => t.flag DEAL_CTL_AMD_CANCEL = true)) ∧
    (s.flag SUP_STAT_WDOG = false → d.amdState = .idle →
      Runs .amdCancel s logFields (fun t => withLogOf s t)
        (fun t => t.hand.log = (s.ignored DEAL_CTL_AMD_CANCEL.addr).hand.log)) ∧
    (s.flag SUP_STAT_WDOG = false → d.amdState = .pending →
      (d.next < s.amdTick ∨ d.closed = false →
        Runs .amdCancel s (ended ++ shown) (fun _ => { s with deal := back }) (refusedAs 0x0C 0xFFFF)) ∧
      (s.amdTick ≤ d.next → d.closed = true → Runs .amdCancel s [] (fun _ => s) (fun _ => True)))

/-- A hand late with a deal is shown, and one still unfinished at tick n + 3 abandons it. At tick n + 2 or later a hand that
still owes work of deal n: DEAL_STAT.WORK_LATE is set, every leaf of the hand marks deal n late, and DEAL_LATE_COUNT
rises by one, saturating, when no hand was late with the deal before and no amendment made it late (once for each deal:
the model's reading, log entry §lateOnce§). At tick n + 3 or later OVERRUN is set and an ATTENTION event is logged
outside WDOG. A hand that owes nothing changes nothing. (R41; R212) -/
def Obligations.LateHandsAreShownAndAbandoned : Prop :=
  ∀ (s : State) (h : Fin 1024) (n : Nat),
    let ls := s.handOf h
    let owes := ls.any (fun l => s.leafOwes l n)
    let known := decide (n ∈ s.deal.lateDeals) || (List.range 1024).any (fun l => decide (n ∈ (s.leafOf l).late))
    (n + 2 ≤ s.pair DEAL_NUM → owes = true →
      Runs (.dealWorkLate h n) s [DEAL_STAT_WORK_LATE, DEAL_LATE_COUNT_COUNT]
        (fun t => { s with hand := { s.hand with leaf := t.hand.leaf } })
        (fun t => t.flag DEAL_STAT_WORK_LATE = true ∧
          t.fld DEAL_LATE_COUNT_COUNT =
            (if known then s.fld DEAL_LATE_COUNT_COUNT else min (s.fld DEAL_LATE_COUNT_COUNT + 1) 0xFFFFFFFF) ∧
          (∀ l ∈ ls, n ∈ (t.leafOf l).late) ∧ (∀ l : Nat, l ∉ ls → t.leafOf l = s.leafOf l))) ∧
    (n + 3 ≤ s.pair DEAL_NUM → owes = true → ∃ t, exec (.overrun h n) s = .next t ∧ t.flag DEAL_STAT_OVERRUN = true ∧
      (t.flag SUP_STAT_WDOG = false → t.flag HAND_STAT_LOG_ATTN = true ∧ t.pins.fault = true)) ∧
    (s.pair DEAL_NUM < n + 2 ∨ owes = false →
      Runs (.dealWorkLate h n) s [] (fun _ => s) (fun _ => True)) ∧
    (s.pair DEAL_NUM < n + 3 ∨ owes = false → Runs (.overrun h n) s [] (fun _ => s) (fun _ => True))

/-! ### Converters and Dealers (03, 04) -/

/-- Losing the external sample clock is fatal and ends the ticks. With the external clock selected, its loss sets
CONV_STAT.SCLK_LOST, logs a FATAL event and asserts FAULT_N, and from then on a tick and a close point change nothing.
With the internal clock selected the event has no effect. (R71; R46; R212) -/
def Obligations.SampleClockLossEndsTheTicks : Prop :=
  ∀ s : State,
    (s.flag CONV_CLK_SRC = false →
      Runs .sclkLost s (CONV_STAT_SCLK_LOST :: logFields) (fun t => { withLogOf s t with deal := { s.deal with stopped := true } })
        (fun t => t.flag CONV_STAT_SCLK_LOST = true ∧ t.deal.stopped = true ∧ t.pins.fault = true ∧
          (s.flag SUP_STAT_WDOG = false → t.flag HAND_STAT_LOG_FATAL = true ∧ t.lastFatal = (0x0402, 0)) ∧
          Runs .closePoint t [] (fun _ => t) (fun _ => True) ∧
          ∀ ms : Nat, Runs (.dealTick ms) t [] (fun _ => t) (fun _ => True))) ∧
    (s.flag CONV_CLK_SRC = true → Runs .sclkLost s [] (fun _ => s) (fun _ => True))

/-- Calibration requests, holds and dwells change the calibrator alone. A request for full recalibration waits for its tick
in CAL_REQ; while one runs it is ignored and recorded, and with the calibrator stopped it is discarded. CAL_HOLD takes
the value written; setting it notes the limit counts and clearing it takes them back, and the next dwell begins at the
next tick. The end of a dwell writes no register: it stages the visited lane's trims, or the swap of a failed lane, for
the tick, and says where the ruler goes then; when the ruler has failed the calibrator stops instead, with CAL_STOPPED
and an ATTENTION event. Nothing but the input's calibrator and those bits changes. (R77; R80; R81; R84; R87) -/
def Obligations.CalibrationCommandsStageTheirChanges : Prop :=
  ∀ (s : State) (i : Fin 4) (m : CalMeasure),
    let mode := s.fld (CONVI_LANE_STAT_MODE i)
    let hold := s.bitSet CONV_CTL_CAL_HOLD i
    let c := s.calibOf i
    let parts := fun (t : State) => { s with conv := { s.conv with calib := t.conv.calib } }
    let becomes := fun (x : Calib) (t : State) => t.calibOf i = x ∧ ∀ j : Nat, j ≠ i → t.calibOf j = s.calibOf j
    (mode ≠ modeRecal → mode ≠ modeStopped →
      Runs (.calReq i) s [CONV_CTL_CAL_REQ.bit i] (fun _ => s) (fun t => t.bitSet CONV_CTL_CAL_REQ i = true)) ∧
    (mode = modeRecal →
      Runs (.calReq i) s logFields (fun t => withLogOf s t) (fun t => t.hand.log = (s.ignored CONV_CTL.addr).hand.log)) ∧
    (mode = modeStopped → Runs (.calReq i) s [] (fun _ => s) (fun _ => True)) ∧
    Runs (.calHoldWrite i true) s [CONV_CTL_CAL_HOLD.bit i] parts
      (fun t => t.bitSet CONV_CTL_CAL_HOLD i = true ∧ becomes (if hold then c else { c with kept := c.limits }) t) ∧
    Runs (.calHoldWrite i false) s [CONV_CTL_CAL_HOLD.bit i] parts
      (fun t => t.bitSet CONV_CTL_CAL_HOLD i = false ∧ becomes (if hold then { c with restart := true, limits := c.kept } else c) t) ∧
    (mode ≠ modeStopped → c.dwellLeft = 1 → c.move = none → m.rulerFail = true → mode = modeRotate ∨ mode = modeRecal →
      Runs (.calDwellEnd i m) s (CONVI_LANE_STAT_MODE i :: CONV_STAT_CAL_STOPPED.bit i :: logFields)
        (fun t => { withLogOf s t with conv := { s.conv with calib := t.conv.calib } })
        (fun t => t.fld (CONVI_LANE_STAT_MODE i) = modeStopped ∧ t.bitSet CONV_STAT_CAL_STOPPED i = true ∧
          becomes { c with staged := c.staged.filter (fun x => x.load) } t ∧
          (s.flag SUP_STAT_WDOG = false → t.flag HAND_STAT_LOG_ATTN = true))) ∧
    (mode ≠ modeStopped → c.dwellLeft = 1 → c.move = none → ¬(m.rulerFail = true ∧ (mode = modeRotate ∨ mode = modeRecal)) →
      let slot := s.fld (CONVI_LANE_STAT_SHADOW_SLOT i)
      let lane := s.fld (CONVI_SLOT_LANE_LANE i slot)
      let hits := if atLimit m then instGet 0 c.limits slot + 1 else 0
      let failed := m.residual || decide (3 ≤ hits)
      Runs (.calDwellEnd i m) s [] parts
        (becomes { c with
          limits := instSet 0 c.limits slot (if failed then 0 else hits)
          staged := c.staged ++ dwellChange mode slot lane failed hold m
          move := some (dwellMove mode slot lane failed) })) ∧
    (mode = modeStopped ∨ c.dwellLeft ≠ 1 ∨ c.move.isSome = true → Runs (.calDwellEnd i m) s [] (fun _ => s) (fun _ => True))

/-- An injected snapshot goes through WAIT, FILL and DRAIN and writes its entries once. GO with nothing to refuse it makes
the die's snapshot engine wait for the first entry that begins at least 64 sample periods on, with BUSY set; a refused
GO stores ERR and starts nothing. That entry's first raw index is recorded in CONVi_SNAP_SAMPLE and the fill begins;
once LEN_M1 + 1 entries are taken the drain begins; when the last write is acknowledged the entries stand at the
destination in order, BUSY clears and SNAP_DONE sets. Bytes of capture memory outside the entries, or beyond the
installed capacity, are unchanged. Events that do not meet the engine's state change nothing. (R88; R89; R90; R91) -/
def Obligations.SnapshotRunsThroughItsStates : Prop :=
  ∀ (s : State) (i : Fin 4) (len : BitVec 15),
    let d := dieOf i
    let x := s.snapOf d
    let dest := s.pair (CONVI_SNAP_ADDR i)
    let parts := fun (t : State) => { s with conv := { s.conv with snap := t.conv.snap } }
    let others := fun (t : State) => ∀ e : Nat, e ≠ d → t.snapOf e = s.snapOf e
    (s.snapRefusal i (len.toNat + 1) = 0 →
      Runs (.snapshotGo i len) s [CONVI_INJECT_LEN_M1 i, CONVI_SNAP_STAT_BUSY i, CONVI_SNAP_STAT_OVR i] parts
        (fun t => t.flag (CONVI_SNAP_STAT_BUSY i) = true ∧ others t ∧
          (t.snapOf d).phase = .waiting ∧ (t.snapOf d).input = i ∧ (t.snapOf d).first % 16 = 0 ∧
          s.rawNow + 64 ≤ (t.snapOf d).first ∧ (t.snapOf d).first < s.rawNow + 80 ∧
          (t.snapOf d).dest = dest ∧ (t.snapOf d).entries = len.toNat + 1 ∧ (t.snapOf d).store = [])) ∧
    (s.snapRefusal i (len.toNat + 1) ≠ 0 →
      Runs (.snapshotGo i len) s (CONVI_INJECT_LEN_M1 i :: CONVI_SNAP_STAT_ERR i :: logFields) (fun t => withLogOf s t)
        (fun t => t.fld (CONVI_SNAP_STAT_ERR i) = s.snapRefusal i (len.toNat + 1))) ∧
    (x.phase = .waiting → x.input = i →
      Runs (.snapshotFillStart i) s (pairFields (CONVI_SNAP_SAMPLE i)) parts
        (fun t => t.snapOf d = { x with phase := .filling } ∧ others t ∧
          t.pair (CONVI_SNAP_SAMPLE i) = ofSigned 64 x.first)) ∧
    (x.phase = .filling → x.input = i → x.store.length = x.entries →
      Runs (.snapshotFillEnd i) s [] parts (fun t => t.snapOf d = { x with phase := .draining } ∧ others t)) ∧
    (x.phase = .draining → x.input = i → sdramBase ≤ x.dest →
      let data := x.store.flatten
      Runs (.snapshotRetire i) s [CONVI_SNAP_STAT_BUSY i, CONV_STAT_SNAP_DONE.bit i]
        (fun t => { s with conv := { s.conv with snap := t.conv.snap }, sdram := t.sdram })
        (fun t => (t.snapOf d).phase = .idle ∧ others t ∧ t.flag (CONVI_SNAP_STAT_BUSY i) = false ∧
          t.bitSet CONV_STAT_SNAP_DONE i = true ∧
          (∀ (k : Nat) (b : Byte), data[k]? = some b → x.dest - sdramBase + k < s.capacity → t.sdByte (x.dest - sdramBase + k) = b) ∧
          (∀ o : Nat, o < x.dest - sdramBase ∨ x.dest - sdramBase + data.length ≤ o → t.sdByte o = s.sdByte o))) ∧
    (x.phase ≠ .waiting ∨ x.input ≠ i →
      Runs (.snapshotFillStart i) s [] (fun _ => s) (fun _ => True)) ∧
    (x.phase ≠ .filling ∨ x.input ≠ i → Runs (.snapshotFillEnd i) s [] (fun _ => s) (fun _ => True)) ∧
    (x.phase ≠ .draining ∨ x.input ≠ i → Runs (.snapshotRetire i) s [] (fun _ => s) (fun _ => True))

/-- Raw tap entries, hops and coefficient reads do what the converters and Dealers say. A raw tap entry of a filling
snapshot joins its store as 16 containers in CONVi_FMT's format, with OVR set when a sample is at full scale; an entry
that a capture unit or stream wants carries the tag of R93 and passes on, waits while the die's link is failed, or is
dropped with GAP marked when 512 wait; when no capture unit or stream uses the input its queue is emptied. Before the
converters start, and once the sample clock has stopped, nothing changes. A hop of 400 samples, clipped, joins the
Dealer's history, newest first, sets CONV_STAT.OVR when a sample is at full scale, and, once output is enabled and the
history full (and where no deal begins with it), yields one coarse sample of each of the 256 channels under the next
index. A read of CBKi_COEF_DATA returns h[IDX] and advances IDX modulo 8,192. (R68; R92; R93; R94; R105; R115; R125) -/
def Obligations.TapHopAndCoefficientRead : Prop :=
  ∀ (s : State) (i : Fin 4) (e : Int) (xs : List Int),
    let d := dieOf i
    let x := s.snapOf d
    let q := s.tapOf i
    let taken := decide (x.phase = .filling) && decide (x.input = i) && decide (x.first ≤ 16 * e) && decide (x.store.length < x.entries)
    let wanted := s.rawWanted i
    let data := (xs.map (fun v => leBytes 2 (container (s.flag (CONVI_FMT_ALIGN i)) (s.flag (CONVI_FMT_CODE i)) (clipCode v)))).flatten
    let live := s.time.grid && !s.deal.stopped
    let tag := b2n (taken && decide (x.store.length + 1 = x.entries)) + 2 * b2n q.gap + 4 * b2n taken +
      8 * b2n (decide (q.trim = some (16 * e))) + 16 * b2n (decide ((16 * e) % ((400 * s.dealLen : Nat) : Int) = 0)) +
      32 * b2n (xs.any fullScale) + 64 * i.val
    let ent : TapEntry := { input := i, index := e, data := data, tag := tag }
    let queued := fun (t : State) =>
      t.snapOf d = (if taken then { x with store := x.store ++ [data] } else x) ∧
        t.tapOf i =
          if !wanted then { q with queue := [], gap := false }
          else if s.tapStuck i then
            if q.queue.length < 512 then { q with queue := q.queue ++ [ent], gap := false } else { q with gap := true }
          else { q with given := if s.rawCaptured i then q.given ++ [ent] else [], gap := false }
    (xs.length = 16 → live = true → wanted = true → ∃ t, exec (.rawTapEntry i e xs) s = .next t ∧ queued t) ∧
    (xs.length = 16 → live = true → wanted = false ∨ s.tapStuck i = true →
      Runs (.rawTapEntry i e xs) s [CONVI_SNAP_STAT_OVR i]
        (fun t => { s with conv := { s.conv with snap := t.conv.snap, tap := t.conv.tap } })
        (fun t => queued t ∧ (∀ j : Nat, j ≠ i → t.tapOf j = s.tapOf j) ∧
          t.flag (CONVI_SNAP_STAT_OVR i) = (taken && xs.any fullScale || s.flag (CONVI_SNAP_STAT_OVR i)))) ∧
    (xs.length ≠ 16 ∨ live = false → Runs (.rawTapEntry i e xs) s [] (fun _ => s) (fun _ => True)) ∧
    (let dl := s.dealerOf i
     let hist := ((xs.map clipCode).reverse ++ dl.raw).take 8192
     let out := dl.on && dl.aligned && decide (hist.length = 8192)
     let clips := xs.countP fullScale
     let begins := decide (dl.j % (s.dealLen : Int) = 0)
     let heard := fun (t : State) =>
       (t.dealerOf i).raw = hist ∧ (t.dealerOf i).ovr = (if begins then 0 else dl.ovr) + clips ∧ (t.dealerOf i).ring = dl.ring ∧
       ∀ j : Nat, j ≠ i → t.dealerOf j = s.dealerOf j
     xs.length = 400 → live = true →
      (out = false → ∃ t, exec (.dealerHop i xs) s = .next t ∧ heard t) ∧
      (out = false → s.deal.running = false → s.clk.writes = [] →
        Runs (.dealerHop i xs) s [CONV_STAT_OVR.bit i] (fun t => { s with dealer := t.dealer })
          (fun t => heard t ∧ (0 < clips → t.bitSet CONV_STAT_OVR i = true))) ∧
      (out = true → s.tickFalls i = false → s.img.programs = [] → ∃ t, exec (.dealerHop i xs) s = .next t ∧
        (t.dealerOf i).raw = hist ∧ (t.dealerOf i).j = dl.j + 1 ∧ (∀ j : Nat, j ≠ i → t.dealerOf j = s.dealerOf j) ∧
        ∃ h : CoarseHop, (t.dealerOf i).ring.head? = some h ∧ h.j = dl.j ∧ h.z.length = 256 ∧
          ∀ k < 256, h.z[k]? =
            some (s.coarseWord i k (channelSum dealerTwiddles ({ dl with raw := hist }.branches hist) dl.j k)).1)) ∧
    (let m := s.fld (CBKI_COEF_IDX_IDX i)
     Runs (.coefDataRead i) s [CBKI_COEF_IDX_IDX i] (fun t => { s with rdata := t.rdata })
      (fun t => t.rdata = [BitVec.ofInt 32 ((s.dealerOf i).coefAt m)] ∧ t.fld (CBKI_COEF_IDX_IDX i) = (m + 1) % 8192))

/-! ### Engines (05, 06) -/

/-- The arithmetic of the ALU slot writes A lane by lane as its table says. When the operation is the next of the fetched
microword's, with a variant it has: CMUL (with ACC, J, R, N), PWR (with ACC), ADD, SUB, LDV and CLR write into each lane
of A the value of the table, each component limited to ±(2^47 − 1); a lane that ALSKIP names keeps its value; A's
history moves down, with the OVF mark of what the new value is built from; a lane that was limited sets ACC_OVF and the
OVF latch. Operands are those before the microword, the operation has issued, and nothing else in the device changes.
(R145) -/
def Obligations.AluArithmeticWritesAByItsTable : Prop :=
  ∀ (s : State) (p : Fin 1088) (x : AluSlot),
    let pre := (s.engOf p).pre
    let cur := (s.engOf p).cur.pop
    let m := x.amod.val
    let A := fun (l : Nat) => pre.a.lane l
    let a := fun (l : Nat) => (pre.vreg x.va).lane l
    let b := fun (l : Nat) => (pre.vreg x.vb).lane l
    let lim := fun (v : Int) => clampInt (-(2 ^ 47 - 1)) (2 ^ 47 - 1) v
    let va := pre.vOvf x.va
    let held := fun (reads : Bool) => (reads || decide (x.skip.val ≠ 0)) && pre.hOvf 0
    let writes := fun (c : Instr) (op : Fin 32) (tag : Bool) (re im : Nat → Int) =>
      s.issuesOp p (.alu op x) = true →
      let out := fun (l : Nat) => decide (lim (re l) ≠ re l ∨ lim (im l) ≠ im l)
      let q := Quad.of (fun l => if bitOf x.skip l then A l else { re := lim (re l), im := lim (im l) })
      let sat := (List.range 4).any (fun l => !bitOf x.skip l && out l)
      SlotGives c s p { cur with
        hist := (q :: cur.hist).take 8, hTag := (tag :: cur.hTag).take 8, ovf := sat || cur.ovf,
        sticky := if sat then cur.sticky ||| 2 ^ stAccOvf else cur.sticky }
    let acc := fun (held new : Int) => if bitOf m 3 then held + new else new
    let neg := fun (v : Int) => if bitOf m 0 then -v else v
    let bi := fun (l : Nat) => if bitOf m 1 then 0 else if bitOf m 2 then -(b l).im else (b l).im
    ((bitOf m 2 && bitOf m 1) = false → writes (.cmul p x) 1 (va || pre.vOvf x.vb || held (bitOf m 3))
      (fun l => acc (A l).re (neg ((a l).re * (b l).re - (a l).im * bi l)))
      (fun l => acc (A l).im (neg ((a l).re * bi l + (a l).im * (b l).re)))) ∧
    (m = 0 ∨ m = 8 → writes (.pwr p x) 2 (va || held (bitOf m 3))
      (fun l => acc (A l).re ((a l).re * (a l).re + (a l).im * (a l).im)) (fun l => acc (A l).im 0)) ∧
    (m = 0 →
      writes (.add p x) 3 (va || held true) (fun l => (A l).re + (a l).re) (fun l => (A l).im + (a l).im) ∧
      writes (.sub p x) 4 (va || held true) (fun l => (A l).re - (a l).re) (fun l => (A l).im - (a l).im) ∧
      writes (.ldv p x) 5 (va || held false) (fun l => (a l).re) (fun l => (a l).im) ∧
      writes (.clr p x) 6 (held false) (fun _ => 0) (fun _ => 0))

/-- Compare-select, logarithm, headroom and butterflies do what their rules say. When the operation is the next of the
fetched microword's: CSEL.MAX and CSEL.MIN replace a lane's A.re by a strictly better re(Va), with A.im = IDXR + lane in
the IDX variant, whose IDXR then goes up by 4. LOG2 replaces A.re by the logarithm in 1/1,024 units, A.im by 0. EXP
writes each lane's headroom into Vd and leaves A; NORM also multiplies A by 2^n. BFLY4 and BFLY2 write the sums of their
legs times the twiddles, conjugated in INV, and advance TW with ADV. Skipped lanes keep their value, results but NORM's,
which is exact, are limited to ±(2^47 − 1), and nothing else changes. (R149; R151) -/
def Obligations.AluSpecialOperationsFollowTheirRules : Prop :=
  ∀ (s : State) (p : Fin 1088) (x : AluSlot),
    let pre := (s.engOf p).pre
    let cur := (s.engOf p).cur.pop
    let m := x.amod.val
    let A := fun (l : Nat) => pre.a.lane l
    let a := fun (l : Nat) => (pre.vreg x.va).lane l
    let va := pre.vOvf x.va
    let held := fun (reads : Bool) => (reads || decide (x.skip.val ≠ 0)) && pre.hOvf 0
    let kept := fun (f : Nat → Cx) => Quad.of (fun l => if bitOf x.skip l then A l else f l)
    let next := fun (op : Fin 32) => s.issuesOp p (.alu op x) = true
    let writes := fun (c : Instr) (op : Fin 32) (tag : Bool) (f : Nat → Cx) (after : EngCore → EngCore) =>
      let sat := (List.range 4).any (fun l => !bitOf x.skip l && (limitLane (f l)).2)
      next op → SlotGives c s p (after ((cur.putA (kept (fun l => (limitLane (f l)).1)) tag).satIf sat stAccOvf))
    let select := fun (better : Int → Int → Bool) (l : Nat) =>
      if better (a l).re (A l).re then
        ({ re := (a l).re, im := if m = 4 then ((pre.idxr + l : Nat) : Int) else (A l).im } : Cx)
      else A l
    let index := fun (c : EngCore) => if m = 4 then { c with idxr := (pre.idxr + 4) % 131072 } else c
    let n := fun (l : Nat) => min (headroom 48 (A l).re) (headroom 48 (A l).im)
    let heads := Quad.of (fun l => { re := (n l : Int), im := 0 })
    let inv := fun (v : Cx) => if bitOf m 2 then conjCx v else v
    let w := fun (u : Nat) => inv (twiddle (u % 131072))
    let j : Cx := inv { re := 0, im := 1 }
    let leg := fun (l : Nat) => cmulCx (a l) (w (l * pre.tw))
    let turned := fun (l : Nat) => cmulCx j (leg l)
    let step := fun (k : Nat) (c : EngCore) => if bitOf m 1 then { c with tw := (pre.tw + k * pre.twInc) % 131072 } else c
    let quad4 := fun (l : Nat) => match l with
      | 0 => addCx (addCx (leg 0) (leg 1)) (addCx (leg 2) (leg 3))
      | 1 => addCx (subCx (subCx (leg 0) (turned 1)) (leg 2)) (turned 3)
      | 2 => subCx (addCx (subCx (leg 0) (leg 1)) (leg 2)) (leg 3)
      | _ => subCx (subCx (addCx (leg 0) (turned 1)) (leg 2)) (turned 3)
    let pair2 := fun (l : Nat) =>
      let even := cmulCx (a (l / 2 * 2)) (w 0)
      let odd := cmulCx (a (l / 2 * 2 + 1)) (w (pre.tw + l / 2 * pre.twInc))
      if l % 2 = 0 then addCx even odd else subCx even odd
    (m = 0 ∨ m = 4 →
      writes (.cselMax p x) 7 (va || held true) (select (fun v h => decide (h < v))) index ∧
      writes (.cselMin p x) 8 (va || held true) (select (fun v h => decide (v < h))) index) ∧
    (m = 0 →
      writes (.log2 p x) 9 (held true) (fun l => { re := log2Units (A l).re, im := 0 }) id ∧
      (next 10 → SlotGives (.exp p x) s p (cur.putV x.vd heads (pre.hOvf 0))) ∧
      (next 11 → SlotGives (.norm p x) s p
        ((cur.putA (kept (fun l => { re := (A l).re * 2 ^ n l, im := (A l).im * 2 ^ n l })) (pre.hOvf 0)).putV x.vd heads (pre.hOvf 0)))) ∧
    (bitOf m 0 = false → bitOf m 3 = false →
      writes (.bfly4 p x) 12 (va || held false) quad4 (step 1) ∧ writes (.bfly2 p x) 13 (va || held false) pair2 (step 2))

/-- The MOVE slot writes its V register from the A history, from another V register, or from EXPACC. When the operation is
the next of the fetched microword's: MOVE takes H(SHD + 1) through the scaler with shift SC + 17 × FRAC, rounding half
to even and limiting to ±131,071, sets MOV_SAT and the OVF latch when a component was limited, and with BX takes BEXP
down to the smallest headroom; VPERM permutes the lanes of Vs by the four selectors; MOVE.EXP writes EXPACC into every
lane. Vd takes the OVF mark of what it is built from. Nothing else changes. (R140; R141; R146; R147; R170) -/
def Obligations.MoveSlotWritesItsVRegister : Prop :=
  ∀ (s : State) (p : Fin 1088) (x : MvSlot),
    let pre := (s.engOf p).pre
    let cur := (s.engOf p).cur.pop
    let sh := pre.sc + (if x.frac then 17 else 0)
    let src := pre.h x.shd
    let raw := fun (v : Int) => if 0 < sh then roundEven v sh.toNat else v * ((2 ^ (-sh).toNat : Nat) : Int)
    let lim := fun (v : Int) => clampInt (-131071) 131071 v
    let parts := src.list.map (fun v => raw v.re) ++ src.list.map (fun v => raw v.im)
    let sat := parts.any (fun v => decide (lim v ≠ v))
    let head := fun (v : Int) => if lim v ≠ v then 0 else headroom 18 v
    let q := Quad.of (fun l => { re := lim (raw (src.lane l).re), im := lim (raw (src.lane l).im) })
    (s.issuesOp p (.move 1 x) = true →
      SlotGives (.move p x) s p { cur.putV x.vd q (pre.hOvf x.shd) with
        bexp := if x.bx then min cur.bexp (parts.foldl (fun m v => min m (head v)) 47) else cur.bexp,
        ovf := sat || cur.ovf, sticky := if sat then cur.sticky ||| 2 ^ stMovSat else cur.sticky }) ∧
    (s.issuesOp p (.move 2 x) = true → SlotGives (.vperm p x) s p
      (cur.putV x.vd (Quad.of (fun l => (pre.vreg x.vs).lane (x.sel.val / 4 ^ l % 4))) (pre.vOvf x.vs))) ∧
    (s.issuesOp p (.move 3 x) = true → SlotGives (.moveExp p x) s p
      (cur.putV x.vd (Quad.of (fun _ => { re := pre.expacc, im := 0 })) false))

/-- Loads, stores, adds, histogram updates and pushes reach the elements their generator names, and no other byte. A memory
slot that is the next operation of the fetched microword, with addresses the access rules allow. LOAD writes the four
elements, sign-extended or limited to 18 bits, into Vd, or exactly into A. ST stores V, or A through the scaler, limited
to the format: the element then reads back as the value of the last lane that names it. ST.ADD adds each lane that names
an element, in lane order, limiting each sum; ST.HIST adds one for each lane that names the counter, up to 65,535. Every
other byte of the engine's memory reads as before. PUSH appends its packed entries, and stalls while more than 2,048
stand in the FIFO. Post-increment advances the generator. (R129; R130; R131; R134; R135; R140; R154; R155; R170; R174;
R175; R176) -/
def Obligations.MemorySlotsReachTheirElements : Prop :=
  ∀ (s : State) (p : Fin 1088),
    let e := s.engOf p
    let pre := e.pre
    let cur := e.cur.pop
    let next := fun (op : SlotOp) => s.issuesOp p op = true
    let stepped := fun (g : Fin 4) (pi : Bool) =>
      if pi then instSet AddrGen.zero cur.ag g { cur.agen g with off := (pre.agen g).advance.off } else cur.ag
    let addrs := fun (g : Fin 4) (f : Fmt) => (List.range 4).map (fun l => (pre.agen g).addr f.size l)
    let lanesAt := fun (as : List Nat) (a : Nat) => (List.range 4).filter (fun l => decide (as[l]? = some a))
    let others := fun (core : EngCore) (as : List Nat) (size : Nat) =>
      ∀ b < 0x70000, (∀ a ∈ as, b < a ∨ a + size ≤ b) → s.readElem p core b 1 = s.readElem p cur b 1
    let stored := fun (c : Instr) (x : StSlot) (as : List Nat) (size bexp : Nat) (ovf : Bool) (P : EngCore → Prop) =>
      ∃ core : EngCore, SlotGives c s p core ∧ P core ∧ others core as size ∧
        core = { cur with
          sram := core.sram, memTag := core.memTag, work := core.work, sticky := core.sticky, words := core.words,
          ag := stepped x.ag x.pi, bexp := bexp, ovf := ovf }
    let limited := fun (f : Fmt) (v : Cx) => ({ re := satSym v.re f.width, im := satSym v.im f.width } : Cx)
    (∀ (x : LdSlot) (f : Fmt), next (.load x) → fmtOf x.fmt = some f → firstFault .load f.size (addrs x.ag f) = none →
      s.badSigma p (addrs x.ag f) = false → s.loadStalls p x = false →
      let tag := (addrs x.ag f).any (fun a => s.elemOvf p pre a f.size)
      let vals := Quad.of (fun l => f.decode (s.readElem p pre ((pre.agen x.ag).addr f.size l) f.size))
      ∃ core : EngCore, SlotGives (.load p x .clean) s p core ∧
        core = { cur with
          v := core.v, vTag := core.vTag, hist := core.hist, hTag := core.hTag, ovf := core.ovf, sticky := core.sticky,
          words := core.words, window := core.window, reads := core.reads, ag := stepped x.ag x.pi } ∧
        (x.toA = true → core.hist = (vals :: cur.hist).take 8 ∧ core.hTag = (tag :: cur.hTag).take 8 ∧ core.v = cur.v ∧
          core.vTag = cur.vTag ∧ core.ovf = cur.ovf) ∧
        (x.toA = false → core.hist = cur.hist ∧ core.hTag = cur.hTag ∧ core.vOvf x.vd = tag ∧
          core.v = instSet Quad.zero cur.v x.vd (Quad.of (fun l => (f.toV (vals.lane l)).1)) ∧
          core.ovf = (vals.list.any (fun v => (f.toV v).2) || cur.ovf))) ∧
    (∀ (x : StSlot) (f : Fmt), fmtOf x.fmt = some f →
      let as := addrs x.ag f
      let v := storeValue pre x f
      let bexp := if x.bx && x.fromA then min cur.bexp v.2.2 else cur.bexp
      (next (.store 1 x) → firstFault .store f.size as = none →
        stored (.st p x) x as f.size bexp (v.2.1 || cur.ovf) (fun core => ∀ a ∈ as,
          some (f.decode (s.readElem p core a f.size)) = ((lanesAt as a).getLast?).map v.1.lane)) ∧
      (next (.store 2 x) → firstFault .addHist f.size as = none →
        let sums := fun (a : Nat) => (lanesAt as a).foldl
          (fun (u : Cx × Bool) l => (limited f (addCx u.1 (v.1.lane l)), u.2 || decide (limited f (addCx u.1 (v.1.lane l)) ≠ addCx u.1 (v.1.lane l))))
          (f.decode (s.readElem p cur a f.size), false)
        stored (.stAdd p x .clean) x as f.size bexp (v.2.1 || as.any (fun a => (sums a).2) || cur.ovf) (fun core => ∀ a ∈ as,
          f.decode (s.readElem p core a f.size) = (sums a).1))) ∧
    (∀ x : StSlot, next (.store 3 x) →
      let as := (List.range 4).map (fun l => (pre.agen x.ag).addr 2 l + 2 * histLevel pre ((pre.vreg x.vs).lane l).re)
      let hits := fun (a : Nat) => s.readElem p cur a 2 + (lanesAt as a).length
      firstFault .addHist 2 as = none →
      stored (.stHist p x) x as 2 cur.bexp (as.any (fun a => decide (65535 < hits a)) || cur.ovf) (fun core => ∀ a ∈ as,
        s.readElem p core a 2 = min (hits a) 65535)) ∧
    (∀ (x : StSlot) (f : Fmt) (prod n : Nat), next (.store 4 x) → fmtOf x.fmt = some f → cur.orec = some (prod, n) →
      let v := storeValue pre x f
      let items := pushEntries f x.fmt (storeOvf pre x) v.1
      n + items.length ≤ 8192 → entryCount cur.fifoW + items.length ≤ 2048 →
      let full := decide (2048 < entryCount e.fifo + entryCount cur.fifoW + items.length)
      Runs (.push p x) s [] (fun t => { s with hand := { s.hand with eng := t.hand.eng } })
        (fun t => (∀ q : Nat, q ≠ p → t.engOf q = s.engOf q) ∧
          t.engOf p = { e with
            stall := if full then some .push else none
            cur := { cur with
              fifoW := cur.fifoW ++ items, orec := some (prod, n + items.length),
              bexp := if x.bx && x.fromA then min cur.bexp v.2.2 else cur.bexp, ovf := v.2.1 || cur.ovf,
              sticky := if v.2.1 then cur.sticky ||| 2 ^ stMovSat else cur.sticky } }))

/-- The CTL slot sets the block scale and the address generators. When the operation is the next of the fetched microword's:
SETSC, SETSC.B and SETSC.E set SC from the 5-bit immediate, from it less BEXP, or from it less 2 × EXPACC, limited to
−16 to +15; SETSC.B adds the new SC to EXPACC, which saturates at −128 and +127, and clears BEXP to 47 as BEXP.CLR does;
a limit in SETSC.E, or of EXPACC, sets MOV_SAT and the OVF latch. AG.BASE, OFF, STEP, LSTR, MOD and BR set their field
of the named generator, AG.INWIN sets it up for the input window, AG.PARAM takes its BASE from the descriptor and
AG.CARRY its OFF from CARRY. Immediates are in the field's width, and nothing else changes. (R127; R141; R147; R156;
R170) -/
def Obligations.ControlSlotSetsScaleAndGenerators : Prop :=
  ∀ (s : State) (p : Fin 1088) (x : CtlSlot),
    let e := s.engOf p
    let pre := e.pre
    let cur := e.cur.pop
    let gives := fun (c : Instr) (op : Fin 64) (core : EngCore) => s.issuesOp p (.ctl op x) = true → SlotGives c s p core
    let v := x.imm.toNat
    let g := toSigned 5 v
    let note := fun (sat : Bool) (c : EngCore) =>
      { c with ovf := sat || cur.ovf, sticky := if sat then cur.sticky ||| 2 ^ stMovSat else cur.sticky }
    let sets := fun (c : Instr) (op : Fin 64) (f : AddrGen → AddrGen) =>
      gives c op { cur with ag := instSet AddrGen.zero cur.ag x.ag (f (cur.agen x.ag)) }
    gives (.bexpClr p x) 3 { cur with bexp := 47 } ∧
    (v < 32 →
      gives (.setsc p x) 1 { cur with sc := g } ∧
      (let sc := clampInt (-16) 15 (g - (pre.bexp : Int))
       let acc := pre.expacc + sc
       gives (.setscB p x) 2
        (note (decide (acc < -128 ∨ 127 < acc)) { cur with sc := sc, expacc := clampInt (-128) 127 acc, bexp := 47 })) ∧
      (let sc := g - 2 * pre.expacc
       gives (.setscE p x) 25 (note (decide (sc < -16 ∨ 15 < sc)) { cur with sc := clampInt (-16) 15 sc }))) ∧
    (x.ag.val ≠ 3 →
      sets (.agBase p x) 4 (fun a => { a with base := v }) ∧
      (v < 2 ^ 17 →
        sets (.agOff p x) 5 (fun a => { a with off := v }) ∧ sets (.agStep p x) 6 (fun a => { a with step := toSigned 17 v }) ∧
        sets (.agLstr p x) 7 (fun a => { a with lstr := toSigned 17 v }) ∧ sets (.agMod p x) 8 (fun a => { a with mod := v })) ∧
      (v ≤ 17 → sets (.agBr p x) 9 (fun a => { a with br := v })) ∧
      (∀ d : Descriptor, e.task = some d →
        sets (.agInwin p x) 10 (fun a => { a with base := 0, mod := 32768, off := (d.inBase % 32768).toNat, br := 0 }) ∧
        (v < 8 → sets (.agParam p x) 11 (fun a => { a with base := d.param.getD v 0 % 2 ^ 20 }))) ∧
      sets (.agCarry p x) 12 (fun a => { a with off := pre.carry % 2 ^ 17 }))

/-- The CTL slot sets the routine's other registers, opens and closes records, and waits for siblings. When the operation is
the next of the fetched microword's: TW, TW_INC, IDXR, HB (signed), HM and HL take their immediates; XPUB adds one to
what the next commit publishes; ROPEN opens a record of the product when none is open and RCLOSE closes the open one;
CARRY.SET and CARRY.ADD (signed, modulo 2^32) change CARRY. XWAIT on a sibling that exists stalls the engine unless the
sibling's committed count has reached XS + v, modulo 65,536; a stalled engine resumes when it has, and not before.
Nothing else changes. (R139; R141; R154; R170; R176; R191; R207) -/
def Obligations.ControlSlotSetsRegistersRecordsAndWaits : Prop :=
  ∀ (s : State) (p : Fin 1088) (x : CtlSlot),
    let e := s.engOf p
    let cur := e.cur.pop
    let v := x.imm.toNat
    let gives := fun (c : Instr) (op : Fin 64) (core : EngCore) => s.issuesOp p (.ctl op x) = true → SlotGives c s p core
    ((v < 2 ^ 17 → gives (.tw p x) 13 { cur with tw := v } ∧ gives (.twInc p x) 14 { cur with twInc := v } ∧
        gives (.idxr p x) 15 { cur with idxr := v }) ∧
      (v < 2 ^ 18 → gives (.hb p x) 16 { cur with hb := if v < 2 ^ 17 then (v : Int) else (v : Int) - 2 ^ 18 } ∧
        gives (.hm p x) 17 { cur with hm := v }) ∧
      (v < 2 ^ 7 → gives (.hl p x) 18 { cur with hl := v }) ∧
      gives (.xpub p x) 19 { cur with xpub := cur.xpub + 1 } ∧
      (∀ d : Descriptor, e.task = some d → v < 2 ^ 8 → cur.orec = none →
        gives (.ropen p x) 21 { cur with orec := some (v, 0), fifoW := cur.fifoW ++ [.opens d.prog v d.deal d.frame false] }) ∧
      (∀ r : Nat × Nat, cur.orec = some r →
        gives (.rclose p x) 22 { cur with orec := none, fifoW := cur.fifoW ++ [.closes] }) ∧
      gives (.carrySet p x) 23 { cur with carry := v } ∧
      gives (.carryAdd p x) 24
        { cur with carry := (e.pre.carry + (if v < 2 ^ 19 then v else 2 ^ 32 + v - 2 ^ 20)) % 2 ^ 32 }) ∧
    (∀ l : Nat, s.sibling? (s.logicalOf p) x.ag = some l →
      let reached := !s.flag (HAND_MAP_VALID l) || (!s.flag (HAND_MAP_PENDING l) &&
        decide (((s.fld (ENG_XCNT_XCNT (s.fld (HAND_MAP_PHYS l))) : Int) - ((e.task.map (fun d => d.xs)).getD 0 + v : Nat)) % 65536 < 32768))
      let engine := fun (c : Instr) (e' : Engine) =>
        Runs c s [] (fun t => { s with hand := { s.hand with eng := t.hand.eng } })
          (fun t => t.engOf p = e' ∧ ∀ q : Nat, q ≠ p → t.engOf q = s.engOf q)
      (s.issuesOp p (.ctl 0x14 x) = true → v < 2 ^ 16 →
        engine (.xwait p x) { e with
          cur := { cur with reads := cur.reads ++ [l] }, stall := if reached then none else some (.xwait x.ag v) }) ∧
      (e.stall = some (.xwait x.ag v) →
        engine (.xwaitSatisfied p) { e with stall := if reached then none else some (.xwait x.ag v) }))

/-- Sequencing goes on to the next microword, and COMMIT makes the routine's work lasting. When every slot of the fetched
microword has issued, within the commit bound, where the next microword's copy is whole and its encoding legal: NEXT, a
BR whose condition is false, a JMP or BR forward in the same region, and a legal REPEAT raise the sticky bits, add the
microword's cost to the commit counter, make what its slots wrote the state the next microword reads, and go to the
address the loop stack, the target or the body's start gives, whose microword is then fetched. COMMIT with END, in a
routine that is no vendor library program's, outside a loop and with no record open, makes the working words and FIFO
entries lasting with the OVF latch as tag, adds XPUB to XCNT modulo 65,536, and ends the task: the engine goes to IDLE
and its V registers and data SRAM stay. (R141; R142; R157; R166; R169; R173; R177; R181; R134; R135; R139) -/
def Obligations.SequencingAndCommitFollowTheirRules : Prop :=
  ∀ (s : State) (p : Fin 1088),
    let e := s.engOf p
    let c := e.cur
    let cost := max (conflictCost c.words) (if c.window then 2 else 1)
    let word' := fun (pc : Nat) => s.storeWord (clusterOf p) pc
    let clean := fun (pc : Nat) => parityGood (word' pc) = true ∧ wordIllegal (word' pc) = false
    let same := fun (a : Nat) => ∀ d : Descriptor, e.task = some d → (0x3000 ≤ a ↔ 0x3000 ≤ d.entry)
    let goes := fun (i : Instr) (op : SeqOp) (pc : Nat) (loops : List Loop) =>
      s.issuesOp p (.seq op) = true → clean pc →
      let next := { c with pc := pc, loops := loops, cc := c.cc + cost, todo := wordOps (word' pc), words := [],
                           window := false, sticky := 0 }
      Runs i s [wholeReg (ENG_STAT p).addr] (fun t => { s with hand := { s.hand with eng := t.hand.eng } })
        (fun t => t.engOf p = { e with pre := next, cur := next } ∧ (∀ q : Nat, q ≠ p → t.engOf q = s.engOf q) ∧
          t.reg (ENG_STAT p).addr = s.reg (ENG_STAT p).addr ||| BitVec.ofNat 32 c.sticky)
    let held := fun (target : Nat) => c.loops.dropWhile (fun l => !(decide (l.start ≤ target) && decide (target ≤ l.stop)))
    (c.cc + cost ≤ 65536 →
      goes (.nextWord p .clean) .next (stepLoops c.loops c.pc).1 (stepLoops c.loops c.pc).2 ∧
      (∀ (count : BitVec 16) (stop : BitVec 14), c.loops.length < 4 → c.pc < stop.toNat → same stop.toNat →
        (∀ l : Loop, c.loops.head? = some l → stop.toNat ≤ l.stop) →
        goes (.repeatLoop p count stop .clean) (.repeatLoop count stop) (c.pc + 1) ({ start := c.pc + 1, stop := stop.toNat, left := count.toNat + 1 } :: c.loops)) ∧
      (∀ target : BitVec 14, c.pc < target.toNat → same target.toNat →
        goes (.jmp p target .clean) (.jump target) target.toNat (held target.toNat) ∧
        ∀ cond : Fin 16, brCond e cond = some true →
          goes (.br p cond target .clean) (.branch cond target) target.toNat (held target.toNat)) ∧
      (∀ (cond : Fin 16) (target : BitVec 14), brCond e cond = some false → same target.toNat →
        goes (.br p cond target .clean) (.branch cond target) (stepLoops c.loops c.pc).1 (stepLoops c.loops c.pc).2)) ∧
    (∀ (target : BitVec 14) (up : Upset), s.issuesOp p (.seq (.commit true target)) = true → s.libraryRoutine p = .none →
      c.loops = [] → c.orec = none → ∃ t : State, exec (.commit p true target up) s = .next t ∧
      (t.engOf p).task = none ∧ t.fld (ENG_STAT_STATE p) = esIdle ∧ (t.engOf p).cur.v = c.v ∧ (t.engOf p).cur.sram = c.sram ∧
      ((s.leafOf (s.logicalOf p)).ring.length < 1024 → (∀ x ∈ s.img.products, s.combiners x.number = []) →
        t.fld (ENG_XCNT_XCNT p) = (s.fld (ENG_XCNT_XCNT p) + c.xpub) % 65536 ∧
        (t.engOf p).fifo = e.fifo ++ c.fifoW.map (markOvf c.ovf))) ∧
    (∀ (target : BitVec 14) (d : Descriptor), s.issuesOp p (.seq (.commit false target)) = true →
      s.libraryRoutine p = .none → c.loops = [] → e.task = some d → c.pc < target.toNat → target.toNat ≠ 0x3FFF →
      same target.toNat → clean target.toNat → (c.work.map (fun x => x.1)).Nodup →
      let d' := { d with entry := target.toNat, carry := c.carry }
      Runs (.commit p false target .clean) s [wholeReg (ENG_STAT p).addr, ENG_XCNT_XCNT p]
        (fun t => { s with hand := { s.hand with
          eng := t.hand.eng, mirror := t.hand.mirror, mirTag := t.hand.mirTag, mirCtl := t.hand.mirCtl } })
        (fun t => (∀ q : Nat, q ≠ p → t.engOf q = s.engOf q) ∧
          (t.engOf p).task = some d' ∧ (t.engOf p).openC = c.orec ∧ (t.engOf p).fifo = e.fifo ++ c.fifoW.map (markOvf c.ovf) ∧
          (t.engOf p).cur = { entryCore c d' c.orec with todo := wordOps (word' target.toNat) } ∧ (t.engOf p).pre = (t.engOf p).cur ∧
          t.fld (ENG_XCNT_XCNT p) = (s.fld (ENG_XCNT_XCNT p) + c.xpub) % 65536 ∧
          ∀ i : Nat, instGet 0 (t.engOf p).acc i = (match instGet none c.work i with
            | some w => w.value
            | none => instGet 0 e.acc i)))

/-! ### Tasks, faults, hands (05, 06, 07) -/

/-- A microword that breaks a rule raises its program fault, and the task is dropped. A store into the input ring or the
trick window, a misaligned or reserved address, a step beyond the commit bound, a next microword whose encoding is
illegal, and a COMMIT with END while a record is open: each completes with the fault's code and the microword's address
in ENGp_FAULT, PROG_FAULT set, the engine's task dropped and the engine idle; outside WDOG an ATTENTION event is logged.
An engine that does not issue changes nothing at all. (R130; R140; R159; R169; R173; R176; R181) -/
def Obligations.RuleBreakingMicrowordsRaiseProgramFaults : Prop :=
  ∀ (s : State) (p : Fin 1088),
    let e := s.engOf p
    let pre := e.pre
    let cur := e.cur
    let next := fun (op : SlotOp) => s.issuesOp p op = true
    let faultsAt := fun (pc : Nat) (c : Instr) (code : Nat) => ∃ t : State, exec c s = .next t ∧
      t.fld (ENG_FAULT_CODE p) = code ∧ t.fld (ENG_FAULT_PC p) = pc % 2 ^ 14 ∧ t.flag (ENG_STAT_PROG_FAULT p) = true ∧
      (t.engOf p).task = none ∧ t.fld (ENG_STAT_STATE p) = esIdle ∧
      (s.flag SUP_STAT_WDOG = false → t.flag HAND_STAT_LOG_ATTN = true)
    let faults := faultsAt pre.pc
    let then' := stepLoops cur.loops cur.pc
    let word' := s.storeWord (clusterOf p) then'.1
    ((∀ (x : LdSlot) (f : Fmt) (a code : Nat), next (.load x) → fmtOf x.fmt = some f → s.loadStalls p x = false →
        (pre.agen x.ag).addr f.size 0 = a → accessFault .load a f.size = some code → faults (.load p x .clean) code) ∧
      (∀ (x : StSlot) (f : Fmt) (a code : Nat), fmtOf x.fmt = some f → (pre.agen x.ag).addr f.size 0 = a →
        (next (.store 1 x) → accessFault .store a f.size = some code → faults (.st p x) code) ∧
        (next (.store 2 x) → accessFault .addHist a f.size = some code → faults (.stAdd p x .clean) code)) ∧
      (∀ up : Upset, next (.seq .next) → 65536 < cur.cc + issueCost cur → faults (.nextWord p up) 0x14) ∧
      (next (.seq .next) → cur.cc + issueCost cur ≤ 65536 → parityGood word' = true → wordIllegal word' = true →
        faultsAt then'.1 (.nextWord p .clean) 0x10) ∧
      (∀ (target : BitVec 14) (up : Upset), next (.seq (.commit true target)) → s.libraryRoutine p = .none →
        cur.orec.isSome = true → faults (.commit p true target up) 0x10)) ∧
    (s.issues p = false → ∀ up : Upset,
      ∀ c ∈ ([.nextWord p up, .commit p true 0 up, .xpub p ⟨0, 0⟩, .clr p ⟨0, 0, 0, 0, 0⟩] : List Instr),
      Runs c s [] (fun _ => s) (fun _ => True))

/-- Tasks start in ring order, abandoned routines restart, and committed results drain one at a time. An idle engine that
serves takes the first descriptor of its leaf's ring that is not held, sets the routine's entry state, ENGp_IN_BASE and
ENGp_IN_LEN, and goes to RUN; where no descriptor is ready nothing changes. An abandoned routine whose engine runs, and
whose substitute is ready, restarts from ENTRY with the committed descriptor. A drained FIFO entry leaves the front of
the FIFO and joins the record being drained, with its OVF mark; an engine stalled by PUSH goes on once room is free.
Nothing else changes. (R127; R158; R171; R172; R173; R174; R175; R179; R218) -/
def Obligations.TasksStartRestartAndDrain : Prop :=
  ∀ (s : State) (p : Fin 1088),
    let e := s.engOf p
    let l := s.logicalOf p
    let x := s.leafOf l
    let word' := fun (pc : Nat) => s.storeWord (clusterOf p) pc
    let clean := fun (pc : Nat) => parityGood (word' pc) = true ∧ wordIllegal (word' pc) = false
    let serves := s.engState p = esIdle ∧ s.flag (ENG_ID_ACTIVE p) = true ∧ e.task = none ∧ s.flag (HAND_MAP_PENDING l) = false
    let entered := fun (d : Descriptor) (e' : Engine) =>
      e'.task = some d ∧ e'.cur = { entryCore e.pre d e.openC with todo := wordOps (word' d.entry) } ∧ e'.pre = e'.cur ∧ e'.stall = none ∧ e'.halted = false
    (∀ d : Descriptor, serves → x.ring.find? (fun d => !s.heldTask l d) = some d → d.entry ≠ 0x3FFF → clean d.entry →
      Runs (.taskDispatch p .clean) s (ENG_STAT_STATE p :: ENG_IN_LEN_LEN p :: pairFields (ENG_IN_BASE p))
        (fun t => { s with hand := { s.hand with eng := t.hand.eng, leaf := t.hand.leaf, mirCtl := t.hand.mirCtl } })
        (fun t => entered { d with xs := s.fld (ENG_XCNT_XCNT p) } (t.engOf p) ∧ (t.engOf p).xstart = s.fld (ENG_XCNT_XCNT p) ∧
          t.fld (ENG_STAT_STATE p) = esRun ∧ t.pair (ENG_IN_BASE p) = ofSigned 64 d.inBase ∧
          t.fld (ENG_IN_LEN_LEN p) = d.inLen % 2 ^ 15 ∧
          t.leafOf l = { x with ring := x.ring.erase d, taken := x.taken + 1 } ∧ (∀ k : Nat, k ≠ l → t.leafOf k = s.leafOf k) ∧
          ∀ q : Nat, q ≠ p → t.engOf q = s.engOf q)) ∧
    (¬serves ∨ x.ring.find? (fun d => !s.heldTask l d) = none →
      ∀ up : Upset, Runs (.taskDispatch p up) s [] (fun _ => s) (fun _ => True)) ∧
    (∀ d : Descriptor, e.task = some d → e.halted = true → s.engState p = esRun → s.flag (HAND_MAP_PENDING l) = false →
      (∀ w : Nat, e.await = some w → s.flag (HAND_MAP_PENDING w) = false) → clean d.entry →
      Runs (.routineRestart p [] .clean) s [] (fun t => { s with hand := { s.hand with eng := t.hand.eng } })
        (fun t => entered d (t.engOf p) ∧ ∀ q : Nat, q ≠ p → t.engOf q = s.engOf q)) ∧
    (e.halted = false → ∀ (bad : List SharedWord) (up : Upset),
      Runs (.routineRestart p bad up) s [] (fun _ => s) (fun _ => True)) ∧
    (∀ (d f : Nat) (o : Bool) (rest : List FifoItem), e.fifo = .entry d f o :: rest → s.hand.done = [] →
      (∀ y : FifoItem, rest.head? = some y → ∃ d' f' o', y = .entry d' f' o') →
      Runs (.resultFifoDrain p) s [] (fun t => { s with hand := { s.hand with eng := t.hand.eng } })
        (fun t => t.engOf p = { e with
            fifo := rest, drain := e.drain.map (fun r => { r with words := r.words ++ [(d, f)], ovf := r.ovf || o }),
            stall := if e.stall = some .push ∧ entryCount rest + entryCount e.cur.fifoW ≤ 2048 then none else e.stall } ∧
          ∀ q : Nat, q ≠ p → t.engOf q = s.engOf q)) ∧
    (e.fifo = [] → e.stall = none → s.hand.done = [] → Runs (.resultFifoDrain p) s [] (fun _ => s) (fun _ => True))

/-- A permanent fault retires the engine and its joker takes over the logical engine. When an engine in RUN issues nothing
for WATCHDOG outside a wait, or HAND_FORCE with GO names its logical engine while the joker is free, the engine goes to
RETIRED with code PERMANENT and serves no more, HAND_MAP marks the logical engine PENDING, the joker is in use for that
slot, and the takeover is under way with its cause. HAND_FORCE without GO only stores LOGICAL; with the joker not free,
or a logical engine that no engine serves, it is ignored and recorded. When the takeover completes the substitute serves
the logical engine with the mirror's accumulator words, tags, task and XCNT, the failed engine's data SRAM and result
FIFO, and HAND_SUB_COUNT and HAND_TAKEOVER_MAX record it. (R158; R159; R199; R200; R201; R202; R204) -/
def Obligations.PermanentFaultsHandTheWorkToTheJoker : Prop :=
  ∀ (s : State) (p : Fin 1088) (l : Fin 1024) (v : Word) (ns : Nat) (k : Takeover),
    let c := clusterOf p
    let taken := fun (i : Instr) (cause : Nat) => ∃ t : State, exec i s = .next t ∧
      t.fld (ENG_STAT_STATE p) = esRetired ∧ t.flag (ENG_ID_ACTIVE p) = false ∧ t.fld (ENG_FAULT_CODE p) = 0x20 ∧
      t.flag (HAND_MAP_PENDING (s.logicalOf p)) = true ∧ t.fld (HAND_CLU_JSTATE c) = 2 ∧ t.fld (HAND_CLU_JFOR c) = p.val % 17 ∧
      t.hand.takeover = s.hand.takeover ++ [{ logical := s.logicalOf p, failed := p, taker := jokerOf c, cause := cause }]
    let serving := s.flag SUP_STAT_WDOG = false ∧ s.flag (ENG_ID_ACTIVE p) = true ∧ s.fld (HAND_CLU_JSTATE c) = 0 ∧ p.val % 17 ≠ 16
    (serving → s.engState p = esRun → (s.engOf p).stall = none → taken (.issueWatchdog p) 4) ∧
    (s.engState p ≠ esRun ∨ (s.engOf p).stall ≠ none → Runs (.issueWatchdog p) s [] (fun _ => s) (fun _ => True)) ∧
    (serving → s.engState p ≠ esRetired → v.getLsbD 31 = true → s.flag (HAND_MAP_VALID (v.toNat % 1024)) = true →
      s.fld (HAND_MAP_PHYS (v.toNat % 1024)) = p → taken (.handForce v) 5) ∧
    (v.getLsbD 31 = false →
      Runs (.handForce v) s [HAND_FORCE_LOGICAL] (fun _ => s) (fun t => t.fld HAND_FORCE_LOGICAL = v.toNat % 1024)) ∧
    (v.getLsbD 31 = true → s.fld (HAND_MAP_PHYS (v.toNat % 1024)) = p →
      s.fld (HAND_CLU_JSTATE c) ≠ 0 ∨ s.flag (HAND_MAP_VALID (v.toNat % 1024)) = false →
      Runs (.handForce v) s logFields (fun t => withLogOf s t)
        (fun t => t.hand.log = (s.ignored HAND_FORCE.addr).hand.log)) ∧
    (s.hand.takeover.find? (fun t => decide (t.logical = l.val)) = some k → k.failed < 1088 → k.taker < 1088 → k.cause ≠ 0 →
      (∀ x ∈ s.hand.takeover, x.failed ≠ k.taker) → (s.mirrorCtl l).task = none →
      let m := s.mirrorCtl l
      ∃ t : State, exec (.takeoverComplete l ns [] []) s = .next t ∧
        t.fld (HAND_MAP_PHYS l) = k.taker ∧ t.flag (HAND_MAP_VALID l) = true ∧ t.flag (HAND_MAP_PENDING l) = false ∧
        t.flag (HAND_MAP_SUB l) = decide (k.taker = jokerOf (clusterOf k.taker)) ∧
        t.fld (ENG_ID_LOGICAL k.taker) = l ∧ t.flag (ENG_ID_ACTIVE k.taker) = true ∧ t.fld (ENG_STAT_STATE k.taker) = esIdle ∧
        t.fld (ENG_XCNT_XCNT k.taker) = m.xcnt % 65536 ∧
        (∀ i < 8192, instGet 0 (t.engOf k.taker).acc i = instGet 0 s.hand.mirror (8192 * l + i) ∧
          instGet false (t.engOf k.taker).tag i = instGet false s.hand.mirTag (8192 * l + i)) ∧
        (t.engOf k.taker).cur.sram = (s.engOf k.failed).pre.sram ∧ (t.engOf k.taker).fifo = (s.engOf k.failed).fifo ∧
        t.fld HAND_SUB_COUNT_COUNT = min (s.fld HAND_SUB_COUNT_COUNT + 1) 0xFFFF ∧
        t.fld HAND_TAKEOVER_MAX_NS = max (s.fld HAND_TAKEOVER_MAX_NS) (min ns 0xFFFFFFFF) ∧ t.flag HAND_STAT_SUB = true ∧
        (∀ x ∈ t.hand.takeover, x.logical ≠ l)) ∧
    ((∀ x ∈ s.hand.takeover, x.logical ≠ l) → Runs (.takeoverComplete l ns [] []) s [] (fun _ => s) (fun _ => True))

/-- HAND_CFG takes limits of at least 1 and the margin warning is judged again. A write whose CONSEC_LIMIT or WATCHDOG would
be 0 is ignored and recorded at INFO. Any other write stores its three fields, and MARGIN_LOW then says whether
HAND_MARGIN_MIN lies below the hiding bound of (101 + WATCHDOG) µs. No other bit changes. (R9; R206; R214; R551) -/
def Obligations.HandConfigurationJudgesTheMargin : Prop :=
  ∀ (s : State) (v : Word),
    let rate := v.toNat / 2 ^ 16 % 256
    let consec := v.toNat / 2 ^ 8 % 16
    let dog := v.toNat % 256
    (consec = 0 ∨ dog = 0 →
      Runs (.handCfgWrite v) s logFields (fun t => withLogOf s t)
        (fun t => t.hand.log = (s.ignored HAND_CFG.addr).hand.log)) ∧
    (consec ≠ 0 → dog ≠ 0 →
      Runs (.handCfgWrite v) s [HAND_CFG_RATE_LIMIT, HAND_CFG_CONSEC_LIMIT, HAND_CFG_WATCHDOG, HAND_STAT_MARGIN_LOW] (fun _ => s)
        (fun t => t.fld HAND_CFG_RATE_LIMIT = rate ∧ t.fld HAND_CFG_CONSEC_LIMIT = consec ∧ t.fld HAND_CFG_WATCHDOG = dog ∧
          t.flag HAND_STAT_MARGIN_LOW = decide (s.fld HAND_MARGIN_MIN_NS < (101 + dog) * 1000)))

/-! ### Records and arbitration (08) -/

/-- Released records go in key order and are counted; overdue ones become absent. RECORD_RELEASE with no record whose lower
keys are settled at some destination changes nothing. Otherwise the first of those records in key order goes to the
destinations that are open to it. When it has had all of them it leaves the pot and POT_REC_COUNT goes up by one; a
record with LATE also counts in POT_LATE_COUNT; until then it waits for the others. One that has only the product ring
left and fits before its end stands there at the old write offset, which moves on by its length. At tick n + 3 or later
RECORD_ABSENT counts what each leaf still owes of deal n, once for each leaf; before that it changes nothing. (R247;
R248; R249) -/
def Obligations.RecordsLeaveInKeyOrderOrBecomeAbsent : Prop :=
  ∀ (s : State) (deal : Nat),
    let ready := s.pot.wait.filter (fun q => s.emitted q.deal && (match s.productNo q.product with
      | some x => (q.awaits x).isEmpty || !(s.openDests q x).isEmpty
      | none => true))
    (ready = [] → Runs .recordRelease s [] (fun _ => s) (fun _ => True)) ∧
    (∀ (q : PotRec) (x : Product), leastRec ready = some q → s.productNo q.product = some x → ∃ t : State,
      exec .recordRelease s = .next t ∧ q ∈ ready ∧
      (∀ r ∈ ready, keyLt r.key q.key = false ∧ (r.key = q.key → q.part ≤ r.part)) ∧
      (let q' : PotRec := { q with sent := q.sent ++ s.openDests q x }
       (q'.awaits x = [] → t.pot.wait = s.pot.wait.erase q ∧ t.pair POT_REC_COUNT = (s.pair POT_REC_COUNT + 1) % 2 ^ 64 ∧
        (s.potFlags q &&& flLate ≠ 0 → t.flag POT_STAT_LATE = true ∧
          t.fld POT_LATE_COUNT_COUNT = min (s.fld POT_LATE_COUNT_COUNT + 1) 0xFFFFFFFF)) ∧
       (q'.awaits x ≠ [] → t.pot.wait = s.pot.wait.map (fun r => if r = q then q' else r) ∧
        t.pair POT_REC_COUNT = s.pair POT_REC_COUNT)) ∧
      (let bytes := s.potBytes q
       let at' := s.ringRegion.1 + s.pair POT_RING_WR - sdramBase
       sdramBase ≤ s.ringRegion.1 → q.awaits x = [2] → s.pair POT_RING_WR + bytes.length < s.ringRegion.2 →
       t.pair POT_RING_WR = (s.pair POT_RING_WR + bytes.length) % 2 ^ 64 ∧
       (∀ (i : Nat) (b : Byte), bytes[i]? = some b → at' + i < s.capacity → t.sdByte (at' + i) = b) ∧
       (∀ o : Nat, o < at' ∨ at' + bytes.length ≤ o → t.sdByte o = s.sdByte o))) ∧
    (s.pair DEAL_NUM < deal + 3 → Runs (.recordAbsent deal) s [] (fun _ => s) (fun _ => True)) ∧
    (deal + 3 ≤ s.pair DEAL_NUM → s.pot.absent.length + 1024 ≤ 65536 →
      let late := (List.range 1024).filter (fun l => decide ((l, deal) ∉ s.pot.absent) && s.leafOwes l deal)
      let n := (late.map (fun l => s.owedRecords l deal)).sum
      Runs (.recordAbsent deal) s [POT_ABSENT_COUNT_COUNT, POT_STAT_ABSENT]
        (fun t => { s with hand := { s.hand with eng := t.hand.eng, leaf := t.hand.leaf, combine := t.hand.combine }, pot := { s.pot with absent := t.pot.absent } })
        (fun t => t.fld POT_ABSENT_COUNT_COUNT = min (s.fld POT_ABSENT_COUNT_COUNT + n) 0xFFFFFFFF ∧
          t.flag POT_STAT_ABSENT = (decide (0 < n) || s.flag POT_STAT_ABSENT) ∧ ∀ l ∈ late, (l, deal) ∈ t.pot.absent))

/-- The arbiter passes the earliest FMT event of a window and counts the others lost; merged lists are built once. An FMT
event that reaches the arbiter joins the window of its scope (its input, or the device with FMT_SCOPE) and nothing else
changes. When the window closes its event with the earliest trigger time, the earlier arrival at equal times, is counted
in POT_FMT_EVENTS and the others in POT_FMT_LOST, and the window is empty; an empty window closes without effect. A
merged list is built for a product, deal and scope once, when every list has come or from tick n + 3 on: it waits in the
pot as CHANNEL 256 with the lists' LATE and OVF and with DEGRADED when a list is missing or carries it; its lists are
taken. (R239; R244) -/
def Obligations.ArbiterAndTopMergeFollowTheirRules : Prop :=
  ∀ (s : State) (i : Nat) (k : Fin 5) (product : Fin 256) (deal : Nat) (x : Product) (g : Program),
    (∀ e : FmtEvent, s.pot.events[i]? = some e →
      let sc := if s.flag POT_CFG_FMT_SCOPE then 4 else e.input
      Runs (.fmtEventArrival i) s []
        (fun t => { s with pot := { s.pot with events := s.pot.events.eraseIdx i, windows := t.pot.windows } })
        (fun t => instGet [] t.pot.windows sc = instGet [] s.pot.windows sc ++ [e] ∧
          ∀ j : Nat, j ≠ sc → instGet [] t.pot.windows j = instGet [] s.pot.windows j)) ∧
    (s.pot.events.length ≤ i → Runs (.fmtEventArrival i) s [] (fun _ => s) (fun _ => True)) ∧
    (let es := instGet [] s.pot.windows k
     (es = [] → Runs (.arbitrationWindowClose k) s [] (fun _ => s) (fun _ => True)) ∧
     (es ≠ [] → ∃ (t : State) (w : FmtEvent) (a b : List FmtEvent), exec (.arbitrationWindowClose k) s = .next t ∧
       es = a ++ w :: b ∧ (∀ e ∈ a, w.pos < e.pos) ∧ (∀ e ∈ b, w.pos ≤ e.pos) ∧ instGet [] t.pot.windows k = [] ∧
       t.flag POT_STAT_FMT_EVENT = true ∧ t.fld POT_FMT_EVENTS_COUNT = min (s.fld POT_FMT_EVENTS_COUNT + 1) 0xFFFFFFFF ∧
       t.fld POT_FMT_LOST_COUNT = min (s.fld POT_FMT_LOST_COUNT + (es.length - 1)) 0xFFFFFFFF)) ∧
    (s.productNo product = some x → s.programNo x.prog = some g →
      let missing := s.missingLists x deal k
      let mine := s.pot.lists.filter (fun p => decide (p.product = product.val) && decide (p.deal = deal) &&
        (decide (k.val = 4) || decide (k.val = p.input)))
      let due := x.merge = true ∧ k.val ∈ s.mergeScopes x ∧ (product.val, deal, k.val) ∉ s.pot.merged ∧
        s.prodOn product deal = true ∧ s.deal.first ≤ deal ∧ (missing = [] ∨ deal + 3 ≤ s.pair DEAL_NUM)
      let degr := !missing.isEmpty || mine.any (fun p => p.degr)
      (¬due → Runs (.pksMerge product deal k) s [] (fun _ => s) (fun _ => True)) ∧
      (due → Runs (.pksMerge product deal k) s [POT_STAT_MERGE_DEG]
        (fun t => { s with pot := { s.pot with wait := t.pot.wait, merged := t.pot.merged, lists := t.pot.lists } })
        (fun t => ∃ q : PotRec, t.pot.wait = s.pot.wait ++ [q] ∧ q.channel = 256 ∧ q.product = product ∧ q.deal = deal ∧
          q.merged = true ∧ q.degr = degr ∧ q.late = mine.any (fun p => p.late) ∧ q.ovf = mine.any (fun p => p.ovf) ∧
          t.flag POT_STAT_MERGE_DEG = (degr || s.flag POT_STAT_MERGE_DEG) ∧ (product.val, deal, k.val) ∈ t.pot.merged ∧
          t.pot.lists = s.pot.lists.filter (fun p => decide (p ∉ mine)))))

/-! ### Zoom chains, triggers, capture (09, 10) -/

/-- Zoom chains hand on segments and power values in order, and settle at u_first. A chain's oldest closed segment is handed
on: it leaves the chain, its samples join those the capture units can take, newest first, and where no stream selects
the chain nothing else changes. A settling chain that has reached u_first goes to RUN, ZC_RUN shows it and ZCn_SETTLE,
ZCn_OUT_IDX and ZCn_DC_EST follow; otherwise nothing changes. A chain's oldest power value goes to the trigger engine,
where a slot's LEVEL condition on the chain that has no state yet takes HIGH above T1 and LOW at or below T1 − T2, and
makes no event. With nothing closed, or no value, nothing changes. (R263; R266; R268; R269; R270; R282) -/
def Obligations.ZoomChainsHandOnAndSettle : Prop :=
  ∀ (s : State) (k : Fin 16),
    let x := s.chainOf k
    let others := fun (t : State) => ∀ j : Nat, j ≠ k → t.chainOf j = s.chainOf j
    (∀ (g : ZoomSeg) (rest : List ZoomSeg), x.ready = g :: rest →
      let y := { x with ready := rest, given := (g.data.reverse ++ x.given).take 8192 }
      (∃ t : State, exec (.zoomSegment k) s = .next t ∧ t.chainOf k = y ∧ others t) ∧
      ((∀ p < 2, ∀ st < 64, s.fld (ETH_S_CFG_KIND p st) = kindZoom → s.fld (ETH_S_SRC_SEL p st) ≠ k) →
        Runs (.zoomSegment k) s [] (fun t => { s with zoom := t.zoom }) (fun t => t.chainOf k = y ∧ others t))) ∧
    (x.ready = [] → Runs (.zoomSegment k) s [] (fun _ => s) (fun _ => True)) ∧
    (s.fld (ZCN_STAT_STATE k) = 1 → x.uFirst ≤ x.uNext →
      Runs (.zcSettleEnd k) s
        (ZCN_STAT_STATE k :: ZC_RUN_RUN.bit k :: ZCN_SETTLE_LEFT k :: ZCN_DC_EST_I k :: ZCN_DC_EST_Q k :: pairFields (ZCN_OUT_IDX k))
        (fun _ => s)
        (fun t => t.fld (ZCN_STAT_STATE k) = 2 ∧ t.bitSet ZC_RUN_RUN k = true ∧ t.fld (ZCN_SETTLE_LEFT k) = 0 ∧
          t.pair (ZCN_OUT_IDX k) = ofSigned 64 x.uNext)) ∧
    (s.fld (ZCN_STAT_STATE k) ≠ 1 ∨ x.uNext < x.uFirst → Runs (.zcSettleEnd k) s [] (fun _ => s) (fun _ => True)) ∧
    (∀ (v : Nat) (y : Int) (rest : List (Nat × Int)), x.values = (v, y) :: rest → ∃ t : State,
      exec (.zcPowerValue k) s = .next t ∧ t.chainOf k = { x with values := rest } ∧ others t ∧
      ∀ n : Fin 8, let c := (s.slotOf n).cfg
        c.en = true → c.a.ty = 7 → c.a.src = k → (s.slotOf n).off.1 = false → (s.slotOf n).offAt ≤ timeOfPos y →
        (s.slotOf n).since ≤ timeOfPos y →
        c.b.ty ≠ 7 → (s.slotOf n).run.a.high = none →
        (t.slotOf n).run.a.high =
          (if (c.a.t1 : Int) < v then some true else if (v : Int) ≤ (c.a.t1 : Int) - c.a.t2 then some false else none) ∧
        t.fld (TRGS_COUNT_COUNT n) = s.fld (TRGS_COUNT_COUNT n)) ∧
    (x.values = [] → Runs (.zcPowerValue k) s [] (fun _ => s) (fun _ => True))

/-- TIMEOUT, TOD and FORCE events fire their slot: registers, capture units and immediate outputs. A slot that combines
nothing (mode A) and holds off nothing fires on its condition's event: TRGn_LAST_IDX and LAST_INFO take the event's
index, fraction, type and REF_LOST, TRGn_COUNT goes up by one, FIRED is set, every capture unit that names the slot
receives the decision, and every immediate TRIG_OUT that names it asserts in its polarity, for WIDTH core cycles from
now. TIMEOUT_FIRE does so at t_last + T1, once that instant has come, and forgets t_last; TOD_FIRE at the generator's
instant, once it has come, which moves on by its period; TRG_FORCE at the raw sample named. An event less than 10 ns
from the last fire is counted in TRGn_HELD instead. With no t_last, no generator waiting, neither yet due, or an empty
mask, no slot fires. (R281; R282; R284; R285; R286; R288; R305) -/
def Obligations.TriggerEventsFireTheirSlots : Prop :=
  ∀ (s : State) (n : Fin 8) (g : Fin 4),
    let x := s.slotOf n
    let c := x.cfg
    let able := fun (time : Int) => c.en = true ∧ (if time < x.offAt then x.off0 else x.off).1 = false ∧ c.mode = 0 ∧ c.holdMode = 0
    let event := fun (time : Int) (ref : Bool) => ({ time := time, ref := ref, isB := false, ty := c.a.ty, src := c.a.src } : TrigEvent)
    let fires := fun (t : State) (time : Int) (ref : Bool) =>
      t.pair (TRGS_LAST_IDX n) = ofSigned 64 (trigIndex time).1 ∧
      t.reg (TRGS_LAST_INFO n).addr = BitVec.ofNat 32 ((trigIndex time).2 * 2 ^ 16 + b2n ref * 2 ^ 8 + c.a.ty) ∧
      t.fld (TRGS_COUNT_COUNT n) = min (s.fld (TRGS_COUNT_COUNT n) + 1) 0xFFFFFFFF ∧ t.bitSet TRG_STAT_FIRED n = true ∧
      (t.slotOf n).fired = some time ∧
      (∀ u < 8, s.fld (CAPU_CTL_TRIG u) = n →
        (t.unitOf u).queue = (s.unitOf u).queue ++ [{ slot := n, ev := event time ref }]) ∧
      (∀ o < 2,
        let at0 := ((s.trigCfgAt time).outReg o).1
        let now := (s.trig.cfg.outReg o).1
        bitOf at0 31 = true → bitsOf at0 24 3 = n → bitOf at0 29 = false →
        let ends := s.rawNow * unitSample + ((now % 256 : Nat) : Int) * s.unitCore
        (if o = 0 then t.pins.trigOut0 else t.pins.trigOut1) = !bitOf now 30 ∧
        instGet none t.trig.pulse o = some (match instGet none s.trig.pulse o with
          | some e => max e ends
          | none => ends))
    let parts := fun (t : State) => { s with
      trig := t.trig, cap := t.cap, pins := { s.pins with trigOut0 := t.pins.trigOut0, trigOut1 := t.pins.trigOut1 } }
    let shown := [TRGS_STAT_A_PENDING n, TRGS_STAT_B_PENDING n]
    let marks := wholeReg (TRGS_LAST_INFO n).addr :: TRGS_COUNT_COUNT n :: TRG_STAT_FIRED.bit n ::
      (pairFields (TRGS_LAST_IDX n) ++ shown)
    let before := timeoutDue s.unitLsb x.cfg0.a x.run0.a
    (∀ (t0 : Int) (ref : Bool), c.a.ty = 4 → x.run.a.last = some (t0, ref) → (∀ f, before = some f → x.since ≤ f.1) →
      let at' := t0 + (c.a.t1 : Int) * s.unitLsb
      (s.trigNow ≤ at' → Runs (.timeoutFire n false) s [] (fun _ => s) (fun _ => True)) ∧
      (at' < s.trigNow → able at' →
      (x.fired = none → Runs (.timeoutFire n false) s marks parts
        (fun t => fires t at' ref ∧ (t.slotOf n).run.a.last = none ∧ ∀ k : Nat, k ≠ n → t.slotOf k = s.slotOf k)) ∧
      (∀ t1 : Int, x.fired = some t1 → (at' - t1).natAbs < (10 * s.unitNs).toNat →
        Runs (.timeoutFire n false) s (TRGS_HELD_COUNT n :: TRG_STAT_HELD.bit n :: shown) parts
          (fun t => t.fld (TRGS_HELD_COUNT n) = min (s.fld (TRGS_HELD_COUNT n) + 1) 0xFFFFFFFF ∧
            t.bitSet TRG_STAT_HELD n = true ∧ t.pins.trigOut0 = s.pins.trigOut0 ∧ ∀ u : Nat, t.unitOf u = s.unitOf u)))) ∧
    (x.run.a.last = none → x.run.b.last = none → x.run0.a.last = none → x.run0.b.last = none →
      ∀ isB : Bool, Runs (.timeoutFire n isB) s [] (fun _ => s) (fun _ => True)) ∧
    (∀ sec : Nat, (s.todOf g).waiting = some sec → s.epoch.isSet = true →
      let raw := s.rawOfStamp sec (s.todOf g).cfg.2.1
      let period := (s.todOf g).cfg.2.2 / 2
      (s.rawNow + 400 ≤ raw → Runs (.todFire g) s [] (fun _ => s) (fun _ => True)) ∧
      (raw < s.rawNow + 400 → ∃ t : State, exec (.todFire g) s = .next t ∧ (t.todOf g).waiting = (if period = 0 then none else some (sec + period)) ∧
        (able (raw * unitSample) → c.a.ty = 8 → c.a.src = g → x.since ≤ raw * unitSample → x.fired = none →
          fires t (raw * unitSample) false))) ∧
    ((s.todOf g).waiting = none ∨ s.epoch.isSet = false → Runs (.todFire g) s [] (fun _ => s) (fun _ => True)) ∧
    (∀ (mask : BitVec 8) (idx : Int), ∃ t : State, exec (.trgForce mask idx) s = .next t ∧ t.fld TRG_FORCE_SLOT = 0 ∧
      (mask = 0 → t.trig = s.trig ∧ t.cap = s.cap) ∧
      (mask.getLsbD n = true → able (idx * unitSample) → c.a.ty = 9 → x.since ≤ idx * unitSample → x.fired = none → fires t (idx * unitSample) false))

/-- A fixed-delay output asserts once for each queued edge, and a late one is counted. TRIG_OUT_ASSERT takes the oldest
waiting edge of its output, once it has come, and asserts the pin in its polarity for WIDTH core cycles from that edge,
or from now when late; a pulse in progress is extended; a late assertion goes up by one in TRG_OUT_LATE and sets
OUT_LATE for the output, one in time does neither; with no edge due nothing changes. TRIG_OUT_RELEASE releases the pin
once its pulse has run, and changes nothing before. Nothing else changes: not the other output, not a slot, not another
register. (R288; R305) -/
def Obligations.TriggerOutputsAssertAndRelease : Prop :=
  ∀ (s : State) (o : Fin 2) (late : Bool),
    let pin := fun (t : State) => if o = 0 then t.pins.trigOut0 else t.pins.trigOut1
    let other := fun (t : State) => if o = 0 then t.pins.trigOut1 else t.pins.trigOut0
    let count := if o = 0 then TRG_OUT_LATE_OUT0 else TRG_OUT_LATE_OUT1
    let parts := fun (t : State) => { s with
      trig := { s.trig with outQ := t.trig.outQ, pulse := t.trig.pulse }, pins := { s.pins with trigOut0 := t.pins.trigOut0, trigOut1 := t.pins.trigOut1 } }
    let now := (s.trig.cfg.outReg o).1
    let pulse := fun (t : State) => instGet none t.trig.pulse o
    let same := fun (t : State) => other t = other s ∧ ∀ j : Nat, j ≠ o → instGet none t.trig.pulse j = instGet none s.trig.pulse j
    (∀ (e : Int) (rest : List Int), instGet [] s.trig.outQ o = e :: rest → e < s.trigNow →
      let ends := (if late then s.rawNow * unitSample else e) + ((now % 256 : Nat) : Int) * s.unitCore
      Runs (.trigOutAssert o late) s (if late then [count, TRG_STAT_OUT_LATE.bit o] else []) parts
        (fun t => pin t = !bitOf now 30 ∧ same t ∧ instGet [] t.trig.outQ o = rest ∧
          pulse t = some (match pulse s with
            | some p => max p ends
            | none => ends) ∧
          (∀ j : Nat, j ≠ o → instGet [] t.trig.outQ j = instGet [] s.trig.outQ j) ∧
          t.fld count = (if late then min (s.fld count + 1) 0xFFFF else s.fld count) ∧
          t.bitSet TRG_STAT_OUT_LATE o = (late || s.bitSet TRG_STAT_OUT_LATE o))) ∧
    ((∀ e ∈ (instGet [] s.trig.outQ o).head?, s.trigNow ≤ e) → Runs (.trigOutAssert o late) s [] (fun _ => s) (fun _ => True)) ∧
    (∀ e : Int, pulse s = some e → e < s.trigNow →
      Runs (.trigOutRelease o) s [] (fun t => { parts t with trig := { s.trig with pulse := t.trig.pulse } })
        (fun t => pin t = bitOf now 30 ∧ same t ∧ pulse t = none)) ∧
    ((∀ e ∈ pulse s, s.trigNow ≤ e) → Runs (.trigOutRelease o) s [] (fun _ => s) (fun _ => True))

/-- Capture units accept triggers, write or drop rows, and close segments where their registers place them. The oldest
decision reaches its unit: not ARMED it counts in BUSY, too old in STALE, each with MISSED; accepted, the unit is
TRIGGERED, keeps trigger sample and latency, and its stop row is the one that holds the last post-trigger sample, or the
row being filled. A row dropped because staging has less free space than it, or because no sample of it came, counts its
samples in GAP_LOST and moves on; a written row's blocks and map entries stand at its slots in the segment and no other
byte of memory changes. When the stop row is in memory, the last segment of a unit without MODE writes its descriptor,
counts and goes IDLE. In a unit that is IDLE neither row nor segment completes. (R286; R291; R292; R293; R295; R296;
R297; R298; R301) -/
def Obligations.CaptureUnitsFollowTheirStates : Prop :=
  ∀ (s : State) (u : Fin 8) (ns : Nat),
    let x := s.unitOf u
    let st := s.fld (CAPU_STAT_STATE u)
    let n := x.src.count
    let len := s.capLen u
    let others := fun (t : State) => ∀ v : Nat, v ≠ u → t.unitOf v = s.unitOf v
    let states := [CAPU_STAT_STATE u, CAP_RUN_ARMED.bit u, CAP_RUN_TRIGGERED.bit u]
    let stateIs := fun (t : State) (z : Nat) => t.fld (CAPU_STAT_STATE u) = z ∧ t.bitSet CAP_RUN_ARMED u = decide (z ≠ capIdle) ∧
      t.bitSet CAP_RUN_TRIGGERED u = decide (z = capTriggered)
    (x.queue = [] → Runs (.triggerArrival u ns) s [] (fun _ => s) (fun _ => True)) ∧
    (∀ (d : Decision) (rest : List Decision), x.queue = d :: rest →
      let xt := s.capTrig x.src (65536 * (trigIndex d.ev.time).1 + ((trigIndex d.ev.time).2 : Int))
      let old := xt < x.start ∨ xt < x.row - (s.capC u : Int)
      let missed := fun (f : Field) => Runs (.triggerArrival u ns) s [f, CAP_STAT_MISSED.bit u] (fun t => { s with cap := t.cap })
        (fun t => t.fld f = min (s.fld f + 1) 0xFFFF ∧ t.bitSet CAP_STAT_MISSED u = true ∧ others t ∧
          t.unitOf u = { x with queue := rest })
      (st ≠ capArmed → missed (CAPU_MISSED_BUSY u)) ∧
      (st = capArmed → old → missed (CAPU_MISSED_STALE u)) ∧
      (st = capArmed → ¬old →
        let last := xt + (s.capPost u : Int) - 1
        let row := x.start + (last - x.start) / (x.src.spb : Int) * (x.src.spb : Int)
        Runs (.triggerArrival u ns) s states (fun t => { s with cap := t.cap, sdram := t.sdram })
          (fun t => stateIs t capTriggered ∧ others t ∧
            t.unitOf u = { x with queue := rest, trig := some (d, xt, ns), stop := max row x.row, short := decide (row < x.row) } ∧
            ∀ o : Nat, (∀ r ∈ x.rows, r.first ≤ xt → xt < r.first + r.count → ∀ i < n, o ≠ s.mapAddr u (r.slot + i) + 0xD - sdramBase) →
              t.sdByte o = s.sdByte o))) ∧
    (∀ acked : Nat, st = capIdle → Runs (.captureRowComplete u acked) s [] (fun _ => s) (fun _ => True)) ∧
    (∀ acked : Nat, st ≠ capIdle → x.ended = false → s.capPassed x.src x.row x.src.spb = true → 0 < x.src.spb →
      let count := ((s.capStreams x.src x.row x.src.spb).map (fun l => (presentRun l).length)).foldl min x.src.spb
      let fits := x.staged - acked + x.src.count ≤ 512
      (¬fits ∨ count = 0 → Runs (.captureRowComplete u acked) s [CAPU_GAP_LOST_COUNT u, CAP_STAT_GAP.bit u]
        (fun t => { s with cap := t.cap, conv := { s.conv with tap := t.conv.tap } })
        (fun t => t.fld (CAPU_GAP_LOST_COUNT u) = min (s.fld (CAPU_GAP_LOST_COUNT u) + x.src.spb) 0xFFFFFFFF ∧
          t.bitSet CAP_STAT_GAP u = true ∧ others t ∧ (t.unitOf u).row = x.row + x.src.spb ∧ (t.unitOf u).rows = x.rows ∧
          (t.unitOf u).gapNow = x.gapNow + x.src.spb ∧
          (t.unitOf u).ended = (x.trig.isSome && decide (x.stop ≤ x.row)))) ∧
      (let base := s.segBase u - sdramBase
       fits → 0 < count → x.slot + n ≤ len → sdramBase ≤ s.segBase u → base + segSize len ≤ s.capacity →
       Runs (.captureRowComplete u acked) s [CAPU_STAT_DEG u, CAPU_GAP_LOST_COUNT u, CAP_STAT_GAP.bit u]
        (fun t => { s with cap := t.cap, conv := { s.conv with tap := t.conv.tap }, sdram := t.sdram })
        (fun t => others t ∧ (t.unitOf u).row = x.row + x.src.spb ∧ (t.unitOf u).slot = (x.slot + n) % max 1 len ∧
          (t.unitOf u).gapNow = x.src.spb - count ∧
          t.fld (CAPU_GAP_LOST_COUNT u) = min (s.fld (CAPU_GAP_LOST_COUNT u) + (x.src.spb - count)) 0xFFFFFFFF ∧
          t.bitSet CAP_STAT_GAP u = (decide (count < x.src.spb) || s.bitSet CAP_STAT_GAP u) ∧
          (∀ i < n, t.sdRead (s.capSlotAddr u (x.slot + i)) 4096 =
              x.src.blockBytes (presentRun ((s.capStreams x.src x.row count).getD i [])) ∧
            leNat (t.sdRead (s.mapAddr u (x.slot + i)) 8) = ofSigned 64 x.row ∧
            leNat (t.sdRead (s.mapAddr u (x.slot + i) + 8) 4) = min x.gapNow (2 ^ 32 - 1)) ∧
          ∀ o : Nat, (∀ i < n, (o < s.capSlotAddr u (x.slot + i) - sdramBase ∨ s.capSlotAddr u (x.slot + i) - sdramBase + 4096 ≤ o) ∧
              (o < s.mapAddr u (x.slot + i) - sdramBase ∨ s.mapAddr u (x.slot + i) - sdramBase + 16 ≤ o)) →
            t.sdByte o = s.sdByte o))) ∧
    (st ≠ capTriggered ∨ x.ended = false → Runs (.segmentComplete u) s [] (fun _ => s) (fun _ => True)) ∧
    (st = capTriggered → x.ended = true → s.fld (CAPU_STAT_SEG u) = s.fld (CAPU_SEGS_ACT_SEGS_M1 u) →
      s.flag (CAPU_CTL_MODE u) = false → s.flag (CAPU_CTL_REC u) = false → sdramBase ≤ s.segBase u →
      s.segBase u - sdramBase + 4096 ≤ s.capacity →
      Runs (.segmentComplete u) s
        (CAPU_SEG_DONE_COUNT u :: CAP_STAT_SEG_DONE.bit u :: CAPU_CTL_ARM u :: CAPU_STAT_DEG u :: states)
        (fun t => { s with cap := t.cap, sdram := t.sdram })
        (fun t => stateIs t capIdle ∧ t.flag (CAPU_CTL_ARM u) = false ∧ others t ∧
          t.unitOf u = { CapUnit.reset with queue := x.queue } ∧
          t.fld (CAPU_SEG_DONE_COUNT u) = min (s.fld (CAPU_SEG_DONE_COUNT u) + 1) 0xFFFFFFFF ∧
          t.bitSet CAP_STAT_SEG_DONE u = true ∧ t.sdRead (s.segBase u) 64 = s.descriptor u false ∧
          ∀ o : Nat, o < s.segBase u - sdramBase ∨ s.segBase u - sdramBase + 4096 ≤ o → t.sdByte o = s.sdByte o))

/-! ### Timekeeping (11) -/

/-- A timed edge that its channel accepts stands in the channel registers; others reach no consumer. A channel's time is its
core count times 512 plus its linearised code, and the die's fitted line places it at a raw index and an offset. While
the sample grid exists, an edge of channels 0 to 18 that its comparator or pin resolves and that its window accepts
stores its raw index in TIME_CHc_LAST_IDX, its offset with VALID and the REF_LOST mark in LAST_INFO, and counts; on
channel 0 it is a PPS, and TIME_STAT.PPS is set; a spare channel 19 shows the index alone. An edge that is not resolved,
of a channel that is off, of the other slope or settling, or that its window does not accept, and every edge while no
grid exists, changes nothing. (R308; R309; R310; R311; R312; R314; R315; R316; R328) -/
def Obligations.TimedEdgesFillTheChannelRegisters : Prop :=
  ∀ (s : State) (c : Fin 20) (count : BitVec 48) (code : BitVec 9) (x : Crossing),
    let line := (instGet GridFit.reset s.time.fit (chanDie c)).line s.nsps
    let placed := line.place s.nsps (512 * count.toNat + s.linear c code.toNat)
    let n := placed.1
    let o := placed.2
    let t0 := s.edgeTime n o
    let clocked := s.time.grid = true ∧ s.deal.stopped = false
    let taken := s.chanWorks c = true ∧ s.edgeDriven c t0 x = true
    let judged := s.judgeEdge c t0
    (clocked → c.val < 19 → taken → judged.1 = true → ∃ t : State, exec (.edgeTimed c count code x) s = .next t ∧
      t.pair (TIME_CH_LAST_IDX c) = ofSigned 64 n ∧
      t.reg (TIME_CH_LAST_INFO c).addr =
        BitVec.ofNat 32 (2 ^ 31 + b2n s.resultsLost * 2 ^ 30 + b2n judged.2.isSome * 2 ^ 29 + o % 2 ^ 16) ∧
      t.fld (TIME_CH_COUNT_COUNT c) = min (s.fld (TIME_CH_COUNT_COUNT c) + 1) 0xFFFFFFFF ∧
      (∀ i : Int, judged.2 = some i → t.pair (TIME_CH_IVAL c) = ofSigned 48 i) ∧
      (c.val = 0 → t.flag TIME_STAT_PPS = true ∧ t.time.inSecond = true)) ∧
    (clocked → c.val = 19 → s.fld TIME_CFG_SPARE_FOR = 0x1F → s.chanWorks 19 = true →
      Runs (.edgeTimed c count code x) s (pairFields (TIME_CH_LAST_IDX 19)) (fun _ => s)
        (fun t => t.pair (TIME_CH_LAST_IDX 19) = ofSigned 64 n)) ∧
    (¬clocked ∨ (c.val < 19 ∧ ¬(taken ∧ judged.1 = true)) → Runs (.edgeTimed c count code x) s [] (fun _ => s) (fun _ => True))

/-- Missed windows, grid markers and code densities are judged as their rules say. A channel's next window that has come to
its close counts, with no edge accepted in it, in TIME_CHc_MISS; the third in a row of channel 0's SECOND window sets
PPS_LOST and logs PPS_LOST outside WDOG; before its close, with ANCHOR NONE, with no CHANNEL window open, or where
channel 0 takes PPS without a window, nothing happens. A grid marker within 4 LSB of the fitted line, or the first of a
fit, joins the last 64; another is left out and sets GRID_ERR; the 64th in a row marks the die's results and is logged;
64 that agree clear the mark. A code density of 2^20 hits gives the channel its table, one with fewer changes nothing.
(R311; R312; R314; R325) -/
def Obligations.WindowsMarkersAndTablesAreJudged : Prop :=
  ∀ (s : State) (c : Fin 20) (die : Fin 2) (k : Int) (count : BitVec 48) (code : BitVec 9) (hits : List Nat),
    let w := s.chanOf c
    let anchor := s.fld (TIME_CH_CFG_ANCHOR c)
    let own := ¬(c.val = 0 ∧ s.ppsFree = true)
    let miss := TIME_CH_MISS_COUNT c
    let missed := fun (t : State) => t.fld miss = min (s.fld miss + 1) 0xFFFFFFFF
    let due := ∃ t0 : Int, s.nextClose c = some t0 ∧ t0 ≤ s.trigNow
    let m := s.firstOpen c
    let past := { w with closed := some m, hits := w.hits.filter (fun h => decide (m < h)) }
    let chans := fun (t : State) => { s with time := { s.time with chan := t.time.chan } }
    let close : Instr := .acceptanceWindowClose c
    (¬due ∨ ¬own → Runs close s [] (fun _ => s) (fun _ => True)) ∧
    (anchor = 0 ∨ (anchor = 3 ∧ w.start = none) → ¬due) ∧
    (due → own → anchor = 3 → Runs close s [miss] chans (fun t => t.chanOf c = { w with start := none } ∧ missed t)) ∧
    (due → own → anchor = 1 ∨ anchor = 2 → m ∈ w.hits → Runs close s [] chans (fun t => t.chanOf c = past)) ∧
    (due → own → anchor = 1 ∨ (anchor = 2 ∧ c.val ≠ 0) → m ∉ w.hits →
      Runs close s [miss] chans (fun t => missed t ∧ t.chanOf c = past)) ∧
    (due → own → anchor = 2 → c.val = 0 → m ∉ w.hits →
      Runs close s (miss :: TIME_STAT_PPS_LOST :: logFields)
        (fun t => { withLogOf s t with time := { s.time with chan := t.time.chan, missRun := if 2 ≤ s.time.missRun then 0 else s.time.missRun + 1 } })
        (fun t => missed t ∧ t.chanOf c = past ∧ (2 ≤ s.time.missRun → t.flag TIME_STAT_PPS_LOST = true ∧
          (s.flag SUP_STAT_WDOG = false → t.flag HAND_STAT_LOG_ATTN = true)) ∧
          (s.time.missRun < 2 → t.flag TIME_STAT_PPS_LOST = s.flag TIME_STAT_PPS_LOST))) ∧
    (let f := instGet GridFit.reset s.time.fit die
     let g := fun (t : State) => instGet GridFit.reset t.time.fit die
     let time := 512 * count.toNat + code.toNat
     let fits := f.points = [] ∨ (f.line s.nsps).agrees (2048 * k) time = true
     Runs (.gridMarker die k count code) s (TIME_STAT_GRID_ERR :: logFields)
      (fun t => { withLogOf s t with time := { s.time with fit := t.time.fit } })
      (fun t =>
        (fits → g t =
            { marks := (some (2048 * k, time) :: f.marks).take 64, out := 0, agree := min 64 (f.agree + 1)
              bad := f.bad && decide (f.agree + 1 < 64) } ∧
          t.flag TIME_STAT_GRID_ERR = s.flag TIME_STAT_GRID_ERR) ∧
        (¬fits → g t =
            { marks := (none :: f.marks).take 64, out := f.out + 1, agree := 0, bad := f.bad || decide (f.out = 63) } ∧
          t.flag TIME_STAT_GRID_ERR = true))) ∧
    Runs (.codeDensityRefresh c hits) s [] (fun t => { s with time := { s.time with tables := t.time.tables } })
      (fun t => instGet [] t.time.tables c = (if 2 ^ 20 ≤ hits.sum ∧ hits.length = 512 then linearTable hits else instGet [] s.time.tables c) ∧
        ∀ d : Nat, d ≠ c → instGet [] t.time.tables d = instGet [] s.time.tables d)

/-- Second boundaries, RESYNC, epoch writes, counted edges and the missing PPS do what timekeeping says. A second boundary
that has come, with no PPS accepted since the last, counts in TIME_PPS_MISS and restarts the drift count. RESYNC stages
a step by the latest error for the first tick whose close point follows, when an epoch is set and a PPS was accepted in
the last 2 s; otherwise it is ignored and recorded. TIME_EPOCH_SET_HI stores the value with its held low half, and
inside the wait it gives the second of the next PPS. Inside the count an edge that the pin resolves with its slope, at
least 0.5 s after the last, goes up by one. With no PPS within 2 s of converter start, a device that waits for alignment
starts unaligned, logged at ATTENTION. (R11; R38; R39; R323; R325; R326) -/
def Obligations.SecondsStepsAndEpochsFollowTimekeeping : Prop :=
  ∀ (s : State) (hi : Word) (ns : Nat) (x : Crossing),
    let timeIs := fun (t : State) => { s with time := t.time }
    (let b := s.nextSecond
     let come := s.time.grid = true ∧ timeOfPos b ≤ s.trigNow
     (come → s.time.inSecond = true →
       Runs .secondBoundary s [] (fun _ => { s with time := { s.time with second := b, inSecond := false } }) (fun _ => True)) ∧
     (come → s.time.inSecond = false →
       Runs .secondBoundary s [TIME_PPS_MISS_COUNT] (fun _ => { s with time := { s.time with second := b, driftRun := 0 } })
         (fun t => t.fld TIME_PPS_MISS_COUNT = min (s.fld TIME_PPS_MISS_COUNT + 1) 0xFFFFFFFF)) ∧
     (¬come → Runs .secondBoundary s [] (fun _ => s) (fun _ => True))) ∧
    (let able := ∃ (e t0 y : Int), s.time.lastErr = some e ∧ s.time.lastPps = some (t0, y) ∧ s.epoch.isSet = true ∧
        s.rawNow * unitSample - t0 ≤ 2 * (s.nsps : Int) * unitSample
     (able → Runs .resync s [TIME_CTL_RESYNC]
        (fun _ => { s with time := if s.deal.closed then { s.time with stepLater := s.time.lastErr }
                                   else { s.time with stepDue := s.time.lastErr } })
        (fun t => t.flag TIME_CTL_RESYNC = true)) ∧
     (¬able → Runs .resync s logFields (fun t => withLogOf s t) (fun t => t.hand.log = (s.ignored TIME_CTL.addr).hand.log))) ∧
    (let v := (sparseGet (fun _ => (0 : Word)) s.holdLo TIME_EPOCH_SET.addr).toNat + 2 ^ 32 * (hi.toNat % 2 ^ 16)
     Runs (.timeEpochSet hi) s (pairFields TIME_EPOCH_SET) timeIs
      (fun t => t.pair TIME_EPOCH_SET = v ∧
        t.time = if s.flag TIME_STAT_EPOCH_WAIT then { s.time with setSec := some v, counted := 0, lastEdge := none } else s.time)) ∧
    Runs (.ppsCountedEdge ns x) s [] timeIs
      (fun t => t.time =
        if s.fld TIME_CFG_EPOCH_SRC = 2 ∧ s.time.counting = true ∧ s.time.setSec.isSome = true ∧
            (∀ y : Nat, s.time.lastEdge = some y → y + 500000000 ≤ ns) ∧
            (∃ rising : Bool, s.crossing 0 x = some rising ∧ s.pinDelivers 0 rising = true) then
          { s.time with counted := s.time.counted + 1, lastEdge := some ns }
        else s.time) ∧
    (s.time.waitAlign = true →
      Runs .unaligned s (DEAL_STAT_UNALIGNED :: logFields)
        (fun t => { withLogOf s t with
          time := { s.time with waitAlign := false }, dealer := t.dealer,
          deal := if (s.dealerOf 0).on then { s.deal with next := 0, first := 0 } else s.deal })
        (fun t => t.flag DEAL_STAT_UNALIGNED = true ∧ (s.flag SUP_STAT_WDOG = false → t.flag HAND_STAT_LOG_ATTN = true) ∧
          ∀ i < 4, t.dealerOf i =
            if (s.dealerOf 0).on then { s.dealerOf i with j := -(s.dealLen : Int), aligned := true } else s.dealerOf i)) ∧
    (s.time.waitAlign = false → Runs .unaligned s [] (fun _ => s) (fun _ => True))

/-! ### Clocks and die links (01, 12) -/

/-- Loss and return of the reference, unlocks and band searches move the MDLLs as the tables say. From the clocks step on, 1
µs without an edge of REFCLK, or a count in 100 µs more than 1 % off, declares it lost: that sets REF_LOST and
CG_STAT.COAST, clears every LOCKED and every measurement, and stops relocks. After 1 s within 1 % it is requalified: PPS
goes to REQUAL and every enabled MDLL that has not failed relocks. When relocks complete their MDLLs are locked; with
the last one RELOCK is set and counted, and after a common relock COAST and REF_LOST clear. An unlock of a locked MDLL
is shown and relocks it, or fails it the third time within 1 s. A search that ends shows its band, and a failed one in
operation fails the MDLL. Events whose conditions do not hold change nothing. (R317; R318; R340; R341; R342; R345; R346;
R349; R350) -/
def Obligations.ReferenceAndLockEventsMoveTheMdlls : Prop :=
  ∀ (s : State) (m : Fin 4) (ns : Nat) (b : BitVec 6) (quiet edges windows fewest most : Nat) (locked : BitVec 4),
    let busy := fun (t : State) (k : Nat) => bitOf t.clk.relocking k
    let lost := s.flag TIME_STAT_REF_LOST
    let good := fun (k : Nat) => s.mdllOn k && !bitOf s.clk.failed k
    (let seen := if s.clk.started then [TIME_STAT_REF_PRESENT] else []
     let gone := s.clk.started = true ∧ (1000 ≤ quiet ∨ 100 * edges + s.refEdges < 100 * s.refEdges ∨ 101 * s.refEdges < 100 * edges)
     (¬gone ∨ (lost = true ∧ s.clk.allLock = false) → Runs (.refLost quiet edges) s seen (fun _ => s)
       (fun t => s.clk.started = true → t.flag TIME_STAT_REF_PRESENT = decide (quiet < 1000))) ∧
     (gone → lost = false → ∃ t : State, exec (.refLost quiet edges) s = .next t ∧
       t.flag TIME_STAT_REF_LOST = true ∧ t.flag TIME_STAT_REF_PRESENT = decide (quiet < 1000) ∧ t.flag CG_STAT_COAST = true ∧
       (∀ k < 4, t.flag (CG_MDLL_STAT_LOCKED k) = false ∧ t.reg (CG_MDLL_MEAS k).addr = 0 ∧ busy t k = false ∧
         (good k = true → t.flag (CG_MDLL_STAT_COAST k) = true)) ∧
       (s.flag SUP_STAT_WDOG = false → t.flag HAND_STAT_LOG_ATTN = true))) ∧
    (let able := lost = true ∧ s.clk.allLock = false ∧ 10000 ≤ windows ∧ 99 * s.refEdges ≤ 100 * fewest ∧ 100 * most ≤ 101 * s.refEdges
     (able → ∃ t : State, exec (.refRequal windows fewest most) s = .next t ∧
       t.flag TIME_STAT_REF_PRESENT = true ∧ t.flag TIME_STAT_REQUAL = true ∧ t.flag TIME_STAT_PPS_LOST = false ∧
       t.clk.allLock = true ∧ (∀ k < 4, good k = true → busy t k = true ∧ t.flag (CG_MDLL_STAT_RELOCK k) = true)) ∧
     (¬able → Runs (.refRequal windows fewest most) s [] (fun _ => s) (fun _ => True))) ∧
    (let ms := (List.range 4).filter (fun k => bitOf s.clk.relocking k && locked.getLsbD k)
     let last := ∀ k : Nat, bitOf s.clk.relocking k = true → k < 4 ∧ locked.getLsbD k = true
     (ms = [] → Runs (.relockComplete locked ns) s [] (fun _ => s) (fun _ => True)) ∧
     (ms ≠ [] → ∃ t : State, exec (.relockComplete locked ns) s = .next t ∧
       (∀ k ∈ ms, t.flag (CG_MDLL_STAT_LOCKED k) = true ∧ t.flag (CG_MDLL_STAT_RELOCK k) = false ∧ busy t k = false) ∧
       t.fld CG_RELOCK_MAX_NS = max (s.fld CG_RELOCK_MAX_NS) (min ns 0xFFFFFFFF) ∧
       (last → t.flag CG_STAT_RELOCK = true ∧ t.fld CG_RELOCK_COUNT_COUNT = min (s.fld CG_RELOCK_COUNT_COUNT + 1) 0xFFFF ∧
         t.clk.allLock = false ∧ (s.clk.allLock = true → t.flag CG_STAT_COAST = false ∧ t.flag TIME_STAT_REF_LOST = false)) ∧
       (¬last → t.fld CG_RELOCK_COUNT_COUNT = s.fld CG_RELOCK_COUNT_COUNT ∧ t.clk.allLock = s.clk.allLock))) ∧
    (let able := s.mdllOn m = true ∧ s.flag (CG_MDLL_STAT_LOCKED m) = true ∧ (lost = false ∨ s.clk.allLock = true)
     let times := (s.now :: instGet [] s.clk.unlocks m).filter (fun t => decide (s.now - t ≤ (s.nsps : Int) / 400))
     (able → ∃ t : State, exec (.cgUnlock m) s = .next t ∧ t.bitSet CG_STAT_UNLOCK m = true ∧
       t.flag (CG_MDLL_STAT_LOCKED m) = false ∧
       (times.length < 3 → busy t m = true ∧ t.flag (CG_MDLL_STAT_RELOCK m) = true) ∧
       (3 ≤ times.length → bitOf t.clk.failed m = true)) ∧
     (¬able → Runs (.cgUnlock m) s [] (fun _ => s) (fun _ => True))) ∧
    (s.clk.started = false → Runs (.cgBandSearch m (some b) ns) s (CG_STAT_BAND_SEARCH :: CG_MDLL_STAT_BAND m :: logFields)
      (fun t => { withLogOf s t with clk := { s.clk with bands := s.clk.bands ++ [(m.val, b.toNat)] } })
      (fun t => t.fld (CG_MDLL_STAT_BAND m) = b.toNat ∧ t.flag CG_STAT_BAND_SEARCH = true)) ∧
    (s.clk.started = true → bitOf s.clk.relocking m = true →
      (∃ t : State, exec (.cgBandSearch m (some b) ns) s = .next t ∧ t.fld (CG_MDLL_STAT_BAND m) = b.toNat ∧
        t.flag (CG_MDLL_STAT_LOCKED m) = true ∧ busy t m = false) ∧
      (∃ t : State, exec (.cgBandSearch m none ns) s = .next t ∧ bitOf t.clk.failed m = true ∧
        t.flag (CG_MDLL_STAT_LOCKED m) = false)) ∧
    (s.clk.started = true → bitOf s.clk.relocking m = false →
      Runs (.cgBandSearch m (some b) ns) s [] (fun _ => s) (fun _ => True))

/-- MDLL 2 and the clock outputs take legal settings only, and phases step by the shorter way. A CG_MDLL2_CFG setting
outside the ranges, or written while MDLL 2 relocks, is ignored and recorded. A legal one is stored; while the clocks
coast it waits for the common relock; otherwise EN starts a relock and clearing EN unlocks the MDLL and clears its
measurement. A CLKOUT setting that R335 does not admit is ignored and recorded; a legal one waits while the output runs
on the bridge clock, and with SRC = 2 for the first raw index that is a multiple of the larger of the old and the new
DIV, and otherwise takes effect, with the phase set to 0 when DIV or SRC changes. PHASE_STEP moves CUR one step toward
TGT by the shorter way round; while the clocks coast or the output is bridged it changes nothing. (R330; R331; R335;
R336; R337; R347) -/
def Obligations.ClockSettingsAndPhasesFollowTheirRules : Prop :=
  ∀ (s : State) (v : Word) (o : Fin 3) (q : Fin 7),
    let f := s.refMhz
    let d := v.toNat / 2 ^ 24 % 16
    let n := v.toNat / 2 ^ 12 % 4096
    let legal := 1 ≤ d ∧ 80 ≤ n ∧ n ≤ 2048 ∧ 10 * d ≤ f ∧ f ≤ 25 * d ∧ 2000 * d ≤ f * n ∧ f * n ≤ 6400 * d
    let cfg2 := wholeReg (CG_MDLL_CFG 2).addr
    (¬legal ∨ bitOf s.clk.relocking 2 = true →
      Runs (.cgMdll2CfgWrite v) s logFields (fun t => withLogOf s t)
        (fun t => t.hand.log = (s.ignored (CG_MDLL_CFG 2).addr).hand.log)) ∧
    (legal → bitOf s.clk.relocking 2 = false →
      (s.flag CG_STAT_COAST = true →
        Runs (.cgMdll2CfgWrite v) s [cfg2] (fun t => { s with clk := { s.clk with was2 := t.clk.was2 } }) (fun t => t.reg (CG_MDLL_CFG 2).addr = v &&& 0x8FFFF000)) ∧
      (s.flag CG_STAT_COAST = false → v.getLsbD 31 = false →
        Runs (.cgMdll2CfgWrite v) s [cfg2, CG_MDLL_STAT_LOCKED 2, CG_STAT_LOCKED.bit 2, wholeReg (CG_MDLL_MEAS 2).addr] (fun _ => s)
          (fun t => t.reg (CG_MDLL_CFG 2).addr = v &&& 0x8FFFF000 ∧ t.flag (CG_MDLL_STAT_LOCKED 2) = false ∧
            t.bitSet CG_STAT_LOCKED 2 = false ∧ t.reg (CG_MDLL_MEAS 2).addr = 0)) ∧
      (s.flag CG_STAT_COAST = false → v.getLsbD 31 = true → bitOf s.clk.failed 2 = false →
        ∃ t : State, exec (.cgMdll2CfgWrite v) s = .next t ∧ t.reg (CG_MDLL_CFG 2).addr = v &&& 0x8FFFF000 ∧
          bitOf t.clk.relocking 2 = true ∧ t.flag (CG_MDLL_STAT_RELOCK 2) = true ∧ t.flag (CG_MDLL_STAT_LOCKED 2) = false)) ∧
    (let k := o.val + 4
     let div := v.toNat % 2 ^ 16
     let src := v.toNat / 2 ^ 26 % 4
     let m2 := (s.reg (CG_MDLL_CFG 2).addr).toNat
     let admitted := (src = 0 ∧ 5 ≤ div) ∨ (src = 3 ∧ 1 ≤ div) ∨ (src = 2 ∧ (div = 0 ∨ ∃ e < 11, div = 2 ^ (e + 5))) ∨
       (src = 1 ∧ 1 ≤ div ∧ f * (m2 / 2 ^ 12 % 4096) ≤ 1000 * div * (m2 / 2 ^ 24 % 16))
     (¬admitted → Runs (.clkoutCfgWrite o v) s logFields (fun t => withLogOf s t)
       (fun t => t.hand.log = (s.ignored (CG_OUT_CFG k).addr).hand.log)) ∧
     let larger := max (s.outDiv k) (if div = 0 then 65536 else div)
     let waits : Int → Prop := fun a =>
       if src = 2 then s.rawNow ≤ a ∧ a < s.rawNow + larger ∧ a % larger = 0 else a = s.rawNow - 1
     (admitted → s.bitSet CG_STAT_BRIDGE k = true ∨ src = 2 → ∃ a : Int, waits a ∧
       Runs (.clkoutCfgWrite o v) s []
         (fun _ => { s with clk := { s.clk with writes := s.clk.writes ++ [{ out := k, value := v, after := a }] } }) (fun _ => True)) ∧
     (admitted → s.bitSet CG_STAT_BRIDGE k = false → src ≠ 2 →
       let same := s.fld (CG_OUT_CFG_DIV k) = div ∧ s.fld (CG_OUT_CFG_SRC k) = src
       Runs (.clkoutCfgWrite o v) s [wholeReg (CG_OUT_CFG k).addr, wholeReg (CG_OUT_PHASE k).addr, CG_STAT_BRIDGE.bit k] (fun _ => s)
         (fun t => t.reg (CG_OUT_CFG k).addr = v &&& 0x8C00FFFF ∧
           t.reg (CG_OUT_PHASE k).addr = if same then s.reg (CG_OUT_PHASE k).addr else 0))) ∧
    (let cur := s.fld (CG_OUT_PHASE_CUR q)
     let tgt := s.fld (CG_OUT_PHASE_TGT q)
     let held := s.flag CG_STAT_COAST = true ∨ s.bitSet CG_STAT_BRIDGE q = true
     let next := if cur = tgt then cur else if (tgt + 256 - cur) % 256 ≤ 128 then (cur + 1) % 256 else (cur + 255) % 256
     (held → Runs (.phaseStep q) s [] (fun _ => s) (fun _ => True)) ∧
     (¬held → Runs (.phaseStep q) s [CG_OUT_PHASE_CUR q, CG_OUT_PHASE_STEPPING q] (fun _ => s)
       (fun t => t.fld (CG_OUT_PHASE_CUR q) = next ∧ t.flag (CG_OUT_PHASE_STEPPING q) = decide (next ≠ tgt))))

/-- A die link that fails is marked and logged once at FATAL; a retransmission changes nothing. LINK_FAIL marks the link,
logs LINK_FAIL at FATAL outside WDOG, and asserts FAULT_N; a link that has failed already changes nothing.
DIE_LINK_RETRANSMIT changes no state. (R14; R16; R211; R497) -/
def Obligations.DieLinksFailOnce : Prop :=
  ∀ (s : State) (l : Fin 6),
    Runs (.dieLinkRetransmit l) s [] (fun _ => s) (fun _ => True) ∧
    (s.linkFailed l = true → Runs (.linkFail l) s [] (fun _ => s) (fun _ => True)) ∧
    (s.linkFailed l = false →
      Runs (.linkFail l) s logFields (fun t => { withLogOf s t with links := s.links ||| 2 ^ l.val })
        (fun t => t.linkFailed l = true ∧ (∀ k : Nat, k ≠ l → t.linkFailed k = s.linkFailed k) ∧
          (s.flag SUP_STAT_WDOG = false → t.flag HAND_STAT_LOG_FATAL = true ∧ t.lastFatal = (0x000B, l.val) ∧ t.pins.fault = true)))

/-! ### Capture memory (13) -/

/-- A memory read returns what was written, and no other byte changes. A request to an idle live subchannel that serves it:
a write stores its 64 bytes at its offset and no other byte of memory changes, and memory keeps its canonical form; a
read straight after it returns those bytes as sixteen words. A read returns the bytes as they stand and counts a
corrected error in CE; an uncorrectable one changes no byte in memory and counts in UE with its device address. The
request wakes a subchannel from PD or SR, and one of another class than the display's wakes all from SR. A parked one
queues it and serves nothing; outside the capacity, or off a 64-byte boundary, nothing changes. (R356; R357; R358; R359;
R360; R371) -/
def Obligations.MemoryReadsReturnWhatWasWritten : Prop :=
  ∀ (s : State) (off : Nat) (cls : Fin 8) (bs : List Byte),
    let i := (s.place off).1
    let x := s.subOf i
    let st := s.subState i
    let words := fun (b : List Byte) => (List.range 16).map (fun w => (BitVec.ofNat 32 (leNat ((b.drop (4 * w)).take 4)) : Word))
    let fits := i < 16 ∧ off + 64 ≤ s.capacity ∧ off % 64 = 0 ∧ s.subLive i = true
    let idle := fits ∧ x.queue = [] ∧ x.wait = [] ∧ st ≠ 6 ∧ s.mem.parked = false
    let shown := MEMCS_QUEUE_MAX i :: (List.range 16).map (fun j => MEMCS_STAT_STATE j)
    let display := cls.val = 0 ∨ cls.val = 5
    let awake := fun (t : State) => t.fld (MEMCS_STAT_STATE i) = (if st = 3 ∨ st = 4 then 2 else st) ∧
      (t.subOf i).queue = [] ∧ (t.subOf i).wait = [] ∧ (t.subOf i).debt = (if st = 4 then [] else x.debt) ∧
      ∀ j < 16, j ≠ i → t.subState j = if s.subState j = 4 ∧ ¬display then 2 else s.subState j
    (idle → bs.length = 64 →
      Runs (.memoryRequest off (some bs) cls 0 1) s shown (fun t => { s with mem := t.mem, sdram := t.sdram })
        (fun t => awake t ∧ (∀ (j : Nat) (b : Byte), bs[j]? = some b → t.sdByte (off + j) = b) ∧
          (∀ o : Nat, o < off ∨ off + 64 ≤ o → t.sdByte o = s.sdByte o) ∧
          (Memory.wf s.sdram = true → Memory.wf t.sdram = true) ∧
          (s.fld (MEMCS_STAT_CAUSE i) ≠ 5 → ∃ t' : State, exec (.memoryRequest off none cls 0 1) t = .next t' ∧ t'.rdata = words bs))) ∧
    (idle → s.subDumb i = false →
      Runs (.memoryRequest off none cls 0 1) s shown (fun t => { s with mem := t.mem, rdata := t.rdata })
        (fun t => awake t ∧ t.rdata = words (s.sdRead (sdramBase + off) 64)) ∧
      (∃ t : State, exec (.memoryRequest off none cls 1 1) s = .next t ∧ t.rdata = words (s.sdRead (sdramBase + off) 64) ∧
        t.fld (MEMCS_ECC_CE i) = min (s.fld (MEMCS_ECC_CE i) + 1) 0xFFFF ∧ t.flag MEMC_STAT_CE = true) ∧
      (∃ t : State, exec (.memoryRequest off none cls 2 1) s = .next t ∧ t.sdram = s.sdram ∧
        t.fld (MEMCS_ECC_UE i) = min (s.fld (MEMCS_ECC_UE i) + 1) 0xFFFF ∧ t.flag MEMC_STAT_UE = true ∧
        t.pair MEMC_UE_ADDR = (sdramBase + off) % 2 ^ 64)) ∧
    (fits → s.mem.parked = true → (∀ j < 16, s.subState j ≠ 3 ∧ s.subState j ≠ 4) → x.queue = [] → x.wait = [] → ∀ (write : Option (List Byte)) (served : Nat),
      Runs (.memoryRequest off write cls 0 served) s [MEMCS_QUEUE_MAX i] (fun t => { s with mem := t.mem })
        (fun t => t.subOf i = { x with queue := [{ off := off, write := write, cls := cls + 1, ecc := 0 }] })) ∧
    (s.capacity ≤ off ∨ off % 64 ≠ 0 ∨ s.subLive i = false → ∀ (write : Option (List Byte)) (served : Nat),
      Runs (.memoryRequest off write cls 0 served) s [] (fun _ => s) (fun _ => True))

/-- Refresh, power-down, temperature and retraining change a subchannel as the tables say. A refresh that falls due is paid
where no request waits for its banks, else owed, and at a debt of 4 forced, counted and logged. An idle ACTIVE
subchannel enters power-down with PD_EN, and with SR_EN, when the display is the one active class and tolerates it,
self-refresh. A temperature reading is shown, HOT logged, and the sustained rate judged again. A retraining window
begins, and ends with one window more, with the lane's new setting centred in its eyes, or with the subchannel retired
when the eyes are too narrow; with debts of 3, or under WDOG, none begins, and one that a park cut short counts nothing.
MEMC_CTL asks for a retraining of a live subchannel, and queues the training tables. Where conditions fail nothing
changes. (R361; R362; R363; R364; R365; R371; R375; R376) -/
def Obligations.MemoryUpkeepFollowsItsTables : Prop :=
  ∀ (s : State) (i : Fin 16) (rank : Fin 2) (bank : Fin 4) (ch : Fin 8) (temp : Int) (found : Eye),
    let x := s.subOf i
    let st := s.subState i
    let memIs := fun (t : State) => { s with mem := t.mem }
    let key := 4 * rank.val + bank.val
    let owed := min 4 (instGet 0 x.debt key + 1)
    let busy := x.queue.any (fun r => let b := (s.bankRow (s.place r.off).2).1
      decide (b / 32 = rank) && decide (b % 32 / 8 = bank))
    let refreshed := fun (debt : Nat) (w : List Field) => Runs (.refreshDue i rank bank) s
      (MEMCS_STAT_STATE i :: MEMCS_REFRESH_MAX_DEBT i :: w) (fun t => { withLogOf s t with mem := t.mem })
      (fun t => instGet 0 (t.subOf i).debt key = debt ∧ (t.subOf i).queue = x.queue ∧ (∀ j : Nat, j ≠ i → t.subOf j = s.subOf j) ∧
        t.fld (MEMCS_REFRESH_MAX_DEBT i) = max (s.fld (MEMCS_REFRESH_MAX_DEBT i)) owed ∧
        t.fld (MEMCS_STAT_STATE i) = (if st = 3 then 2 else st))
    (let runs := s.subLive i = true ∧ st ≠ 4 ∧ s.mem.parked = false
     (¬runs → Runs (.refreshDue i rank bank) s [] (fun _ => s) (fun _ => True)) ∧
     (runs → busy = false → refreshed 0 []) ∧ (runs → busy = true → owed < 4 → refreshed owed []) ∧
     (runs → busy = true → owed = 4 →
       refreshed 3 (MEMCS_REFRESH_FORCED i :: MEMC_STAT_REFRESH_FORCED :: logFields))) ∧
    (let pd := x.queue = [] ∧ st = 2 ∧ s.flag MEMC_CFG_PD_EN = true
     let sr := x.queue = [] ∧ (st = 2 ∨ st = 3) ∧ s.flag MEMC_CFG_SR_EN = true ∧ s.othersActive = false ∧ s.displayTolerant = true
     let enters := fun (b : Bool) (next : Nat) => Runs (.powerDownEntry i b) s [MEMCS_STAT_STATE i] memIs
       (fun t => t.fld (MEMCS_STAT_STATE i) = next ∧ t.subOf i = { x with hist := (t.subOf i).hist } ∧ ∀ j : Nat, j ≠ i → t.subOf j = s.subOf j)
     (pd → enters false 3) ∧ (sr → enters true 4) ∧
     (¬pd → Runs (.powerDownEntry i false) s [] (fun _ => s) (fun _ => True)) ∧
     (¬sr → Runs (.powerDownEntry i true) s [] (fun _ => s) (fun _ => True))) ∧
    (let subs := [2 * ch.val, 2 * ch.val + 1].filter (fun j => s.subLive j)
     (subs = [] → Runs (.dimmTempPoll ch temp) s [] (fun _ => s) (fun _ => True)) ∧
     (subs ≠ [] → ∃ t : State, exec (.dimmTempPoll ch temp) s = .next t ∧
       (∀ j ∈ subs, t.fld (MEMCS_TEMP_NOW j) = temp8 temp) ∧ (instGet 85 s.mem.limits ch < temp → t.flag MEMC_STAT_HOT = true) ∧
       bitOf t.mem.hot ch = decide (85 < temp) ∧ t.fld MEMC_BW_SUST_MBPS = t.sustained % 2 ^ 32)) ∧
    (let mate := s.subOf (if i.val % 2 = 0 then i.val + 1 else i.val - 1)
     let next : Option Retrain := if x.retrain.isSome then x.retrain
       else if x.wanted = true ∧ mate.retrain = none then some { lane := 0, windows := 0 } else none
     let held := ¬(2 ≤ st ∧ st ≤ 4) ∨ x.debt.any (fun d => decide (3 ≤ d.2)) = true ∨ s.flag SUP_STAT_WDOG = true
     (held ∨ next = none → Runs (.retrainWindow i none) s [] (fun _ => s) (fun _ => True)) ∧
     (¬held → ∀ r : Retrain, next = some r → Runs (.retrainWindow i none) s [MEMCS_STAT_STATE i, MEMC_CTL_RETRAIN] memIs
       (fun t => (t.subOf i).retrain = some r ∧ (t.subOf i).wanted = false ∧ t.fld (MEMCS_STAT_STATE i) = 6 ∧
         (x.retrain = none → s.fld MEMC_CTL_SC = i → t.flag MEMC_CTL_RETRAIN = false)))) ∧
    (x.retrain = none ∨ st ≠ 6 → Runs (.retrainWindow i (some found)) s [] (fun _ => s) (fun _ => True)) ∧
    (st = 6 → ∀ r : Retrain, x.retrain = some r →
      (r.windows < 255 → Runs (.retrainWindow i (some found)) s [MEMCS_STAT_STATE i] memIs
        (fun t => (t.subOf i).retrain = some { r with windows := r.windows + 1 } ∧ t.fld (MEMCS_STAT_STATE i) = 2)) ∧
      (255 ≤ r.windows → eyeWorks found = true → r.lane < 4 →
        Runs (.retrainWindow i (some found)) s (MEMCS_STAT_STATE i :: wholeReg (MEMC_LANE_DLY i r.lane).addr ::
            wholeReg (MEMC_LANE_VREF i r.lane).addr :: logFields) (fun t => { withLogOf s t with mem := t.mem })
          (fun t => (t.subOf i).retrain = some { lane := r.lane + 1, windows := 0 } ∧ t.fld (MEMCS_STAT_STATE i) = 2 ∧
            t.reg (MEMC_LANE_DLY i r.lane).addr = eyeDly found ∧ t.reg (MEMC_LANE_VREF i r.lane).addr = eyeVref found)) ∧
      (255 ≤ r.windows → eyeWorks found = false → ∃ t : State, exec (.retrainWindow i (some found)) s = .next t ∧
        t.flag MEMC_STAT_TRAIN_FAIL = true ∧ t.fld (MEMCS_STAT_STATE i) = 7 ∧ t.fld (MEMCS_STAT_CAUSE i) = 2 ∧
        (t.subOf i).retrain = none)) ∧
    (2 ≤ st → st ≤ 6 → Runs (.memcRetrain i) s [MEMC_CTL_SC, MEMC_CTL_RETRAIN] memIs
      (fun t => t.fld MEMC_CTL_SC = i ∧ t.flag MEMC_CTL_RETRAIN = true ∧ t.subOf i = { x with wanted := true } ∧
        ∀ j : Nat, j ≠ i → t.subOf j = s.subOf j)) ∧
    (st < 2 ∨ 6 < st → Runs (.memcRetrain i) s (MEMC_CTL_SC :: logFields) (fun t => withLogOf s t)
      (fun t => t.fld MEMC_CTL_SC = i ∧ t.hand.log = (s.ignored MEMC_CTL.addr).hand.log)) ∧
    Runs .memcStore s [] (fun _ => { s with mem := { s.mem with store := List.range 8 } }) (fun _ => True)

/-- Retirement, evacuation and patrol scrub go step by step. A PHY failure of a subchannel in ACTIVE to WINDOW takes it to
RETIRE_PEND with cause 5, logs RETIRE and queues it for the first tick whose close point follows; in any other state
nothing happens. An evacuation copy moves MEMC_EVAC_FRONT to the next retiring granule, or ends with the subchannel
RETIRED, out of LIVE and in RETIRED; a subchannel that does not answer loses the granules left: they read 0, every other
byte stays, and LOST is set. With no evacuation, or in a park, nothing changes. A scrub step reads the next granule of a
subchannel that may be scrubbed, at the earliest one scrub period after the pass before began, outside WDOG, and changes
no data. (R366; R367; R370; R376) -/
def Obligations.RetirementEvacuationAndScrubGoStepByStep : Prop :=
  ∀ (s : State) (i : Fin 16),
    let st := s.subState i
    let queue := if s.deal.closed then { s.mem with later := s.mem.later ++ [i.val] } else { s.mem with due := s.mem.due ++ [i.val] }
    let retiredNow := fun (t : State) (k : Nat) => t.fld (MEMCS_STAT_STATE k) = 9 ∧ t.bitSet MEMC_LIVE_LIVE k = false ∧
      t.bitSet MEMC_LIVE_RETIRED k = true ∧ t.flag MEMC_STAT_EVAC = false ∧ t.flag MEMC_EVAC_STAT_ACTIVE = false
    (2 ≤ st → st ≤ 6 →
      Runs (.subchannelPhyFailure i) s (MEMCS_STAT_STATE i :: MEMCS_STAT_CAUSE i :: MEMC_STAT_RETIRE :: logFields)
        (fun t => { withLogOf s t with mem := { queue with subs := t.mem.subs } })
        (fun t => t.fld (MEMCS_STAT_STATE i) = 7 ∧ t.fld (MEMCS_STAT_CAUSE i) = 5 ∧ t.flag MEMC_STAT_RETIRE = true ∧
          (t.subOf i).retrain = none ∧ (t.subOf i).wanted = false)) ∧
    (st < 2 ∨ 6 < st → Runs (.subchannelPhyFailure i) s [] (fun _ => s) (fun _ => True)) ∧
    (∀ (answers : Bool) (ue : List Nat), s.mem.retired = [] ∨ s.evacuating = false ∨ s.mem.parked = true →
      Runs (.evacuationGranuleCopy answers ue) s [] (fun _ => s) (fun _ => True)) ∧
    (∀ (r : Restripe) (rest : List Restripe), s.mem.retired = r :: rest → s.evacuating = true → r.sub < 16 → s.mem.parked = false →
      let front := s.pair MEMC_EVAC_FRONT
      (s.subDumb r.sub = false → ∀ f : Nat, s.nextRetiring r (front + 4096) = some f →
        Runs (.evacuationGranuleCopy true []) s (MEMC_EVAC_STAT_LEFT_GIB :: pairFields MEMC_EVAC_FRONT) (fun _ => s)
          (fun t => t.pair MEMC_EVAC_FRONT = f % 2 ^ 64)) ∧
      (s.subDumb r.sub = false → s.nextRetiring r (front + 4096) = none →
        ∃ t : State, exec (.evacuationGranuleCopy true []) s = .next t ∧ retiredNow t r.sub ∧ t.sdram = s.sdram) ∧
      (∃ t : State, exec (.evacuationGranuleCopy false []) s = .next t ∧ retiredNow t r.sub ∧ t.flag MEMC_STAT_LOST = true ∧
        t.fld MEMC_LOST_GRANULES = min (s.fld MEMC_LOST_GRANULES + s.retiringLeft r front) 0xFFFFFFFF ∧
        ∀ o : Nat, t.sdByte o =
          if front ≤ o ∧ o < 4096 * r.new ∧ (placeOf s.mem.stripe rest (o / 4096)).1 = r.sub then 0 else s.sdByte o)) ∧
    (let total := s.mem.csub / 4096
     let early := (∀ j < 16, (s.subOf j).scrub = 0) ∧ ∃ a : Int, s.mem.passAt = some a ∧ s.now < a
     let may := s.evacuating = false ∧ s.flag SUP_STAT_WDOG = false ∧ 2 ≤ st ∧ st ≤ 4 ∧ (s.subOf i).scrub < total ∧ (s.subOf i).scrubTurn = true ∧ ¬early
     let live := (List.range 16).filter (fun j => s.subLive j && decide (s.subState j ≤ 6))
     let sum := (live.map (fun j => (s.subOf j).scrub)).sum + 1
     (¬may → Runs (.scrubStep i 0 []) s [] (fun _ => s) (fun _ => True)) ∧
     (may → Runs (.scrubStep i 0 []) s [MEMC_SCRUB_STAT_PASSES, MEMC_SCRUB_STAT_PROGRESS] (fun t => { s with mem := { s.mem with subs := t.mem.subs, passAt := t.mem.passAt } })
       (fun t => (sum = live.length * total → (t.subOf i).scrub = 0 ∧
           t.fld MEMC_SCRUB_STAT_PASSES = min (s.fld MEMC_SCRUB_STAT_PASSES + 1) 0xFFFF) ∧
         (sum ≠ live.length * total → (t.subOf i).scrub = (s.subOf i).scrub + 1 ∧
           t.fld MEMC_SCRUB_STAT_PASSES = s.fld MEMC_SCRUB_STAT_PASSES))))

/-! ### Streaming (14) -/

/-- Ethernet links move between DOWN, ALIGN and UP as the state table says, and count what they receive. A signal on a DOWN
link of an enabled port starts alignment; an ALIGN link that is aligned comes UP, clears its fault bits and logs
LINK_UP; one that times out goes DOWN; an UP link that loses alignment or sees a fault goes DOWN, counts it, shows the
fault and logs LINK_DOWN with its cause. Each move sets LINK_CHG and shows the link in ETHp_STAT.UP and ETH_STAT.UP. In
any other state those events change nothing. A frame received on an UP link is counted and discarded. (R379; R380; R411;
R412) -/
def Obligations.EthernetLinksFollowTheStateTable : Prop :=
  ∀ (s : State) (p : Fin 2) (l : Fin 4) (cause : Fin 3) (corr uncorr : Nat),
    let st := ETH_L_STAT_STATE p l
    let shown := [st, ETH_STAT_LINK_CHG.bit p, (ETHP_STAT_UP p).bit l, ETH_STAT_UP.bit p]
    let moved := fun (t : State) (n : Nat) =>
      t.fld st = n ∧ t.bitSet ETH_STAT_LINK_CHG p = true ∧ t.bitSet (ETHP_STAT_UP p) l = decide (n = 2) ∧
      (t.bitSet ETH_STAT_UP p = true ↔
        (∃ x < 64, s.streamOn p x = true) ∧ ∀ x < 64, s.streamOn p x = true → t.streamUp p x = true)
    let logged := fun (t : State) (code sev arg : Nat) => t.hand.log = (s.logEvent code sev arg).hand.log
    let still := fun (c : Instr) => Runs c s [] (fun _ => s) (fun _ => True)
    let here := s.flag (ETHP_CFG_EN p) = true ∧ (l.val = 0 ∨ s.flag (ETHP_CFG_MODE p) = true)
    let sat := fun (f : Field) (n : Nat) => min (s.fld f + n) (2 ^ 32 - 1)
    (here → s.fld st = 0 → Runs (.ethSignalDetect p l) s shown (fun _ => s) (fun t => moved t 1)) ∧
    (¬here ∨ s.fld st ≠ 0 → still (.ethSignalDetect p l)) ∧
    (s.fld st = 1 → Runs (.ethAlignTimeout p l) s shown (fun _ => s) (fun t => moved t 0)) ∧
    (s.fld st ≠ 1 → still (.ethAlignTimeout p l)) ∧
    (s.fld st = 1 → ∃ t : State, exec (.linkUp p l) s = .next t ∧ moved t 2 ∧
      t.flag (ETH_L_STAT_RFAULT p l) = false ∧ t.flag (ETH_L_STAT_LFAULT p l) = false) ∧
    (s.flag KIT_CFG_CONSUMER = true ∨ s.kittyStream = none →
      (s.fld st = 1 → Runs (.linkUp p l) s (ETH_L_STAT_RFAULT p l :: ETH_L_STAT_LFAULT p l :: shown ++ logFields)
        (fun t => withLogOf s t) (fun t => moved t 2 ∧ logged t 0x0A01 sevInfo (16 * p.val + l.val))) ∧
      (s.fld st ≠ 1 → still (.linkUp p l))) ∧
    (s.fld st = 2 → Runs (.linkDown p l cause) s
      (ETH_L_STAT_DOWNS p l :: ETH_L_STAT_RFAULT p l :: ETH_L_STAT_LFAULT p l :: shown ++ logFields) (fun t => withLogOf s t)
      (fun t => moved t 0 ∧ t.fld (ETH_L_STAT_DOWNS p l) = min (s.fld (ETH_L_STAT_DOWNS p l) + 1) 0xFFFF ∧
        t.flag (ETH_L_STAT_RFAULT p l) = (s.flag (ETH_L_STAT_RFAULT p l) || decide (cause.val = 1)) ∧
        t.flag (ETH_L_STAT_LFAULT p l) = (s.flag (ETH_L_STAT_LFAULT p l) || decide (cause.val = 2)) ∧
        logged t 0x0A02 sevAttention (16 * p.val + l.val + 256 * cause.val))) ∧
    (s.fld st ≠ 2 → still (.linkDown p l cause) ∧ still (.ethFrameReceived p l corr uncorr)) ∧
    (s.fld st = 2 → Runs (.ethFrameReceived p l corr uncorr) s
      [ETHP_RX_DISCARD_COUNT p, ETHP_FEC_CORR_COUNT p, ETHP_FEC_UNCORR_COUNT p] (fun _ => s)
      (fun t => t.fld (ETHP_RX_DISCARD_COUNT p) = sat (ETHP_RX_DISCARD_COUNT p) 1 ∧
        t.fld (ETHP_FEC_CORR_COUNT p) = sat (ETHP_FEC_CORR_COUNT p) corr ∧
        t.fld (ETHP_FEC_UNCORR_COUNT p) = sat (ETHP_FEC_UNCORR_COUNT p) uncorr))

/-- Packets leave by token and turn; aged records drop; spilled records come back in order. On an UP link with no KITTY
stream to serve, the first stream in turn that has records, whose head is in the store and whose bucket, filled for the
time given up to its depth, holds the line time of the frame plus 20 bytes, sends that frame alone: the bucket pays,
PSEQ and TX_BYTES go up, and the record's next fragment stands at the head, or the record is gone and counted. On a link
not UP no queue changes. A head record older than AGE whose first fragment has not left is dropped and counted;
otherwise nothing changes. The record written to spill first is read back into the store when that has room; one hit by
an uncorrectable error is dropped. (R385; R398; R400; R401) -/
def Obligations.PacketsLeaveAndRecordsAgeOrReturn : Prop :=
  ∀ (s : State) (p : Fin 2) (l : Fin 4) (st : Fin 64) (ns : Nat),
    let x := s.streamAt p st
    let noKitty := s.flag KIT_CFG_CONSUMER = true ∨ s.kittyStream = none
    let ethIs := fun (t : State) => { s with eth := t.eth }
    let fill := fun (y : Nat) => min (s.fld (ETH_S_BURST_KIB p y) * 8192000) ((s.streamAt p y).tokens + ns * s.fld (ETH_S_RATE_MBPS p y))
    let turn := fun (y : Nat) => (y + 127 - instGet 63 s.eth.served (4 * p.val + l.val) % 64) % 64
    (∀ (q : QRec) (rest : List QRec), noKitty → s.fld (ETH_L_STAT_STATE p l) = 2 → s.linkOf p st = l →
      x.queue = q :: rest → q.spill = none → rest.all (fun r => !s.tooOld p r) = true →
      (∀ y < 64, y ≠ st.val → s.linkOf p y = l → (s.streamAt p y).queue = [] ∨ turn st < turn y) →
      let frag := if q.vdif then q.bytes else (q.bytes.drop q.sent).take (64 * s.fld (ETH_S_CFG_FRAG p st))
      let frame := etherFrame q.dest.mac (s.pair (ETH_L_MAC p l) % 2 ^ 48) (s.fld (ETH_S_SRC_DSCP p st)) (s.fld (ETH_L_IP_ADDR p l))
        q.dest.ip q.dest.src q.dest.dst (s.datagram p st q x.pseq)
      let cost := (frame.length + 20) * 8000
      let ends := decide (q.size ≤ q.sent + frag.length)
      cost ≤ fill st →
      Runs (.packetTransmit p l ns) s
        (ETH_S_SENT_COUNT p st :: ETHP_STAT_STORE_KIB p :: ETHP_SPILL_KIB p :: pairFields (ETHP_TX_BYTES p)) ethIs
        (fun t => t.streamAt p st = { x with
            pseq := (x.pseq + 1) % 2 ^ 32, tokens := fill st - cost, sent := x.sent + b2n ends,
            queue := if ends then rest else { q with sent := q.sent + frag.length } :: rest } ∧
          t.pair (ETHP_TX_BYTES p) = (s.pair (ETHP_TX_BYTES p) + frame.length) % 2 ^ 64 ∧
          t.fld (ETH_S_SENT_COUNT p st) = (s.fld (ETH_S_SENT_COUNT p st) + b2n ends) % 2 ^ 32 ∧
          ∀ y < 64, y ≠ st.val → (t.streamAt p y).queue = (s.streamAt p y).queue)
        (sent := [Out.frame p l frame])) ∧
    (noKitty → s.fld (ETH_L_STAT_STATE p l) ≠ 2 → Runs (.packetTransmit p l ns) s [] ethIs
      (fun t => ∀ y < 64, (t.streamAt p y).queue = (s.streamAt p y).queue)) ∧
    (∀ (q : QRec) (rest : List QRec), x.queue = q :: rest →
      let old := q.gap = none ∧ q.deal + s.fld (ETHP_CFG_AGE p) < s.pair DEAL_NUM
      (old → q.sent = 0 → rest.all (fun r => !s.tooOld p r) = true → (∀ n : Nat, q.kpkt ≠ some (n, true)) →
        Runs (.recordAgeExpiry p st) s
          (ETH_S_DROPPED_COUNT p st :: ETHP_DROPPED_COUNT p :: ETH_STAT_DROP.bit p :: ETHP_STAT_STORE_KIB p :: ETHP_SPILL_KIB p :: logFields)
          (fun t => { withLogOf s t with eth := t.eth })
          (fun t => (t.streamAt p st).queue = rest ∧ (t.streamAt p st).rseq = x.rseq ∧
            (t.streamAt p st).dropped = x.dropped + 1 ∧ (t.streamAt p st).lostB = x.lostB + q.size ∧
            t.fld (ETH_S_DROPPED_COUNT p st) = min (s.fld (ETH_S_DROPPED_COUNT p st) + 1) (2 ^ 32 - 1) ∧
            t.bitSet ETH_STAT_DROP p = true ∧
            t.hand.log = (s.logEvent 0x0A03 sevInfo (256 * p.val + st.val)).hand.log)) ∧
      (¬(old ∧ q.sent = 0) → Runs (.recordAgeExpiry p st) s [] (fun _ => s) (fun _ => True))) ∧
    (x.queue = [] → Runs (.recordAgeExpiry p st) s [] (fun _ => s) (fun _ => True)) ∧
    (s.nextSpilled p = none → ∀ ue : Option Nat, Runs (.spillReadBack p ue) s [] (fun _ => s) (fun _ => True)) ∧
    (∀ (q : QRec) (o : Nat), s.nextSpilled p = some (st.val, q) → q.spill = some o → s.storeBytes p + q.size ≤ 67108864 →
      let dumb := fun (b : Nat) => s.sdDumb ((s.spillRegion p).1 + o + b)
      ((∀ b < q.size, dumb b = false) → Runs (.spillReadBack p none) s [ETHP_STAT_STORE_KIB p, ETHP_SPILL_KIB p] ethIs
        (fun t => (t.streamAt p st).queue = x.queue.map (fun y =>
            if y = q then { q with bytes := s.sdRead (sdramBase + (s.spillRegion p).1 + o) q.size, spill := none } else y) ∧
          t.eth.spill = s.eth.spill.filter (fun e => !(decide (e.1 = p.val) && decide (e.2.2.1 = o))))) ∧
      (q.gap = none → ∀ ue : Option Nat, (ue.isSome = true ∨ ∃ b < q.size, dumb b = true) →
        ∃ t : State, exec (.spillReadBack p ue) s = .next t ∧
          t.bitSet ETH_STAT_SPILL_LOST p = true ∧ t.bitSet ETH_STAT_DROP p = true ∧
          x.dropped + 1 ≤ (t.streamAt p st).dropped ∧ (t.streamAt p st).queue.length < x.queue.length))

/-- GAP and STAT records and VDIF frames enter their stream's queue when their rules say. While the store has room and the
stream has nothing in spill: drops not yet reported leave as one GAP record on the stream's reporting stream, if that is
on; with none to report, or that stream off, nothing changes. While deals run, at a deal number that STATP divides, a
port with a STATUS stream that is on queues a STAT record there, once for each tick; at other times none. A VDIF stream
whose next samples fill a frame up to its last position queues that frame, with offset-binary zero at positions without
a sample and Invalid set for a missing or marked sample; with no sample waiting nothing changes. (R393; R394; R395;
R396; R397; R400; R402) -/
def Obligations.GapStatAndVdifRecordsEnterTheirQueues : Prop :=
  ∀ (s : State) (p : Fin 2) (st r : Fin 64),
    let x := s.streamAt p st
    let y := s.streamAt p r
    let ethIs := fun (t : State) => { s with eth := t.eth }
    let shown := [ETHP_STAT_STORE_KIB p, ETHP_SPILL_KIB p]
    let still := fun (c : Instr) => Runs c s [] (fun _ => s) (fun _ => True)
    let room := fun (z : Stream) (n : Nat) => s.storeBytes p + n ≤ 67108864 ∧ z.queue.all (fun q => q.spill.isNone) = true
    let young := fun (z : Stream) => z.queue.all (fun q => !s.tooOld p q) = true
    (x.gap = none ∨ s.gapStream p st = none ∨ (s.gapStream p st = some r.val ∧ s.streamOn p r = false) → still (.gapRecord p st)) ∧
    (∀ g : GapAcc, x.gap = some g → s.gapStream p st = some r.val → s.streamOn p r = true → room y 104 →
      Runs (.gapRecord p st) s shown ethIs
        (fun t => (t.streamAt p st).gap = none ∧ (t.streamAt p r).rseq = (y.rseq + 1) % 2 ^ 32 ∧
          (t.streamAt p r).queue = y.queue ++ [
            { bytes := s.gapBytes st g, spill := none, size := 104, deal := g.last,
              rseq := y.rseq, dest := s.destNow p r, sent := 0, vdif := false, gap := some (st.val, g), kpkt := none }])) ∧
    (let n := s.pair DEAL_NUM
     let due := s.deal.running = true ∧ s.flag (ETHP_CFG_SS_EN p) = true ∧ s.fld (ETHP_CFG_STATP p) ≠ 0 ∧
       n % s.fld (ETHP_CFG_STATP p) = 0 ∧ instGet 0 s.eth.statAt p ≤ n
     (due → s.fld (ETHP_CFG_SSTREAM p) = r → s.streamOn p r = true →
       let bytes := s.record (plainHead 0x0A 0x0A 0 n (65536 * s.dealRaw n)) (s.statBytes p)
       room y bytes.length → young y →
       Runs (.statRecord p) s shown ethIs
         (fun t => (t.streamAt p r).rseq = (y.rseq + 1) % 2 ^ 32 ∧ instGet 0 t.eth.statAt p = n + 1 ∧
           (t.streamAt p r).queue = y.queue ++ [
            { bytes := bytes, spill := none, size := bytes.length, deal := n,
              rseq := y.rseq, dest := s.destNow p r, sent := 0, vdif := false, gap := none, kpkt := none }])) ∧
     (¬due ∨ (s.fld (ETHP_CFG_SSTREAM p) = r ∧ s.streamOn p r = false) → still (.statRecord p))) ∧
    (x.vdif = [] → still (.vdifFrame p st)) ∧
    (∀ (v : VdifIn) (t rest : List VdifIn) (last : VdifIn),
      let mine := v :: t
      let c := if s.fld (ETH_S_CFG_KIND p st) = 1 then 2 else 1
      let b := s.vbits p st
      let spf := s.vspf p st c
      let code := fun (i : Nat) => ((mine.find? (fun u => decide (u.pos = i))).map (fun u => u.code)).getD
        (if c = 2 then 2 ^ (b - 1) + 2 ^ (b - 1) * 2 ^ b else 2 ^ (b - 1))
      let bad := decide (mine.length < spf) || mine.any (fun u => u.invalid || decide (u.epoch ≠ v.epoch))
      let bytes := s.vdifBytes p st c v ((List.range spf).map code) bad
      x.vdif = mine ++ rest → x.left v = false → (∀ u ∈ mine, u.sec = v.sec ∧ u.frame = v.frame) →
      mine.getLast? = some last → last.pos + 1 = spf → (∀ u ∈ mine.dropLast, u.pos + 1 ≠ spf) →
      (s.destFor p st v.deal).en = true → room x bytes.length → young x → s.pair DEAL_NUM ≤ v.deal + s.fld (ETHP_CFG_AGE p) →
      Runs (.vdifFrame p st) s shown ethIs
        (fun u => (u.streamAt p st).vdif = rest ∧ (u.streamAt p st).gone = some (v.sec, v.frame) ∧
          (u.streamAt p st).queue = x.queue ++ [
            { bytes := bytes, spill := none, size := bytes.length, deal := v.deal,
              rseq := x.rseq, dest := s.destFor p st v.deal, sent := 0, vdif := true, gap := none, kpkt := none }]))

/-! ### The kitty port (14) -/

/-- Kitty words pack into entries; a full queue or a timeout cuts the packet. Where the stream formatter takes nothing: a
word joins the entry under construction; the first of a packet opens it and takes its number from KIT_PKTS. Its 16th
word, or its last, writes the entry, padded with zeros and tagged DATA or END with its bytes, at the write pointer, and
moves occupancy and KITTY_HOLD by the watermarks. A word that finds the queue full is discarded with the rest of its
packet and counted, and the entry under construction waits as CUT; the end of such a packet logs KIT_OVERFLOW with the
words discarded. A timeout writes the open packet's entry as CUT. A stopped clock is shown and logged once. Where the
formatter does take entries, a one-word packet goes to the KITTY stream's queue as one record. (R404; R405; R406; R407;
R408; R392; R413; R414) -/
def Obligations.KittyWordsPackOverflowAndCut : Prop :=
  ∀ (s : State) (w : BitVec 16) (last : Bool),
    let idle := s.flag KIT_CFG_CONSUMER = true ∨ s.kittyStream = none ∨
      ∃ p st : Nat, s.kittyStream = some (p, st) ∧ (s.streamOn p st && s.streamUp p st) = false
    let full := 2048 ≤ s.kit.queue.length
    let kitIs := fun (t : State) => { s with kit := t.kit }
    let first := s.kit.pkt = none
    let p := s.kit.pkt.getD (s.fld KIT_PKTS_COUNT)
    let words := (if s.kit.pkt.isSome then s.kit.words else []) ++ [w.toNat]
    let starts := if s.kit.pkt.isSome then s.kit.starts else s.kit.starts ++ [(p, s.rawNow, s.pair DEAL_NUM)]
    let entry := fun (ws : List Nat) (kind : Nat) =>
      ({ data := (List.range 16).flatMap (fun i => leBytes 2 (ws.getD i 0)), tag := 64 * kind + 2 * ws.length, pkt := p } : KitEntry)
    let queueFields := [KIT_PTR_WR, KIT_LEVEL_CUR, KIT_LEVEL_MAX, KIT_STAT_HOLD]
    let stored := fun (t : State) =>
      let n := s.kit.queue.length + 1
      let hold := if s.fld KIT_WM_HWM ≤ n then true else if n ≤ s.fld KIT_WM_LWM then false else s.flag KIT_STAT_HOLD
      t.fld KIT_PTR_WR = (s.fld KIT_PTR_WR + 1) % 4096 ∧ t.fld KIT_LEVEL_CUR = n ∧
      t.fld KIT_LEVEL_MAX = max (s.fld KIT_LEVEL_MAX) n ∧ t.flag KIT_STAT_HOLD = hold ∧
      t.pins.kittyHold = (hold || !s.pins.ready)
    let opened := fun (t : State) => t.fld KIT_PKTS_COUNT = (s.fld KIT_PKTS_COUNT + b2n s.kit.pkt.isNone) % 2 ^ 32
    (idle → s.kit.spoiled = false → ¬full → s.kit.drop ≠ some p → (first ∨ s.kit.words.length < 16) →
      (last = false → words.length ≠ 16 →
        Runs (.kittyWord w false) s [KIT_STAT_CLK, KIT_STAT_OPEN, KIT_PKTS_COUNT] kitIs
          (fun t => t.kit = { s.kit with pkt := some p, words := words, starts := starts } ∧ opened t ∧
            t.flag KIT_STAT_CLK = true ∧ (first → t.flag KIT_STAT_OPEN = true))) ∧
      (last = true ∨ words.length = 16 →
        Runs (.kittyWord w last) s (KIT_STAT_CLK :: KIT_STAT_OPEN :: KIT_PKTS_COUNT :: queueFields)
          (fun t => { s with kit := t.kit, pins := { s.pins with kittyHold := t.pins.kittyHold } })
          (fun t => t.kit = { s.kit with
              pkt := if last then none else some p, words := [], starts := starts,
              queue := s.kit.queue ++ [entry words (if last then 2 else 1)] } ∧
            opened t ∧ stored t ∧ (last = true → t.flag KIT_STAT_OPEN = false)))) ∧
    (idle → s.kit.spoiled = false → full → last = false →
      Runs (.kittyWord w false) s [KIT_STAT_CLK, KIT_STAT_OPEN, KIT_STAT_OVERFLOW, KIT_PKTS_COUNT, KIT_LOST_WORDS_COUNT] kitIs
        (fun t => t.kit = { s.kit with
            pkt := none, words := if first then s.kit.words else [], spoiled := true, lost := s.kit.lost + 1,
            held := if first then s.kit.held else some (entry s.kit.words 3) } ∧
          opened t ∧ t.flag KIT_STAT_OVERFLOW = true ∧ t.flag KIT_STAT_OPEN = true ∧
          t.fld KIT_LOST_WORDS_COUNT = min (s.fld KIT_LOST_WORDS_COUNT + 1) (2 ^ 32 - 1))) ∧
    (idle → s.kit.spoiled = true →
      Runs (.kittyWord w last) s (KIT_STAT_CLK :: KIT_STAT_OPEN :: KIT_STAT_OVERFLOW :: KIT_LOST_WORDS_COUNT :: logFields)
        (fun t => { withLogOf s t with kit := t.kit })
        (fun t => t.kit = { s.kit with spoiled := !last, lost := if last then 0 else s.kit.lost + 1 } ∧
          t.fld KIT_LOST_WORDS_COUNT = min (s.fld KIT_LOST_WORDS_COUNT + 1) (2 ^ 32 - 1) ∧
          t.hand.log = (if last then (s.logEvent 0x0B01 sevAttention (s.kit.lost + 1)).hand.log else s.hand.log))) ∧
    (idle → s.kit.spoiled = true →
      Runs .kitCut s (KIT_STAT_OPEN :: logFields) (fun t => { withLogOf s t with kit := t.kit })
        (fun t => t.kit = { s.kit with spoiled := false, lost := 0 } ∧ t.flag KIT_STAT_OPEN = false ∧
          t.hand.log = (s.logEvent 0x0B01 sevAttention s.kit.lost).hand.log)) ∧
    (idle → s.kit.spoiled = false → ¬first → ¬full → s.kit.drop ≠ some p →
      Runs .kitCut s (KIT_STAT_OPEN :: KIT_STAT_CUT :: queueFields ++ logFields)
        (fun t => { withLogOf s t with kit := t.kit, pins := { s.pins with kittyHold := t.pins.kittyHold } })
        (fun t => t.kit = { s.kit with pkt := none, words := [], queue := s.kit.queue ++ [entry s.kit.words 3] } ∧ stored t ∧
          t.flag KIT_STAT_CUT = true ∧ t.flag KIT_STAT_OPEN = false ∧
          t.hand.log = (s.logEvent 0x0B02 sevInfo p).hand.log)) ∧
    (idle → s.kit.spoiled = false → first → Runs .kitCut s [] (fun _ => s) (fun _ => True)) ∧
    (s.flag KIT_STAT_CLK = true → Runs .kitClkLost s (KIT_STAT_CLK :: logFields) (fun t => withLogOf s t)
      (fun t => t.flag KIT_STAT_CLK = false ∧ t.hand.log = (s.logEvent 0x0B03 sevInfo 0).hand.log)) ∧
    (s.flag KIT_STAT_CLK = false → Runs .kitClkLost s [] (fun _ => s) (fun _ => True)) ∧
    (∀ port st : Nat, port < 2 → st < 64 → s.flag KIT_CFG_CONSUMER = false → s.kittyStream = some (port, st) →
      s.streamOn port st = true → s.streamUp port st = true →
      s.kit = { KitState.reset with last := s.kit.last } →
      let x := s.streamAt port st
      let bytes := s.record (plainHead 0x09 0x0B (p % 2 ^ 32) (s.pair DEAL_NUM) (65536 * s.rawNow))
        (leBytes 4 p ++ leBytes 2 2 ++ leBytes 1 3 ++ leBytes 1 0 ++ leBytes 2 w.toNat)
      s.storeBytes port + bytes.length ≤ 67108864 → x.queue = [] →
      ∃ t : State, exec (.kittyWord w true) s = .next t ∧ t.kit.queue = [] ∧ t.kit.pkt = none ∧
        (t.streamAt port st).queue.map (fun q => (q.bytes, q.rseq)) = [(bytes, x.rseq)])

/-- The host pops the kitty queue by reading KIT_TAG, and DROP discards the rest of a packet. With the host as consumer a
read of KIT_TAG takes the oldest entry, shows its tag, packet number and data, advances the read pointer, and returns
KIT_TAG; of an empty queue it returns the idle item. With the formatter as consumer it returns the idle item, pops
nothing and is recorded. DROP with no packet partly popped is recorded and changes nothing; while one is being dropped
it changes nothing; otherwise it discards the queued entries of the packet last popped, counts them, and goes on with
later ones where the last entry has not come. (R406; R409; R410; R413) -/
def Obligations.HostPopsAndDropsKittyEntries : Prop :=
  ∀ s : State,
    let tagFields := [KIT_TAG_PKT, KIT_TAG_TAG] ++ (List.range 8).map (fun d => wholeReg (KIT_DATA d).addr)
    let shows := fun (t : State) (pkt tag : Nat) (data : List Byte) =>
      t.rdata = [t.reg KIT_TAG.addr] ∧ t.fld KIT_TAG_PKT = pkt % 2 ^ 16 ∧ t.fld KIT_TAG_TAG = tag % 2 ^ 8 ∧
      ∀ d < 8, t.reg (KIT_DATA d).addr = BitVec.ofNat 32 (leNat ((data.drop (4 * d)).take 4))
    let moved := [KIT_PTR_RD, KIT_LEVEL_CUR, KIT_LEVEL_MAX, KIT_STAT_HOLD]
    (∀ (e : KitEntry) (rest : List KitEntry), s.flag KIT_CFG_CONSUMER = true → s.kit.queue = e :: rest → s.kit.held = none →
      Runs .kitTagRead s (tagFields ++ moved)
        (fun t => { s with kit := t.kit, rdata := t.rdata, pins := { s.pins with kittyHold := t.pins.kittyHold } })
        (fun t => shows t e.pkt e.tag e.data ∧ t.kit.queue = rest ∧
          t.kit.last = (if e.tag / 64 % 4 = 1 then some e.pkt else none) ∧
          t.fld KIT_PTR_RD = (s.fld KIT_PTR_RD + 1) % 4096 ∧ t.fld KIT_LEVEL_CUR = rest.length % 2 ^ 16)) ∧
    (s.flag KIT_CFG_CONSUMER = true → s.kit.queue = [] →
      Runs .kitTagRead s tagFields (fun t => { s with kit := { s.kit with last := none }, rdata := t.rdata })
        (fun t => shows t 0 0 (zeros 32))) ∧
    (s.flag KIT_CFG_CONSUMER = false →
      Runs .kitTagRead s (tagFields ++ logFields) (fun t => { withLogOf s t with rdata := t.rdata })
        (fun t => shows t 0 0 (zeros 32) ∧ t.hand.log = (s.ignored KIT_TAG.addr).hand.log)) ∧
    (∀ n : Nat, s.kit.drop = some n → Runs .kitDrop s [] (fun _ => s) (fun _ => True)) ∧
    (s.kit.drop = none → s.kit.last = none →
      Runs .kitDrop s logFields (fun t => withLogOf s t) (fun t => t.hand.log = (s.ignored KIT_CTL.addr).hand.log)) ∧
    (∀ n : Nat, s.kit.drop = none → s.kit.last = some n → s.kit.held = none →
      let part := s.kit.queue.takeWhile (fun e => decide (e.pkt = n) && decide (e.tag / 64 % 4 = 1))
      let rest := s.kit.queue.drop part.length
      let ends := rest.head?.any (fun e => decide (e.pkt = n))
      let count := part.length + b2n ends
      Runs .kitDrop s (KIT_CTL_DROP :: KIT_STAT_DROPPED :: KIT_DROP_ENTRIES_COUNT :: moved)
        (fun t => { s with kit := t.kit, pins := { s.pins with kittyHold := t.pins.kittyHold } })
        (fun t => t.kit.queue = s.kit.queue.drop count ∧ t.kit.last = none ∧
          t.kit.drop = (if rest = [] then some n else none) ∧ t.flag KIT_CTL_DROP = decide (rest = []) ∧
          (0 < count → t.flag KIT_STAT_DROPPED = true) ∧
          t.fld KIT_DROP_ENTRIES_COUNT = min (s.fld KIT_DROP_ENTRIES_COUNT + count) (2 ^ 32 - 1) ∧
          t.fld KIT_PTR_RD = (s.fld KIT_PTR_RD + count) % 4096))

/-! ### The host port and DMA (15) -/

/-- Endpoint resets, link changes, late completions and interrupt messages follow the host port's rules. In a live device: a
hot reset, a link disable or the loss of the link returns configuration space, MSI-X, the PORT and HOST fields but the
counters to reset, ends running DMA with LINK, sets its status bit and is logged; D3hot only ends running DMA and is
shown. A link that comes up shows its rate and width. A late completion is counted, shown and logged. Enabling MSI-X
with the link up sends a message for every set HOST_INT_PEND bit that no mask covers, and notes the masked ones as
pending; with the link down nothing is sent. Clearing HOST_INT_PEND bits leaves those set whose vectors are still
active, with a further message each. Otherwise nothing changes. (R415; R416; R417; R424; R425; R426; R434; R436) -/
def Obligations.EndpointAndInterruptsFollowTheHostPort : Prop :=
  ∀ (s : State) (kind : Fin 3) (rate : Fin 5) (width : Fin 4) (addr : Nat) (mask : Word) (fmask : Bool),
    let still := fun (c : Instr) => Runs c s [] (fun _ => s) (fun _ => True)
    let dmaFields := HOST_DMA_DONE_DONE :: (List.range 16).flatMap (fun c => [DMA_STAT_STATE c, DMA_STAT_ERR c])
    let unlinked := fun (t : State) => ∀ c < 16,
      t.fld (DMA_STAT_STATE c) = (if s.dmaBusy c then 5 else s.fld (DMA_STAT_STATE c)) ∧
      t.fld (DMA_STAT_ERR c) = (if s.dmaBusy c then 5 else s.fld (DMA_STAT_ERR c))
    let cleared := [HOST_INT_EN_EN, HOST_LINK_SPEED, HOST_LINK_WIDTH, HOST_STAT_CPL_LATE, HOST_STAT_PORT_ERR, PORT_ADDR_LO_ADDR, PORT_ADDR_HI_ADDR]
    let fields := HOST_STAT_HOT_RESET :: HOST_STAT_LINK_DOWN :: HOST_LINK_DOWNS :: PORT_INC_INC :: cleared ++ dmaFields ++ logFields
    let ended := fun (t : State) => (∀ f ∈ cleared, t.fld f = 0) ∧ t.fld PORT_INC_INC = 1 ∧ unlinked t ∧
      (∀ c < 16, t.bitSet HOST_DMA_DONE_DONE c = s.dmaBusy c)
    let parts := fun (t : State) => { withLogOf s t with
      host := .reset, holdLo := sparseErase PORT_ADDR.addr s.holdLo, capture := sparseErase (PORT_ADDR.addr + 4) s.capture }
    let covered := fun (v : Nat) => fmask || (sparseGet msixDefault s.host.table (16 * v + 12)).getLsbD 0
    let pend := fun (v : Nat) => s.bitSet HOST_INT_PEND_PEND v
    (s.alive = false → still (.hotReset kind) ∧ still .pcieLinkDown ∧ still (.pcieLinkUp rate width)) ∧
    (s.alive = true →
      (kind.val < 2 → Runs (.hotReset kind) s fields parts (fun t => ended t ∧ t.flag HOST_STAT_HOT_RESET = true ∧
        t.flag HOST_STAT_LINK_DOWN = false ∧ t.fld HOST_LINK_DOWNS = s.fld HOST_LINK_DOWNS ∧
        t.hand.log = (s.logEvent 0x0C02 sevInfo kind).hand.log)) ∧
      Runs (.hotReset 2) s (HOST_STAT_HOT_RESET :: dmaFields ++ logFields) (fun t => withLogOf s t)
        (fun t => unlinked t ∧ (∀ c < 16, t.bitSet HOST_DMA_DONE_DONE c = (s.dmaBusy c || s.bitSet HOST_DMA_DONE_DONE c)) ∧
          t.flag HOST_STAT_HOT_RESET = true ∧ t.hand.log = (s.logEvent 0x0C02 sevInfo 2).hand.log) ∧
      Runs .pcieLinkDown s fields parts (fun t => ended t ∧ t.flag HOST_STAT_LINK_DOWN = true ∧
        t.flag HOST_STAT_HOT_RESET = false ∧ t.fld HOST_LINK_DOWNS = min (s.fld HOST_LINK_DOWNS + 1) 0xFFFF ∧
        t.hand.log = (s.logEvent 0x0C01 sevInfo (s.reg HOST_LINK.addr).toNat).hand.log) ∧
      Runs (.pcieLinkUp rate width) s [HOST_LINK_SPEED, HOST_LINK_WIDTH] (fun _ => { s with host := { s.host with linkUp := true } })
        (fun t => t.fld HOST_LINK_SPEED = rate.val + 1 ∧ t.fld HOST_LINK_WIDTH = 2 ^ width.val)) ∧
    Runs (.cplLate addr) s (HOST_STAT_CPL_LATE :: HOST_ERRS_CPL_LATE :: logFields) (fun t => withLogOf s t)
      (fun t => t.fld HOST_ERRS_CPL_LATE = min (s.fld HOST_ERRS_CPL_LATE + 1) 0xFFFF ∧ t.flag HOST_STAT_CPL_LATE = true ∧
        t.hand.log = (s.logEvent 0x0C03 sevInfo (addr % 2 ^ 32)).hand.log) ∧
    Runs (.msixEnable false fmask) s [] (fun _ => { s with host := { s.host with msixEn := false, funcMask := fmask } })
      (fun t => t.out = s.out) ∧
    Runs (.msixEnable true fmask) s [] (fun _ => { s with host := { s.host with msixEn := true, funcMask := fmask } })
      (fun t =>
        (s.host.linkUp = false → t.out = s.out) ∧
        (s.host.msixEn = false → s.host.linkUp = true → Signals s →
          t.out = s.out ++ ((List.range 32).filter (fun v => pend v && !covered v)).map Out.msix ∧
          ∀ v < 32, bitOf t.host.pba v = (pend v && covered v))) ∧
    (Signals s → Runs (.hostIntPendClear mask) s [] (fun _ => s)
      (fun t =>
        (∀ v < 32, t.bitSet HOST_INT_PEND_PEND v = if mask.getLsbD v then s.vectorActive v else pend v) ∧
        (s.host.msixEn = true → s.host.linkUp = true →
          t.out = s.out ++ ((List.range 32).filter (fun v => mask.getLsbD v && s.vectorActive v && !s.host.funcMask &&
            !(sparseGet msixDefault s.host.table (16 * v + 12)).getLsbD 0)).map Out.msix)))

/-- The data port and the aperture reach the word or the bytes at PORT_ADDR. In a live device a write of PORT_DATA does what
a write of that word through the port at PORT_ADDR does, and a read returns the word at PORT_ADDR: a register's value as
it is shown, or four bytes of SDRAM; then PORT_ADDR advances by 0, 4, 8 or 64, modulo 2^48. The port's own registers
read 0 through it and their writes are ignored, recorded and counted. What the port does not reach before the image step
reads 0 without a record. The aperture reads or writes the bytes at PORT_ADDR plus its offset, leaves every other byte
of SDRAM and PORT_ADDR as they were, and takes no request beyond its end. (R9; R419; R420; R421; R423) -/
def Obligations.DataPortAndApertureReachTheAddressedBytes : Prop :=
  ∀ (s : State) (v : Word) (off : Fin 65536) (len : Nat) (bs : List Byte),
    let a := s.pair PORT_ADDR % 2 ^ 48 / 4 * 4
    let step := match s.fld PORT_INC_INC with
      | 0 => 0
      | 1 => 4
      | 2 => 8
      | _ => 64
    let still := fun (c : Instr) => Runs c s [] (fun _ => s) (fun _ => True)
    let moved := fun (t : State) => t.pair PORT_ADDR = (a + step) % 2 ^ 48
    let ram := fun (x n : Nat) => sdramBase ≤ x ∧ x + n ≤ sdramBase + s.capacity ∧ x + n ≤ sdramBase + 2 ^ 40
    let turned := fun (c : Instr) (rd : State → Prop) =>
      Runs c s (HOST_STAT_PORT_ERR :: HOST_ERRS_PORT :: pairFields PORT_ADDR ++ logFields) (fun t => { withLogOf s t with rdata := t.rdata })
        (fun t => moved t ∧ rd t ∧ t.flag HOST_STAT_PORT_ERR = true ∧
          t.fld HOST_ERRS_PORT = min (s.fld HOST_ERRS_PORT + 1) 0xFFFF ∧ t.hand.log = (s.ignored a).hand.log)
    (s.alive = false → still .portDataRead ∧ still (.portDataWrite v) ∧ still (.apertureAccess off len none) ∧
      still (.apertureAccess off len (some bs))) ∧
    (s.alive = true →
      (∀ u : State, exec (.registerWrite .port a 4 v) s = .next u →
        ∃ t : State, exec (.portDataWrite v) s = .next t ∧ moved t ∧ KeepsFields (pairFields PORT_ADDR) u t ∧ SameParts u t) ∧
      (ram a 4 → s.imgDone = true →
        Runs (.portDataWrite v) s (pairFields PORT_ADDR) (fun t => { s with sdram := t.sdram })
          (fun t => moved t ∧ (∀ i < 4, t.sdByte (a + i - sdramBase) = BitVec.ofNat 8 (v.toNat >>> (8 * i))) ∧
            ∀ o : Nat, sdramBase + o < a ∨ a + 4 ≤ sdramBase + o → t.sdByte o = s.sdByte o) ∧
        Runs .portDataRead s (pairFields PORT_ADDR) (fun t => { s with rdata := t.rdata })
          (fun t => moved t ∧ t.rdata = [BitVec.ofNat 32 (leNat (s.sdRead a 4))])) ∧
      (∀ (r : RegSpec) (inst : List Nat), aliased a = a → regionAt a = .register → s.reachable .port a = true →
        regAt a = some (r, inst) → portReg a = false → r.captured = false → a ≠ KIT_TAG.addr →
        (∀ i < 4, a ≠ (CBKI_COEF_DATA_COEF i).addr) → a ≠ TEST_CS_DATA_DATA.addr →
        Runs .portDataRead s (pairFields PORT_ADDR) (fun t => { s with rdata := t.rdata, capture := t.capture })
          (fun t => moved t ∧ t.rdata = [s.shown r a])) ∧
      (portReg a = true →
        turned .portDataRead (fun t => t.rdata = [0]) ∧ turned (.portDataWrite v) (fun t => t.rdata = s.rdata)) ∧
      (s.reachable .port (aliased a) = false →
        Runs .portDataRead s (pairFields PORT_ADDR) (fun t => { s with rdata := t.rdata }) (fun t => moved t ∧ t.rdata = [0])) ∧
      (0x10000 < off.val + len → still (.apertureAccess off len none)) ∧
      (0x10000 < off.val + bs.length → ∀ n : Nat, still (.apertureAccess off n (some bs))) ∧
      (off.val + len ≤ 0x10000 → ram (a + off) len → s.imgDone = true →
        Runs (.apertureAccess off len none) s [] (fun t => { s with rdata := t.rdata })
          (fun t => ∀ i < len, ∃ w : Word, t.rdata[i / 4]? = some w ∧
            BitVec.ofNat 8 (w.toNat >>> (8 * (i % 4))) = s.sdByte (a + off + i - sdramBase))) ∧
      (off.val + bs.length ≤ 0x10000 → ram (a + off) bs.length → s.imgDone = true → ∀ n : Nat,
        Runs (.apertureAccess off n (some bs)) s [] (fun t => { s with sdram := t.sdram })
          (fun t => (∀ (i : Nat) (b : Byte), bs[i]? = some b → t.sdByte (a + off + i - sdramBase) = b) ∧
            ∀ o : Nat, sdramBase + o < a + off ∨ a + off + bs.length ≤ sdramBase + o → t.sdByte o = s.sdByte o)))

/-- A DMA channel starts, stops, moves its bursts and ends as its state table says. START with EN moves an idle channel to
RUN, to DONE where CNT is 0, or to ERROR with the code of the first check that fails, logged; without EN it is recorded
only; on a busy channel it has no effect beyond EN and IE, and a change of DIR is recorded only. EN written 0 moves RUN
to STOPPING. A completed burst of the channel in turn moves up to 4 KiB between device memory and the host, advances SRC
and DST, lowers CNT, and ends the channel in DONE or STOPPED with its done bit. A host-side failure of a transfer toward
the device ends it with HOST, the three registers as at the burst's start, each destination word old or new. (R427;
R428; R429; R431; R436) -/
def Obligations.DmaChannelsFollowTheirStateTable : Prop :=
  ∀ (s : State) (c : Fin 16) (ie dir : Bool) (data : List Byte),
    let n := s.fld (DMA_CNT_BYTES c)
    let src := s.pair (DMA_SRC c)
    let dst := s.pair (DMA_DST c)
    let st := s.fld (DMA_STAT_STATE c)
    let busy := st = 1 ∨ st = 2
    let ctl := [DMA_CTL_EN c, DMA_CTL_IE c, DMA_CTL_DIR c]
    let fate := [DMA_STAT_STATE c, DMA_STAT_ERR c, DMA_STAT_CLIPPED c, HOST_DMA_DONE_DONE.bit c]
    let set := fun (t : State) (en d : Bool) =>
      t.flag (DMA_CTL_EN c) = en ∧ t.flag (DMA_CTL_IE c) = ie ∧ t.flag (DMA_CTL_DIR c) = d
    let turned := fun (t : State) => t.hand.log =
      (if busy ∧ dir ≠ s.flag (DMA_CTL_DIR c) then (s.ignored (DMA_CTL c).addr).hand.log else s.hand.log)
    let dev := if dir then dst else src
    let code := if src % 64 ≠ 0 ∨ dst % 64 ≠ 0 ∨ n % 64 ≠ 0 then 1
      else if 2 ^ 48 ≤ dev ∨ s.oneRegion dev n = false then 2
      else if dir = true ∧ (regionAt dev).writable = false then 3 else 0
    (¬busy → n = 0 → Runs (.dmaStart c true ie dir) s (ctl ++ fate) (fun _ => s) (fun t => set t true dir ∧
      t.fld (DMA_STAT_STATE c) = 3 ∧ t.fld (DMA_STAT_ERR c) = 0 ∧ t.flag (DMA_STAT_CLIPPED c) = false ∧
      t.bitSet HOST_DMA_DONE_DONE c = true)) ∧
    (¬busy → n ≠ 0 → code = 0 → Runs (.dmaStart c true ie dir) s (ctl ++ fate.take 3 ++ (List.range 16).map (fun i => MEMCS_STAT_STATE i))
      (fun t => { s with mem := t.mem }) (fun t => set t true dir ∧
      t.fld (DMA_STAT_STATE c) = 1 ∧ t.fld (DMA_STAT_ERR c) = 0 ∧ t.flag (DMA_STAT_CLIPPED c) = false)) ∧
    (¬busy → n ≠ 0 → code ≠ 0 → Runs (.dmaStart c true ie dir) s (ctl ++ fate ++ logFields) (fun t => withLogOf s t)
      (fun t => set t true dir ∧ t.fld (DMA_STAT_STATE c) = 5 ∧ t.fld (DMA_STAT_ERR c) = code ∧
        t.bitSet HOST_DMA_DONE_DONE c = true ∧ t.hand.log = (s.logEvent 0x0D01 sevInfo (c.val + 256 * code)).hand.log)) ∧
    (¬busy → Runs (.dmaStart c false ie dir) s (ctl ++ logFields) (fun t => withLogOf s t)
      (fun t => set t false dir ∧ t.hand.log = (s.ignored (DMA_CTL c).addr).hand.log)) ∧
    (busy → Runs (.dmaStart c true ie dir) s (ctl ++ logFields) (fun t => withLogOf s t)
      (fun t => set t true (s.flag (DMA_CTL_DIR c)) ∧ turned t)) ∧
    Runs (.dmaStop c ie dir) s (DMA_STAT_STATE c :: ctl ++ logFields) (fun t => withLogOf s t)
      (fun t => set t false (if st = 1 ∨ st = 2 then s.flag (DMA_CTL_DIR c) else dir) ∧ turned t ∧
        t.fld (DMA_STAT_STATE c) = (if st = 1 then 2 else st)) ∧
    ((∀ k < 16, s.dmaBusy k = false) → Runs (.dmaBurstComplete data) s [] (fun _ => s) (fun _ => True)) ∧
    (s.dmaNext = some c.val →
      let m := min 4096 n
      let moves := fate ++ DMA_CNT_BYTES c :: (pairFields (DMA_SRC c) ++ pairFields (DMA_DST c))
      let after := fun (t : State) => t.pair (DMA_SRC c) = (src + m) % 2 ^ 64 ∧ t.pair (DMA_DST c) = (dst + m) % 2 ^ 64 ∧
        t.fld (DMA_CNT_BYTES c) = n - m ∧ t.dmaTurn = (c.val + 1) % 16 ∧
        t.fld (DMA_STAT_STATE c) = (if st = 2 then 4 else if n = m then 3 else st) ∧
        (st = 2 ∨ n = m → t.bitSet HOST_DMA_DONE_DONE c = true)
      (s.flag (DMA_CTL_DIR c) = false → (∀ b < m, regionAt (src + b) ≠ .register ∧ s.absent (src + b) = false ∧ (regionAt (src + b) = .sdram → s.sdDumb (src + b - sdramBase) = false)) →
        Runs (.dmaBurstComplete data) s moves (fun t => { s with dmaTurn := t.dmaTurn }) after
          (sent := [Out.dma dst ((List.range m).map (fun b => s.memByte (src + b)))])) ∧
      (s.flag (DMA_CTL_DIR c) = true → data.length = m → sdramBase ≤ dst → dst + m ≤ sdramBase + s.capacity →
        dst + m ≤ sdramBase + 2 ^ 40 →
        Runs (.dmaBurstComplete data) s moves (fun t => { s with dmaTurn := t.dmaTurn, sdram := t.sdram })
          (fun t => after t ∧ (∀ (i : Nat) (b : Byte), data[i]? = some b → t.sdByte (dst + i - sdramBase) = b) ∧
            ∀ o : Nat, sdramBase + o < dst ∨ dst + m ≤ sdramBase + o → t.sdByte o = s.sdByte o))) ∧
    (¬(busy ∧ s.flag (DMA_CTL_DIR c) = true) → Runs (.dmaErr c data) s [] (fun _ => s) (fun _ => True)) ∧
    (busy → s.flag (DMA_CTL_DIR c) = true → sdramBase ≤ dst → dst + data.length ≤ sdramBase + s.capacity →
      dst + data.length ≤ sdramBase + 2 ^ 40 →
      Runs (.dmaErr c data) s (fate ++ logFields) (fun t => { withLogOf s t with sdram := t.sdram, free := t.free })
        (fun t => t.fld (DMA_STAT_STATE c) = 5 ∧ t.fld (DMA_STAT_ERR c) = 4 ∧ t.bitSet HOST_DMA_DONE_DONE c = true ∧
          t.hand.log = (s.logEvent 0x0D01 sevInfo (c.val + 1024)).hand.log ∧
          (∀ w : Nat, 4 * w + 4 ≤ min data.length (min 4096 n) →
            let at' := fun (j : Nat) => dst + 4 * w + j - sdramBase
            (∀ j < 4, t.sdByte (at' j) = s.sdByte (at' j)) ∨ (∀ j < 4, some (t.sdByte (at' j)) = data[4 * w + j]?)) ∧
          ∀ o : Nat, sdramBase + o < dst ∨ dst + min 4096 n ≤ sdramBase + o → t.sdByte o = s.sdByte o))

/-! ### Display scan-out (16) -/

/-- The display link waits for HPD, trains, falls back in rate, carries video and fails as its state table says. A new HPD
level is shown. While the display is on it is logged; HPD asserted in WAIT_HPD or FAIL starts training at the image's
rate, and HPD deasserted in ACTIVE ends the video and waits. IRQ_HPD in ACTIVE, and RETRAIN in ACTIVE or FAIL, start
training. Training that succeeds gives ACTIVE; training that fails is tried at the next lower rate where f_pix times 24
bits still fits 0.97 times lanes times rate times 0.8, and otherwise gives FAIL with LINK_FAIL and its event. Elsewhere
those events change nothing. (R437; R438; R439) -/
def Obligations.DisplayLinkFollowsItsStateTable : Prop :=
  ∀ (s : State) (up : Bool),
    let link := s.fld DISP_STAT_LINK
    let still := fun (c : Instr) => Runs c s [] (fun _ => s) (fun _ => True)
    let dispIs := fun (t : State) => { s with disp := t.disp }
    let trains := fun (t : State) => t.fld DISP_STAT_LINK = 2 ∧
      t.disp = { s.disp with rate := s.fld DISP_CFG_RATE, sending := false }
    let rate := match s.disp.rate - 1 with
      | 0 => 1620
      | 1 => 2700
      | 2 => 5400
      | _ => 8100
    let fits := 0 < s.disp.rate ∧
      14400 * 1000 ≤ 776 * 2 ^ s.fld DISP_CFG_LANES * rate * (s.fld DISP_CFG_PDIV_M1 + 1)
    (s.flag DISP_STAT_HPD = up → still (.dispHpd up)) ∧
    (s.flag DISP_STAT_HPD ≠ up → s.flag DISP_CFG_EN = false →
      Runs (.dispHpd up) s [DISP_STAT_HPD] (fun _ => s) (fun t => t.flag DISP_STAT_HPD = up)) ∧
    (s.flag DISP_STAT_HPD ≠ up → s.flag DISP_CFG_EN = true →
      Runs (.dispHpd up) s (DISP_STAT_HPD :: DISP_STAT_LINK :: logFields) (fun t => { withLogOf s t with disp := t.disp })
        (fun t => t.flag DISP_STAT_HPD = up ∧ t.hand.log = (s.logEvent 0x0E03 sevInfo (b2n up)).hand.log ∧
          (up = true ∧ (link = 1 ∨ link = 4) → trains t) ∧
          (up = false ∧ link = 3 → t.fld DISP_STAT_LINK = 1 ∧ t.disp = { s.disp with sending := false }) ∧
          (¬(up = true ∧ (link = 1 ∨ link = 4)) → ¬(up = false ∧ link = 3) → t.fld DISP_STAT_LINK = link ∧ t.disp = s.disp))) ∧
    (link = 3 → Runs .irqHpd s [DISP_STAT_LINK] dispIs trains) ∧ (link ≠ 3 → still .irqHpd) ∧
    (link = 3 ∨ link = 4 → Runs .dispRetrain s [DISP_STAT_LINK] dispIs trains) ∧
    (¬(link = 3 ∨ link = 4) → still .dispRetrain) ∧
    (link ≠ 2 → ∀ good : Bool, still (.dispTrainingEnd good)) ∧
    (link = 2 →
      Runs (.dispTrainingEnd true) s [DISP_STAT_LINK] (fun _ => s) (fun t => t.fld DISP_STAT_LINK = 3) ∧
      (fits → Runs (.dispTrainingEnd false) s [] (fun _ => { s with disp := { s.disp with rate := s.disp.rate - 1 } }) (fun _ => True)) ∧
      (¬fits → Runs (.dispTrainingEnd false) s (DISP_STAT_LINK :: DISP_STAT_LINK_FAIL :: logFields) (fun t => withLogOf s t)
        (fun t => t.fld DISP_STAT_LINK = 4 ∧ t.flag DISP_STAT_LINK_FAIL = true ∧
          t.hand.log = (s.logEvent 0x0E02 sevAttention (s.fld DISP_CFG_RATE + 256 * s.fld DISP_CFG_LANES)).hand.log)))

/-- Lines, frame events and commits run as the scan-out rules say. The line that is due shows DISP_POS, makes the next one
due and, where the link carries video, sends its pixels made of the planes' bytes, black beyond capacity and 0 on a
subchannel that does not answer; a late luma or chroma line is counted, shown and logged. A line that is not due changes
nothing. LINE_MATCH, the close point, FRAME_DONE and VBLANK_START happen once, at their line of the frame, and elsewhere
change nothing: LINE_MATCH, FRAME_DONE and VBLANK_START set their bits; the close point ends the current frame's
commits; FRAME_DONE retires planes replaced by others; VBLANK_START puts PEND in effect and moves NEXT to PEND. A new
frame begins, and is counted, when no line is due and the display is on. COMMIT with planes that fit fills PEND up to
the close point and else NEXT, counted late; with planes that do not fit it is refused; while the display is off it is
recorded. White and black, and opaque and clear overlay, come out as such. (R441; R442; R443; R445; R447; R448; R450;
R451; R452; R453) -/
def Obligations.ScanOutLinesEventsAndCommits : Prop :=
  (toRgb 235 128 128 = (255, 255, 255) ∧ toRgb 16 128 128 = (0, 0, 0) ∧
    ∀ l0 l1 : Nat, l0 < 256 → l1 < 256 → blend 256 l0 l1 = l1 ∧ blend 0 l0 l1 = l0) ∧
  ∀ (s : State) (line : Fin 4096) (gotY gotC : Nat),
    let d := s.disp
    let still := fun (c : Instr) => Runs c s [] (fun _ => s) (fun _ => True)
    let dispIs := fun (t : State) => { s with disp := t.disp }
    let on := s.flag DISP_CFG_EN = true
    let w := s.fld DISP_H_TIMING_ACT
    let vact := s.fld DISP_V_TIMING_ACT
    let pitch := 64 * ceilDiv w 64
    let slots := fun (t : State) => t.flag DISP_STAT_PEND = t.disp.pend.isSome ∧ t.flag DISP_STAT_NEXT = t.disp.next.isSome
    let lineIs := fun (l : Nat) => d.phase < 4 ∧ s.fld DISP_POS_LINE = l ∧ d.due ≠ some l
    let begun : DispState :=
      { d with due := if line.val + 1 < s.fld DISP_V_TIMING_TOTAL then some (line.val + 1) else none, matched := false }
    (¬on → Runs .dispCommit s logFields (fun t => withLogOf s t) (fun t => t.hand.log = (s.ignored DISP_CTL.addr).hand.log)) ∧
    (d.due ≠ some line.val → still (.lineStart line gotY gotC)) ∧
    (d.due = some line.val → vact ≤ line →
      Runs (.lineStart line gotY gotC) s [DISP_POS_LINE] (fun _ => { s with disp := begun }) (fun t => t.fld DISP_POS_LINE = line)) ∧
    (d.due = some line.val → line.val < vact →
      let there := fun (base : Planes → Nat) (j got : Nat) => decide (s.fetched base j ≤ if line.val < d.asked then got else 0)
      let even := decide (line.val % 2 = 0)
      let late := b2n (!there (fun p => p.y) line gotY) + b2n (even && !there (fun p => p.c) (line.val / 2) gotC)
      (0 < late → ∃ t : State, exec (.lineStart line gotY gotC) s = .next t ∧ t.fld DISP_POS_LINE = line ∧ t.disp.due = begun.due ∧
        t.fld DISP_UNDERRUNS_COUNT = min (s.fld DISP_UNDERRUNS_COUNT + late) (2 ^ 32 - 1) ∧ t.flag DISP_STAT_UNDERRUN = true ∧
        (late = 1 → t.hand.log = (s.logEvent 0x0E01 sevInfo 0).hand.log)) ∧
      (let at' := fun (base black i : Nat) =>
         let o := base + i - sdramBase
         if s.capacity ≤ o then black else if s.sdDumb o then 0 else (s.sdByte o).toNat
       let luma := (List.range w).map (at' (d.eff.y + line.val * pitch) 16)
       let chroma := if even then (List.range w).map (at' (d.eff.c + line.val / 2 * pitch) 128)
         else instGet [] d.chroma (line.val / 2 % 8)
       late = 0 → d.old = none ∨ s.flag DISP_CFG_XFADE = false →
         Runs (.lineStart line gotY gotC) s [DISP_POS_LINE] dispIs
           (fun t => t.fld DISP_POS_LINE = line ∧ instGet [] t.disp.luma (line.val % 16) = luma ∧
             instGet [] t.disp.chroma (line.val / 2 % 8) = chroma ∧
             t.disp = { begun with luma := t.disp.luma, chroma := t.disp.chroma, asked := t.disp.asked })
           (sent := if d.sending then [Out.line line ((List.range w).map (fun x => s.pixel x line luma chroma))] else []))) ∧
    (let now := lineIs (s.fld DISP_LINE_MATCH_LINE) ∧ d.matched = false
     (now → Runs .lineMatch s [DISP_STAT_LINE_MATCH] (fun _ => { s with disp := { d with matched := true } })
       (fun t => t.flag DISP_STAT_LINE_MATCH = true)) ∧
     (¬now → still .lineMatch)) ∧
    (let now := lineIs (vact - d.lead) ∧ d.phase = 0
     (now → Runs .dispClosePoint s [] (fun _ => { s with disp := { d with phase := 1 } }) (fun _ => True)) ∧
     (¬now → still .dispClosePoint)) ∧
    (let now := lineIs (vact - 1) ∧ d.phase ≤ 1
     (now → Runs .frameDone s (DISP_STAT_FRAME_DONE :: DISP_STAT_RETIRED :: pairFields DISP_RETIRED_ADDR)
       (fun _ => { s with disp := { d with old := none, phase := 2 } })
       (fun t => t.flag DISP_STAT_FRAME_DONE = true ∧
         (∀ p : Planes, d.old = some p → p.y ≠ d.eff.y →
           t.flag DISP_STAT_RETIRED = true ∧ t.pair DISP_RETIRED_ADDR = p.y % 2 ^ 64) ∧
         (d.old = none → t.flag DISP_STAT_RETIRED = s.flag DISP_STAT_RETIRED ∧ t.pair DISP_RETIRED_ADDR = s.pair DISP_RETIRED_ADDR))) ∧
     (¬now → still .frameDone)) ∧
    (let now := lineIs vact ∧ d.phase ≤ 2
     (now → Runs .vblankStart s (DISP_STAT_VBLANK_START :: DISP_STAT_PEND :: DISP_STAT_NEXT :: pairFields DISP_L0_CUR) dispIs
       (fun t => t.flag DISP_STAT_VBLANK_START = true ∧ slots t ∧
         t.disp = { d with
           eff := d.pend.getD d.eff, old := if d.pend.isSome then some d.eff else d.old, pend := d.next, next := none,
           phase := 3, asked := 16 } ∧
         t.pair DISP_L0_CUR = (d.pend.getD d.eff).y % 2 ^ 64)) ∧
     (¬now → still .vblankStart)) ∧
    (let now := s.fld DISP_STAT_LINK ≠ 0 ∧ d.due = none
     (now → Runs .frameBegin s [DISP_FRAME_COUNT, DISP_POS_LINE] dispIs
       (fun t => t.fld DISP_FRAME_COUNT = (s.fld DISP_FRAME_COUNT + 1) % 2 ^ 32 ∧ t.fld DISP_POS_LINE = 0 ∧
         t.disp = { d with
           due := some 0, phase := 0, matched := false, lead := s.fld DISP_COMMIT_LEAD_LINES,
           sending := decide (s.fld DISP_STAT_LINK = 3) })) ∧
     (¬now → still .frameBegin)) ∧
    (on →
      let auto := s.flag DISP_RND_CFG_EN && s.flag DISP_RND_CFG_AUTO
      let kept := (d.next.orElse (fun _ => d.pend)).getD d.eff
      let y := if auto then kept.y else s.pair DISP_L0_Y
      let c := if auto then kept.c else s.pair DISP_L0_C
      let p : Planes := { y := y, c := c, l1 := s.flag DISP_L1_CFG_EN, pal := (List.range 16).map (fun i => (s.reg (DISP_PAL i).addr).toNat) }
      let fits := auto = true ∨ s.planesFit y c = true
      let later := d.next.isSome = true ∨ d.phase = 1 ∨ d.phase = 2
      let shown := [DISP_STAT_PEND, DISP_STAT_NEXT]
      (fits → ¬later → Runs .dispCommit s shown (fun _ => { s with disp := { d with pend := some p } }) slots) ∧
      (fits → later → Runs .dispCommit s (DISP_STAT_LATE :: DISP_LATE_COUNT_COUNT :: shown)
        (fun _ => { s with disp := { d with next := some p } })
        (fun t => slots t ∧ t.flag DISP_STAT_LATE = true ∧
          t.fld DISP_LATE_COUNT_COUNT = min (s.fld DISP_LATE_COUNT_COUNT + 1) (2 ^ 32 - 1))) ∧
      (¬fits → Runs .dispCommit s (DISP_STAT_ADDR_ERR :: logFields) (fun t => withLogOf s t)
        (fun t => t.flag DISP_STAT_ADDR_ERR = true ∧ t.hand.log = (s.logEvent 0x0E05 sevInfo (y % 2 ^ 32)).hand.log)))

/-- The render helper takes a period, draws its picture into its buffer, and commits or reports it. Once the period's
records have arrived or are absent, the oldest period not rendered becomes the render in progress, with its records'
sums and DEGRADED mark, for the buffer DST, or with AUTO the lowest that is not in use; with none free the period is
skipped, counted and logged. While a render runs, while no period waits, or before the period's last deal, nothing
changes. When a render finishes its pixels stand in the buffer's planes and no other byte of memory has changed,
LAST_BUF and the deal are shown, and RENDERED sets, or with AUTO a commit of the buffer takes a slot. (R455; R456; R457) -/
def Obligations.RenderHelperDrawsItsPeriods : Prop :=
  ∀ s : State,
    let d := s.disp
    let still := fun (c : Instr) => Runs c s [] (fun _ => s) (fun _ => True)
    let len := max 1 (s.fld DISP_RND_CFG_N)
    (d.periods = [] ∨ d.render.isSome = true ∨ s.flag DISP_RND_CFG_EN = false ∨ s.flag DISP_CFG_EN = false → still .renderStart) ∧
    (∀ (c : RenderCfg) (rest : List RenderCfg) (x : Product), d.periods = c :: rest → s.renderProduct = some x →
      let last := (c.period + 1) * len - 1
      (s.pair DEAL_NUM < last → still .renderStart) ∧
      (d.render = none → s.flag DISP_CFG_EN = true → s.flag DISP_RND_CFG_EN = true → (last + 3 ≤ s.pair DEAL_NUM ∨ last ≤ s.pair DEAL_NUM ∧ s.densAllIn x c.input last = true) →
        let recs := s.densOf c x
        let after := fun (t : State) (b : Nat) => t.disp = { d with
          periods := rest
          render := some { cfg := c, buf := b, sums := recs.foldl (addDens (s.logCols x)) [],
                           degr := recs.any (fun q => q.degr) || s.densMissing c x } }
        let takes := fun (t : State) => { s with disp := t.disp, pot := { s.pot with dens := t.pot.dens } }
        (s.flag DISP_RND_CFG_AUTO = false → Runs .renderStart s [] takes (fun t => after t (s.fld DISP_RND_CFG_DST))) ∧
        (s.flag DISP_RND_CFG_AUTO = true →
          (∀ b < s.fld DISP_RND_CFG_NBUF, s.bufBusy b = false → (∀ k < b, s.bufBusy k = true) →
            Runs .renderStart s [] takes (fun t => after t b)) ∧
          ((∀ b < s.fld DISP_RND_CFG_NBUF, s.bufBusy b = true) →
            Runs .renderStart s (DISP_RND_STAT_SKIPS :: logFields) (fun t => { withLogOf s t with disp := t.disp, pot := t.pot })
              (fun t => t.disp = { d with periods := rest } ∧
                t.fld DISP_RND_STAT_SKIPS = min (s.fld DISP_RND_STAT_SKIPS + 1) 0xFFFF ∧
                t.hand.log = (s.logEvent 0x0E06 sevInfo (c.period * len)).hand.log))))) ∧
    (d.render = none → still .renderDone) ∧
    (∀ r : Render, d.render = some r →
      let w := s.fld DISP_H_TIMING_ACT
      let h := s.fld DISP_V_TIMING_ACT
      let pitch := 64 * ceilDiv w 64
      let y := (s.bufPlanes r.buf).1 - sdramBase
      let c := (s.bufPlanes r.buf).2 - sdramBase
      let clut := fun (k i j : Nat) => (r.cfg.clut.getD (r.code h i j) 0) >>> k % 256
      let quad := fun (k i j : Nat) =>
        (clut k (2 * i) (2 * j) + clut k (2 * i + 1) (2 * j) + clut k (2 * i) (2 * j + 1) + clut k (2 * i + 1) (2 * j + 1) + 2) / 4
      let drawn := fun (t : State) =>
        (∀ i < w, ∀ j < h, t.sdByte (y + j * pitch + i) = BitVec.ofNat 8 (clut 16 i j)) ∧
        (∀ i < w / 2, ∀ j < h / 2, t.sdByte (c + j * pitch + 2 * i) = BitVec.ofNat 8 (quad 8 i j) ∧
          t.sdByte (c + j * pitch + 2 * i + 1) = BitVec.ofNat 8 (quad 0 i j)) ∧
        ∀ o : Nat, o < y ∨ y + s.bufBytes ≤ o → t.sdByte o = s.sdByte o
      let shown := DISP_RND_STAT_LAST_BUF :: DISP_STAT_RND_DEG :: pairFields DISP_RND_DEAL
      let result := fun (t : State) => drawn t ∧ t.fld DISP_RND_STAT_LAST_BUF = r.buf % 4 ∧
        t.pair DISP_RND_DEAL = (r.cfg.period * len) % 2 ^ 64 ∧ t.disp.render = none ∧
        t.flag DISP_STAT_RND_DEG = (r.degr || s.flag DISP_STAT_RND_DEG)
      sdramBase ≤ (s.bufPlanes r.buf).1 → y + s.bufBytes ≤ s.capacity →
      (s.flag DISP_RND_CFG_AUTO = false →
        Runs .renderDone s (DISP_STAT_RENDERED :: shown) (fun t => { s with sdram := t.sdram, disp := { d with render := none } })
          (fun t => result t ∧ t.flag DISP_STAT_RENDERED = true)) ∧
      (s.flag DISP_RND_CFG_AUTO = true →
        Runs .renderDone s ([DISP_STAT_PEND, DISP_STAT_NEXT, DISP_STAT_LATE, DISP_LATE_COUNT_COUNT] ++ shown)
          (fun t => { s with sdram := t.sdram, disp := t.disp })
          (fun t => result t ∧
            (if d.next.isSome = true ∨ d.phase = 1 ∨ d.phase = 2 then t.disp.next else t.disp.pend).map (fun p => (p.y, p.c)) = some (s.bufPlanes r.buf))))

/-! ### Resets and the start (17) -/

/-- Full resets clear all but what the manual keeps and begin at their step; stops and the watchdog do what they say. The
test access port is reset where the rails go, and only there. With no fuse or flash operation in progress: a RESET_N
pulse of 1 µs or more, and PCIE_PERST_N, clear every register and memory but fuses, flash, calibration store,
SUP_BOOT_NEXT and the last FATAL event, count the reset, show its cause and begin step 2; a pulse below 100 ns, and a
reset of a device still in reset, change nothing. Power-on, the end of an overvoltage stop and a lasting current limit
clear SUP_BOOT_NEXT and its like too and begin step 1; a cool device that is thermally OFF begins step 1 at RESET_N.
Loss of VIN, 115 °C and overvoltage below 20 V take the rails; above 20 V the spec gives no behaviour. The supervisor
watchdog sets WDOG, rails late in step 1 assert FAULT_N, and each changes nothing else. (R417; R460; R461; R462; R463;
R464; R465; R466; R467; R470; R525) -/
def Obligations.FullResetsKeepAndClearAsTheManualSays : Prop :=
  ∀ (s : State) (ns mv ma : Nat) (taken cool : Bool),
    let still := fun (c : Instr) => Runs c s [] (fun _ => s) (fun _ => True)
    let quietBoot := s.boot.flashOp = none ∧ s.boot.otpOp = none ∧ s.boot.lcOp = none
    let lives := s.fld SUP_STAT_STATE
    let off := s.boot.off
    let blank := fun (why cause : Nat) (tap : Bool) => { State.reset with
      rdata := s.rdata
      boot := { BootState.reset with fuses := s.boot.fuses, flash := s.boot.flash, off := why, cause := cause }
      test := { TestState.reset with store := s.test.store, wear := s.test.wear, bad := s.test.bad, seen := s.test.seen }
      ports := if tap then { PortState.reset with tap := s.ports.tap, seized := s.ports.seized } else PortState.reset
      free := s.free
      pending := s.pending }
    let keptRegs := [SUP_RESET_CAUSE_COUNT, SUP_BOOT_NEXT_SEL, SUP_LAST_FATAL_CODE, SUP_LAST_FATAL_ARG_ARG].map (fun f => wholeReg f.addr)
    let kept := fun (t : State) =>
      t.reg SUP_BOOT_NEXT_SEL.addr = s.reg SUP_BOOT_NEXT_SEL.addr ∧
      t.reg SUP_LAST_FATAL_CODE.addr = (if s.lastFatal.1 = 0 then s.reg SUP_LAST_FATAL_CODE.addr else BitVec.ofNat 32 s.lastFatal.1) ∧
      t.reg SUP_LAST_FATAL_ARG_ARG.addr = (if s.lastFatal.1 = 0 then s.reg SUP_LAST_FATAL_ARG_ARG.addr else BitVec.ofNat 32 s.lastFatal.2)
    let rebuilt := fun (c : Instr) (why cause step : Nat) (keeps tap : Bool) => ∃ t : State, exec c s = .next t ∧
      SameParts (blank why cause tap) t ∧ t.fld SUP_STAT_STATE = step ∧ t.pins.fault = false ∧ OnlyMsix s t ∧
      KeepsFields (SUP_STAT_STATE :: if keeps then keptRegs else []) State.reset t ∧
      (keeps = true → kept t ∧ t.reg SUP_RESET_CAUSE_COUNT.addr = s.reg SUP_RESET_CAUSE_COUNT.addr)
    let restarted := fun (c : Instr) (cause : Nat) => ∃ t : State, exec c s = .next t ∧
      SameParts (withLogOf (blank 0 cause true) t) t ∧ t.fld SUP_STAT_STATE = 2 ∧ OnlyMsix s t ∧
      KeepsFields (SUP_STAT_STATE :: keptRegs ++ logFields) State.reset t ∧ kept t ∧
      t.reg SUP_RESET_CAUSE_COUNT.addr = BitVec.ofNat 32 (min (s.fld SUP_RESET_CAUSE_COUNT + 1) 0xFFFF * 65536 + cause) ∧
      t.hand.log.map (fun e => (e.code, e.sev, e.arg)) = [(0x0001, sevInfo, (t.reg SUP_RESET_CAUSE_COUNT.addr).toNat)]
    (ns < 100 ∨ (ns < 1000 ∧ taken = false) ∨ (off = 0 ∧ lives ≤ 1) ∨ (off = 1 ∧ cool = false) → still (.resetN ns taken cool)) ∧
    (off ≠ 0 ∨ lives ≤ 1 → still .pciePerst) ∧
    (quietBoot →
      (1000 ≤ ns ∨ (100 ≤ ns ∧ taken = true) →
        (off = 0 → 2 ≤ lives → restarted (.resetN ns taken cool) 2) ∧
        (off = 1 → cool = true → rebuilt (.resetN ns taken cool) 0 10 1 true true)) ∧
      (off = 0 → 2 ≤ lives → restarted .pciePerst 4) ∧
      (lives = 0 → off ≠ 2 → (off = 1 → cool = true) → rebuilt (.powerOn true cool) 0 (if off = 1 then 9 else 1) 1 false false) ∧
      (off = 0 → rebuilt (.powerOn false cool) 3 1 0 false false ∧ rebuilt .thermalShutdown 1 1 0 true false ∧
        rebuilt (.ilimit ma) 0 1 1 false false) ∧
      (off = 0 → mv ≤ 20000 → rebuilt (.overvoltageStop mv) 2 1 0 false false) ∧
      (off = 2 → rebuilt .overvoltageRelease 0 1 1 false false)) ∧
    (lives ≠ 0 ∨ off = 2 → still (.powerOn true cool)) ∧
    (off ≠ 0 → still (.powerOn false cool) ∧ still .thermalShutdown ∧ still (.ilimit ma) ∧ (mv ≤ 20000 → still (.overvoltageStop mv))) ∧
    (20000 < mv → exec (.overvoltageStop mv) s = .fault .absoluteMaximum) ∧
    (off ≠ 2 → still .overvoltageRelease) ∧
    (s.alive = true → Runs .supervisorWatchdog s [SUP_STAT_WDOG] (fun _ => s)
      (fun t => t.flag SUP_STAT_WDOG = true ∧ t.pins.fault = true)) ∧
    (s.alive = false → still .supervisorWatchdog) ∧
    (lives = 1 → Runs .railsNotGood s [] (fun _ => { s with railsBad := true }) (fun t => t.pins.fault = true)) ∧
    (lives ≠ 1 → still .railsNotGood)

/-- The start goes on step by step, and stops in HALT or CONFIG_ERROR where a step fails. The end of step 1 begins step 2
with SUP_RESET_CAUSE and its event; a good ROM begins step 3 and shows its version, a bad one gives HALT with cause
0x1A; step 3 shows the life cycle and begins step 4, or gives HALT with cause 0x19 for BLANK and SCRAPPED; step 5 begins
step 6 with the slots that SUP_BOOT_NEXT chooses; a flash that SFDP does not describe, or of a size outside 32 to 512
MiB, gives CONFIG_ERROR with cause 0x01, and a sample clock that differs too much cause 0x15, each with FATAL in the log
and the converters and display stopped; step 8 goes on while an epoch is awaited; step 10 goes on while a link that
carries a stream is awaited, then logs the links it waited for in vain and begins step 11 with the Dealers on. In RESET,
from step 11 on, and in CONFIG_ERROR and HALT, a step's end changes nothing. (R467; R469; R470; R473; R490; R491) -/
def Obligations.StartStepsFollowTheTable : Prop :=
  ∀ (s : State) (version : BitVec 32) (left khz ms : Nat) (bad : List (Fin 64)) (sfdp : Option (Nat × Bool)),
    let step := s.fld SUP_STAT_STATE
    let once := fun (t : State) => t.fld SUP_BOOT_NEXT_SEL = if s.flag SUP_BOOT_NEXT_ONCE then 0 else s.fld SUP_BOOT_NEXT_SEL
    let lc := if bitOf s.boot.fuses.lc 3 then 4 else if bitOf s.boot.fuses.lc 2 then 3 else if bitOf s.boot.fuses.lc 1 then 2
      else if bitOf s.boot.fuses.lc 0 then 1 else 0
    let refused := fun (r : StepResult) (cause block n : Nat) (more : List Field) =>
      let v := cause * 2 ^ 24 + block * 2 ^ 16 + 0xFFF * 16 + n
      Runs (.startStepComplete r) s
        (wholeReg SUP_BOOT_STAT_CAUSE.addr :: SUP_STAT_CFG_ERROR :: HOST_STAT_CFG_ERR :: SUP_STAT_STATE :: SUP_BOOT_NEXT_SEL ::
          DISP_STAT_LINK :: more ++ logFields)
        (fun t => { withLogOf s t with
          imgDone := decide (6 ≤ n), time := { s.time with grid := false }
          disp := { s.disp with due := none, phase := 4, sending := false } })
        (fun t => (t.reg SUP_BOOT_STAT_CAUSE.addr).toNat = v ∧ t.flag SUP_STAT_CFG_ERROR = true ∧ t.flag HOST_STAT_CFG_ERR = true ∧
          t.fld SUP_STAT_STATE = 13 ∧ once t ∧ t.hand.log = (s.logEvent 0x0003 sevFatal v).hand.log ∧
          (s.flag SUP_STAT_WDOG = false → t.pins.fault = true))
    let halted := fun (t : State) (cause n : Nat) => t.fld SUP_STAT_STATE = 14 ∧ t.halted = true ∧ t.pins.fault = true ∧
      (t.reg SUP_BOOT_STAT_CAUSE.addr).toNat = cause * 2 ^ 24 + 0xFF * 2 ^ 16 + 0xFFF * 16 + n ∧ once t
    (step = 0 ∨ 11 ≤ step → ∀ r : StepResult, Runs (.startStepComplete r) s [] (fun _ => s) (fun _ => True)) ∧
    (step = 1 → ∃ t : State, exec (.startStepComplete .ended) s = .next t ∧ t.fld SUP_STAT_STATE = 2 ∧ t.railsBad = false ∧
      (t.reg SUP_RESET_CAUSE_COUNT.addr).toNat % 16 = s.boot.cause % 16 ∧
      t.hand.log = (s.logEvent 0x0001 sevInfo (t.reg SUP_RESET_CAUSE_COUNT.addr).toNat).hand.log) ∧
    (step = 2 →
      Runs (.startStepComplete (.rom true version)) s [wholeReg SUP_ROM_VERSION_MAJOR.addr, SUP_STAT_STATE] (fun _ => s)
        (fun t => t.reg SUP_ROM_VERSION_MAJOR.addr = version ∧ t.fld SUP_STAT_STATE = 3) ∧
      Runs (.startStepComplete (.rom false version)) s
        [wholeReg SUP_BOOT_STAT_CAUSE.addr, SUP_STAT_STATE, SUP_BOOT_NEXT_SEL] (fun _ => { s with halted := true })
        (fun t => halted t 0x1A 2)) ∧
    (step = 3 → ∃ t : State, exec (.startStepComplete (.fuses true left)) s = .next t ∧ t.fld SUP_STAT_LC = lc ∧
      t.boot.fuses.lc = s.boot.fuses.lc ∧
      (t.flag SUP_STAT_SECURE_BOOT = (s.boot.fuses.secure && decide (1 ≤ lc) && decide (lc ≤ 3))) ∧
      (lc = 0 ∨ lc = 4 → halted t 0x19 3) ∧ (1 ≤ lc → lc ≤ 3 → t.fld SUP_STAT_STATE = 4)) ∧
    (step = 5 → ∃ t : State, exec (.startStepComplete .ended) s = .next t ∧ t.fld SUP_STAT_STATE = 6 ∧
      t.boot.slots = (match s.fld SUP_BOOT_NEXT_SEL with
        | 1 => [1]
        | 2 => [0]
        | _ => [0, 1]) ∧ t.boot.slot = t.boot.slots.headD 0) ∧
    (step = 6 → (sfdp = none ∨ ∃ (mib : Nat) (e : Bool), sfdp = some (mib, e) ∧ (mib < 32 ∨ 512 < mib)) →
      refused (.image sfdp bad) 0x01 0xFF 6 []) ∧
    (step = 8 → s.sclkBad khz = true → ∃ t : State, exec (.startStepComplete (.converters true khz ms)) s = .next t ∧
      t.fld SUP_STAT_STATE = 13 ∧ t.time.grid = false ∧ t.fld SUP_BOOT_STAT_CAUSE = 0x15 ∧ t.fld CONV_SCLK_MEAS_FREQ_KHZ = min khz 0x1FFFFFF) ∧
    (let held := s.fld TIME_CFG_EPOCH_SRC = 2 ∧ s.time.setSec = none ∧ ms < s.img.epochWaitMs
     step = 8 → s.sclkBad khz = false → ∃ t : State, exec (.startStepComplete (.converters true khz ms)) s = .next t ∧
      t.fld CONV_SCLK_MEAS_FREQ_KHZ = min khz 0x1FFFFFF ∧
      (held → t.fld SUP_STAT_STATE = 8 ∧ t.time = s.time) ∧
      (¬held → t.fld SUP_STAT_STATE = 9 ∧ t.time.grid = true ∧ t.flag TIME_STAT_EPOCH_WAIT = false)) ∧
    (step = 10 → s.linksWaited ≠ 0 → ms < s.img.ethWaitMs →
      Runs (.startStepComplete (.links ms)) s [] (fun _ => s) (fun _ => True)) ∧
    (step = 10 → s.linksWaited = 0 ∨ s.img.ethWaitMs ≤ ms → ∃ t : State, exec (.startStepComplete (.links ms)) s = .next t ∧ t.fld SUP_STAT_STATE = 11 ∧
      (∀ i < 4, (t.dealerOf i).on = true) ∧
      t.hand.log = (if s.linksWaited = 0 then s else s.logEvent 0x000A sevInfo s.linksWaited).hand.log)

/-! ### Flash, life cycle, self-test and the calibration store (17, 18) -/

/-- The flash service reads, programs and erases its bytes, refuses what it must, and ends each command. While the
supervisor works: a command in steps 1 to 6, while BUSY, or a 64 KiB erase that SFDP does not declare is refused with
ERR 2; a misaligned address or one beyond the flash with ERR 3. Otherwise BUSY sets and ERR clears: an erase leaves
0xFF, a program the buffer's bytes wherever the flash had every bit of them set, and no other byte changes. When the
flash reports ready BUSY clears, FLASH_DONE sets, and a read stands in SUP_FLASH_BUF; a command not ready in time ends
with ERR 1. While the supervisor does not work a command shows its OP alone; with no command in progress an end changes
nothing. (R471; R474) -/
def Obligations.FlashServiceFollowsItsCommands : Prop :=
  ∀ (s : State) (op : Fin 4) (ready : Bool),
    let c : Instr := match op with
      | 0 => .flashRead
      | 1 => .flashProgram
      | 2 => .flashErase4k
      | 3 => .flashErase64k
    let unit := if op.val = 3 then 65536 else if op.val = 2 then 4096 else 256
    let a := s.fld SUP_FLASH_ADDR_ADDR
    let up := s.alive = true ∧ s.flag SUP_STAT_WDOG = false
    let early := s.fld SUP_STAT_STATE ≤ 6 ∨ s.flag SUP_FLASH_CMD_BUSY = true ∨ (op.val = 3 ∧ s.flag SUP_FLASH_INFO_ERASE64 = false)
    let wrong := a % unit ≠ 0 ∨ s.fld SUP_FLASH_INFO_SIZE_MIB * 2 ^ 20 ≤ a
    let byte := fun (t : State) (o : Nat) => sparseGet flashDefault t.boot.flash o
    let took := fun (t : State) => t.fld SUP_FLASH_CMD_OP = op
    let cmd := [SUP_FLASH_CMD_OP, SUP_FLASH_CMD_ERR]
    (¬up → Runs c s [SUP_FLASH_CMD_OP] (fun _ => s) took) ∧
    (up → early → Runs c s cmd (fun _ => s) (fun t => took t ∧ t.fld SUP_FLASH_CMD_ERR = 2)) ∧
    (up → ¬early → wrong → Runs c s cmd (fun _ => s) (fun t => took t ∧ t.fld SUP_FLASH_CMD_ERR = 3)) ∧
    (up → ¬early → ¬wrong → Runs c s (SUP_FLASH_CMD_BUSY :: cmd) (fun t => { s with boot := t.boot, free := t.free })
      (fun t => took t ∧ t.fld SUP_FLASH_CMD_ERR = 0 ∧ t.flag SUP_FLASH_CMD_BUSY = true ∧
        t.boot = { s.boot with flash := t.boot.flash, flashOp := some (op.val, a) } ∧
        (op.val = 0 → t.boot.flash = s.boot.flash) ∧
        (op.val = 1 → ∀ i < 256,
          let new : Byte := BitVec.ofNat 8 ((s.reg (SUP_FLASH_BUF (i / 4)).addr).toNat >>> (8 * (i % 4)))
          byte s (a + i) &&& new = new → byte t (a + i) = new) ∧
        (2 ≤ op.val → ∀ i < unit, byte t (a + i) = 0xFF) ∧
        ∀ o : Nat, o < a ∨ a + unit ≤ o → byte t o = byte s o)) ∧
    (s.boot.flashOp = none → Runs (.flashDone ready) s [] (fun _ => s) (fun _ => True)) ∧
    (let ended := fun (t : State) => t.boot.flashOp = none ∧ t.flag SUP_FLASH_CMD_BUSY = false ∧ t.flag SUP_STAT_FLASH_DONE = true
     let buf := (List.range 64).map (fun w => wholeReg (SUP_FLASH_BUF w).addr)
     ∀ x : Nat, s.boot.flashOp = some (op.val, x) →
       Runs (.flashDone true) s (SUP_FLASH_CMD_BUSY :: SUP_STAT_FLASH_DONE :: if op.val = 0 then buf else [])
         (fun _ => { s with boot := { s.boot with flashOp := none } })
         (fun t => ended t ∧ (op.val = 0 → ∀ w < 64, ∀ i < 4,
           BitVec.ofNat 8 ((t.reg (SUP_FLASH_BUF w).addr).toNat >>> (8 * i)) = byte s (x + 4 * w + i))) ∧
       Runs (.flashDone false) s [SUP_FLASH_CMD_BUSY, SUP_STAT_FLASH_DONE, SUP_FLASH_CMD_ERR]
         (fun t => { s with boot := t.boot, free := t.free })
         (fun t => ended t ∧ t.fld SUP_FLASH_CMD_ERR = 1 ∧
           t.boot = { s.boot with flash := t.boot.flash, flashOp := none } ∧
           ∀ o : Nat, op.val = 0 ∨ o < x ∨ x + unit ≤ o → byte t o = byte s o))

/-- Life-cycle transitions and OTP operations blow their fuses once, in the states that allow them. While the supervisor
works: TEST_LC_ADV with a wrong CONFIRM, a transition other than DEPLOYED or FIELD_RETURN to a later state, or while
BUSY is refused with its ERR and recorded, otherwise BUSY sets. A transition that verifies zeroises the key unless that
is done, blows the state fuse, clears BUSY, sets LC_DONE and is logged; one whose fuse fails leaves the state fuse, sets
ERR 6 and is logged. An OTP operation is refused with ERR 3, 4, 5 or 7, else BUSY sets; at its end the secret or the
hash takes the data words, its flag is blown, the words clear and it is logged. An end of nothing in progress changes
nothing. (R490; R492; R493; R494) -/
def Obligations.LifeCycleAndOtpBlowTheirFuses : Prop :=
  ∀ (s : State) (confirm : BitVec 16) (target : Fin 8) (zeroed blown : Bool) (left : Nat) (op : Fin 3),
    let still := fun (c : Instr) => Runs c s [] (fun _ => s) (fun _ => True)
    let up := s.alive = true ∧ s.flag SUP_STAT_WDOG = false
    let f := s.boot.fuses
    let now := if bitOf f.lc 3 then 4 else if bitOf f.lc 2 then 3 else if bitOf f.lc 1 then 2 else if bitOf f.lc 0 then 1 else 0
    let busy := s.flag TEST_LC_STAT_BUSY = true
    let err := if confirm ≠ 0x4C43 then 1
      else if ¬((now = 2 ∧ (target.val = 3 ∨ target.val = 4)) ∨ (now = 3 ∧ target.val = 4)) then 2 else if busy then 3 else 0
    let bootIs := fun (t : State) => { withLogOf s t with boot := t.boot }
    let shown := wholeReg TEST_LC_STAT_STATE.addr :: SUP_STAT_LC_DONE :: wholeReg TEST_KEY_CHECK.addr ::
      (List.range 8).map (fun w => wholeReg (TEST_PKH w).addr) ++ logFields
    let isOver := fun (t : State) => t.boot.lcOp = none ∧ t.boot.otpOp = none ∧ t.flag TEST_LC_STAT_BUSY = false ∧
      t.flag SUP_STAT_LC_DONE = true
    (¬up → still (.lcAdvance confirm target)) ∧
    (up → err ≠ 0 → Runs (.lcAdvance confirm target) s (TEST_LC_STAT_ERR :: logFields) (fun t => withLogOf s t)
      (fun t => t.fld TEST_LC_STAT_ERR = err ∧ t.hand.log = (s.ignored TEST_LC_ADV.addr).hand.log)) ∧
    (up → err = 0 → Runs (.lcAdvance confirm target) s [TEST_LC_STAT_BUSY]
      (fun _ => { s with boot := { s.boot with lcOp := some target.val } }) (fun t => t.flag TEST_LC_STAT_BUSY = true)) ∧
    (s.boot.lcOp = none → still (.lcTransitionDone zeroed left blown)) ∧
    (∀ x : Nat, s.boot.lcOp = some x →
      (f.keyZero = true ∨ zeroed = true → Runs (.lcTransitionDone zeroed left true) s shown bootIs
        (fun t => isOver t ∧ t.boot.fuses = { f with
            lc := f.lc ||| 2 ^ (x - 1), keyZero := true, keyLeft := if f.keyZero then f.keyLeft else min left 256 } ∧
          (f.keyZero = true ∨ left = 0 → t.hand.log = (s.logEvent 0x0005 sevInfo x).hand.log))) ∧
      (f.keyZero = false → zeroed = false → Runs (.lcTransitionDone false left blown) s shown bootIs
        (fun t => isOver t ∧ t.boot.fuses = f ∧ t.fld TEST_LC_STAT_ERR = 6 ∧ t.hand.log = (s.logEvent 0x0006 sevAttention 6).hand.log)) ∧
      (∃ t : State, exec (.lcTransitionDone true left false) s = .next t ∧ isOver t ∧ t.boot.fuses.lc = f.lc ∧ t.fld TEST_LC_STAT_ERR = 6)) ∧
    (let c : Instr := match op with
       | 0 => .otpKey
       | 1 => .otpPkh
       | 2 => .otpSecure
     let lc := s.fld SUP_STAT_LC
     let used := if op.val = 0 then f.keySet || f.keyZero else if op.val = 1 then f.pkhSet else f.secure
     let e := if busy then 3 else if lc ≠ 1 ∧ lc ≠ 2 then 4 else if used = true then 5
       else if op.val = 2 ∧ f.pkhSet = false then 7 else 0
     (¬up → Runs c s [TEST_OTP_CTL_OP] (fun _ => s) (fun t => t.fld TEST_OTP_CTL_OP = op.val + 1)) ∧
     (up → e ≠ 0 → Runs c s [TEST_OTP_CTL_OP, TEST_LC_STAT_ERR] (fun _ => s) (fun t => t.fld TEST_LC_STAT_ERR = e)) ∧
     (up → e = 0 → Runs c s [TEST_OTP_CTL_OP, TEST_LC_STAT_BUSY]
       (fun _ => { s with boot := { s.boot with otpOp := some (op.val + 1) } }) (fun t => t.flag TEST_LC_STAT_BUSY = true)) ∧
     (s.boot.otpOp = none → still .otpProgrammed) ∧
     (s.boot.otpOp = some (op.val + 1) →
       Runs .otpProgrammed s (shown ++ (List.range 8).map (fun w => wholeReg (TEST_OTP_DATA w).addr)) bootIs
         (fun t => isOver t ∧ (∀ w < 8, t.reg (TEST_OTP_DATA w).addr = 0) ∧
           t.boot.fuses = (if op.val = 0 then { f with secret := f.secret ||| s.otpData, keySet := true }
             else if op.val = 1 then { f with pkh := f.pkh ||| s.otpData, pkhSet := true } else { f with secure := true }) ∧
           t.hand.log = (s.logEvent 0x0008 sevInfo (op.val + 1)).hand.log)))

/-- In-field tests take their turns, skip, stand in, end and hand back as their rules say. While deals run and the
supervisor works, with tests on and none running or asked for in the quadrant, a test that is due, one interval after
the last, passes over a RETIRED engine, skips and counts one whose joker is substituting or FAILED, and puts an engine
that serves nothing into TEST; while one runs it waits. A request for an engine that does not exist, is queued already
or is under test is recorded only; with a test running it is queued. A test that passes is counted and shown and leaves
a joker GATED and any other engine IDLE; one that is stood in for waits for the handback; one that fails retires the
engine, is counted and logged. A handback gives the joker back. Otherwise nothing changes. (R508; R509; R510; R511;
R512) -/
def Obligations.InFieldTestsFollowTheirRules : Prop :=
  ∀ (s : State) (q : Fin 4) (p : Fin 2048),
    let x := s.iftOf q
    let still := fun (c : Instr) => Runs c s [] (fun _ => s) (fun _ => True)
    let works := s.deal.running = true ∧ s.flag SUP_STAT_WDOG = false
    let e := 272 * q.val + x.next
    let jstate := s.fld (HAND_CLU_JSTATE (e / 17))
    let on := works ∧ s.flag TEST_IFT_CFG_EN = true
    let due := x.since + (3600 * s.fld TEST_IFT_CFG_HOURS * s.nsps : Nat) / (400 * 272 : Int)
    let come := due ≤ s.now
    let since := if s.now < due + (3600 * s.fld TEST_IFT_CFG_HOURS * s.nsps : Nat) / (400 * 272 : Int) then due else s.now
    let others := fun (t : State) => ∀ k < 4, k ≠ q.val → t.iftOf k = s.iftOf k
    let testIs := fun (t : State) => { s with test := t.test }
    let turned := fun (t : State) (run : Option Nat) =>
      t.iftOf q = { x with next := (x.next + 1) % 272, visits := x.visits + 1, since := since, run := run, ended := if run.isSome then false else x.ended } ∧
      others t
    (¬(on ∧ come) → still (.iftDue q)) ∧
    (on → come → x.run.isSome = true → x.asked = [] → Runs (.iftDue q) s [] testIs
      (fun t => t.iftOf q = { x with waiting := x.waiting + 1, since := since } ∧ others t)) ∧
    (on → come → x.run = none → x.asked = [] → x.waiting = 0 → x.next < 272 →
      (s.fld (ENG_STAT_STATE e) = 4 → Runs (.iftDue q) s [TEST_IFT_STAT_ROUNDS] testIs (fun t => turned t none)) ∧
      (s.fld (ENG_STAT_STATE e) ≠ 4 → 2 ≤ jstate →
        Runs (.iftDue q) s [TEST_IFT_STAT_ROUNDS, TEST_IFT_SKIPS_JOKER, TEST_STAT_IFT_SKIP] testIs
          (fun t => turned t none ∧ t.flag TEST_STAT_IFT_SKIP = true ∧
            t.fld TEST_IFT_SKIPS_JOKER = min (s.fld TEST_IFT_SKIPS_JOKER + 1) 0xFFFF)) ∧
      (s.fld (ENG_STAT_STATE e) ≠ 4 → jstate < 2 → s.flag (ENG_ID_ACTIVE e) = false →
        Runs (.iftDue q) s [TEST_IFT_STAT_ROUNDS, TEST_IFT_STAT_ACTIVE.bit q, ENG_STAT_STATE e] testIs
          (fun t => turned t (some e) ∧ t.bitSet TEST_IFT_STAT_ACTIVE q = true ∧ t.fld (ENG_STAT_STATE e) = 3))) ∧
    (let y := s.iftOf (p.val / 272)
     (1088 ≤ p.val → Runs (.iftRun p) s logFields (fun t => withLogOf s t)
       (fun t => t.hand.log = (s.ignored TEST_IFT_CTL.addr).hand.log)) ∧
     (p.val < 1088 → p.val ∈ y.asked ∨ y.run = some p.val →
       Runs (.iftRun p) s (TEST_IFT_CTL_PHYS :: logFields) (fun t => withLogOf s t)
         (fun t => t.fld TEST_IFT_CTL_PHYS = p.val ∧ t.hand.log = (s.ignored TEST_IFT_CTL.addr).hand.log)) ∧
     (p.val < 1088 → p.val ∉ y.asked → y.run ≠ some p.val → y.run.isSome = true ∨ ¬works →
       Runs (.iftRun p) s [TEST_IFT_CTL_PHYS] testIs (fun t => t.fld TEST_IFT_CTL_PHYS = p.val ∧
         (t.iftOf (p.val / 272)).asked = y.asked ++ [p.val] ∧ (t.iftOf (p.val / 272)).run = y.run))) ∧
    (x.run = none ∨ x.ended = true → ∀ (lb : List (Fin 4 × BitVec 64)) (mb : List MbEntry), still (.iftTestEnd q lb mb)) ∧
    (x.run = none ∨ x.ended = false → still (.iftHandback q)) ∧
    (∀ r : Nat, x.run = some r → r < 1088 → x.asked = [] → x.waiting = 0 →
      let c := r / 17
      let j := 17 * c + 16
      let stood := s.hand.standin.any (fun y => decide (y.1 = r))
      (x.ended = false →
        (∃ t : State, exec (.iftTestEnd q [] []) s = .next t ∧ t.fld TEST_IFT_LAST_RESULT = 1 ∧ t.fld TEST_IFT_LAST_PHYS = r ∧
          t.flag TEST_STAT_IFT_DONE = true ∧ t.fld TEST_IFT_COUNT_PASS = min (s.fld TEST_IFT_COUNT_PASS + 1) 0xFFFF ∧
          t.fld (ENG_STAT_STATE r) = (if r = j then 0 else 1) ∧
          (stood = true → t.iftOf q = { x with ended := true }) ∧ (stood = false → (t.iftOf q).run = none)) ∧
        (∀ (k : Fin 4) (sig : BitVec 64), sig ≠ Config.lbistExpected (4 * r + k.val) → ∃ t : State, exec (.iftTestEnd q [(k, sig)] []) s = .next t ∧
          t.fld TEST_IFT_LAST_RESULT = 2 ∧ t.flag TEST_STAT_IFT_FAIL = true ∧ t.fld (ENG_STAT_STATE r) = 4 ∧
          t.fld TEST_IFT_COUNT_FAIL = min (s.fld TEST_IFT_COUNT_FAIL + 1) 0xFFFF ∧ r ∈ t.hand.jmapQ ∧
          (t.iftOf q).run = none ∧ t.hand.log = (s.logEvent 0x0F05 sevAttention (r + 4096)).hand.log ∧
          (stood = true → t.fld (HAND_CLU_JSTATE c) = 2))) ∧
      (x.ended = true → stood = false → still (.iftHandback q)) ∧
      (x.ended = true → stood = true → r ≠ j → (s.mirrorCtl (s.logicalOf j)).task = none → ∃ t : State, exec (.iftHandback q) s = .next t ∧
        t.fld (ENG_STAT_STATE j) = 0 ∧ t.flag (ENG_ID_ACTIVE j) = false ∧ t.fld (HAND_CLU_JSTATE c) = 0 ∧
        t.fld (HAND_CLU_JFOR c) = 0x1F ∧ (t.iftOf q).run = none ∧ t.hand.standin.all (fun y => decide (y.1 ≠ r)) = true))

/-- Calibration records are queued, written twice, loaded and shown as the store's rules say. SAVE takes the trims in effect
of all four inputs and queues a CONV_TRIM record for each that none waits for; a periodic save, once per
TEST_CAL_CFG.HOURS while deals run, does the same, and queues the training tables that retraining has changed. A record
within 1 s of the last write of its KIND and KEY waits, and trims yield to a repair map. The record at the head of the
queue is written to the next good slot of its ring in both halves, with its generation, key and CRC, and no other byte
changes; slots that fail first leave the ring; with no good slot left it is abandoned, ERR 4 and logged. LOAD is refused
with ERR 3 while busy, 1 where a record is absent, 2 where its lane map differs; else it waits for its tick. A joker map
edit of an engine that exists is queued and logged; any other is recorded only. A read of TEST_CS_DATA returns the word
and advances ADDR. (R513; R515; R516; R517; R518; R520; R522) -/
def Obligations.CalibrationStoreFollowsItsRules : Prop :=
  ∀ (s : State) (fails : Nat) (src : Bool) (inputs : BitVec 4) (remove : Bool) (p : Fin 2048),
    let none' : TrimSet := { trims := [], lanes := [], ruler := 0, spare := 0 }
    let noMore := s.conv.saveQ = [] ∧ s.hand.jmapQ = [] ∧ s.test.edits = [] ∧ s.test.repairs = [] ∧ s.clk.bands = [] ∧ s.mem.store = []
    let testIs := fun (t : State) => { s with test := t.test }
    let saved := fun (t : State) =>
      t.test.queue = s.test.queue ++ ((List.range 4).filter (fun i => decide ((1, i) ∉ s.test.queue))).map (fun i => (1, i)) ∧
      (∀ i < 4, instGet none' t.test.saved i = s.trimsNow i) ∧ t.flag TEST_CAL_STAT_BUSY = true
    let kind := if src then 2 else 1
    let named := (List.range 4).filter (fun i => inputs.getLsbD i)
    Runs .calSave s [TEST_CAL_STAT_BUSY] testIs saved ∧
    (let come := s.deal.running = true ∧ 3600 * s.fld TEST_CAL_CFG_HOURS * s.nsps ≤ (s.now - s.test.savedAt) * 400
     (¬come → Runs .calSaveDue s [] (fun _ => s) (fun _ => True)) ∧
     (come → noMore → s.mem.moved = [] →
       Runs .calSaveDue s [TEST_CAL_STAT_BUSY] testIs (fun t => saved t ∧ t.test.savedAt = s.now)) ∧
     (come → ∃ t : State, exec .calSaveDue s = .next t ∧ (∀ i < 4, (1, i) ∈ t.test.queue) ∧
       (∀ ch ∈ s.mem.store ++ s.mem.moved, s.subLive (2 * ch) = true ∨ s.subLive (2 * ch + 1) = true →
         (5, (s.reg (MEMCS_SERIAL (2 * ch)).addr).toNat) ∈ t.test.queue))) ∧
    (s.flag SUP_STAT_WDOG = true ∨ (noMore ∧ ∀ y ∈ s.test.queue, s.recReady y = false) →
      Runs (.calStoreWrite fails) s [] (fun _ => s) (fun _ => True)) ∧
    (∀ (key : Nat) (rest : List (Nat × Nat)), s.flag SUP_STAT_WDOG = false → noMore → s.test.queue = (1, key) :: rest → key < 4 → s.recReady (1, key) = true →
      (∀ y ∈ rest, s.recReady y = true → y.1 ≠ 6) →
      let order := s.slotOrder 1 key
      let gen := ((s.csNewest 1 key).map (fun r => r.2.gen + 1)).getD 0
      let body := (instGet none' s.test.saved key).bytes
      let head := leBytes 2 1 ++ leBytes 1 1 ++ leBytes 1 0 ++ leBytes 4 gen ++ leBytes 4 key ++ leBytes 4 (body.length + 20)
      let rec' := head ++ body ++ leBytes 4 (crc32c (head ++ body)).toNat
      let byte := fun (t : State) (o : Nat) => sparseGet storeDefault t.test.store o
      let fields := TEST_CAL_WRITES_COUNT :: TEST_STAT_CAL_SAVED :: TEST_CAL_STAT_BUSY :: TEST_CAL_STAT_ERR ::
        TEST_STAT_CAL_WRITE_FAIL :: wholeReg TEST_CS_WEAR.addr :: logFields
      (∀ (o : Nat) (more : List Nat), order.drop fails = o :: more → rec'.length ≤ 0x800000 →
        Runs (.calStoreWrite fails) s fields (fun t => { withLogOf s t with test := t.test })
          (fun t => t.test.queue = rest ∧ t.test.bad = s.test.bad ++ order.take fails ∧
            (s.deal.running = true → ((1, key), s.now) ∈ t.test.wrote) ∧
            t.fld TEST_CAL_WRITES_COUNT = min (s.fld TEST_CAL_WRITES_COUNT + 1) (2 ^ 32 - 1) ∧
            (∀ (i : Nat) (b : Byte), rec'[i]? = some b → byte t (o + i) = b ∧ byte t (0x800000 + o + i) = b) ∧
            (∀ i : Nat, (i < o ∨ o + rec'.length ≤ i) → (i < 0x800000 + o ∨ 0x800000 + o + rec'.length ≤ i) → byte t i = byte s i) ∧
            (rest.all (fun y => decide (y.1 ≠ 1)) = true → t.flag TEST_STAT_CAL_SAVED = true))) ∧
      (order.drop fails = [] →
        Runs (.calStoreWrite fails) s fields (fun t => { withLogOf s t with test := t.test })
          (fun t => t.test.queue = rest ∧ t.test.store = s.test.store ∧ t.fld TEST_CAL_STAT_ERR = 4 ∧
            t.flag TEST_STAT_CAL_WRITE_FAIL = true ∧ t.hand.log = (s.logEvent 0x0F08 sevAttention (1 + 256 * key)).hand.log))) ∧
    (let busy := s.flag TEST_CAL_STAT_BUSY = true
     let lost := ∃ i ∈ named, s.storedTrims kind i = none
     let differs := ∃ i ∈ named, ∀ t : TrimSet, s.storedTrims kind i = some t → t.lanes ≠ (s.trimsNow i).lanes
     let written := fun (t : State) => t.flag TEST_CAL_CTL_SRC = src ∧ t.fld TEST_CAL_CTL_INPUTS = inputs.toNat
     let refused := fun (e : Nat) => Runs (.calLoad src inputs) s [TEST_CAL_CTL_SRC, TEST_CAL_CTL_INPUTS, TEST_CAL_STAT_ERR]
       (fun _ => s) (fun t => written t ∧ t.fld TEST_CAL_STAT_ERR = e)
     (busy → refused 3) ∧ (¬busy → lost → refused 1) ∧ (¬busy → ¬lost → differs → refused 2) ∧
     (¬busy → ¬lost → ¬differs → Runs (.calLoad src inputs) s [TEST_CAL_CTL_SRC, TEST_CAL_CTL_INPUTS, TEST_CAL_STAT_BUSY]
       (fun t => { s with test := { s.test with load := t.test.load }, conv := { s.conv with calib := t.conv.calib } })
       (fun t => written t ∧ t.flag TEST_CAL_STAT_BUSY = true ∧
         t.test.load = some (inputs.toNat + (if s.deal.closed then 16 else 0), b2n src) ∧
         ∀ i < 4, (t.calibOf i).staged.any (fun c => c.load) =
           ((s.calibOf i).staged.any (fun c => c.load) || (!s.deal.closed && inputs.getLsbD i))))) ∧
    (1088 ≤ p.val → Runs (.jmapEdit remove p) s logFields (fun t => withLogOf s t)
      (fun t => t.hand.log = (s.ignored TEST_JMAP_EDIT.addr).hand.log)) ∧
    (p.val < 1088 → ∃ t : State, exec (.jmapEdit remove p) s = .next t ∧ t.flag TEST_JMAP_EDIT_OP = remove ∧
      t.fld TEST_JMAP_EDIT_PHYS = p.val ∧ t.test.edits = s.test.edits ++ [(remove, p.val)] ∧ (7, 0) ∈ t.test.queue ∧
      t.hand.log = (s.logEvent 0x0F0A sevInfo (p.val + 2 ^ 15 * b2n remove)).hand.log) ∧
    (let a := s.fld TEST_CS_ADDR_ADDR / 4 * 4
     Runs .testCsDataRead s [TEST_CS_ADDR_ADDR] (fun t => { s with rdata := t.rdata })
       (fun t => t.fld TEST_CS_ADDR_ADDR = (a + 4) % 2 ^ 24 ∧
         t.rdata = [BitVec.ofNat 32 (leNat (sparseRead storeDefault s.test.store a 4))]))

/-! ### Power, SMBus and the test access port (19) -/

/-- The SMBus target, telemetry and the test access port do what their commands say. While the target serves: ADDR with a
good PEC sets the pointer; a DATA read returns the word of a register at the pointer, and 0 outside registers and log; a
DATA write does what a register write over SMBus does, to the registers of R536 alone; each moves the pointer by 4.
STATUS returns SUP_STAT bits 31:16; an Alert Response read with SMB_ALERT_N asserted returns the address and releases
it. Otherwise nothing changes. Telemetry shows VIN, current, power with its peak, energy, the five temperatures, the
hottest of them and HOT. VIN below 4.5 V sets VIN_LOW and is logged. From step 2 on a TAP instruction is taken, with the
pins where it seizes them, and no Ethernet link then stays UP in RUN or CONFIG_ERROR; IDCODE shows its word; internal
scan stops in MANUFACTURE and FIELD_RETURN and is BYPASS elsewhere (the model's choice, log entry §privateScan§). (R525;
R533; R534; R535; R536; R537; R547; R548; R549) -/
def Obligations.SmbusTelemetryAndTapFollowTheirCommands : Prop :=
  (tapIdcode.toNat / 2 ^ 12 = 0x14820 ∧ tapIdcode.toNat % 2 = 1) ∧
  ∀ (s : State) (v : Word) (pec : Bool) (mv ma mj : Nat) (temps : List Int) (tap : TapInstr),
    let still := fun (c : Instr) => Runs c s [] (fun _ => s) (fun _ => True)
    let up := s.alive = true ∧ s.flag SUP_STAT_WDOG = false
    let a := s.ports.smbPtr
    let next := (a + 4) % 2 ^ 32
    let moved := { s.ports with smbPtr := next }
    let gives := fun (t : State) (w : Word) => t.rdata = [w]
    (¬up → still (.smbusAddr v pec) ∧ still .smbusDataRead ∧ still (.smbusDataWrite v pec) ∧ still .smbusStatus ∧ still .alertResponse) ∧
    still (.smbusAddr v false) ∧ still (.smbusDataWrite v false) ∧
    (up →
      Runs (.smbusAddr v true) s [] (fun _ => { s with ports := { s.ports with smbPtr := v.toNat } }) (fun _ => True) ∧
      (∀ (r : RegSpec) (inst : List Nat), a % 4 = 0 → aliased a = a → regionAt a = .register → regAt a = some (r, inst) →
        r.captured = false → a ≠ KIT_TAG.addr → a ≠ PORT_DATA.addr → (∀ i < 4, a ≠ (CBKI_COEF_DATA_COEF i).addr) →
        a ≠ TEST_CS_DATA_DATA.addr →
        Runs .smbusDataRead s [] (fun t => { s with ports := moved, rdata := t.rdata, capture := t.capture })
          (fun t => gives t (s.shown r a)) (sent := [Out.smbus (s.shown r a)])) ∧
      (regionAt a ≠ .register → regionAt a ≠ .log →
        Runs .smbusDataRead s [] (fun t => { s with ports := moved, rdata := t.rdata }) (fun t => gives t 0) (sent := [Out.smbus 0])) ∧
      (smbusWritable (aliased a) = false →
        Runs (.smbusDataWrite v true) s logFields (fun t => { withLogOf s t with ports := moved })
          (fun t => t.hand.log = (s.ignored (aliased a)).hand.log)) ∧
      (∀ u : State, exec (.registerWrite .smbus a 4 v) s = .next u →
        ∃ t : State, exec (.smbusDataWrite v true) s = .next t ∧ KeepsFields [] u t ∧
          SameParts { u with ports := { u.ports with smbPtr := (u.ports.smbPtr + 4) % 2 ^ 32 } } t) ∧
      (let w : Word := BitVec.ofNat 32 ((s.reg SUP_STAT.addr).toNat / 65536)
       Runs .smbusStatus s [] (fun t => { s with rdata := t.rdata }) (fun t => gives t w) (sent := [Out.smbus w])) ∧
      (s.pins.smbAlert = true → s.pins.fault = s.faultCond →
        Runs .alertResponse s [] (fun t => { s with rdata := t.rdata })
          (fun t => gives t 0x4A ∧ t.pins.smbAlert = false ∧ t.flag VREG_STAT_ALERT = false) (sent := [Out.smbus 0x4A])) ∧
      (s.pins.smbAlert = false → still .alertResponse)) ∧
    (s.alive = true → temps.length = 5 →
      let power := min (mv * ma / 100000) 0xFFFF
      let hot := temps.foldl max (temps.headD 0)
      Runs (.telemetryUpdate mv ma temps mj none) s
        ([wholeReg VREG_VIN_MV.addr, wholeReg VREG_IIN_MA.addr, wholeReg VREG_PIN_NOW.addr, wholeReg VREG_TEMP_MAX_NOW.addr,
          wholeReg VREG_STAT_HOT.addr] ++ pairFields VREG_ENERGY ++ (List.range 5).map VREG_TEMP_T ++ logFields)
        (fun t => withLogOf s t)
        (fun t => t.fld VREG_VIN_MV = min mv 0xFFFF ∧ t.fld VREG_IIN_MA = min ma 0xFFFF ∧ t.fld VREG_PIN_NOW = power ∧
          t.fld VREG_PIN_PEAK = max (s.fld VREG_PIN_PEAK) power ∧ t.pair VREG_ENERGY = (s.pair VREG_ENERGY + mj) % 2 ^ 64 ∧
          (∀ (d : Nat) (x : Int), temps[d]? = some x → t.fld (VREG_TEMP_T d) = ofSigned 16 x) ∧
          t.fld VREG_TEMP_MAX_NOW = ofSigned 16 hot ∧ t.flag VREG_STAT_HOT = decide (420 ≤ hot) ∧
          (s.fld VREG_PIN_NOW ≤ 10 * s.fld VREG_ALERT_CFG_PIN_WARN → 10 * s.fld VREG_ALERT_CFG_PIN_WARN < power →
            t.flag VREG_STAT_PIN_WARN = true))) ∧
    (s.alive = false ∨ temps.length ≠ 5 → ∀ rail : Option (Nat × Nat), still (.telemetryUpdate mv ma temps mj rail)) ∧
    (s.alive = true → mv < 4500 → Runs (.vinLow mv) s (VREG_STAT_VIN_LOW :: logFields) (fun t => withLogOf s t)
      (fun t => t.flag VREG_STAT_VIN_LOW = true ∧ t.hand.log = (s.logEvent 0x1201 sevAttention mv).hand.log)) ∧
    (s.alive = false ∨ 4500 ≤ mv → still (.vinLow mv)) ∧
    (let takes := fun (i : TapInstr) (seized : Bool) (sent : List Out) =>
       Runs (.tapInstruction tap) s [] (fun _ => { s with ports := { s.ports with tap := i, seized := seized } }) (fun _ => True) sent
     let seizing := tap = .extest ∨ tap = .extestPulse ∨ tap = .extestTrain ∨ tap = .clamp ∨ tap = .highz
     let state := s.fld SUP_STAT_STATE
     let on := 2 ≤ state
     (¬on → still (.tapInstruction tap)) ∧
     (on → tap = .bypass ∨ tap = .samplePreload → takes tap false []) ∧
     (on → tap = .idcode → takes tap false [Out.tdo tapIdcode]) ∧
     (on → seizing → (state ≠ 12 ∧ state ≠ 13) ∨ s.ports.seized = true → takes tap true []) ∧
     (seizing → state = 12 ∨ state = 13 → ∃ t : State, exec (.tapInstruction tap) s = .next t ∧
       t.ports = { s.ports with tap := tap, seized := true } ∧
       (s.ports.seized = false → ∀ p < 2, ∀ l < 4, t.fld (ETH_L_STAT_STATE p l) ≠ 2)) ∧
     (on → tap = .tapReset → takes .idcode false []) ∧
     (on → tap = .internalScan → s.fld SUP_STAT_LC ≠ 1 → s.fld SUP_STAT_LC ≠ 3 → takes .bypass false []) ∧
     (on → tap = .internalScan → s.fld SUP_STAT_LC = 1 ∨ s.fld SUP_STAT_LC = 3 → exec (.tapInstruction tap) s = .refused .privateScan))
end

