-- ==== Sys2Proof/Laws/Sparse.lean ====
section
/-! SUPPORT. Laws of sparse maps: what a read gives after a write, and that every operation keeps the canonical form. -/

namespace Sys2Proof.Machine

variable {α : Type}

/-- A key taken out reads as the default. -/
theorem sparseGet_erase_self (d : Nat → α) (k : Nat) (m : List (Nat × α)) : sparseGet d (sparseErase k m) k = d k := by
  induction m with
  | nil => rfl
  | cons p t ih =>
    obtain ⟨a, v⟩ := p
    by_cases h : a = k
    · simpa [sparseErase, h] using ih
    · simp only [sparseErase, List.filter_cons] at ih ⊢
      simp [h, sparseGet, Ne.symm h, ih]

/-- Taking a key out leaves every other key. -/
theorem sparseGet_erase_ne (d : Nat → α) {k j : Nat} (h : j ≠ k) (m : List (Nat × α)) :
    sparseGet d (sparseErase k m) j = sparseGet d m j := by
  induction m with
  | nil => rfl
  | cons p t ih =>
    obtain ⟨a, v⟩ := p
    simp only [sparseErase, List.filter_cons] at ih ⊢
    by_cases ha : a = k
    · subst ha; simpa [sparseGet, h] using ih
    · simp [ha, sparseGet, ih]

/-- A value put at a key is read back. -/
theorem sparseGet_insert_self (d : Nat → α) (k : Nat) (v : α) (m : List (Nat × α)) : sparseGet d (sparseInsert k v m) k = v := by
  induction m with
  | nil => simp [sparseInsert, sparseGet]
  | cons p t ih =>
    obtain ⟨a, w⟩ := p
    unfold sparseInsert
    split
    · simp [sparseGet]
    · split
      · simp [sparseGet]
      · simp [sparseGet, *]

/-- A value put at a key leaves every other key. -/
theorem sparseGet_insert_ne (d : Nat → α) {k j : Nat} (h : j ≠ k) (v : α) (m : List (Nat × α)) :
    sparseGet d (sparseInsert k v m) j = sparseGet d m j := by
  induction m with
  | nil => simp [sparseInsert, sparseGet, h]
  | cons p t ih =>
    obtain ⟨a, w⟩ := p
    unfold sparseInsert
    split
    · simp [sparseGet, h]
    · split
      · next e => subst e; simp [sparseGet, h]
      · simp [sparseGet, ih]

/-- A read after a write: the written key gives the value, every other key what it gave before. -/
@[simp] theorem sparseGet_set [DecidableEq α] (d : Nat → α) (m : List (Nat × α)) (k : Nat) (v : α) (j : Nat) :
    sparseGet d (sparseSet d m k v) j = if j = k then v else sparseGet d m j := by
  unfold sparseSet
  split
  · next hv =>
    split
    · next e => subst e; rw [sparseGet_erase_self, hv]
    · next e => exact sparseGet_erase_ne d e m
  · split
    · next e => subst e; exact sparseGet_insert_self d _ v m
    · next e => exact sparseGet_insert_ne d e v m

/-- The same for an instance of a family. -/
@[simp] theorem instGet_instSet [DecidableEq α] (d : α) (m : List (Nat × α)) (i : Nat) (v : α) (j : Nat) :
    instGet d (instSet d m i v) j = if j = i then v else instGet d m j := by
  simp [instGet, instSet]

/-! ### The canonical form -/

/-- Rising keys stay rising above a lower bound. -/
theorem risingFrom_mono {b c : Nat} (h : b ≤ c) {m : List (Nat × α)} (hm : risingFrom c m = true) : risingFrom b m = true := by
  cases m with
  | nil => rfl
  | cons p t =>
    obtain ⟨a, v⟩ := p
    simp only [risingFrom, Bool.and_eq_true, decide_eq_true_eq] at hm ⊢
    exact ⟨by omega, hm.2⟩

/-- Filtering keeps the keys rising. -/
theorem risingFrom_filter (f : Nat × α → Bool) {m : List (Nat × α)} {b : Nat} (h : risingFrom b m = true) :
    risingFrom b (m.filter f) = true := by
  induction m generalizing b with
  | nil => rfl
  | cons p t ih =>
    obtain ⟨a, v⟩ := p
    simp only [risingFrom, Bool.and_eq_true, decide_eq_true_eq] at h
    rw [List.filter_cons]
    split
    · simp only [risingFrom, Bool.and_eq_true, decide_eq_true_eq]
      exact ⟨h.1, ih h.2⟩
    · exact ih (risingFrom_mono (by omega) h.2)

/-- Putting a value keeps the keys rising. -/
theorem risingFrom_insert {m : List (Nat × α)} {b k : Nat} (v : α) (h : risingFrom b m = true) (hk : b ≤ k) :
    risingFrom b (sparseInsert k v m) = true := by
  induction m generalizing b with
  | nil => simp [sparseInsert, risingFrom, hk]
  | cons p t ih =>
    obtain ⟨a, w⟩ := p
    simp only [risingFrom, Bool.and_eq_true, decide_eq_true_eq] at h
    unfold sparseInsert
    split
    · simp only [risingFrom, Bool.and_eq_true, decide_eq_true_eq]
      exact ⟨hk, by omega, h.2⟩
    · split
      · next e => subst e; simp only [risingFrom, Bool.and_eq_true, decide_eq_true_eq]; exact ⟨hk, h.2⟩
      · simp only [risingFrom, Bool.and_eq_true, decide_eq_true_eq]
        exact ⟨h.1, ih h.2 (by omega)⟩

/-- Every entry after a put is the new one or an old one. -/
theorem mem_sparseInsert {m : List (Nat × α)} {k : Nat} {v : α} {p : Nat × α} (h : p ∈ sparseInsert k v m) :
    p = (k, v) ∨ p ∈ m := by
  induction m with
  | nil => simpa [sparseInsert] using h
  | cons q t ih =>
    obtain ⟨a, w⟩ := q
    unfold sparseInsert at h
    split at h
    · simpa using h
    · split at h
      · rcases List.mem_cons.mp h with h | h
        · exact .inl h
        · exact .inr (List.mem_cons_of_mem _ h)
      · rcases List.mem_cons.mp h with h | h
        · exact .inr (by simp [h])
        · rcases ih h with h | h
          · exact .inl h
          · exact .inr (List.mem_cons_of_mem _ h)

/-- The empty map is canonical. -/
@[simp] theorem sparseWf_nil [DecidableEq α] (d : Nat → α) : sparseWf d ([] : List (Nat × α)) = true := rfl

/-- Filtering keeps the canonical form. -/
theorem sparseWf_filter [DecidableEq α] {d : Nat → α} {m : List (Nat × α)} (f : Nat × α → Bool) (h : sparseWf d m = true) :
    sparseWf d (m.filter f) = true := by
  simp only [sparseWf, Bool.and_eq_true, List.all_eq_true] at h ⊢
  exact ⟨risingFrom_filter f h.1, fun p hp => h.2 p (List.mem_of_mem_filter hp)⟩

/-- A write keeps the canonical form. -/
theorem sparseWf_set [DecidableEq α] {d : Nat → α} {m : List (Nat × α)} (k : Nat) (v : α) (h : sparseWf d m = true) :
    sparseWf d (sparseSet d m k v) = true := by
  unfold sparseSet
  split
  · exact sparseWf_filter _ h
  · next hv =>
    simp only [sparseWf, Bool.and_eq_true, List.all_eq_true] at h ⊢
    refine ⟨risingFrom_insert v h.1 (Nat.zero_le _), fun p hp => ?_⟩
    rcases mem_sparseInsert hp with rfl | hp
    · simpa using hv
    · exact h.2 p hp

/-- Writes of a list of values keep the canonical form. -/
theorem sparseWf_write [DecidableEq α] {d : Nat → α} {m : List (Nat × α)} (k : Nat) (vs : List α) (h : sparseWf d m = true) :
    sparseWf d (sparseWrite d m k vs) = true := by
  induction vs generalizing m k with
  | nil => exact h
  | cons v t ih => exact ih (k + 1) (sparseWf_set k v h)

end Sys2Proof.Machine
end

