-- ==== Sys2Proof/Laws/Regs.lean ====
section
/-! SUPPORT. Laws of registers and fields: what a field reads after a field is written, in the same register and in another. -/

namespace Sys2Proof.Machine

/-! ### Whole registers -/

/-- A register after a register is given a value. -/
@[simp] theorem reg_setReg (s : State) (a : Nat) (v : Word) (b : Nat) :
    (s.setReg a v).reg b = if b = a then v else s.reg b := by
  simp [State.reg, State.setReg]

/-- A register after a field of some register is given a value. -/
theorem reg_setFld (s : State) (f : Field) (x b : Nat) :
    (s.setFld f x).reg b =
      if b = f.addr then mergeBits (s.reg f.addr) (fieldMask f.lo f.width) (BitVec.ofNat 32 (x <<< f.lo)) else s.reg b := by
  simp [State.setFld]

/-- A register other than the field's own. -/
theorem reg_setFld_ne (s : State) (f : Field) (x : Nat) {b : Nat} (h : b ≠ f.addr) : (s.setFld f x).reg b = s.reg b := by
  simp [reg_setFld, h]

/-- A register outside a pair. -/
theorem reg_setPair_ne (s : State) (p : Pair) (x : Nat) {b : Nat} (h : b ≠ p.addr) (h' : b ≠ p.addr + 4) :
    (s.setPair p x).reg b = s.reg b := by
  simp [State.setPair, h, h']

/-! ### Bits of a word -/

/-- A field of a word, bit by bit. -/
theorem testBit_wordBits (v : Word) (lo w i : Nat) :
    (wordBits v lo w).testBit i = (decide (i < w) && v.getLsbD (lo + i)) := by
  simp [wordBits, Nat.testBit_mod_two_pow, Nat.testBit_shiftRight, BitVec.getLsbD]

/-- The bits of a field's mask. -/
theorem getLsbD_fieldMask (lo w i : Nat) : (fieldMask lo w).getLsbD i = (decide (i < 32) && decide (lo ≤ i) && decide (i < lo + w)) := by
  rw [fieldMask, BitVec.getLsbD_ofNat, Nat.testBit_shiftLeft, Nat.testBit_two_pow_sub_one, Bool.eq_iff_iff]
  simp only [Bool.and_eq_true, decide_eq_true_eq]
  omega

/-- The bits of a merged word. -/
theorem getLsbD_mergeBits (old mask v : Word) (i : Nat) :
    (mergeBits old mask v).getLsbD i = if mask.getLsbD i then v.getLsbD i else old.getLsbD i := by
  by_cases hi : i < 32
  · simp only [mergeBits, BitVec.getLsbD_or, BitVec.getLsbD_and, BitVec.getLsbD_not, hi, decide_true, Bool.true_and]
    cases mask.getLsbD i <;> simp
  · rw [BitVec.getLsbD_of_ge (mergeBits old mask v) i (by omega), BitVec.getLsbD_of_ge v i (by omega),
      BitVec.getLsbD_of_ge old i (by omega), ite_self]

/-- The field that was merged in. -/
theorem wordBits_merge_self (old : Word) {lo w : Nat} (h : lo + w ≤ 32) (x : Nat) :
    wordBits (mergeBits old (fieldMask lo w) (BitVec.ofNat 32 (x <<< lo))) lo w = x % 2 ^ w := by
  apply Nat.eq_of_testBit_eq
  intro i
  rw [testBit_wordBits, getLsbD_mergeBits, getLsbD_fieldMask, Nat.testBit_mod_two_pow]
  by_cases hi : i < w
  · have h1 : lo + i < 32 := by omega
    rw [BitVec.getLsbD_ofNat, Nat.testBit_shiftLeft]
    simp [hi, h1]
  · simp [hi]

/-- A field that the merged one does not touch. -/
theorem wordBits_merge_disjoint (old v : Word) {lo w lo' w' : Nat} (h : lo + w ≤ lo' ∨ lo' + w' ≤ lo) :
    wordBits (mergeBits old (fieldMask lo w) v) lo' w' = wordBits old lo' w' := by
  apply Nat.eq_of_testBit_eq
  intro i
  rw [testBit_wordBits, testBit_wordBits, getLsbD_mergeBits, getLsbD_fieldMask]
  by_cases hi : i < w'
  · have hn : ¬ (lo ≤ lo' + i ∧ lo' + i < lo + w) := by omega
    have : (decide (lo' + i < 32) && decide (lo ≤ lo' + i) && decide (lo' + i < lo + w)) = false := by
      rw [Bool.eq_false_iff]; intro hh; simp only [Bool.and_eq_true, decide_eq_true_eq] at hh; exact hn ⟨hh.1.2, hh.2⟩
    simp [this]
  · simp [hi]

/-! ### Fields -/

/-- A field reads what it was given, modulo its width. -/
theorem fld_setFld_self (s : State) (f : Field) (x : Nat) (h : f.lo + f.width ≤ 32 := by decide) :
    (s.setFld f x).fld f = x % 2 ^ f.width := by
  simp [State.fld, reg_setFld, wordBits_merge_self _ h]

/-- A field of another register. -/
theorem fld_setFld_addr (s : State) {f g : Field} (x : Nat) (h : g.addr ≠ f.addr) : (s.setFld f x).fld g = s.fld g := by
  simp [State.fld, reg_setFld, h]

/-- Another field, whichever its register. -/
theorem fld_setFld_ne (s : State) {f g : Field} (x : Nat) (h : g.addr ≠ f.addr ∨ f.lo + f.width ≤ g.lo ∨ g.lo + g.width ≤ f.lo) :
    (s.setFld f x).fld g = s.fld g := by
  rcases h with h | h
  · exact fld_setFld_addr s x h
  · by_cases e : g.addr = f.addr
    · simp [State.fld, reg_setFld, e, wordBits_merge_disjoint _ _ h]
    · exact fld_setFld_addr s x e

/-- A field of a register other than one that was given a value. -/
theorem fld_setReg_ne (s : State) (a : Nat) (v : Word) {g : Field} (h : g.addr ≠ a) : (s.setReg a v).fld g = s.fld g := by
  simp [State.fld, h]

/-- A field of a register that was given a value. -/
theorem fld_setReg_self (s : State) (v : Word) (g : Field) : (s.setReg g.addr v).fld g = wordBits v g.lo g.width := by
  simp [State.fld]

/-- A field outside a pair. -/
theorem fld_setPair_ne (s : State) (p : Pair) (x : Nat) {g : Field} (h : g.addr ≠ p.addr) (h' : g.addr ≠ p.addr + 4) :
    (s.setPair p x).fld g = s.fld g := by
  simp [State.fld, reg_setPair_ne s p x h h']

/-- A pair reads what it was given, modulo 2^64. -/
theorem pair_setPair (s : State) (p : Pair) (x : Nat) : (s.setPair p x).pair p = x % 2 ^ 64 := by
  simp [State.pair, State.setPair]
  omega

/-- A pair that a field's register is no half of. -/
theorem pair_setFld_ne (s : State) (f : Field) (x : Nat) {p : Pair} (h : p.addr ≠ f.addr) (h' : p.addr + 4 ≠ f.addr) :
    (s.setFld f x).pair p = s.pair p := by
  simp [State.pair, reg_setFld, h, h']

/-- A flag that was set. -/
theorem flag_setFld_one (s : State) (f : Field) (h : f.lo + f.width ≤ 32 := by decide) (hw : 0 < f.width := by decide) :
    (s.setFld f 1).flag f = true := by
  have : 1 % 2 ^ f.width = 1 := Nat.mod_eq_of_lt (Nat.one_lt_two_pow (by omega))
  simp [State.flag, fld_setFld_self s f 1 h, this]

/-- A flag of another field. -/
theorem flag_setFld_ne (s : State) {f g : Field} (x : Nat)
    (h : g.addr ≠ f.addr ∨ f.lo + f.width ≤ g.lo ∨ g.lo + g.width ≤ f.lo) : (s.setFld f x).flag g = s.flag g := by
  simp [State.flag, fld_setFld_ne s x h]

/-- A flag of a state whose register reads alike. -/
theorem flag_congr {s t : State} {f : Field} (h : s.fld f = t.fld f) : s.flag f = t.flag f := by
  unfold State.flag; rw [h]

/-- A bit of a state whose register reads alike. -/
theorem bitSet_congr {s t : State} {f : Field} {i : Nat} (h : s.fld (f.bit i) = t.fld (f.bit i)) : s.bitSet f i = t.bitSet f i := by
  unfold State.bitSet; rw [h]

/-- A field of a state whose register reads alike. -/
theorem fld_congr {s t : State} {f : Field} (h : s.reg f.addr = t.reg f.addr) : s.fld f = t.fld f := by
  unfold State.fld; rw [h]

/-- A flag that was given a value. -/
theorem flag_setFld_b2n (s : State) (f : Field) (b : Bool) (h : f.lo + f.width ≤ 32 := by decide) (hw : f.width = 1 := by decide) :
    (s.setFld f (b2n b)).flag f = b := by
  have e := fld_setFld_self s f (b2n b) h
  unfold State.flag
  rw [e, hw]
  cases b <;> rfl

/-! ### Operations built on field writes -/

/-- A bit of a field of flags is given a value. -/
theorem putBit_eq (s : State) (f : Field) (i : Nat) (b : Bool) : s.putBit f i b = s.setFld (f.bit i) (b2n b) := rfl

/-- A sticky bit is set. -/
theorem stick_eq (s : State) (f : Field) (i : Nat) : s.stick f i = s.setFld (f.bit i) 1 := rfl

/-- A counter that saturates counts. -/
theorem addSat_eq (s : State) (f : Field) (n : Nat) : s.addSat f n = s.setFld f (min (s.fld f + n) (2 ^ f.width - 1)) := rfl

/-- A counter that wraps counts. -/
theorem addWrap_eq (s : State) (f : Field) (n : Nat) : s.addWrap f n = s.setFld f ((s.fld f + n) % 2 ^ f.width) := rfl

/-- A field holds the larger of two values. -/
theorem maxFld_eq (s : State) (f : Field) (x : Nat) :
    s.maxFld f x = s.setFld f (max (s.fld f) (min x (2 ^ f.width - 1))) := rfl

/-- A bit that was given a value. -/
theorem bitSet_putBit (s : State) (f : Field) (i : Nat) (b : Bool) (h : f.lo + i < 32) : (s.putBit f i b).bitSet f i = b := by
  have : (s.setFld (f.bit i) (b2n b)).fld (f.bit i) = b2n b % 2 ^ 1 := fld_setFld_self s (f.bit i) _ (by simp [Field.bit]; omega)
  simp only [State.bitSet, putBit_eq, this]
  cases b <;> rfl

/-- A sticky bit that was set. -/
theorem bitSet_stick (s : State) (f : Field) (i : Nat) (h : f.lo + i < 32) : (s.stick f i).bitSet f i = true :=
  bitSet_putBit s f i true h

/-- Another bit of a field of flags. -/
theorem bitSet_putBit_ne (s : State) (f : Field) {i j : Nat} (b : Bool) (h : j ≠ i) : (s.putBit f i b).bitSet f j = s.bitSet f j := by
  have : (s.setFld (f.bit i) (b2n b)).fld (f.bit j) = s.fld (f.bit j) :=
    fld_setFld_ne s _ (.inr (by simp only [Field.bit]; omega))
  simp only [State.bitSet, putBit_eq, this]

end Sys2Proof.Machine
end

