-- ==== Sys2Proof/Laws/State.lean ====
section
/-! SUPPORT. What each named update of State leaves and changes: one lemma per field per update, true by rfl. -/

namespace Sys2Proof.Machine

/-! ### State.setReg -/

@[simp] theorem setReg_holdLo (s : State) (a : Nat) (v : Word) : (s.setReg a v).holdLo = s.holdLo := rfl
@[simp] theorem setReg_capture (s : State) (a : Nat) (v : Word) : (s.setReg a v).capture = s.capture := rfl
@[simp] theorem setReg_rdata (s : State) (a : Nat) (v : Word) : (s.setReg a v).rdata = s.rdata := rfl
@[simp] theorem setReg_out (s : State) (a : Nat) (v : Word) : (s.setReg a v).out = s.out := rfl
@[simp] theorem setReg_pins (s : State) (a : Nat) (v : Word) : (s.setReg a v).pins = s.pins := rfl
@[simp] theorem setReg_img (s : State) (a : Nat) (v : Word) : (s.setReg a v).img = s.img := rfl
@[simp] theorem setReg_deal (s : State) (a : Nat) (v : Word) : (s.setReg a v).deal = s.deal := rfl
@[simp] theorem setReg_conv (s : State) (a : Nat) (v : Word) : (s.setReg a v).conv = s.conv := rfl
@[simp] theorem setReg_dealer (s : State) (a : Nat) (v : Word) : (s.setReg a v).dealer = s.dealer := rfl
@[simp] theorem setReg_hand (s : State) (a : Nat) (v : Word) : (s.setReg a v).hand = s.hand := rfl
@[simp] theorem setReg_host (s : State) (a : Nat) (v : Word) : (s.setReg a v).host = s.host := rfl
@[simp] theorem setReg_imgDone (s : State) (a : Nat) (v : Word) : (s.setReg a v).imgDone = s.imgDone := rfl
@[simp] theorem setReg_halted (s : State) (a : Nat) (v : Word) : (s.setReg a v).halted = s.halted := rfl
@[simp] theorem setReg_railsBad (s : State) (a : Nat) (v : Word) : (s.setReg a v).railsBad = s.railsBad := rfl
@[simp] theorem setReg_lastFatal (s : State) (a : Nat) (v : Word) : (s.setReg a v).lastFatal = s.lastFatal := rfl
@[simp] theorem setReg_links (s : State) (a : Nat) (v : Word) : (s.setReg a v).links = s.links := rfl
@[simp] theorem setReg_sdram (s : State) (a : Nat) (v : Word) : (s.setReg a v).sdram = s.sdram := rfl
@[simp] theorem setReg_time (s : State) (a : Nat) (v : Word) : (s.setReg a v).time = s.time := rfl
@[simp] theorem setReg_trig (s : State) (a : Nat) (v : Word) : (s.setReg a v).trig = s.trig := rfl
@[simp] theorem setReg_cap (s : State) (a : Nat) (v : Word) : (s.setReg a v).cap = s.cap := rfl
@[simp] theorem setReg_zoom (s : State) (a : Nat) (v : Word) : (s.setReg a v).zoom = s.zoom := rfl
@[simp] theorem setReg_eth (s : State) (a : Nat) (v : Word) : (s.setReg a v).eth = s.eth := rfl
@[simp] theorem setReg_kit (s : State) (a : Nat) (v : Word) : (s.setReg a v).kit = s.kit := rfl
@[simp] theorem setReg_mem (s : State) (a : Nat) (v : Word) : (s.setReg a v).mem = s.mem := rfl
@[simp] theorem setReg_pot (s : State) (a : Nat) (v : Word) : (s.setReg a v).pot = s.pot := rfl
@[simp] theorem setReg_clk (s : State) (a : Nat) (v : Word) : (s.setReg a v).clk = s.clk := rfl
@[simp] theorem setReg_linkDegr (s : State) (a : Nat) (v : Word) : (s.setReg a v).linkDegr = s.linkDegr := rfl
@[simp] theorem setReg_disp (s : State) (a : Nat) (v : Word) : (s.setReg a v).disp = s.disp := rfl
@[simp] theorem setReg_boot (s : State) (a : Nat) (v : Word) : (s.setReg a v).boot = s.boot := rfl
@[simp] theorem setReg_test (s : State) (a : Nat) (v : Word) : (s.setReg a v).test = s.test := rfl
@[simp] theorem setReg_ports (s : State) (a : Nat) (v : Word) : (s.setReg a v).ports = s.ports := rfl
@[simp] theorem setReg_dmaTurn (s : State) (a : Nat) (v : Word) : (s.setReg a v).dmaTurn = s.dmaTurn := rfl
@[simp] theorem setReg_free (s : State) (a : Nat) (v : Word) : (s.setReg a v).free = s.free := rfl
@[simp] theorem setReg_pending (s : State) (a : Nat) (v : Word) : (s.setReg a v).pending = s.pending := rfl

/-! ### State.setFld -/

@[simp] theorem setFld_holdLo (s : State) (f : Field) (x : Nat) : (s.setFld f x).holdLo = s.holdLo := rfl
@[simp] theorem setFld_capture (s : State) (f : Field) (x : Nat) : (s.setFld f x).capture = s.capture := rfl
@[simp] theorem setFld_rdata (s : State) (f : Field) (x : Nat) : (s.setFld f x).rdata = s.rdata := rfl
@[simp] theorem setFld_out (s : State) (f : Field) (x : Nat) : (s.setFld f x).out = s.out := rfl
@[simp] theorem setFld_pins (s : State) (f : Field) (x : Nat) : (s.setFld f x).pins = s.pins := rfl
@[simp] theorem setFld_img (s : State) (f : Field) (x : Nat) : (s.setFld f x).img = s.img := rfl
@[simp] theorem setFld_deal (s : State) (f : Field) (x : Nat) : (s.setFld f x).deal = s.deal := rfl
@[simp] theorem setFld_conv (s : State) (f : Field) (x : Nat) : (s.setFld f x).conv = s.conv := rfl
@[simp] theorem setFld_dealer (s : State) (f : Field) (x : Nat) : (s.setFld f x).dealer = s.dealer := rfl
@[simp] theorem setFld_hand (s : State) (f : Field) (x : Nat) : (s.setFld f x).hand = s.hand := rfl
@[simp] theorem setFld_host (s : State) (f : Field) (x : Nat) : (s.setFld f x).host = s.host := rfl
@[simp] theorem setFld_imgDone (s : State) (f : Field) (x : Nat) : (s.setFld f x).imgDone = s.imgDone := rfl
@[simp] theorem setFld_halted (s : State) (f : Field) (x : Nat) : (s.setFld f x).halted = s.halted := rfl
@[simp] theorem setFld_railsBad (s : State) (f : Field) (x : Nat) : (s.setFld f x).railsBad = s.railsBad := rfl
@[simp] theorem setFld_lastFatal (s : State) (f : Field) (x : Nat) : (s.setFld f x).lastFatal = s.lastFatal := rfl
@[simp] theorem setFld_links (s : State) (f : Field) (x : Nat) : (s.setFld f x).links = s.links := rfl
@[simp] theorem setFld_sdram (s : State) (f : Field) (x : Nat) : (s.setFld f x).sdram = s.sdram := rfl
@[simp] theorem setFld_time (s : State) (f : Field) (x : Nat) : (s.setFld f x).time = s.time := rfl
@[simp] theorem setFld_trig (s : State) (f : Field) (x : Nat) : (s.setFld f x).trig = s.trig := rfl
@[simp] theorem setFld_cap (s : State) (f : Field) (x : Nat) : (s.setFld f x).cap = s.cap := rfl
@[simp] theorem setFld_zoom (s : State) (f : Field) (x : Nat) : (s.setFld f x).zoom = s.zoom := rfl
@[simp] theorem setFld_eth (s : State) (f : Field) (x : Nat) : (s.setFld f x).eth = s.eth := rfl
@[simp] theorem setFld_kit (s : State) (f : Field) (x : Nat) : (s.setFld f x).kit = s.kit := rfl
@[simp] theorem setFld_mem (s : State) (f : Field) (x : Nat) : (s.setFld f x).mem = s.mem := rfl
@[simp] theorem setFld_pot (s : State) (f : Field) (x : Nat) : (s.setFld f x).pot = s.pot := rfl
@[simp] theorem setFld_clk (s : State) (f : Field) (x : Nat) : (s.setFld f x).clk = s.clk := rfl
@[simp] theorem setFld_linkDegr (s : State) (f : Field) (x : Nat) : (s.setFld f x).linkDegr = s.linkDegr := rfl
@[simp] theorem setFld_disp (s : State) (f : Field) (x : Nat) : (s.setFld f x).disp = s.disp := rfl
@[simp] theorem setFld_boot (s : State) (f : Field) (x : Nat) : (s.setFld f x).boot = s.boot := rfl
@[simp] theorem setFld_test (s : State) (f : Field) (x : Nat) : (s.setFld f x).test = s.test := rfl
@[simp] theorem setFld_ports (s : State) (f : Field) (x : Nat) : (s.setFld f x).ports = s.ports := rfl
@[simp] theorem setFld_dmaTurn (s : State) (f : Field) (x : Nat) : (s.setFld f x).dmaTurn = s.dmaTurn := rfl
@[simp] theorem setFld_free (s : State) (f : Field) (x : Nat) : (s.setFld f x).free = s.free := rfl
@[simp] theorem setFld_pending (s : State) (f : Field) (x : Nat) : (s.setFld f x).pending = s.pending := rfl

/-! ### State.setPair -/

@[simp] theorem setPair_holdLo (s : State) (p : Pair) (x : Nat) : (s.setPair p x).holdLo = s.holdLo := rfl
@[simp] theorem setPair_capture (s : State) (p : Pair) (x : Nat) : (s.setPair p x).capture = s.capture := rfl
@[simp] theorem setPair_rdata (s : State) (p : Pair) (x : Nat) : (s.setPair p x).rdata = s.rdata := rfl
@[simp] theorem setPair_out (s : State) (p : Pair) (x : Nat) : (s.setPair p x).out = s.out := rfl
@[simp] theorem setPair_pins (s : State) (p : Pair) (x : Nat) : (s.setPair p x).pins = s.pins := rfl
@[simp] theorem setPair_img (s : State) (p : Pair) (x : Nat) : (s.setPair p x).img = s.img := rfl
@[simp] theorem setPair_deal (s : State) (p : Pair) (x : Nat) : (s.setPair p x).deal = s.deal := rfl
@[simp] theorem setPair_conv (s : State) (p : Pair) (x : Nat) : (s.setPair p x).conv = s.conv := rfl
@[simp] theorem setPair_dealer (s : State) (p : Pair) (x : Nat) : (s.setPair p x).dealer = s.dealer := rfl
@[simp] theorem setPair_hand (s : State) (p : Pair) (x : Nat) : (s.setPair p x).hand = s.hand := rfl
@[simp] theorem setPair_host (s : State) (p : Pair) (x : Nat) : (s.setPair p x).host = s.host := rfl
@[simp] theorem setPair_imgDone (s : State) (p : Pair) (x : Nat) : (s.setPair p x).imgDone = s.imgDone := rfl
@[simp] theorem setPair_halted (s : State) (p : Pair) (x : Nat) : (s.setPair p x).halted = s.halted := rfl
@[simp] theorem setPair_railsBad (s : State) (p : Pair) (x : Nat) : (s.setPair p x).railsBad = s.railsBad := rfl
@[simp] theorem setPair_lastFatal (s : State) (p : Pair) (x : Nat) : (s.setPair p x).lastFatal = s.lastFatal := rfl
@[simp] theorem setPair_links (s : State) (p : Pair) (x : Nat) : (s.setPair p x).links = s.links := rfl
@[simp] theorem setPair_sdram (s : State) (p : Pair) (x : Nat) : (s.setPair p x).sdram = s.sdram := rfl
@[simp] theorem setPair_time (s : State) (p : Pair) (x : Nat) : (s.setPair p x).time = s.time := rfl
@[simp] theorem setPair_trig (s : State) (p : Pair) (x : Nat) : (s.setPair p x).trig = s.trig := rfl
@[simp] theorem setPair_cap (s : State) (p : Pair) (x : Nat) : (s.setPair p x).cap = s.cap := rfl
@[simp] theorem setPair_zoom (s : State) (p : Pair) (x : Nat) : (s.setPair p x).zoom = s.zoom := rfl
@[simp] theorem setPair_eth (s : State) (p : Pair) (x : Nat) : (s.setPair p x).eth = s.eth := rfl
@[simp] theorem setPair_kit (s : State) (p : Pair) (x : Nat) : (s.setPair p x).kit = s.kit := rfl
@[simp] theorem setPair_mem (s : State) (p : Pair) (x : Nat) : (s.setPair p x).mem = s.mem := rfl
@[simp] theorem setPair_pot (s : State) (p : Pair) (x : Nat) : (s.setPair p x).pot = s.pot := rfl
@[simp] theorem setPair_clk (s : State) (p : Pair) (x : Nat) : (s.setPair p x).clk = s.clk := rfl
@[simp] theorem setPair_linkDegr (s : State) (p : Pair) (x : Nat) : (s.setPair p x).linkDegr = s.linkDegr := rfl
@[simp] theorem setPair_disp (s : State) (p : Pair) (x : Nat) : (s.setPair p x).disp = s.disp := rfl
@[simp] theorem setPair_boot (s : State) (p : Pair) (x : Nat) : (s.setPair p x).boot = s.boot := rfl
@[simp] theorem setPair_test (s : State) (p : Pair) (x : Nat) : (s.setPair p x).test = s.test := rfl
@[simp] theorem setPair_ports (s : State) (p : Pair) (x : Nat) : (s.setPair p x).ports = s.ports := rfl
@[simp] theorem setPair_dmaTurn (s : State) (p : Pair) (x : Nat) : (s.setPair p x).dmaTurn = s.dmaTurn := rfl
@[simp] theorem setPair_free (s : State) (p : Pair) (x : Nat) : (s.setPair p x).free = s.free := rfl
@[simp] theorem setPair_pending (s : State) (p : Pair) (x : Nat) : (s.setPair p x).pending = s.pending := rfl

/-! ### State.setCalib -/

@[simp] theorem setCalib_regs (s : State) (i : Nat) (x : Calib) : (s.setCalib i x).regs = s.regs := rfl
@[simp] theorem setCalib_holdLo (s : State) (i : Nat) (x : Calib) : (s.setCalib i x).holdLo = s.holdLo := rfl
@[simp] theorem setCalib_capture (s : State) (i : Nat) (x : Calib) : (s.setCalib i x).capture = s.capture := rfl
@[simp] theorem setCalib_rdata (s : State) (i : Nat) (x : Calib) : (s.setCalib i x).rdata = s.rdata := rfl
@[simp] theorem setCalib_out (s : State) (i : Nat) (x : Calib) : (s.setCalib i x).out = s.out := rfl
@[simp] theorem setCalib_pins (s : State) (i : Nat) (x : Calib) : (s.setCalib i x).pins = s.pins := rfl
@[simp] theorem setCalib_img (s : State) (i : Nat) (x : Calib) : (s.setCalib i x).img = s.img := rfl
@[simp] theorem setCalib_deal (s : State) (i : Nat) (x : Calib) : (s.setCalib i x).deal = s.deal := rfl
@[simp] theorem setCalib_dealer (s : State) (i : Nat) (x : Calib) : (s.setCalib i x).dealer = s.dealer := rfl
@[simp] theorem setCalib_hand (s : State) (i : Nat) (x : Calib) : (s.setCalib i x).hand = s.hand := rfl
@[simp] theorem setCalib_host (s : State) (i : Nat) (x : Calib) : (s.setCalib i x).host = s.host := rfl
@[simp] theorem setCalib_imgDone (s : State) (i : Nat) (x : Calib) : (s.setCalib i x).imgDone = s.imgDone := rfl
@[simp] theorem setCalib_halted (s : State) (i : Nat) (x : Calib) : (s.setCalib i x).halted = s.halted := rfl
@[simp] theorem setCalib_railsBad (s : State) (i : Nat) (x : Calib) : (s.setCalib i x).railsBad = s.railsBad := rfl
@[simp] theorem setCalib_lastFatal (s : State) (i : Nat) (x : Calib) : (s.setCalib i x).lastFatal = s.lastFatal := rfl
@[simp] theorem setCalib_links (s : State) (i : Nat) (x : Calib) : (s.setCalib i x).links = s.links := rfl
@[simp] theorem setCalib_sdram (s : State) (i : Nat) (x : Calib) : (s.setCalib i x).sdram = s.sdram := rfl
@[simp] theorem setCalib_time (s : State) (i : Nat) (x : Calib) : (s.setCalib i x).time = s.time := rfl
@[simp] theorem setCalib_trig (s : State) (i : Nat) (x : Calib) : (s.setCalib i x).trig = s.trig := rfl
@[simp] theorem setCalib_cap (s : State) (i : Nat) (x : Calib) : (s.setCalib i x).cap = s.cap := rfl
@[simp] theorem setCalib_zoom (s : State) (i : Nat) (x : Calib) : (s.setCalib i x).zoom = s.zoom := rfl
@[simp] theorem setCalib_eth (s : State) (i : Nat) (x : Calib) : (s.setCalib i x).eth = s.eth := rfl
@[simp] theorem setCalib_kit (s : State) (i : Nat) (x : Calib) : (s.setCalib i x).kit = s.kit := rfl
@[simp] theorem setCalib_mem (s : State) (i : Nat) (x : Calib) : (s.setCalib i x).mem = s.mem := rfl
@[simp] theorem setCalib_pot (s : State) (i : Nat) (x : Calib) : (s.setCalib i x).pot = s.pot := rfl
@[simp] theorem setCalib_clk (s : State) (i : Nat) (x : Calib) : (s.setCalib i x).clk = s.clk := rfl
@[simp] theorem setCalib_linkDegr (s : State) (i : Nat) (x : Calib) : (s.setCalib i x).linkDegr = s.linkDegr := rfl
@[simp] theorem setCalib_disp (s : State) (i : Nat) (x : Calib) : (s.setCalib i x).disp = s.disp := rfl
@[simp] theorem setCalib_boot (s : State) (i : Nat) (x : Calib) : (s.setCalib i x).boot = s.boot := rfl
@[simp] theorem setCalib_test (s : State) (i : Nat) (x : Calib) : (s.setCalib i x).test = s.test := rfl
@[simp] theorem setCalib_ports (s : State) (i : Nat) (x : Calib) : (s.setCalib i x).ports = s.ports := rfl
@[simp] theorem setCalib_dmaTurn (s : State) (i : Nat) (x : Calib) : (s.setCalib i x).dmaTurn = s.dmaTurn := rfl
@[simp] theorem setCalib_free (s : State) (i : Nat) (x : Calib) : (s.setCalib i x).free = s.free := rfl
@[simp] theorem setCalib_pending (s : State) (i : Nat) (x : Calib) : (s.setCalib i x).pending = s.pending := rfl
@[simp] theorem setCalib_reg (s : State) (i : Nat) (x : Calib) (a : Nat) : (s.setCalib i x).reg a = s.reg a := rfl
@[simp] theorem setCalib_fld (s : State) (i : Nat) (x : Calib) (f : Field) : (s.setCalib i x).fld f = s.fld f := rfl
@[simp] theorem setCalib_pair (s : State) (i : Nat) (x : Calib) (p : Pair) : (s.setCalib i x).pair p = s.pair p := rfl
@[simp] theorem calibOf_setCalib (s : State) (i : Nat) (x : Calib) (j : Nat) : (s.setCalib i x).calibOf j = if j = i then x else s.calibOf j := by
  simp [State.calibOf, State.setCalib]

/-! ### State.setSnap -/

@[simp] theorem setSnap_regs (s : State) (i : Nat) (x : Snapshot) : (s.setSnap i x).regs = s.regs := rfl
@[simp] theorem setSnap_holdLo (s : State) (i : Nat) (x : Snapshot) : (s.setSnap i x).holdLo = s.holdLo := rfl
@[simp] theorem setSnap_capture (s : State) (i : Nat) (x : Snapshot) : (s.setSnap i x).capture = s.capture := rfl
@[simp] theorem setSnap_rdata (s : State) (i : Nat) (x : Snapshot) : (s.setSnap i x).rdata = s.rdata := rfl
@[simp] theorem setSnap_out (s : State) (i : Nat) (x : Snapshot) : (s.setSnap i x).out = s.out := rfl
@[simp] theorem setSnap_pins (s : State) (i : Nat) (x : Snapshot) : (s.setSnap i x).pins = s.pins := rfl
@[simp] theorem setSnap_img (s : State) (i : Nat) (x : Snapshot) : (s.setSnap i x).img = s.img := rfl
@[simp] theorem setSnap_deal (s : State) (i : Nat) (x : Snapshot) : (s.setSnap i x).deal = s.deal := rfl
@[simp] theorem setSnap_dealer (s : State) (i : Nat) (x : Snapshot) : (s.setSnap i x).dealer = s.dealer := rfl
@[simp] theorem setSnap_hand (s : State) (i : Nat) (x : Snapshot) : (s.setSnap i x).hand = s.hand := rfl
@[simp] theorem setSnap_host (s : State) (i : Nat) (x : Snapshot) : (s.setSnap i x).host = s.host := rfl
@[simp] theorem setSnap_imgDone (s : State) (i : Nat) (x : Snapshot) : (s.setSnap i x).imgDone = s.imgDone := rfl
@[simp] theorem setSnap_halted (s : State) (i : Nat) (x : Snapshot) : (s.setSnap i x).halted = s.halted := rfl
@[simp] theorem setSnap_railsBad (s : State) (i : Nat) (x : Snapshot) : (s.setSnap i x).railsBad = s.railsBad := rfl
@[simp] theorem setSnap_lastFatal (s : State) (i : Nat) (x : Snapshot) : (s.setSnap i x).lastFatal = s.lastFatal := rfl
@[simp] theorem setSnap_links (s : State) (i : Nat) (x : Snapshot) : (s.setSnap i x).links = s.links := rfl
@[simp] theorem setSnap_sdram (s : State) (i : Nat) (x : Snapshot) : (s.setSnap i x).sdram = s.sdram := rfl
@[simp] theorem setSnap_time (s : State) (i : Nat) (x : Snapshot) : (s.setSnap i x).time = s.time := rfl
@[simp] theorem setSnap_trig (s : State) (i : Nat) (x : Snapshot) : (s.setSnap i x).trig = s.trig := rfl
@[simp] theorem setSnap_cap (s : State) (i : Nat) (x : Snapshot) : (s.setSnap i x).cap = s.cap := rfl
@[simp] theorem setSnap_zoom (s : State) (i : Nat) (x : Snapshot) : (s.setSnap i x).zoom = s.zoom := rfl
@[simp] theorem setSnap_eth (s : State) (i : Nat) (x : Snapshot) : (s.setSnap i x).eth = s.eth := rfl
@[simp] theorem setSnap_kit (s : State) (i : Nat) (x : Snapshot) : (s.setSnap i x).kit = s.kit := rfl
@[simp] theorem setSnap_mem (s : State) (i : Nat) (x : Snapshot) : (s.setSnap i x).mem = s.mem := rfl
@[simp] theorem setSnap_pot (s : State) (i : Nat) (x : Snapshot) : (s.setSnap i x).pot = s.pot := rfl
@[simp] theorem setSnap_clk (s : State) (i : Nat) (x : Snapshot) : (s.setSnap i x).clk = s.clk := rfl
@[simp] theorem setSnap_linkDegr (s : State) (i : Nat) (x : Snapshot) : (s.setSnap i x).linkDegr = s.linkDegr := rfl
@[simp] theorem setSnap_disp (s : State) (i : Nat) (x : Snapshot) : (s.setSnap i x).disp = s.disp := rfl
@[simp] theorem setSnap_boot (s : State) (i : Nat) (x : Snapshot) : (s.setSnap i x).boot = s.boot := rfl
@[simp] theorem setSnap_test (s : State) (i : Nat) (x : Snapshot) : (s.setSnap i x).test = s.test := rfl
@[simp] theorem setSnap_ports (s : State) (i : Nat) (x : Snapshot) : (s.setSnap i x).ports = s.ports := rfl
@[simp] theorem setSnap_dmaTurn (s : State) (i : Nat) (x : Snapshot) : (s.setSnap i x).dmaTurn = s.dmaTurn := rfl
@[simp] theorem setSnap_free (s : State) (i : Nat) (x : Snapshot) : (s.setSnap i x).free = s.free := rfl
@[simp] theorem setSnap_pending (s : State) (i : Nat) (x : Snapshot) : (s.setSnap i x).pending = s.pending := rfl
@[simp] theorem setSnap_reg (s : State) (i : Nat) (x : Snapshot) (a : Nat) : (s.setSnap i x).reg a = s.reg a := rfl
@[simp] theorem setSnap_fld (s : State) (i : Nat) (x : Snapshot) (f : Field) : (s.setSnap i x).fld f = s.fld f := rfl
@[simp] theorem setSnap_pair (s : State) (i : Nat) (x : Snapshot) (p : Pair) : (s.setSnap i x).pair p = s.pair p := rfl
@[simp] theorem snapOf_setSnap (s : State) (i : Nat) (x : Snapshot) (j : Nat) : (s.setSnap i x).snapOf j = if j = i then x else s.snapOf j := by
  simp [State.snapOf, State.setSnap]

/-! ### State.setTap -/

@[simp] theorem setTap_regs (s : State) (i : Nat) (x : TapQueue) : (s.setTap i x).regs = s.regs := rfl
@[simp] theorem setTap_holdLo (s : State) (i : Nat) (x : TapQueue) : (s.setTap i x).holdLo = s.holdLo := rfl
@[simp] theorem setTap_capture (s : State) (i : Nat) (x : TapQueue) : (s.setTap i x).capture = s.capture := rfl
@[simp] theorem setTap_rdata (s : State) (i : Nat) (x : TapQueue) : (s.setTap i x).rdata = s.rdata := rfl
@[simp] theorem setTap_out (s : State) (i : Nat) (x : TapQueue) : (s.setTap i x).out = s.out := rfl
@[simp] theorem setTap_pins (s : State) (i : Nat) (x : TapQueue) : (s.setTap i x).pins = s.pins := rfl
@[simp] theorem setTap_img (s : State) (i : Nat) (x : TapQueue) : (s.setTap i x).img = s.img := rfl
@[simp] theorem setTap_deal (s : State) (i : Nat) (x : TapQueue) : (s.setTap i x).deal = s.deal := rfl
@[simp] theorem setTap_dealer (s : State) (i : Nat) (x : TapQueue) : (s.setTap i x).dealer = s.dealer := rfl
@[simp] theorem setTap_hand (s : State) (i : Nat) (x : TapQueue) : (s.setTap i x).hand = s.hand := rfl
@[simp] theorem setTap_host (s : State) (i : Nat) (x : TapQueue) : (s.setTap i x).host = s.host := rfl
@[simp] theorem setTap_imgDone (s : State) (i : Nat) (x : TapQueue) : (s.setTap i x).imgDone = s.imgDone := rfl
@[simp] theorem setTap_halted (s : State) (i : Nat) (x : TapQueue) : (s.setTap i x).halted = s.halted := rfl
@[simp] theorem setTap_railsBad (s : State) (i : Nat) (x : TapQueue) : (s.setTap i x).railsBad = s.railsBad := rfl
@[simp] theorem setTap_lastFatal (s : State) (i : Nat) (x : TapQueue) : (s.setTap i x).lastFatal = s.lastFatal := rfl
@[simp] theorem setTap_links (s : State) (i : Nat) (x : TapQueue) : (s.setTap i x).links = s.links := rfl
@[simp] theorem setTap_sdram (s : State) (i : Nat) (x : TapQueue) : (s.setTap i x).sdram = s.sdram := rfl
@[simp] theorem setTap_time (s : State) (i : Nat) (x : TapQueue) : (s.setTap i x).time = s.time := rfl
@[simp] theorem setTap_trig (s : State) (i : Nat) (x : TapQueue) : (s.setTap i x).trig = s.trig := rfl
@[simp] theorem setTap_cap (s : State) (i : Nat) (x : TapQueue) : (s.setTap i x).cap = s.cap := rfl
@[simp] theorem setTap_zoom (s : State) (i : Nat) (x : TapQueue) : (s.setTap i x).zoom = s.zoom := rfl
@[simp] theorem setTap_eth (s : State) (i : Nat) (x : TapQueue) : (s.setTap i x).eth = s.eth := rfl
@[simp] theorem setTap_kit (s : State) (i : Nat) (x : TapQueue) : (s.setTap i x).kit = s.kit := rfl
@[simp] theorem setTap_mem (s : State) (i : Nat) (x : TapQueue) : (s.setTap i x).mem = s.mem := rfl
@[simp] theorem setTap_pot (s : State) (i : Nat) (x : TapQueue) : (s.setTap i x).pot = s.pot := rfl
@[simp] theorem setTap_clk (s : State) (i : Nat) (x : TapQueue) : (s.setTap i x).clk = s.clk := rfl
@[simp] theorem setTap_linkDegr (s : State) (i : Nat) (x : TapQueue) : (s.setTap i x).linkDegr = s.linkDegr := rfl
@[simp] theorem setTap_disp (s : State) (i : Nat) (x : TapQueue) : (s.setTap i x).disp = s.disp := rfl
@[simp] theorem setTap_boot (s : State) (i : Nat) (x : TapQueue) : (s.setTap i x).boot = s.boot := rfl
@[simp] theorem setTap_test (s : State) (i : Nat) (x : TapQueue) : (s.setTap i x).test = s.test := rfl
@[simp] theorem setTap_ports (s : State) (i : Nat) (x : TapQueue) : (s.setTap i x).ports = s.ports := rfl
@[simp] theorem setTap_dmaTurn (s : State) (i : Nat) (x : TapQueue) : (s.setTap i x).dmaTurn = s.dmaTurn := rfl
@[simp] theorem setTap_free (s : State) (i : Nat) (x : TapQueue) : (s.setTap i x).free = s.free := rfl
@[simp] theorem setTap_pending (s : State) (i : Nat) (x : TapQueue) : (s.setTap i x).pending = s.pending := rfl
@[simp] theorem setTap_reg (s : State) (i : Nat) (x : TapQueue) (a : Nat) : (s.setTap i x).reg a = s.reg a := rfl
@[simp] theorem setTap_fld (s : State) (i : Nat) (x : TapQueue) (f : Field) : (s.setTap i x).fld f = s.fld f := rfl
@[simp] theorem setTap_pair (s : State) (i : Nat) (x : TapQueue) (p : Pair) : (s.setTap i x).pair p = s.pair p := rfl
@[simp] theorem tapOf_setTap (s : State) (i : Nat) (x : TapQueue) (j : Nat) : (s.setTap i x).tapOf j = if j = i then x else s.tapOf j := by
  simp [State.tapOf, State.setTap]

/-! ### State.setDealer -/

@[simp] theorem setDealer_regs (s : State) (i : Nat) (x : Dealer) : (s.setDealer i x).regs = s.regs := rfl
@[simp] theorem setDealer_holdLo (s : State) (i : Nat) (x : Dealer) : (s.setDealer i x).holdLo = s.holdLo := rfl
@[simp] theorem setDealer_capture (s : State) (i : Nat) (x : Dealer) : (s.setDealer i x).capture = s.capture := rfl
@[simp] theorem setDealer_rdata (s : State) (i : Nat) (x : Dealer) : (s.setDealer i x).rdata = s.rdata := rfl
@[simp] theorem setDealer_out (s : State) (i : Nat) (x : Dealer) : (s.setDealer i x).out = s.out := rfl
@[simp] theorem setDealer_pins (s : State) (i : Nat) (x : Dealer) : (s.setDealer i x).pins = s.pins := rfl
@[simp] theorem setDealer_img (s : State) (i : Nat) (x : Dealer) : (s.setDealer i x).img = s.img := rfl
@[simp] theorem setDealer_deal (s : State) (i : Nat) (x : Dealer) : (s.setDealer i x).deal = s.deal := rfl
@[simp] theorem setDealer_conv (s : State) (i : Nat) (x : Dealer) : (s.setDealer i x).conv = s.conv := rfl
@[simp] theorem setDealer_hand (s : State) (i : Nat) (x : Dealer) : (s.setDealer i x).hand = s.hand := rfl
@[simp] theorem setDealer_host (s : State) (i : Nat) (x : Dealer) : (s.setDealer i x).host = s.host := rfl
@[simp] theorem setDealer_imgDone (s : State) (i : Nat) (x : Dealer) : (s.setDealer i x).imgDone = s.imgDone := rfl
@[simp] theorem setDealer_halted (s : State) (i : Nat) (x : Dealer) : (s.setDealer i x).halted = s.halted := rfl
@[simp] theorem setDealer_railsBad (s : State) (i : Nat) (x : Dealer) : (s.setDealer i x).railsBad = s.railsBad := rfl
@[simp] theorem setDealer_lastFatal (s : State) (i : Nat) (x : Dealer) : (s.setDealer i x).lastFatal = s.lastFatal := rfl
@[simp] theorem setDealer_links (s : State) (i : Nat) (x : Dealer) : (s.setDealer i x).links = s.links := rfl
@[simp] theorem setDealer_sdram (s : State) (i : Nat) (x : Dealer) : (s.setDealer i x).sdram = s.sdram := rfl
@[simp] theorem setDealer_time (s : State) (i : Nat) (x : Dealer) : (s.setDealer i x).time = s.time := rfl
@[simp] theorem setDealer_trig (s : State) (i : Nat) (x : Dealer) : (s.setDealer i x).trig = s.trig := rfl
@[simp] theorem setDealer_cap (s : State) (i : Nat) (x : Dealer) : (s.setDealer i x).cap = s.cap := rfl
@[simp] theorem setDealer_zoom (s : State) (i : Nat) (x : Dealer) : (s.setDealer i x).zoom = s.zoom := rfl
@[simp] theorem setDealer_eth (s : State) (i : Nat) (x : Dealer) : (s.setDealer i x).eth = s.eth := rfl
@[simp] theorem setDealer_kit (s : State) (i : Nat) (x : Dealer) : (s.setDealer i x).kit = s.kit := rfl
@[simp] theorem setDealer_mem (s : State) (i : Nat) (x : Dealer) : (s.setDealer i x).mem = s.mem := rfl
@[simp] theorem setDealer_pot (s : State) (i : Nat) (x : Dealer) : (s.setDealer i x).pot = s.pot := rfl
@[simp] theorem setDealer_clk (s : State) (i : Nat) (x : Dealer) : (s.setDealer i x).clk = s.clk := rfl
@[simp] theorem setDealer_linkDegr (s : State) (i : Nat) (x : Dealer) : (s.setDealer i x).linkDegr = s.linkDegr := rfl
@[simp] theorem setDealer_disp (s : State) (i : Nat) (x : Dealer) : (s.setDealer i x).disp = s.disp := rfl
@[simp] theorem setDealer_boot (s : State) (i : Nat) (x : Dealer) : (s.setDealer i x).boot = s.boot := rfl
@[simp] theorem setDealer_test (s : State) (i : Nat) (x : Dealer) : (s.setDealer i x).test = s.test := rfl
@[simp] theorem setDealer_ports (s : State) (i : Nat) (x : Dealer) : (s.setDealer i x).ports = s.ports := rfl
@[simp] theorem setDealer_dmaTurn (s : State) (i : Nat) (x : Dealer) : (s.setDealer i x).dmaTurn = s.dmaTurn := rfl
@[simp] theorem setDealer_free (s : State) (i : Nat) (x : Dealer) : (s.setDealer i x).free = s.free := rfl
@[simp] theorem setDealer_pending (s : State) (i : Nat) (x : Dealer) : (s.setDealer i x).pending = s.pending := rfl
@[simp] theorem setDealer_reg (s : State) (i : Nat) (x : Dealer) (a : Nat) : (s.setDealer i x).reg a = s.reg a := rfl
@[simp] theorem setDealer_fld (s : State) (i : Nat) (x : Dealer) (f : Field) : (s.setDealer i x).fld f = s.fld f := rfl
@[simp] theorem setDealer_pair (s : State) (i : Nat) (x : Dealer) (p : Pair) : (s.setDealer i x).pair p = s.pair p := rfl
@[simp] theorem dealerOf_setDealer (s : State) (i : Nat) (x : Dealer) (j : Nat) : (s.setDealer i x).dealerOf j = if j = i then x else s.dealerOf j := by
  simp [State.dealerOf, State.setDealer]

/-! ### State.setEng -/

@[simp] theorem setEng_regs (s : State) (i : Nat) (x : Engine) : (s.setEng i x).regs = s.regs := rfl
@[simp] theorem setEng_holdLo (s : State) (i : Nat) (x : Engine) : (s.setEng i x).holdLo = s.holdLo := rfl
@[simp] theorem setEng_capture (s : State) (i : Nat) (x : Engine) : (s.setEng i x).capture = s.capture := rfl
@[simp] theorem setEng_rdata (s : State) (i : Nat) (x : Engine) : (s.setEng i x).rdata = s.rdata := rfl
@[simp] theorem setEng_out (s : State) (i : Nat) (x : Engine) : (s.setEng i x).out = s.out := rfl
@[simp] theorem setEng_pins (s : State) (i : Nat) (x : Engine) : (s.setEng i x).pins = s.pins := rfl
@[simp] theorem setEng_img (s : State) (i : Nat) (x : Engine) : (s.setEng i x).img = s.img := rfl
@[simp] theorem setEng_deal (s : State) (i : Nat) (x : Engine) : (s.setEng i x).deal = s.deal := rfl
@[simp] theorem setEng_conv (s : State) (i : Nat) (x : Engine) : (s.setEng i x).conv = s.conv := rfl
@[simp] theorem setEng_dealer (s : State) (i : Nat) (x : Engine) : (s.setEng i x).dealer = s.dealer := rfl
@[simp] theorem setEng_host (s : State) (i : Nat) (x : Engine) : (s.setEng i x).host = s.host := rfl
@[simp] theorem setEng_imgDone (s : State) (i : Nat) (x : Engine) : (s.setEng i x).imgDone = s.imgDone := rfl
@[simp] theorem setEng_halted (s : State) (i : Nat) (x : Engine) : (s.setEng i x).halted = s.halted := rfl
@[simp] theorem setEng_railsBad (s : State) (i : Nat) (x : Engine) : (s.setEng i x).railsBad = s.railsBad := rfl
@[simp] theorem setEng_lastFatal (s : State) (i : Nat) (x : Engine) : (s.setEng i x).lastFatal = s.lastFatal := rfl
@[simp] theorem setEng_links (s : State) (i : Nat) (x : Engine) : (s.setEng i x).links = s.links := rfl
@[simp] theorem setEng_sdram (s : State) (i : Nat) (x : Engine) : (s.setEng i x).sdram = s.sdram := rfl
@[simp] theorem setEng_time (s : State) (i : Nat) (x : Engine) : (s.setEng i x).time = s.time := rfl
@[simp] theorem setEng_trig (s : State) (i : Nat) (x : Engine) : (s.setEng i x).trig = s.trig := rfl
@[simp] theorem setEng_cap (s : State) (i : Nat) (x : Engine) : (s.setEng i x).cap = s.cap := rfl
@[simp] theorem setEng_zoom (s : State) (i : Nat) (x : Engine) : (s.setEng i x).zoom = s.zoom := rfl
@[simp] theorem setEng_eth (s : State) (i : Nat) (x : Engine) : (s.setEng i x).eth = s.eth := rfl
@[simp] theorem setEng_kit (s : State) (i : Nat) (x : Engine) : (s.setEng i x).kit = s.kit := rfl
@[simp] theorem setEng_mem (s : State) (i : Nat) (x : Engine) : (s.setEng i x).mem = s.mem := rfl
@[simp] theorem setEng_pot (s : State) (i : Nat) (x : Engine) : (s.setEng i x).pot = s.pot := rfl
@[simp] theorem setEng_clk (s : State) (i : Nat) (x : Engine) : (s.setEng i x).clk = s.clk := rfl
@[simp] theorem setEng_linkDegr (s : State) (i : Nat) (x : Engine) : (s.setEng i x).linkDegr = s.linkDegr := rfl
@[simp] theorem setEng_disp (s : State) (i : Nat) (x : Engine) : (s.setEng i x).disp = s.disp := rfl
@[simp] theorem setEng_boot (s : State) (i : Nat) (x : Engine) : (s.setEng i x).boot = s.boot := rfl
@[simp] theorem setEng_test (s : State) (i : Nat) (x : Engine) : (s.setEng i x).test = s.test := rfl
@[simp] theorem setEng_ports (s : State) (i : Nat) (x : Engine) : (s.setEng i x).ports = s.ports := rfl
@[simp] theorem setEng_dmaTurn (s : State) (i : Nat) (x : Engine) : (s.setEng i x).dmaTurn = s.dmaTurn := rfl
@[simp] theorem setEng_free (s : State) (i : Nat) (x : Engine) : (s.setEng i x).free = s.free := rfl
@[simp] theorem setEng_pending (s : State) (i : Nat) (x : Engine) : (s.setEng i x).pending = s.pending := rfl
@[simp] theorem setEng_reg (s : State) (i : Nat) (x : Engine) (a : Nat) : (s.setEng i x).reg a = s.reg a := rfl
@[simp] theorem setEng_fld (s : State) (i : Nat) (x : Engine) (f : Field) : (s.setEng i x).fld f = s.fld f := rfl
@[simp] theorem setEng_pair (s : State) (i : Nat) (x : Engine) (p : Pair) : (s.setEng i x).pair p = s.pair p := rfl
@[simp] theorem engOf_setEng (s : State) (i : Nat) (x : Engine) (j : Nat) : (s.setEng i x).engOf j = if j = i then x else s.engOf j := by
  simp [State.engOf, State.setEng]

/-! ### State.setLeaf -/

@[simp] theorem setLeaf_regs (s : State) (i : Nat) (x : Leaf) : (s.setLeaf i x).regs = s.regs := rfl
@[simp] theorem setLeaf_holdLo (s : State) (i : Nat) (x : Leaf) : (s.setLeaf i x).holdLo = s.holdLo := rfl
@[simp] theorem setLeaf_capture (s : State) (i : Nat) (x : Leaf) : (s.setLeaf i x).capture = s.capture := rfl
@[simp] theorem setLeaf_rdata (s : State) (i : Nat) (x : Leaf) : (s.setLeaf i x).rdata = s.rdata := rfl
@[simp] theorem setLeaf_out (s : State) (i : Nat) (x : Leaf) : (s.setLeaf i x).out = s.out := rfl
@[simp] theorem setLeaf_pins (s : State) (i : Nat) (x : Leaf) : (s.setLeaf i x).pins = s.pins := rfl
@[simp] theorem setLeaf_img (s : State) (i : Nat) (x : Leaf) : (s.setLeaf i x).img = s.img := rfl
@[simp] theorem setLeaf_deal (s : State) (i : Nat) (x : Leaf) : (s.setLeaf i x).deal = s.deal := rfl
@[simp] theorem setLeaf_conv (s : State) (i : Nat) (x : Leaf) : (s.setLeaf i x).conv = s.conv := rfl
@[simp] theorem setLeaf_dealer (s : State) (i : Nat) (x : Leaf) : (s.setLeaf i x).dealer = s.dealer := rfl
@[simp] theorem setLeaf_host (s : State) (i : Nat) (x : Leaf) : (s.setLeaf i x).host = s.host := rfl
@[simp] theorem setLeaf_imgDone (s : State) (i : Nat) (x : Leaf) : (s.setLeaf i x).imgDone = s.imgDone := rfl
@[simp] theorem setLeaf_halted (s : State) (i : Nat) (x : Leaf) : (s.setLeaf i x).halted = s.halted := rfl
@[simp] theorem setLeaf_railsBad (s : State) (i : Nat) (x : Leaf) : (s.setLeaf i x).railsBad = s.railsBad := rfl
@[simp] theorem setLeaf_lastFatal (s : State) (i : Nat) (x : Leaf) : (s.setLeaf i x).lastFatal = s.lastFatal := rfl
@[simp] theorem setLeaf_links (s : State) (i : Nat) (x : Leaf) : (s.setLeaf i x).links = s.links := rfl
@[simp] theorem setLeaf_sdram (s : State) (i : Nat) (x : Leaf) : (s.setLeaf i x).sdram = s.sdram := rfl
@[simp] theorem setLeaf_time (s : State) (i : Nat) (x : Leaf) : (s.setLeaf i x).time = s.time := rfl
@[simp] theorem setLeaf_trig (s : State) (i : Nat) (x : Leaf) : (s.setLeaf i x).trig = s.trig := rfl
@[simp] theorem setLeaf_cap (s : State) (i : Nat) (x : Leaf) : (s.setLeaf i x).cap = s.cap := rfl
@[simp] theorem setLeaf_zoom (s : State) (i : Nat) (x : Leaf) : (s.setLeaf i x).zoom = s.zoom := rfl
@[simp] theorem setLeaf_eth (s : State) (i : Nat) (x : Leaf) : (s.setLeaf i x).eth = s.eth := rfl
@[simp] theorem setLeaf_kit (s : State) (i : Nat) (x : Leaf) : (s.setLeaf i x).kit = s.kit := rfl
@[simp] theorem setLeaf_mem (s : State) (i : Nat) (x : Leaf) : (s.setLeaf i x).mem = s.mem := rfl
@[simp] theorem setLeaf_pot (s : State) (i : Nat) (x : Leaf) : (s.setLeaf i x).pot = s.pot := rfl
@[simp] theorem setLeaf_clk (s : State) (i : Nat) (x : Leaf) : (s.setLeaf i x).clk = s.clk := rfl
@[simp] theorem setLeaf_linkDegr (s : State) (i : Nat) (x : Leaf) : (s.setLeaf i x).linkDegr = s.linkDegr := rfl
@[simp] theorem setLeaf_disp (s : State) (i : Nat) (x : Leaf) : (s.setLeaf i x).disp = s.disp := rfl
@[simp] theorem setLeaf_boot (s : State) (i : Nat) (x : Leaf) : (s.setLeaf i x).boot = s.boot := rfl
@[simp] theorem setLeaf_test (s : State) (i : Nat) (x : Leaf) : (s.setLeaf i x).test = s.test := rfl
@[simp] theorem setLeaf_ports (s : State) (i : Nat) (x : Leaf) : (s.setLeaf i x).ports = s.ports := rfl
@[simp] theorem setLeaf_dmaTurn (s : State) (i : Nat) (x : Leaf) : (s.setLeaf i x).dmaTurn = s.dmaTurn := rfl
@[simp] theorem setLeaf_free (s : State) (i : Nat) (x : Leaf) : (s.setLeaf i x).free = s.free := rfl
@[simp] theorem setLeaf_pending (s : State) (i : Nat) (x : Leaf) : (s.setLeaf i x).pending = s.pending := rfl
@[simp] theorem setLeaf_reg (s : State) (i : Nat) (x : Leaf) (a : Nat) : (s.setLeaf i x).reg a = s.reg a := rfl
@[simp] theorem setLeaf_fld (s : State) (i : Nat) (x : Leaf) (f : Field) : (s.setLeaf i x).fld f = s.fld f := rfl
@[simp] theorem setLeaf_pair (s : State) (i : Nat) (x : Leaf) (p : Pair) : (s.setLeaf i x).pair p = s.pair p := rfl
@[simp] theorem leafOf_setLeaf (s : State) (i : Nat) (x : Leaf) (j : Nat) : (s.setLeaf i x).leafOf j = if j = i then x else s.leafOf j := by
  simp [State.leafOf, State.setLeaf]

/-! ### State.setUnit -/

@[simp] theorem setUnit_regs (s : State) (i : Nat) (x : CapUnit) : (s.setUnit i x).regs = s.regs := rfl
@[simp] theorem setUnit_holdLo (s : State) (i : Nat) (x : CapUnit) : (s.setUnit i x).holdLo = s.holdLo := rfl
@[simp] theorem setUnit_capture (s : State) (i : Nat) (x : CapUnit) : (s.setUnit i x).capture = s.capture := rfl
@[simp] theorem setUnit_rdata (s : State) (i : Nat) (x : CapUnit) : (s.setUnit i x).rdata = s.rdata := rfl
@[simp] theorem setUnit_out (s : State) (i : Nat) (x : CapUnit) : (s.setUnit i x).out = s.out := rfl
@[simp] theorem setUnit_pins (s : State) (i : Nat) (x : CapUnit) : (s.setUnit i x).pins = s.pins := rfl
@[simp] theorem setUnit_img (s : State) (i : Nat) (x : CapUnit) : (s.setUnit i x).img = s.img := rfl
@[simp] theorem setUnit_deal (s : State) (i : Nat) (x : CapUnit) : (s.setUnit i x).deal = s.deal := rfl
@[simp] theorem setUnit_conv (s : State) (i : Nat) (x : CapUnit) : (s.setUnit i x).conv = s.conv := rfl
@[simp] theorem setUnit_dealer (s : State) (i : Nat) (x : CapUnit) : (s.setUnit i x).dealer = s.dealer := rfl
@[simp] theorem setUnit_hand (s : State) (i : Nat) (x : CapUnit) : (s.setUnit i x).hand = s.hand := rfl
@[simp] theorem setUnit_host (s : State) (i : Nat) (x : CapUnit) : (s.setUnit i x).host = s.host := rfl
@[simp] theorem setUnit_imgDone (s : State) (i : Nat) (x : CapUnit) : (s.setUnit i x).imgDone = s.imgDone := rfl
@[simp] theorem setUnit_halted (s : State) (i : Nat) (x : CapUnit) : (s.setUnit i x).halted = s.halted := rfl
@[simp] theorem setUnit_railsBad (s : State) (i : Nat) (x : CapUnit) : (s.setUnit i x).railsBad = s.railsBad := rfl
@[simp] theorem setUnit_lastFatal (s : State) (i : Nat) (x : CapUnit) : (s.setUnit i x).lastFatal = s.lastFatal := rfl
@[simp] theorem setUnit_links (s : State) (i : Nat) (x : CapUnit) : (s.setUnit i x).links = s.links := rfl
@[simp] theorem setUnit_sdram (s : State) (i : Nat) (x : CapUnit) : (s.setUnit i x).sdram = s.sdram := rfl
@[simp] theorem setUnit_time (s : State) (i : Nat) (x : CapUnit) : (s.setUnit i x).time = s.time := rfl
@[simp] theorem setUnit_trig (s : State) (i : Nat) (x : CapUnit) : (s.setUnit i x).trig = s.trig := rfl
@[simp] theorem setUnit_zoom (s : State) (i : Nat) (x : CapUnit) : (s.setUnit i x).zoom = s.zoom := rfl
@[simp] theorem setUnit_eth (s : State) (i : Nat) (x : CapUnit) : (s.setUnit i x).eth = s.eth := rfl
@[simp] theorem setUnit_kit (s : State) (i : Nat) (x : CapUnit) : (s.setUnit i x).kit = s.kit := rfl
@[simp] theorem setUnit_mem (s : State) (i : Nat) (x : CapUnit) : (s.setUnit i x).mem = s.mem := rfl
@[simp] theorem setUnit_pot (s : State) (i : Nat) (x : CapUnit) : (s.setUnit i x).pot = s.pot := rfl
@[simp] theorem setUnit_clk (s : State) (i : Nat) (x : CapUnit) : (s.setUnit i x).clk = s.clk := rfl
@[simp] theorem setUnit_linkDegr (s : State) (i : Nat) (x : CapUnit) : (s.setUnit i x).linkDegr = s.linkDegr := rfl
@[simp] theorem setUnit_disp (s : State) (i : Nat) (x : CapUnit) : (s.setUnit i x).disp = s.disp := rfl
@[simp] theorem setUnit_boot (s : State) (i : Nat) (x : CapUnit) : (s.setUnit i x).boot = s.boot := rfl
@[simp] theorem setUnit_test (s : State) (i : Nat) (x : CapUnit) : (s.setUnit i x).test = s.test := rfl
@[simp] theorem setUnit_ports (s : State) (i : Nat) (x : CapUnit) : (s.setUnit i x).ports = s.ports := rfl
@[simp] theorem setUnit_dmaTurn (s : State) (i : Nat) (x : CapUnit) : (s.setUnit i x).dmaTurn = s.dmaTurn := rfl
@[simp] theorem setUnit_free (s : State) (i : Nat) (x : CapUnit) : (s.setUnit i x).free = s.free := rfl
@[simp] theorem setUnit_pending (s : State) (i : Nat) (x : CapUnit) : (s.setUnit i x).pending = s.pending := rfl
@[simp] theorem setUnit_reg (s : State) (i : Nat) (x : CapUnit) (a : Nat) : (s.setUnit i x).reg a = s.reg a := rfl
@[simp] theorem setUnit_fld (s : State) (i : Nat) (x : CapUnit) (f : Field) : (s.setUnit i x).fld f = s.fld f := rfl
@[simp] theorem setUnit_pair (s : State) (i : Nat) (x : CapUnit) (p : Pair) : (s.setUnit i x).pair p = s.pair p := rfl
@[simp] theorem unitOf_setUnit (s : State) (i : Nat) (x : CapUnit) (j : Nat) : (s.setUnit i x).unitOf j = if j = i then x else s.unitOf j := by
  simp [State.unitOf, State.setUnit]

/-! ### State.setSub -/

@[simp] theorem setSub_regs (s : State) (i : Nat) (x : SubState) : (s.setSub i x).regs = s.regs := rfl
@[simp] theorem setSub_holdLo (s : State) (i : Nat) (x : SubState) : (s.setSub i x).holdLo = s.holdLo := rfl
@[simp] theorem setSub_capture (s : State) (i : Nat) (x : SubState) : (s.setSub i x).capture = s.capture := rfl
@[simp] theorem setSub_rdata (s : State) (i : Nat) (x : SubState) : (s.setSub i x).rdata = s.rdata := rfl
@[simp] theorem setSub_out (s : State) (i : Nat) (x : SubState) : (s.setSub i x).out = s.out := rfl
@[simp] theorem setSub_pins (s : State) (i : Nat) (x : SubState) : (s.setSub i x).pins = s.pins := rfl
@[simp] theorem setSub_img (s : State) (i : Nat) (x : SubState) : (s.setSub i x).img = s.img := rfl
@[simp] theorem setSub_deal (s : State) (i : Nat) (x : SubState) : (s.setSub i x).deal = s.deal := rfl
@[simp] theorem setSub_conv (s : State) (i : Nat) (x : SubState) : (s.setSub i x).conv = s.conv := rfl
@[simp] theorem setSub_dealer (s : State) (i : Nat) (x : SubState) : (s.setSub i x).dealer = s.dealer := rfl
@[simp] theorem setSub_hand (s : State) (i : Nat) (x : SubState) : (s.setSub i x).hand = s.hand := rfl
@[simp] theorem setSub_host (s : State) (i : Nat) (x : SubState) : (s.setSub i x).host = s.host := rfl
@[simp] theorem setSub_imgDone (s : State) (i : Nat) (x : SubState) : (s.setSub i x).imgDone = s.imgDone := rfl
@[simp] theorem setSub_halted (s : State) (i : Nat) (x : SubState) : (s.setSub i x).halted = s.halted := rfl
@[simp] theorem setSub_railsBad (s : State) (i : Nat) (x : SubState) : (s.setSub i x).railsBad = s.railsBad := rfl
@[simp] theorem setSub_lastFatal (s : State) (i : Nat) (x : SubState) : (s.setSub i x).lastFatal = s.lastFatal := rfl
@[simp] theorem setSub_links (s : State) (i : Nat) (x : SubState) : (s.setSub i x).links = s.links := rfl
@[simp] theorem setSub_sdram (s : State) (i : Nat) (x : SubState) : (s.setSub i x).sdram = s.sdram := rfl
@[simp] theorem setSub_time (s : State) (i : Nat) (x : SubState) : (s.setSub i x).time = s.time := rfl
@[simp] theorem setSub_trig (s : State) (i : Nat) (x : SubState) : (s.setSub i x).trig = s.trig := rfl
@[simp] theorem setSub_cap (s : State) (i : Nat) (x : SubState) : (s.setSub i x).cap = s.cap := rfl
@[simp] theorem setSub_zoom (s : State) (i : Nat) (x : SubState) : (s.setSub i x).zoom = s.zoom := rfl
@[simp] theorem setSub_eth (s : State) (i : Nat) (x : SubState) : (s.setSub i x).eth = s.eth := rfl
@[simp] theorem setSub_kit (s : State) (i : Nat) (x : SubState) : (s.setSub i x).kit = s.kit := rfl
@[simp] theorem setSub_pot (s : State) (i : Nat) (x : SubState) : (s.setSub i x).pot = s.pot := rfl
@[simp] theorem setSub_clk (s : State) (i : Nat) (x : SubState) : (s.setSub i x).clk = s.clk := rfl
@[simp] theorem setSub_linkDegr (s : State) (i : Nat) (x : SubState) : (s.setSub i x).linkDegr = s.linkDegr := rfl
@[simp] theorem setSub_disp (s : State) (i : Nat) (x : SubState) : (s.setSub i x).disp = s.disp := rfl
@[simp] theorem setSub_boot (s : State) (i : Nat) (x : SubState) : (s.setSub i x).boot = s.boot := rfl
@[simp] theorem setSub_test (s : State) (i : Nat) (x : SubState) : (s.setSub i x).test = s.test := rfl
@[simp] theorem setSub_ports (s : State) (i : Nat) (x : SubState) : (s.setSub i x).ports = s.ports := rfl
@[simp] theorem setSub_dmaTurn (s : State) (i : Nat) (x : SubState) : (s.setSub i x).dmaTurn = s.dmaTurn := rfl
@[simp] theorem setSub_free (s : State) (i : Nat) (x : SubState) : (s.setSub i x).free = s.free := rfl
@[simp] theorem setSub_pending (s : State) (i : Nat) (x : SubState) : (s.setSub i x).pending = s.pending := rfl
@[simp] theorem setSub_reg (s : State) (i : Nat) (x : SubState) (a : Nat) : (s.setSub i x).reg a = s.reg a := rfl
@[simp] theorem setSub_fld (s : State) (i : Nat) (x : SubState) (f : Field) : (s.setSub i x).fld f = s.fld f := rfl
@[simp] theorem setSub_pair (s : State) (i : Nat) (x : SubState) (p : Pair) : (s.setSub i x).pair p = s.pair p := rfl
@[simp] theorem subOf_setSub (s : State) (i : Nat) (x : SubState) (j : Nat) : (s.setSub i x).subOf j = if j = i then x else s.subOf j := by
  simp [State.subOf, State.setSub]

/-! ### State.setIft -/

@[simp] theorem setIft_regs (s : State) (i : Nat) (x : IftQuad) : (s.setIft i x).regs = s.regs := rfl
@[simp] theorem setIft_holdLo (s : State) (i : Nat) (x : IftQuad) : (s.setIft i x).holdLo = s.holdLo := rfl
@[simp] theorem setIft_capture (s : State) (i : Nat) (x : IftQuad) : (s.setIft i x).capture = s.capture := rfl
@[simp] theorem setIft_rdata (s : State) (i : Nat) (x : IftQuad) : (s.setIft i x).rdata = s.rdata := rfl
@[simp] theorem setIft_out (s : State) (i : Nat) (x : IftQuad) : (s.setIft i x).out = s.out := rfl
@[simp] theorem setIft_pins (s : State) (i : Nat) (x : IftQuad) : (s.setIft i x).pins = s.pins := rfl
@[simp] theorem setIft_img (s : State) (i : Nat) (x : IftQuad) : (s.setIft i x).img = s.img := rfl
@[simp] theorem setIft_deal (s : State) (i : Nat) (x : IftQuad) : (s.setIft i x).deal = s.deal := rfl
@[simp] theorem setIft_conv (s : State) (i : Nat) (x : IftQuad) : (s.setIft i x).conv = s.conv := rfl
@[simp] theorem setIft_dealer (s : State) (i : Nat) (x : IftQuad) : (s.setIft i x).dealer = s.dealer := rfl
@[simp] theorem setIft_hand (s : State) (i : Nat) (x : IftQuad) : (s.setIft i x).hand = s.hand := rfl
@[simp] theorem setIft_host (s : State) (i : Nat) (x : IftQuad) : (s.setIft i x).host = s.host := rfl
@[simp] theorem setIft_imgDone (s : State) (i : Nat) (x : IftQuad) : (s.setIft i x).imgDone = s.imgDone := rfl
@[simp] theorem setIft_halted (s : State) (i : Nat) (x : IftQuad) : (s.setIft i x).halted = s.halted := rfl
@[simp] theorem setIft_railsBad (s : State) (i : Nat) (x : IftQuad) : (s.setIft i x).railsBad = s.railsBad := rfl
@[simp] theorem setIft_lastFatal (s : State) (i : Nat) (x : IftQuad) : (s.setIft i x).lastFatal = s.lastFatal := rfl
@[simp] theorem setIft_links (s : State) (i : Nat) (x : IftQuad) : (s.setIft i x).links = s.links := rfl
@[simp] theorem setIft_sdram (s : State) (i : Nat) (x : IftQuad) : (s.setIft i x).sdram = s.sdram := rfl
@[simp] theorem setIft_time (s : State) (i : Nat) (x : IftQuad) : (s.setIft i x).time = s.time := rfl
@[simp] theorem setIft_trig (s : State) (i : Nat) (x : IftQuad) : (s.setIft i x).trig = s.trig := rfl
@[simp] theorem setIft_cap (s : State) (i : Nat) (x : IftQuad) : (s.setIft i x).cap = s.cap := rfl
@[simp] theorem setIft_zoom (s : State) (i : Nat) (x : IftQuad) : (s.setIft i x).zoom = s.zoom := rfl
@[simp] theorem setIft_eth (s : State) (i : Nat) (x : IftQuad) : (s.setIft i x).eth = s.eth := rfl
@[simp] theorem setIft_kit (s : State) (i : Nat) (x : IftQuad) : (s.setIft i x).kit = s.kit := rfl
@[simp] theorem setIft_mem (s : State) (i : Nat) (x : IftQuad) : (s.setIft i x).mem = s.mem := rfl
@[simp] theorem setIft_pot (s : State) (i : Nat) (x : IftQuad) : (s.setIft i x).pot = s.pot := rfl
@[simp] theorem setIft_clk (s : State) (i : Nat) (x : IftQuad) : (s.setIft i x).clk = s.clk := rfl
@[simp] theorem setIft_linkDegr (s : State) (i : Nat) (x : IftQuad) : (s.setIft i x).linkDegr = s.linkDegr := rfl
@[simp] theorem setIft_disp (s : State) (i : Nat) (x : IftQuad) : (s.setIft i x).disp = s.disp := rfl
@[simp] theorem setIft_boot (s : State) (i : Nat) (x : IftQuad) : (s.setIft i x).boot = s.boot := rfl
@[simp] theorem setIft_ports (s : State) (i : Nat) (x : IftQuad) : (s.setIft i x).ports = s.ports := rfl
@[simp] theorem setIft_dmaTurn (s : State) (i : Nat) (x : IftQuad) : (s.setIft i x).dmaTurn = s.dmaTurn := rfl
@[simp] theorem setIft_free (s : State) (i : Nat) (x : IftQuad) : (s.setIft i x).free = s.free := rfl
@[simp] theorem setIft_pending (s : State) (i : Nat) (x : IftQuad) : (s.setIft i x).pending = s.pending := rfl
@[simp] theorem setIft_reg (s : State) (i : Nat) (x : IftQuad) (a : Nat) : (s.setIft i x).reg a = s.reg a := rfl
@[simp] theorem setIft_fld (s : State) (i : Nat) (x : IftQuad) (f : Field) : (s.setIft i x).fld f = s.fld f := rfl
@[simp] theorem setIft_pair (s : State) (i : Nat) (x : IftQuad) (p : Pair) : (s.setIft i x).pair p = s.pair p := rfl
@[simp] theorem iftOf_setIft (s : State) (i : Nat) (x : IftQuad) (j : Nat) : (s.setIft i x).iftOf j = if j = i then x else s.iftOf j := by
  simp [State.iftOf, State.setIft]

/-! ### State.setChan -/

@[simp] theorem setChan_regs (s : State) (i : Nat) (x : ChanWin) : (s.setChan i x).regs = s.regs := rfl
@[simp] theorem setChan_holdLo (s : State) (i : Nat) (x : ChanWin) : (s.setChan i x).holdLo = s.holdLo := rfl
@[simp] theorem setChan_capture (s : State) (i : Nat) (x : ChanWin) : (s.setChan i x).capture = s.capture := rfl
@[simp] theorem setChan_rdata (s : State) (i : Nat) (x : ChanWin) : (s.setChan i x).rdata = s.rdata := rfl
@[simp] theorem setChan_out (s : State) (i : Nat) (x : ChanWin) : (s.setChan i x).out = s.out := rfl
@[simp] theorem setChan_pins (s : State) (i : Nat) (x : ChanWin) : (s.setChan i x).pins = s.pins := rfl
@[simp] theorem setChan_img (s : State) (i : Nat) (x : ChanWin) : (s.setChan i x).img = s.img := rfl
@[simp] theorem setChan_deal (s : State) (i : Nat) (x : ChanWin) : (s.setChan i x).deal = s.deal := rfl
@[simp] theorem setChan_conv (s : State) (i : Nat) (x : ChanWin) : (s.setChan i x).conv = s.conv := rfl
@[simp] theorem setChan_dealer (s : State) (i : Nat) (x : ChanWin) : (s.setChan i x).dealer = s.dealer := rfl
@[simp] theorem setChan_hand (s : State) (i : Nat) (x : ChanWin) : (s.setChan i x).hand = s.hand := rfl
@[simp] theorem setChan_host (s : State) (i : Nat) (x : ChanWin) : (s.setChan i x).host = s.host := rfl
@[simp] theorem setChan_imgDone (s : State) (i : Nat) (x : ChanWin) : (s.setChan i x).imgDone = s.imgDone := rfl
@[simp] theorem setChan_halted (s : State) (i : Nat) (x : ChanWin) : (s.setChan i x).halted = s.halted := rfl
@[simp] theorem setChan_railsBad (s : State) (i : Nat) (x : ChanWin) : (s.setChan i x).railsBad = s.railsBad := rfl
@[simp] theorem setChan_lastFatal (s : State) (i : Nat) (x : ChanWin) : (s.setChan i x).lastFatal = s.lastFatal := rfl
@[simp] theorem setChan_links (s : State) (i : Nat) (x : ChanWin) : (s.setChan i x).links = s.links := rfl
@[simp] theorem setChan_sdram (s : State) (i : Nat) (x : ChanWin) : (s.setChan i x).sdram = s.sdram := rfl
@[simp] theorem setChan_trig (s : State) (i : Nat) (x : ChanWin) : (s.setChan i x).trig = s.trig := rfl
@[simp] theorem setChan_cap (s : State) (i : Nat) (x : ChanWin) : (s.setChan i x).cap = s.cap := rfl
@[simp] theorem setChan_zoom (s : State) (i : Nat) (x : ChanWin) : (s.setChan i x).zoom = s.zoom := rfl
@[simp] theorem setChan_eth (s : State) (i : Nat) (x : ChanWin) : (s.setChan i x).eth = s.eth := rfl
@[simp] theorem setChan_kit (s : State) (i : Nat) (x : ChanWin) : (s.setChan i x).kit = s.kit := rfl
@[simp] theorem setChan_mem (s : State) (i : Nat) (x : ChanWin) : (s.setChan i x).mem = s.mem := rfl
@[simp] theorem setChan_pot (s : State) (i : Nat) (x : ChanWin) : (s.setChan i x).pot = s.pot := rfl
@[simp] theorem setChan_clk (s : State) (i : Nat) (x : ChanWin) : (s.setChan i x).clk = s.clk := rfl
@[simp] theorem setChan_linkDegr (s : State) (i : Nat) (x : ChanWin) : (s.setChan i x).linkDegr = s.linkDegr := rfl
@[simp] theorem setChan_disp (s : State) (i : Nat) (x : ChanWin) : (s.setChan i x).disp = s.disp := rfl
@[simp] theorem setChan_boot (s : State) (i : Nat) (x : ChanWin) : (s.setChan i x).boot = s.boot := rfl
@[simp] theorem setChan_test (s : State) (i : Nat) (x : ChanWin) : (s.setChan i x).test = s.test := rfl
@[simp] theorem setChan_ports (s : State) (i : Nat) (x : ChanWin) : (s.setChan i x).ports = s.ports := rfl
@[simp] theorem setChan_dmaTurn (s : State) (i : Nat) (x : ChanWin) : (s.setChan i x).dmaTurn = s.dmaTurn := rfl
@[simp] theorem setChan_free (s : State) (i : Nat) (x : ChanWin) : (s.setChan i x).free = s.free := rfl
@[simp] theorem setChan_pending (s : State) (i : Nat) (x : ChanWin) : (s.setChan i x).pending = s.pending := rfl
@[simp] theorem setChan_reg (s : State) (i : Nat) (x : ChanWin) (a : Nat) : (s.setChan i x).reg a = s.reg a := rfl
@[simp] theorem setChan_fld (s : State) (i : Nat) (x : ChanWin) (f : Field) : (s.setChan i x).fld f = s.fld f := rfl
@[simp] theorem setChan_pair (s : State) (i : Nat) (x : ChanWin) (p : Pair) : (s.setChan i x).pair p = s.pair p := rfl
@[simp] theorem chanOf_setChan (s : State) (i : Nat) (x : ChanWin) (j : Nat) : (s.setChan i x).chanOf j = if j = i then x else s.chanOf j := by
  simp [State.chanOf, State.setChan]

/-! ### State.setSlot -/

@[simp] theorem setSlot_regs (s : State) (i : Nat) (x : Slot) : (s.setSlot i x).regs = s.regs := rfl
@[simp] theorem setSlot_holdLo (s : State) (i : Nat) (x : Slot) : (s.setSlot i x).holdLo = s.holdLo := rfl
@[simp] theorem setSlot_capture (s : State) (i : Nat) (x : Slot) : (s.setSlot i x).capture = s.capture := rfl
@[simp] theorem setSlot_rdata (s : State) (i : Nat) (x : Slot) : (s.setSlot i x).rdata = s.rdata := rfl
@[simp] theorem setSlot_out (s : State) (i : Nat) (x : Slot) : (s.setSlot i x).out = s.out := rfl
@[simp] theorem setSlot_pins (s : State) (i : Nat) (x : Slot) : (s.setSlot i x).pins = s.pins := rfl
@[simp] theorem setSlot_img (s : State) (i : Nat) (x : Slot) : (s.setSlot i x).img = s.img := rfl
@[simp] theorem setSlot_deal (s : State) (i : Nat) (x : Slot) : (s.setSlot i x).deal = s.deal := rfl
@[simp] theorem setSlot_conv (s : State) (i : Nat) (x : Slot) : (s.setSlot i x).conv = s.conv := rfl
@[simp] theorem setSlot_dealer (s : State) (i : Nat) (x : Slot) : (s.setSlot i x).dealer = s.dealer := rfl
@[simp] theorem setSlot_hand (s : State) (i : Nat) (x : Slot) : (s.setSlot i x).hand = s.hand := rfl
@[simp] theorem setSlot_host (s : State) (i : Nat) (x : Slot) : (s.setSlot i x).host = s.host := rfl
@[simp] theorem setSlot_imgDone (s : State) (i : Nat) (x : Slot) : (s.setSlot i x).imgDone = s.imgDone := rfl
@[simp] theorem setSlot_halted (s : State) (i : Nat) (x : Slot) : (s.setSlot i x).halted = s.halted := rfl
@[simp] theorem setSlot_railsBad (s : State) (i : Nat) (x : Slot) : (s.setSlot i x).railsBad = s.railsBad := rfl
@[simp] theorem setSlot_lastFatal (s : State) (i : Nat) (x : Slot) : (s.setSlot i x).lastFatal = s.lastFatal := rfl
@[simp] theorem setSlot_links (s : State) (i : Nat) (x : Slot) : (s.setSlot i x).links = s.links := rfl
@[simp] theorem setSlot_sdram (s : State) (i : Nat) (x : Slot) : (s.setSlot i x).sdram = s.sdram := rfl
@[simp] theorem setSlot_time (s : State) (i : Nat) (x : Slot) : (s.setSlot i x).time = s.time := rfl
@[simp] theorem setSlot_cap (s : State) (i : Nat) (x : Slot) : (s.setSlot i x).cap = s.cap := rfl
@[simp] theorem setSlot_zoom (s : State) (i : Nat) (x : Slot) : (s.setSlot i x).zoom = s.zoom := rfl
@[simp] theorem setSlot_eth (s : State) (i : Nat) (x : Slot) : (s.setSlot i x).eth = s.eth := rfl
@[simp] theorem setSlot_kit (s : State) (i : Nat) (x : Slot) : (s.setSlot i x).kit = s.kit := rfl
@[simp] theorem setSlot_mem (s : State) (i : Nat) (x : Slot) : (s.setSlot i x).mem = s.mem := rfl
@[simp] theorem setSlot_pot (s : State) (i : Nat) (x : Slot) : (s.setSlot i x).pot = s.pot := rfl
@[simp] theorem setSlot_clk (s : State) (i : Nat) (x : Slot) : (s.setSlot i x).clk = s.clk := rfl
@[simp] theorem setSlot_linkDegr (s : State) (i : Nat) (x : Slot) : (s.setSlot i x).linkDegr = s.linkDegr := rfl
@[simp] theorem setSlot_disp (s : State) (i : Nat) (x : Slot) : (s.setSlot i x).disp = s.disp := rfl
@[simp] theorem setSlot_boot (s : State) (i : Nat) (x : Slot) : (s.setSlot i x).boot = s.boot := rfl
@[simp] theorem setSlot_test (s : State) (i : Nat) (x : Slot) : (s.setSlot i x).test = s.test := rfl
@[simp] theorem setSlot_ports (s : State) (i : Nat) (x : Slot) : (s.setSlot i x).ports = s.ports := rfl
@[simp] theorem setSlot_dmaTurn (s : State) (i : Nat) (x : Slot) : (s.setSlot i x).dmaTurn = s.dmaTurn := rfl
@[simp] theorem setSlot_free (s : State) (i : Nat) (x : Slot) : (s.setSlot i x).free = s.free := rfl
@[simp] theorem setSlot_pending (s : State) (i : Nat) (x : Slot) : (s.setSlot i x).pending = s.pending := rfl
@[simp] theorem setSlot_reg (s : State) (i : Nat) (x : Slot) (a : Nat) : (s.setSlot i x).reg a = s.reg a := rfl
@[simp] theorem setSlot_fld (s : State) (i : Nat) (x : Slot) (f : Field) : (s.setSlot i x).fld f = s.fld f := rfl
@[simp] theorem setSlot_pair (s : State) (i : Nat) (x : Slot) (p : Pair) : (s.setSlot i x).pair p = s.pair p := rfl
@[simp] theorem slotOf_setSlot (s : State) (i : Nat) (x : Slot) (j : Nat) : (s.setSlot i x).slotOf j = if j = i then x else s.slotOf j := by
  simp [State.slotOf, State.setSlot]

/-! ### State.setTod -/

@[simp] theorem setTod_regs (s : State) (i : Nat) (x : TodGen) : (s.setTod i x).regs = s.regs := rfl
@[simp] theorem setTod_holdLo (s : State) (i : Nat) (x : TodGen) : (s.setTod i x).holdLo = s.holdLo := rfl
@[simp] theorem setTod_capture (s : State) (i : Nat) (x : TodGen) : (s.setTod i x).capture = s.capture := rfl
@[simp] theorem setTod_rdata (s : State) (i : Nat) (x : TodGen) : (s.setTod i x).rdata = s.rdata := rfl
@[simp] theorem setTod_out (s : State) (i : Nat) (x : TodGen) : (s.setTod i x).out = s.out := rfl
@[simp] theorem setTod_pins (s : State) (i : Nat) (x : TodGen) : (s.setTod i x).pins = s.pins := rfl
@[simp] theorem setTod_img (s : State) (i : Nat) (x : TodGen) : (s.setTod i x).img = s.img := rfl
@[simp] theorem setTod_deal (s : State) (i : Nat) (x : TodGen) : (s.setTod i x).deal = s.deal := rfl
@[simp] theorem setTod_conv (s : State) (i : Nat) (x : TodGen) : (s.setTod i x).conv = s.conv := rfl
@[simp] theorem setTod_dealer (s : State) (i : Nat) (x : TodGen) : (s.setTod i x).dealer = s.dealer := rfl
@[simp] theorem setTod_hand (s : State) (i : Nat) (x : TodGen) : (s.setTod i x).hand = s.hand := rfl
@[simp] theorem setTod_host (s : State) (i : Nat) (x : TodGen) : (s.setTod i x).host = s.host := rfl
@[simp] theorem setTod_imgDone (s : State) (i : Nat) (x : TodGen) : (s.setTod i x).imgDone = s.imgDone := rfl
@[simp] theorem setTod_halted (s : State) (i : Nat) (x : TodGen) : (s.setTod i x).halted = s.halted := rfl
@[simp] theorem setTod_railsBad (s : State) (i : Nat) (x : TodGen) : (s.setTod i x).railsBad = s.railsBad := rfl
@[simp] theorem setTod_lastFatal (s : State) (i : Nat) (x : TodGen) : (s.setTod i x).lastFatal = s.lastFatal := rfl
@[simp] theorem setTod_links (s : State) (i : Nat) (x : TodGen) : (s.setTod i x).links = s.links := rfl
@[simp] theorem setTod_sdram (s : State) (i : Nat) (x : TodGen) : (s.setTod i x).sdram = s.sdram := rfl
@[simp] theorem setTod_time (s : State) (i : Nat) (x : TodGen) : (s.setTod i x).time = s.time := rfl
@[simp] theorem setTod_cap (s : State) (i : Nat) (x : TodGen) : (s.setTod i x).cap = s.cap := rfl
@[simp] theorem setTod_zoom (s : State) (i : Nat) (x : TodGen) : (s.setTod i x).zoom = s.zoom := rfl
@[simp] theorem setTod_eth (s : State) (i : Nat) (x : TodGen) : (s.setTod i x).eth = s.eth := rfl
@[simp] theorem setTod_kit (s : State) (i : Nat) (x : TodGen) : (s.setTod i x).kit = s.kit := rfl
@[simp] theorem setTod_mem (s : State) (i : Nat) (x : TodGen) : (s.setTod i x).mem = s.mem := rfl
@[simp] theorem setTod_pot (s : State) (i : Nat) (x : TodGen) : (s.setTod i x).pot = s.pot := rfl
@[simp] theorem setTod_clk (s : State) (i : Nat) (x : TodGen) : (s.setTod i x).clk = s.clk := rfl
@[simp] theorem setTod_linkDegr (s : State) (i : Nat) (x : TodGen) : (s.setTod i x).linkDegr = s.linkDegr := rfl
@[simp] theorem setTod_disp (s : State) (i : Nat) (x : TodGen) : (s.setTod i x).disp = s.disp := rfl
@[simp] theorem setTod_boot (s : State) (i : Nat) (x : TodGen) : (s.setTod i x).boot = s.boot := rfl
@[simp] theorem setTod_test (s : State) (i : Nat) (x : TodGen) : (s.setTod i x).test = s.test := rfl
@[simp] theorem setTod_ports (s : State) (i : Nat) (x : TodGen) : (s.setTod i x).ports = s.ports := rfl
@[simp] theorem setTod_dmaTurn (s : State) (i : Nat) (x : TodGen) : (s.setTod i x).dmaTurn = s.dmaTurn := rfl
@[simp] theorem setTod_free (s : State) (i : Nat) (x : TodGen) : (s.setTod i x).free = s.free := rfl
@[simp] theorem setTod_pending (s : State) (i : Nat) (x : TodGen) : (s.setTod i x).pending = s.pending := rfl
@[simp] theorem setTod_reg (s : State) (i : Nat) (x : TodGen) (a : Nat) : (s.setTod i x).reg a = s.reg a := rfl
@[simp] theorem setTod_fld (s : State) (i : Nat) (x : TodGen) (f : Field) : (s.setTod i x).fld f = s.fld f := rfl
@[simp] theorem setTod_pair (s : State) (i : Nat) (x : TodGen) (p : Pair) : (s.setTod i x).pair p = s.pair p := rfl
@[simp] theorem todOf_setTod (s : State) (i : Nat) (x : TodGen) (j : Nat) : (s.setTod i x).todOf j = if j = i then x else s.todOf j := by
  simp [State.todOf, State.setTod]

/-! ### State.setChain -/

@[simp] theorem setChain_regs (s : State) (i : Nat) (x : ZoomChain) : (s.setChain i x).regs = s.regs := rfl
@[simp] theorem setChain_holdLo (s : State) (i : Nat) (x : ZoomChain) : (s.setChain i x).holdLo = s.holdLo := rfl
@[simp] theorem setChain_capture (s : State) (i : Nat) (x : ZoomChain) : (s.setChain i x).capture = s.capture := rfl
@[simp] theorem setChain_rdata (s : State) (i : Nat) (x : ZoomChain) : (s.setChain i x).rdata = s.rdata := rfl
@[simp] theorem setChain_out (s : State) (i : Nat) (x : ZoomChain) : (s.setChain i x).out = s.out := rfl
@[simp] theorem setChain_pins (s : State) (i : Nat) (x : ZoomChain) : (s.setChain i x).pins = s.pins := rfl
@[simp] theorem setChain_img (s : State) (i : Nat) (x : ZoomChain) : (s.setChain i x).img = s.img := rfl
@[simp] theorem setChain_deal (s : State) (i : Nat) (x : ZoomChain) : (s.setChain i x).deal = s.deal := rfl
@[simp] theorem setChain_conv (s : State) (i : Nat) (x : ZoomChain) : (s.setChain i x).conv = s.conv := rfl
@[simp] theorem setChain_dealer (s : State) (i : Nat) (x : ZoomChain) : (s.setChain i x).dealer = s.dealer := rfl
@[simp] theorem setChain_hand (s : State) (i : Nat) (x : ZoomChain) : (s.setChain i x).hand = s.hand := rfl
@[simp] theorem setChain_host (s : State) (i : Nat) (x : ZoomChain) : (s.setChain i x).host = s.host := rfl
@[simp] theorem setChain_imgDone (s : State) (i : Nat) (x : ZoomChain) : (s.setChain i x).imgDone = s.imgDone := rfl
@[simp] theorem setChain_halted (s : State) (i : Nat) (x : ZoomChain) : (s.setChain i x).halted = s.halted := rfl
@[simp] theorem setChain_railsBad (s : State) (i : Nat) (x : ZoomChain) : (s.setChain i x).railsBad = s.railsBad := rfl
@[simp] theorem setChain_lastFatal (s : State) (i : Nat) (x : ZoomChain) : (s.setChain i x).lastFatal = s.lastFatal := rfl
@[simp] theorem setChain_links (s : State) (i : Nat) (x : ZoomChain) : (s.setChain i x).links = s.links := rfl
@[simp] theorem setChain_sdram (s : State) (i : Nat) (x : ZoomChain) : (s.setChain i x).sdram = s.sdram := rfl
@[simp] theorem setChain_time (s : State) (i : Nat) (x : ZoomChain) : (s.setChain i x).time = s.time := rfl
@[simp] theorem setChain_trig (s : State) (i : Nat) (x : ZoomChain) : (s.setChain i x).trig = s.trig := rfl
@[simp] theorem setChain_cap (s : State) (i : Nat) (x : ZoomChain) : (s.setChain i x).cap = s.cap := rfl
@[simp] theorem setChain_eth (s : State) (i : Nat) (x : ZoomChain) : (s.setChain i x).eth = s.eth := rfl
@[simp] theorem setChain_kit (s : State) (i : Nat) (x : ZoomChain) : (s.setChain i x).kit = s.kit := rfl
@[simp] theorem setChain_mem (s : State) (i : Nat) (x : ZoomChain) : (s.setChain i x).mem = s.mem := rfl
@[simp] theorem setChain_pot (s : State) (i : Nat) (x : ZoomChain) : (s.setChain i x).pot = s.pot := rfl
@[simp] theorem setChain_clk (s : State) (i : Nat) (x : ZoomChain) : (s.setChain i x).clk = s.clk := rfl
@[simp] theorem setChain_linkDegr (s : State) (i : Nat) (x : ZoomChain) : (s.setChain i x).linkDegr = s.linkDegr := rfl
@[simp] theorem setChain_disp (s : State) (i : Nat) (x : ZoomChain) : (s.setChain i x).disp = s.disp := rfl
@[simp] theorem setChain_boot (s : State) (i : Nat) (x : ZoomChain) : (s.setChain i x).boot = s.boot := rfl
@[simp] theorem setChain_test (s : State) (i : Nat) (x : ZoomChain) : (s.setChain i x).test = s.test := rfl
@[simp] theorem setChain_ports (s : State) (i : Nat) (x : ZoomChain) : (s.setChain i x).ports = s.ports := rfl
@[simp] theorem setChain_dmaTurn (s : State) (i : Nat) (x : ZoomChain) : (s.setChain i x).dmaTurn = s.dmaTurn := rfl
@[simp] theorem setChain_free (s : State) (i : Nat) (x : ZoomChain) : (s.setChain i x).free = s.free := rfl
@[simp] theorem setChain_pending (s : State) (i : Nat) (x : ZoomChain) : (s.setChain i x).pending = s.pending := rfl
@[simp] theorem setChain_reg (s : State) (i : Nat) (x : ZoomChain) (a : Nat) : (s.setChain i x).reg a = s.reg a := rfl
@[simp] theorem setChain_fld (s : State) (i : Nat) (x : ZoomChain) (f : Field) : (s.setChain i x).fld f = s.fld f := rfl
@[simp] theorem setChain_pair (s : State) (i : Nat) (x : ZoomChain) (p : Pair) : (s.setChain i x).pair p = s.pair p := rfl
@[simp] theorem chainOf_setChain (s : State) (i : Nat) (x : ZoomChain) (j : Nat) : (s.setChain i x).chainOf j = if j = i then x else s.chainOf j := by
  simp [State.chainOf, State.setChain]

end Sys2Proof.Machine
end

