-- ==== Sys2Proof/Laws/Settle.lean ====
section
/-! SUPPORT. What bringing the derived signals up to date can do: it writes five registers, two pins, the pending-bit array and
the output, and leaves the signals as R212, R425 and R537 say. -/

namespace Sys2Proof.Machine

/-! ### What it can change -/

/-- Everything a message can change. -/
theorem sendMsix_eq (s : State) (v : Nat) :
    ∃ b o, s.sendMsix v = { s with host := { s.host with pba := b }, out := o } := by
  unfold State.sendMsix
  split
  · split
    · exact ⟨_, s.out, rfl⟩
    · exact ⟨s.host.pba, _, rfl⟩
  · exact ⟨s.host.pba, s.out, rfl⟩

/-- Everything that settling a vector can change. -/
theorem settleVector_eq (s : State) (v : Nat) :
    ∃ r b o, s.settleVector v = { s with regs := r, host := { s.host with pba := b }, out := o } := by
  unfold State.settleVector
  simp only
  split
  · exact ⟨s.regs, s.host.pba, s.out, rfl⟩
  · split
    · obtain ⟨b, o, h⟩ := sendMsix_eq (((s.putBit HOST_INT_REQ_REQ v (s.vectorActive v))).stick HOST_INT_PEND_PEND v) v
      exact ⟨_, b, o, by rw [h]; rfl⟩
    · exact ⟨_, s.host.pba, s.out, rfl⟩

/-- Everything that settling a list of vectors can change. -/
theorem settleVectors_eq (vs : List Nat) (s : State) :
    ∃ r b o, vs.foldl (fun t v => t.settleVector v) s = { s with regs := r, host := { s.host with pba := b }, out := o } := by
  induction vs generalizing s with
  | nil => exact ⟨s.regs, s.host.pba, s.out, rfl⟩
  | cons v t ih =>
    obtain ⟨r, b, o, h⟩ := settleVector_eq s v
    obtain ⟨r', b', o', h'⟩ := ih (s.settleVector v)
    exact ⟨r', b', o', by rw [List.foldl_cons, h', h]⟩

/-- Everything that settling can change. -/
theorem settle_eq (s : State) :
    ∃ r b o f a, s.settle =
      { s with regs := r, host := { s.host with pba := b }, out := o, pins := { s.pins with fault := f, smbAlert := a } } := by
  obtain ⟨r, b, o, h⟩ := settleVectors_eq (List.range 32) s.settleFault.settleAlert
  exact ⟨r, b, o, _, _, by rw [State.settle, h]; rfl⟩
@[simp] theorem settle_holdLo (s : State) : s.settle.holdLo = s.holdLo := by obtain ⟨_, _, _, _, _, h⟩ := settle_eq s; rw [h]
@[simp] theorem settle_capture (s : State) : s.settle.capture = s.capture := by obtain ⟨_, _, _, _, _, h⟩ := settle_eq s; rw [h]
@[simp] theorem settle_rdata (s : State) : s.settle.rdata = s.rdata := by obtain ⟨_, _, _, _, _, h⟩ := settle_eq s; rw [h]
@[simp] theorem settle_img (s : State) : s.settle.img = s.img := by obtain ⟨_, _, _, _, _, h⟩ := settle_eq s; rw [h]
@[simp] theorem settle_deal (s : State) : s.settle.deal = s.deal := by obtain ⟨_, _, _, _, _, h⟩ := settle_eq s; rw [h]
@[simp] theorem settle_conv (s : State) : s.settle.conv = s.conv := by obtain ⟨_, _, _, _, _, h⟩ := settle_eq s; rw [h]
@[simp] theorem settle_dealer (s : State) : s.settle.dealer = s.dealer := by obtain ⟨_, _, _, _, _, h⟩ := settle_eq s; rw [h]
@[simp] theorem settle_hand (s : State) : s.settle.hand = s.hand := by obtain ⟨_, _, _, _, _, h⟩ := settle_eq s; rw [h]
@[simp] theorem settle_imgDone (s : State) : s.settle.imgDone = s.imgDone := by obtain ⟨_, _, _, _, _, h⟩ := settle_eq s; rw [h]
@[simp] theorem settle_halted (s : State) : s.settle.halted = s.halted := by obtain ⟨_, _, _, _, _, h⟩ := settle_eq s; rw [h]
@[simp] theorem settle_railsBad (s : State) : s.settle.railsBad = s.railsBad := by obtain ⟨_, _, _, _, _, h⟩ := settle_eq s; rw [h]
@[simp] theorem settle_lastFatal (s : State) : s.settle.lastFatal = s.lastFatal := by obtain ⟨_, _, _, _, _, h⟩ := settle_eq s; rw [h]
@[simp] theorem settle_links (s : State) : s.settle.links = s.links := by obtain ⟨_, _, _, _, _, h⟩ := settle_eq s; rw [h]
@[simp] theorem settle_sdram (s : State) : s.settle.sdram = s.sdram := by obtain ⟨_, _, _, _, _, h⟩ := settle_eq s; rw [h]
@[simp] theorem settle_time (s : State) : s.settle.time = s.time := by obtain ⟨_, _, _, _, _, h⟩ := settle_eq s; rw [h]
@[simp] theorem settle_trig (s : State) : s.settle.trig = s.trig := by obtain ⟨_, _, _, _, _, h⟩ := settle_eq s; rw [h]
@[simp] theorem settle_cap (s : State) : s.settle.cap = s.cap := by obtain ⟨_, _, _, _, _, h⟩ := settle_eq s; rw [h]
@[simp] theorem settle_zoom (s : State) : s.settle.zoom = s.zoom := by obtain ⟨_, _, _, _, _, h⟩ := settle_eq s; rw [h]
@[simp] theorem settle_eth (s : State) : s.settle.eth = s.eth := by obtain ⟨_, _, _, _, _, h⟩ := settle_eq s; rw [h]
@[simp] theorem settle_kit (s : State) : s.settle.kit = s.kit := by obtain ⟨_, _, _, _, _, h⟩ := settle_eq s; rw [h]
@[simp] theorem settle_mem (s : State) : s.settle.mem = s.mem := by obtain ⟨_, _, _, _, _, h⟩ := settle_eq s; rw [h]
@[simp] theorem settle_pot (s : State) : s.settle.pot = s.pot := by obtain ⟨_, _, _, _, _, h⟩ := settle_eq s; rw [h]
@[simp] theorem settle_clk (s : State) : s.settle.clk = s.clk := by obtain ⟨_, _, _, _, _, h⟩ := settle_eq s; rw [h]
@[simp] theorem settle_linkDegr (s : State) : s.settle.linkDegr = s.linkDegr := by obtain ⟨_, _, _, _, _, h⟩ := settle_eq s; rw [h]
@[simp] theorem settle_disp (s : State) : s.settle.disp = s.disp := by obtain ⟨_, _, _, _, _, h⟩ := settle_eq s; rw [h]
@[simp] theorem settle_boot (s : State) : s.settle.boot = s.boot := by obtain ⟨_, _, _, _, _, h⟩ := settle_eq s; rw [h]
@[simp] theorem settle_test (s : State) : s.settle.test = s.test := by obtain ⟨_, _, _, _, _, h⟩ := settle_eq s; rw [h]
@[simp] theorem settle_ports (s : State) : s.settle.ports = s.ports := by obtain ⟨_, _, _, _, _, h⟩ := settle_eq s; rw [h]
@[simp] theorem settle_dmaTurn (s : State) : s.settle.dmaTurn = s.dmaTurn := by obtain ⟨_, _, _, _, _, h⟩ := settle_eq s; rw [h]
@[simp] theorem settle_free (s : State) : s.settle.free = s.free := by obtain ⟨_, _, _, _, _, h⟩ := settle_eq s; rw [h]
@[simp] theorem settle_pending (s : State) : s.settle.pending = s.pending := by obtain ⟨_, _, _, _, _, h⟩ := settle_eq s; rw [h]
@[simp] theorem settle_pins_ready (s : State) : s.settle.pins.ready = s.pins.ready := by
  obtain ⟨_, _, _, _, _, h⟩ := settle_eq s; rw [h]
@[simp] theorem settle_pins_kittyHold (s : State) : s.settle.pins.kittyHold = s.pins.kittyHold := by
  obtain ⟨_, _, _, _, _, h⟩ := settle_eq s; rw [h]
@[simp] theorem settle_pins_trigOut0 (s : State) : s.settle.pins.trigOut0 = s.pins.trigOut0 := by
  obtain ⟨_, _, _, _, _, h⟩ := settle_eq s; rw [h]
@[simp] theorem settle_pins_trigOut1 (s : State) : s.settle.pins.trigOut1 = s.pins.trigOut1 := by
  obtain ⟨_, _, _, _, _, h⟩ := settle_eq s; rw [h]
@[simp] theorem settle_host_linkUp (s : State) : s.settle.host.linkUp = s.host.linkUp := by
  obtain ⟨_, _, _, _, _, h⟩ := settle_eq s; rw [h]
@[simp] theorem settle_host_msixEn (s : State) : s.settle.host.msixEn = s.host.msixEn := by
  obtain ⟨_, _, _, _, _, h⟩ := settle_eq s; rw [h]
@[simp] theorem settle_host_funcMask (s : State) : s.settle.host.funcMask = s.host.funcMask := by
  obtain ⟨_, _, _, _, _, h⟩ := settle_eq s; rw [h]
@[simp] theorem settle_host_table (s : State) : s.settle.host.table = s.host.table := by
  obtain ⟨_, _, _, _, _, h⟩ := settle_eq s; rw [h]

/-! ### Registers -/

theorem settleVector_reg (s : State) (v : Nat) {a : Nat} (h : a ≠ HOST_INT_REQ_REQ.addr) (h' : a ≠ HOST_INT_PEND_PEND.addr) :
    (s.settleVector v).reg a = s.reg a := by
  have hm : ∀ (t : State), (t.sendMsix v).reg a = t.reg a := fun t => by
    obtain ⟨b, o, e⟩ := sendMsix_eq t v
    rw [e]; rfl
  unfold State.settleVector
  simp only
  split
  · rfl
  · split
    · rw [hm, stick_eq, reg_setFld_ne _ _ _ (by exact h'), putBit_eq, reg_setFld_ne _ _ _ (by exact h)]
    · rw [putBit_eq, reg_setFld_ne _ _ _ (by exact h)]

theorem settleVectors_reg (vs : List Nat) (s : State) {a : Nat} (h : a ≠ HOST_INT_REQ_REQ.addr)
    (h' : a ≠ HOST_INT_PEND_PEND.addr) : (vs.foldl (fun t v => t.settleVector v) s).reg a = s.reg a := by
  induction vs generalizing s with
  | nil => rfl
  | cons v t ih => rw [List.foldl_cons, ih, settleVector_reg s v h h']

theorem settleFault_fld (s : State) (g : Field)
    (h : [SUP_STAT_FAULT, HOST_STAT_FAULT].all (fun f =>
      decide (g.addr ≠ f.addr) || decide (f.lo < g.lo) || decide (g.lo + g.width ≤ f.lo)) = true) :
    s.settleFault.fld g = s.fld g := by
  simp only [List.all_cons, List.all_nil, Bool.and_true, Bool.and_eq_true, Bool.or_eq_true, decide_eq_true_eq] at h
  change (((s.setFld SUP_STAT_FAULT _).setFld HOST_STAT_FAULT _)).fld g = _
  rw [fld_setFld_ne _ _ (by simp only [HOST_STAT_FAULT] at h ⊢; omega),
    fld_setFld_ne _ _ (by simp only [SUP_STAT_FAULT] at h ⊢; omega)]

theorem settleAlert_fld (s : State) (g : Field)
    (h : g.addr ≠ VREG_STAT_ALERT.addr ∨ VREG_STAT_ALERT.lo + 1 ≤ g.lo ∨ g.lo + g.width ≤ VREG_STAT_ALERT.lo) :
    s.settleAlert.fld g = s.fld g := by
  change (s.setFld VREG_STAT_ALERT _).fld g = _
  exact fld_setFld_ne _ _ h

/-- Settling leaves every quiet field. -/
theorem settle_fld (s : State) (g : Field) (h : quiet g = true) : s.settle.fld g = s.fld g := by
  simp only [quiet, List.all_cons, List.all_nil, Bool.and_true, Bool.and_eq_true, Bool.or_eq_true, decide_eq_true_eq] at h
  obtain ⟨⟨h1, h2⟩, h3, h4, h5⟩ := h
  have e : s.settle.fld g = s.settleFault.settleAlert.fld g := by
    simp only [State.fld, State.settle, settleVectors_reg _ _ h1 h2]
  rw [e, settleAlert_fld _ _ (by rcases h5 with (h | h) | h <;> simp_all), settleFault_fld]
  simp only [List.all_cons, List.all_nil, Bool.and_true, Bool.and_eq_true, Bool.or_eq_true, decide_eq_true_eq]
  exact ⟨h3, h4⟩

/-- Settling leaves every flag that is quiet. -/
theorem settle_flag (s : State) (g : Field) (h : quiet g = true) : s.settle.flag g = s.flag g := by
  simp [State.flag, settle_fld s g h]

/-- Settling leaves every bit of a quiet field of flags. -/
theorem settle_bitSet (s : State) (g : Field) (i : Nat) (h : quiet (g.bit i) = true) : s.settle.bitSet g i = s.bitSet g i := by
  simp [State.bitSet, settle_fld s _ h]

/-- Settling leaves every register but five. -/
theorem settle_reg (s : State) {a : Nat}
    (h : a ≠ HOST_INT_REQ_REQ.addr ∧ a ≠ HOST_INT_PEND_PEND.addr ∧ a ≠ SUP_STAT_FAULT.addr ∧ a ≠ HOST_STAT_FAULT.addr ∧
      a ≠ VREG_STAT_ALERT.addr) : s.settle.reg a = s.reg a := by
  obtain ⟨h1, h2, h3, h4, h5⟩ := h
  rw [State.settle, settleVectors_reg _ _ h1 h2]
  change (((s.setFld SUP_STAT_FAULT _).setFld HOST_STAT_FAULT _).setFld VREG_STAT_ALERT _).reg a = _
  rw [reg_setFld_ne _ _ _ h5, reg_setFld_ne _ _ _ h4, reg_setFld_ne _ _ _ h3]

/-- Settling leaves every pair but the interrupt registers. -/
theorem settle_pair (s : State) {p : Pair}
    (h : (p.addr ≠ HOST_INT_REQ_REQ.addr ∧ p.addr ≠ HOST_INT_PEND_PEND.addr ∧ p.addr ≠ SUP_STAT_FAULT.addr ∧
      p.addr ≠ HOST_STAT_FAULT.addr ∧ p.addr ≠ VREG_STAT_ALERT.addr))
    (h' : (p.addr + 4 ≠ HOST_INT_REQ_REQ.addr ∧ p.addr + 4 ≠ HOST_INT_PEND_PEND.addr ∧ p.addr + 4 ≠ SUP_STAT_FAULT.addr ∧
      p.addr + 4 ≠ HOST_STAT_FAULT.addr ∧ p.addr + 4 ≠ VREG_STAT_ALERT.addr)) : s.settle.pair p = s.pair p := by
  simp [State.pair, settle_reg s h, settle_reg s h']

/-! ### What it establishes -/

/-- FAULT_N asserts exactly while a condition of R212 holds. -/
theorem settle_pins_fault (s : State) : s.settle.pins.fault = s.faultCond := by
  obtain ⟨r, b, o, h⟩ := settleVectors_eq (List.range 32) s.settleFault.settleAlert
  rw [State.settle, h]; rfl

/-- Settling does not change whether a condition of R212 holds. -/
theorem settle_faultCond (s : State) : s.settle.faultCond = s.faultCond := by
  simp only [State.faultCond, settle_halted, settle_railsBad]
  rw [settle_flag s _ (by decide), settle_flag s _ (by decide), settle_flag s _ (by decide)]

/-- A field outside the interrupt registers is as FAULT_N and SMB_ALERT_N leave it. -/
theorem settle_fld_signals (s : State) (g : Field) (h : g.addr ≠ HOST_INT_REQ_REQ.addr) (h' : g.addr ≠ HOST_INT_PEND_PEND.addr) :
    s.settle.fld g = s.settleFault.settleAlert.fld g :=
  fld_congr (settleVectors_reg _ _ h h')

/-- SUP_STAT.FAULT shows FAULT_N. -/
theorem settle_supFault (s : State) : s.settle.flag SUP_STAT_FAULT = s.settle.pins.fault := by
  rw [settle_pins_fault, flag_congr (settle_fld_signals s _ (by decide) (by decide)),
    flag_congr (settleAlert_fld _ _ (by decide))]
  change ((s.setFld SUP_STAT_FAULT (b2n s.faultCond)).setFld HOST_STAT_FAULT (b2n s.faultCond)).flag SUP_STAT_FAULT = _
  rw [flag_setFld_ne _ _ (by decide)]
  exact flag_setFld_b2n _ _ _

/-- HOST_STAT.FAULT shows FAULT_N. -/
theorem settle_hostFault (s : State) : s.settle.flag HOST_STAT_FAULT = s.settle.pins.fault := by
  rw [settle_pins_fault, flag_congr (settle_fld_signals s _ (by decide) (by decide)),
    flag_congr (settleAlert_fld _ _ (by decide))]
  change ((s.setFld SUP_STAT_FAULT (b2n s.faultCond)).setFld HOST_STAT_FAULT (b2n s.faultCond)).flag HOST_STAT_FAULT = _
  exact flag_setFld_b2n _ _ _

/-- VREG_STAT.ALERT shows SMB_ALERT_N. -/
theorem settle_alert (s : State) : s.settle.flag VREG_STAT_ALERT = s.settle.pins.smbAlert := by
  obtain ⟨r, b, o, h⟩ := settleVectors_eq (List.range 32) s.settleFault.settleAlert
  have e : s.settle.pins.smbAlert = s.settleFault.settleAlert.pins.smbAlert := by rw [State.settle, h]
  rw [e, flag_congr (settle_fld_signals s _ (by decide) (by decide))]
  exact flag_setFld_b2n _ _ _

/-- SMB_ALERT_N is asserted only with FAULT_N or a selected bit of VREG_STAT (R537). -/
theorem settle_smbAlert (s : State) (h : s.settle.pins.smbAlert = true) :
    s.settle.pins.fault = true ∨ (s.reg VREG_STAT.addr).toNat &&& s.fld VREG_ALERT_CFG_SMB_EN ≠ 0 := by
  obtain ⟨r, b, o, e⟩ := settleVectors_eq (List.range 32) s.settleFault.settleAlert
  have e' : s.settle.pins.smbAlert = s.settleFault.settleAlert.pins.smbAlert := by rw [State.settle, e]
  have hr : s.settleFault.reg VREG_STAT.addr = s.reg VREG_STAT.addr := by
    change ((s.setFld SUP_STAT_FAULT _).setFld HOST_STAT_FAULT _).reg _ = _
    rw [reg_setFld_ne _ _ _ (by decide), reg_setFld_ne _ _ _ (by decide)]
  have hf : s.settleFault.fld VREG_ALERT_CFG_SMB_EN = s.fld VREG_ALERT_CFG_SMB_EN := settleFault_fld _ _ (by decide)
  rw [e'] at h
  unfold State.settleAlert at h
  simp only [Bool.and_eq_true, Bool.or_eq_true, decide_eq_true_eq, hr, hf] at h
  rw [settle_pins_fault]
  exact h.2

/-- Whether a vector is active depends on no register that settling a vector writes. -/
theorem vectorActive_settleVector (s : State) (u v : Nat) : (s.settleVector u).vectorActive v = s.vectorActive v := by
  have hr : ∀ a, a ≠ HOST_INT_REQ_REQ.addr → a ≠ HOST_INT_PEND_PEND.addr → (s.settleVector u).reg a = s.reg a :=
    fun a h h' => settleVector_reg s u h h'
  unfold State.vectorActive
  split
  · rw [bitSet_congr (fld_congr (hr _ (by simp [Field.bit, HOST_DMA_DONE_DONE, HOST_INT_REQ_REQ])
      (by simp [Field.bit, HOST_DMA_DONE_DONE, HOST_INT_PEND_PEND]))),
      flag_congr (fld_congr (hr _ (by simp [DMA_CTL_IE, HOST_INT_REQ_REQ]; omega) (by simp [DMA_CTL_IE, HOST_INT_PEND_PEND]; omega)))]
  · have hs : ∀ x ∈ intSources, (s.settleVector u).reg x.2.1 = s.reg x.2.1 ∧ (s.settleVector u).reg x.2.2 = s.reg x.2.2 := by
      intro x hx
      have : ∀ y ∈ intSources, (y.2.1 ≠ HOST_INT_REQ_REQ.addr ∧ y.2.1 ≠ HOST_INT_PEND_PEND.addr) ∧
          (y.2.2 ≠ HOST_INT_REQ_REQ.addr ∧ y.2.2 ≠ HOST_INT_PEND_PEND.addr) := by decide
      exact ⟨hr _ (this x hx).1.1 (this x hx).1.2, hr _ (this x hx).2.1 (this x hx).2.2⟩
    rw [Bool.eq_iff_iff, List.any_eq_true, List.any_eq_true]
    constructor
    · rintro ⟨x, hx, h⟩
      exact ⟨x, hx, by rw [(hs x hx).1, (hs x hx).2] at h; exact h⟩
    · rintro ⟨x, hx, h⟩
      exact ⟨x, hx, by rw [(hs x hx).1, (hs x hx).2]; exact h⟩

/-- After a vector is settled, HOST_INT_REQ shows whether it is active; the other bits stay. -/
theorem req_settleVector (s : State) {u v : Nat} (hu : u < 32) :
    (s.settleVector u).bitSet HOST_INT_REQ_REQ v = if v = u then s.vectorActive u else s.bitSet HOST_INT_REQ_REQ v := by
  have hm : ∀ (t : State), (t.sendMsix u).bitSet HOST_INT_REQ_REQ v = t.bitSet HOST_INT_REQ_REQ v := fun t => by
    obtain ⟨b, o, e⟩ := sendMsix_eq t u
    rw [e]; rfl
  have hp : ∀ (t : State), (t.stick HOST_INT_PEND_PEND u).bitSet HOST_INT_REQ_REQ v = t.bitSet HOST_INT_REQ_REQ v := fun t => by
    exact bitSet_congr (fld_setFld_ne _ _ (.inl (by simp [Field.bit, HOST_INT_REQ_REQ, HOST_INT_PEND_PEND])))
  have hb : (s.putBit HOST_INT_REQ_REQ u (s.vectorActive u)).bitSet HOST_INT_REQ_REQ v =
      if v = u then s.vectorActive u else s.bitSet HOST_INT_REQ_REQ v := by
    split
    · next e => subst e; exact bitSet_putBit _ _ _ _ (by simp [HOST_INT_REQ_REQ]; omega)
    · next e => exact bitSet_putBit_ne _ _ _ e
  unfold State.settleVector
  simp only
  split
  · next e => split
              · next e' => rw [e', e]
              · rfl
  · split
    · rw [hm, hp, hb]
    · exact hb

/-- HOST_INT_REQ after a list of vectors is settled. -/
theorem req_settleVectors (vs : List Nat) (s : State) (hv : ∀ v ∈ vs, v < 32) (v : Nat) :
    (vs.foldl (fun t u => t.settleVector u) s).bitSet HOST_INT_REQ_REQ v =
      if v ∈ vs then s.vectorActive v else s.bitSet HOST_INT_REQ_REQ v := by
  induction vs generalizing s with
  | nil => simp
  | cons u t ih =>
    rw [List.foldl_cons, ih (s.settleVector u) (fun w hw => hv w (List.mem_cons_of_mem _ hw)),
      vectorActive_settleVector, req_settleVector s (hv u (List.mem_cons_self ..))]
    by_cases h1 : v ∈ t <;> by_cases h2 : v = u <;> simp_all

/-- Whether a vector is active after settling. -/
theorem vectorActive_settleVectors (vs : List Nat) (s : State) (v : Nat) :
    (vs.foldl (fun t u => t.settleVector u) s).vectorActive v = s.vectorActive v := by
  induction vs generalizing s with
  | nil => rfl
  | cons u t ih => rw [List.foldl_cons, ih, vectorActive_settleVector]

/-- HOST_INT_REQ shows which vectors are active (R425). -/
theorem settle_req (s : State) {v : Nat} (h : v < 32) : s.settle.bitSet HOST_INT_REQ_REQ v = s.settle.vectorActive v := by
  rw [State.settle, req_settleVectors _ _ (fun w hw => List.mem_range.mp hw), vectorActive_settleVectors,
    if_pos (List.mem_range.mpr h)]

end Sys2Proof.Machine
end

