-- ==== Sys2Proof/Laws/Log.lean ====
section
/-! SUPPORT. What logging an event can do (R210 to R212): it writes HAND_LOG_COUNT, two bits of HAND_STAT, the log and the last
FATAL event, and nothing else. -/

namespace Sys2Proof.Machine

/-- Everything that logging can change. -/
theorem logEvent_eq (s : State) (code sev arg : Nat) :
    ∃ r l f, s.logEvent code sev arg = { s with regs := r, hand := { s.hand with log := l }, lastFatal := f } := by
  unfold State.logEvent
  split
  · exact ⟨s.regs, s.hand.log, s.lastFatal, rfl⟩
  · simp only
    split
    · exact ⟨s.regs, _, s.lastFatal, rfl⟩
    · split
      · exact ⟨_, _, s.lastFatal, rfl⟩
      · split
        · exact ⟨_, _, _, rfl⟩
        · exact ⟨_, _, s.lastFatal, rfl⟩

@[simp] theorem logEvent_holdLo (s : State) (c v a : Nat) : (s.logEvent c v a).holdLo = s.holdLo := by
  obtain ⟨_, _, _, h⟩ := logEvent_eq s c v a; rw [h]
@[simp] theorem logEvent_capture (s : State) (c v a : Nat) : (s.logEvent c v a).capture = s.capture := by
  obtain ⟨_, _, _, h⟩ := logEvent_eq s c v a; rw [h]
@[simp] theorem logEvent_rdata (s : State) (c v a : Nat) : (s.logEvent c v a).rdata = s.rdata := by
  obtain ⟨_, _, _, h⟩ := logEvent_eq s c v a; rw [h]
@[simp] theorem logEvent_out (s : State) (c v a : Nat) : (s.logEvent c v a).out = s.out := by
  obtain ⟨_, _, _, h⟩ := logEvent_eq s c v a; rw [h]
@[simp] theorem logEvent_pins (s : State) (c v a : Nat) : (s.logEvent c v a).pins = s.pins := by
  obtain ⟨_, _, _, h⟩ := logEvent_eq s c v a; rw [h]
@[simp] theorem logEvent_img (s : State) (c v a : Nat) : (s.logEvent c v a).img = s.img := by
  obtain ⟨_, _, _, h⟩ := logEvent_eq s c v a; rw [h]
@[simp] theorem logEvent_deal (s : State) (c v a : Nat) : (s.logEvent c v a).deal = s.deal := by
  obtain ⟨_, _, _, h⟩ := logEvent_eq s c v a; rw [h]
@[simp] theorem logEvent_conv (s : State) (c v a : Nat) : (s.logEvent c v a).conv = s.conv := by
  obtain ⟨_, _, _, h⟩ := logEvent_eq s c v a; rw [h]
@[simp] theorem logEvent_dealer (s : State) (c v a : Nat) : (s.logEvent c v a).dealer = s.dealer := by
  obtain ⟨_, _, _, h⟩ := logEvent_eq s c v a; rw [h]
@[simp] theorem logEvent_host (s : State) (c v a : Nat) : (s.logEvent c v a).host = s.host := by
  obtain ⟨_, _, _, h⟩ := logEvent_eq s c v a; rw [h]
@[simp] theorem logEvent_imgDone (s : State) (c v a : Nat) : (s.logEvent c v a).imgDone = s.imgDone := by
  obtain ⟨_, _, _, h⟩ := logEvent_eq s c v a; rw [h]
@[simp] theorem logEvent_halted (s : State) (c v a : Nat) : (s.logEvent c v a).halted = s.halted := by
  obtain ⟨_, _, _, h⟩ := logEvent_eq s c v a; rw [h]
@[simp] theorem logEvent_railsBad (s : State) (c v a : Nat) : (s.logEvent c v a).railsBad = s.railsBad := by
  obtain ⟨_, _, _, h⟩ := logEvent_eq s c v a; rw [h]
@[simp] theorem logEvent_links (s : State) (c v a : Nat) : (s.logEvent c v a).links = s.links := by
  obtain ⟨_, _, _, h⟩ := logEvent_eq s c v a; rw [h]
@[simp] theorem logEvent_sdram (s : State) (c v a : Nat) : (s.logEvent c v a).sdram = s.sdram := by
  obtain ⟨_, _, _, h⟩ := logEvent_eq s c v a; rw [h]
@[simp] theorem logEvent_time (s : State) (c v a : Nat) : (s.logEvent c v a).time = s.time := by
  obtain ⟨_, _, _, h⟩ := logEvent_eq s c v a; rw [h]
@[simp] theorem logEvent_trig (s : State) (c v a : Nat) : (s.logEvent c v a).trig = s.trig := by
  obtain ⟨_, _, _, h⟩ := logEvent_eq s c v a; rw [h]
@[simp] theorem logEvent_cap (s : State) (c v a : Nat) : (s.logEvent c v a).cap = s.cap := by
  obtain ⟨_, _, _, h⟩ := logEvent_eq s c v a; rw [h]
@[simp] theorem logEvent_zoom (s : State) (c v a : Nat) : (s.logEvent c v a).zoom = s.zoom := by
  obtain ⟨_, _, _, h⟩ := logEvent_eq s c v a; rw [h]
@[simp] theorem logEvent_eth (s : State) (c v a : Nat) : (s.logEvent c v a).eth = s.eth := by
  obtain ⟨_, _, _, h⟩ := logEvent_eq s c v a; rw [h]
@[simp] theorem logEvent_kit (s : State) (c v a : Nat) : (s.logEvent c v a).kit = s.kit := by
  obtain ⟨_, _, _, h⟩ := logEvent_eq s c v a; rw [h]
@[simp] theorem logEvent_mem (s : State) (c v a : Nat) : (s.logEvent c v a).mem = s.mem := by
  obtain ⟨_, _, _, h⟩ := logEvent_eq s c v a; rw [h]
@[simp] theorem logEvent_pot (s : State) (c v a : Nat) : (s.logEvent c v a).pot = s.pot := by
  obtain ⟨_, _, _, h⟩ := logEvent_eq s c v a; rw [h]
@[simp] theorem logEvent_clk (s : State) (c v a : Nat) : (s.logEvent c v a).clk = s.clk := by
  obtain ⟨_, _, _, h⟩ := logEvent_eq s c v a; rw [h]
@[simp] theorem logEvent_linkDegr (s : State) (c v a : Nat) : (s.logEvent c v a).linkDegr = s.linkDegr := by
  obtain ⟨_, _, _, h⟩ := logEvent_eq s c v a; rw [h]
@[simp] theorem logEvent_disp (s : State) (c v a : Nat) : (s.logEvent c v a).disp = s.disp := by
  obtain ⟨_, _, _, h⟩ := logEvent_eq s c v a; rw [h]
@[simp] theorem logEvent_boot (s : State) (c v a : Nat) : (s.logEvent c v a).boot = s.boot := by
  obtain ⟨_, _, _, h⟩ := logEvent_eq s c v a; rw [h]
@[simp] theorem logEvent_test (s : State) (c v a : Nat) : (s.logEvent c v a).test = s.test := by
  obtain ⟨_, _, _, h⟩ := logEvent_eq s c v a; rw [h]
@[simp] theorem logEvent_ports (s : State) (c v a : Nat) : (s.logEvent c v a).ports = s.ports := by
  obtain ⟨_, _, _, h⟩ := logEvent_eq s c v a; rw [h]
@[simp] theorem logEvent_dmaTurn (s : State) (c v a : Nat) : (s.logEvent c v a).dmaTurn = s.dmaTurn := by
  obtain ⟨_, _, _, h⟩ := logEvent_eq s c v a; rw [h]
@[simp] theorem logEvent_free (s : State) (c v a : Nat) : (s.logEvent c v a).free = s.free := by
  obtain ⟨_, _, _, h⟩ := logEvent_eq s c v a; rw [h]
@[simp] theorem logEvent_pending (s : State) (c v a : Nat) : (s.logEvent c v a).pending = s.pending := by
  obtain ⟨_, _, _, h⟩ := logEvent_eq s c v a; rw [h]
@[simp] theorem logEvent_hand_eng (s : State) (c v a : Nat) : (s.logEvent c v a).hand.eng = s.hand.eng := by
  obtain ⟨_, _, _, h⟩ := logEvent_eq s c v a; rw [h]
@[simp] theorem logEvent_hand_leaf (s : State) (c v a : Nat) : (s.logEvent c v a).hand.leaf = s.hand.leaf := by
  obtain ⟨_, _, _, h⟩ := logEvent_eq s c v a; rw [h]
@[simp] theorem logEvent_hand_cstore (s : State) (c v a : Nat) : (s.logEvent c v a).hand.cstore = s.hand.cstore := by
  obtain ⟨_, _, _, h⟩ := logEvent_eq s c v a; rw [h]
@[simp] theorem ignored_holdLo (s : State) (a : Nat) : (s.ignored a).holdLo = s.holdLo := logEvent_holdLo ..
@[simp] theorem ignored_capture (s : State) (a : Nat) : (s.ignored a).capture = s.capture := logEvent_capture ..
@[simp] theorem ignored_rdata (s : State) (a : Nat) : (s.ignored a).rdata = s.rdata := logEvent_rdata ..
@[simp] theorem ignored_out (s : State) (a : Nat) : (s.ignored a).out = s.out := logEvent_out ..
@[simp] theorem ignored_pins (s : State) (a : Nat) : (s.ignored a).pins = s.pins := logEvent_pins ..
@[simp] theorem ignored_img (s : State) (a : Nat) : (s.ignored a).img = s.img := logEvent_img ..
@[simp] theorem ignored_deal (s : State) (a : Nat) : (s.ignored a).deal = s.deal := logEvent_deal ..
@[simp] theorem ignored_conv (s : State) (a : Nat) : (s.ignored a).conv = s.conv := logEvent_conv ..
@[simp] theorem ignored_dealer (s : State) (a : Nat) : (s.ignored a).dealer = s.dealer := logEvent_dealer ..
@[simp] theorem ignored_host (s : State) (a : Nat) : (s.ignored a).host = s.host := logEvent_host ..
@[simp] theorem ignored_imgDone (s : State) (a : Nat) : (s.ignored a).imgDone = s.imgDone := logEvent_imgDone ..
@[simp] theorem ignored_halted (s : State) (a : Nat) : (s.ignored a).halted = s.halted := logEvent_halted ..
@[simp] theorem ignored_railsBad (s : State) (a : Nat) : (s.ignored a).railsBad = s.railsBad := logEvent_railsBad ..
@[simp] theorem ignored_links (s : State) (a : Nat) : (s.ignored a).links = s.links := logEvent_links ..
@[simp] theorem ignored_sdram (s : State) (a : Nat) : (s.ignored a).sdram = s.sdram := logEvent_sdram ..
@[simp] theorem ignored_time (s : State) (a : Nat) : (s.ignored a).time = s.time := logEvent_time ..
@[simp] theorem ignored_trig (s : State) (a : Nat) : (s.ignored a).trig = s.trig := logEvent_trig ..
@[simp] theorem ignored_cap (s : State) (a : Nat) : (s.ignored a).cap = s.cap := logEvent_cap ..
@[simp] theorem ignored_zoom (s : State) (a : Nat) : (s.ignored a).zoom = s.zoom := logEvent_zoom ..
@[simp] theorem ignored_eth (s : State) (a : Nat) : (s.ignored a).eth = s.eth := logEvent_eth ..
@[simp] theorem ignored_kit (s : State) (a : Nat) : (s.ignored a).kit = s.kit := logEvent_kit ..
@[simp] theorem ignored_mem (s : State) (a : Nat) : (s.ignored a).mem = s.mem := logEvent_mem ..
@[simp] theorem ignored_pot (s : State) (a : Nat) : (s.ignored a).pot = s.pot := logEvent_pot ..
@[simp] theorem ignored_clk (s : State) (a : Nat) : (s.ignored a).clk = s.clk := logEvent_clk ..
@[simp] theorem ignored_linkDegr (s : State) (a : Nat) : (s.ignored a).linkDegr = s.linkDegr := logEvent_linkDegr ..
@[simp] theorem ignored_disp (s : State) (a : Nat) : (s.ignored a).disp = s.disp := logEvent_disp ..
@[simp] theorem ignored_boot (s : State) (a : Nat) : (s.ignored a).boot = s.boot := logEvent_boot ..
@[simp] theorem ignored_test (s : State) (a : Nat) : (s.ignored a).test = s.test := logEvent_test ..
@[simp] theorem ignored_ports (s : State) (a : Nat) : (s.ignored a).ports = s.ports := logEvent_ports ..
@[simp] theorem ignored_dmaTurn (s : State) (a : Nat) : (s.ignored a).dmaTurn = s.dmaTurn := logEvent_dmaTurn ..
@[simp] theorem ignored_free (s : State) (a : Nat) : (s.ignored a).free = s.free := logEvent_free ..
@[simp] theorem ignored_pending (s : State) (a : Nat) : (s.ignored a).pending = s.pending := logEvent_pending ..

/-- Registers that logging leaves. -/
theorem logEvent_reg (s : State) (c v a : Nat) {b : Nat} (h : b ≠ HAND_LOG_COUNT_COUNT.addr) (h' : b ≠ HAND_STAT_LOG_ATTN.addr) :
    (s.logEvent c v a).reg b = s.reg b := by
  have hn : b ≠ HAND_STAT_LOG_FATAL.addr := h'
  unfold State.logEvent
  split
  · rfl
  · simp only
    split
    · rfl
    · split
      · rw [reg_setFld_ne _ _ _ h']; exact reg_setFld_ne _ _ _ h
      · split
        · change (((s.setFld HAND_LOG_COUNT_COUNT _).setFld HAND_STAT_LOG_FATAL 1)).reg b = _
          rw [reg_setFld_ne _ _ _ hn, reg_setFld_ne _ _ _ h]
        · exact reg_setFld_ne _ _ _ h

/-- Fields that logging leaves. -/
theorem logEvent_fld (s : State) (c v a : Nat) (g : Field) (h : g.addr ≠ HAND_LOG_COUNT_COUNT.addr)
    (h' : g.addr ≠ HAND_STAT_LOG_ATTN.addr) : (s.logEvent c v a).fld g = s.fld g := fld_congr (logEvent_reg s c v a h h')

/-- Flags that logging leaves. -/
theorem logEvent_flag (s : State) (c v a : Nat) (g : Field) (h : g.addr ≠ HAND_LOG_COUNT_COUNT.addr)
    (h' : g.addr ≠ HAND_STAT_LOG_ATTN.addr) : (s.logEvent c v a).flag g = s.flag g := flag_congr (logEvent_fld s c v a g h h')

/-- Pairs that logging leaves. -/
theorem logEvent_pair (s : State) (c v a : Nat) (p : Pair) (h : p.addr ≠ HAND_LOG_COUNT_COUNT.addr ∧ p.addr ≠ HAND_STAT_LOG_ATTN.addr)
    (h' : p.addr + 4 ≠ HAND_LOG_COUNT_COUNT.addr ∧ p.addr + 4 ≠ HAND_STAT_LOG_ATTN.addr) :
    (s.logEvent c v a).pair p = s.pair p := by
  simp only [State.pair, logEvent_reg s c v a h.1 h.2, logEvent_reg s c v a h'.1 h'.2]

/-- The same for an ignored access. -/
theorem ignored_reg (s : State) (a : Nat) {b : Nat} (h : b ≠ HAND_LOG_COUNT_COUNT.addr) (h' : b ≠ HAND_STAT_LOG_ATTN.addr) :
    (s.ignored a).reg b = s.reg b := logEvent_reg _ _ _ _ h h'

theorem ignored_fld (s : State) (a : Nat) (g : Field) (h : g.addr ≠ HAND_LOG_COUNT_COUNT.addr)
    (h' : g.addr ≠ HAND_STAT_LOG_ATTN.addr) : (s.ignored a).fld g = s.fld g := logEvent_fld _ _ _ _ _ h h'

/-- An event of a severity above INFO advances the count, by one, past 0 (R211). -/
theorem logEvent_count (s : State) (c v a : Nat) (hw : s.flag SUP_STAT_WDOG = false) (hv : v ≠ sevInfo) :
    (s.logEvent c v a).fld HAND_LOG_COUNT_COUNT =
      if s.fld HAND_LOG_COUNT_COUNT = 2 ^ 32 - 1 then 1 else s.fld HAND_LOG_COUNT_COUNT + 1 := by
  have hlt : s.fld HAND_LOG_COUNT_COUNT < 2 ^ 32 := Nat.mod_lt _ (by decide)
  have hx : (if s.fld HAND_LOG_COUNT_COUNT = 2 ^ 32 - 1 then 1 else s.fld HAND_LOG_COUNT_COUNT + 1) < 2 ^ 32 := by
    split <;> omega
  generalize he : (if s.fld HAND_LOG_COUNT_COUNT = 2 ^ 32 - 1 then 1 else s.fld HAND_LOG_COUNT_COUNT + 1) = x at hx ⊢
  have key : ∀ (t : State), (t.setFld HAND_LOG_COUNT_COUNT x).fld HAND_LOG_COUNT_COUNT = x := fun t => by
    rw [fld_setFld_self t HAND_LOG_COUNT_COUNT x (by decide)]
    exact Nat.mod_eq_of_lt hx
  unfold State.logEvent
  simp only [hw, he, hv, false_and, if_false, Bool.false_eq_true]
  split
  · rw [fld_setFld_addr _ _ (by decide)]; exact key s
  · split
    · change (((s.setFld HAND_LOG_COUNT_COUNT x).setFld HAND_STAT_LOG_FATAL 1)).fld HAND_LOG_COUNT_COUNT = _
      rw [fld_setFld_addr _ _ (by decide)]; exact key s
    · exact key s

/-- An ATTENTION event sets HAND_STAT.LOG_ATTN (R212). -/
theorem logEvent_attention (s : State) (c a : Nat) (hw : s.flag SUP_STAT_WDOG = false) :
    (s.logEvent c sevAttention a).flag HAND_STAT_LOG_ATTN = true := by
  unfold State.logEvent
  simp only [hw, sevAttention, sevInfo, Nat.one_ne_zero, false_and, if_false, if_true, Bool.false_eq_true]
  exact flag_setFld_one _ _

/-- A FATAL event sets HAND_STAT.LOG_FATAL (R212). -/
theorem logEvent_fatal (s : State) (c a : Nat) (hw : s.flag SUP_STAT_WDOG = false) :
    (s.logEvent c sevFatal a).flag HAND_STAT_LOG_FATAL = true := by
  unfold State.logEvent
  simp only [hw, sevAttention, sevInfo, sevFatal, OfNat.ofNat_ne_zero, false_and, if_false, if_true, Bool.false_eq_true,
    OfNat.ofNat_ne_one]
  exact flag_setFld_one _ _

end Sys2Proof.Machine
end

