-- ==== Sys2Proof/Laws/Frame.lean ====
section
/-! SUPPORT. How the frames of Safety.lean are built: fields of registers and parts of the state kept by the updates of a
command, one update at a time, and by settling. -/

namespace Sys2Proof

open Sys2Proof.Machine

/-! ### Fields -/

theorem KeepsFields.refl (w : List Field) (s : State) : KeepsFields w s s := fun _ _ _ => rfl

/-- Settling writes no quiet field. -/
theorem KeepsFields.settle {w : List Field} {s u : State} (h : KeepsFields w s u) : KeepsFields w s u.settle :=
  fun f hq hw => by rw [settle_fld u f hq, h f hq hw]

/-- A field that may be written is written. -/
theorem KeepsFields.setFld {w : List Field} {s u : State} (f : Field) (x : Nat) (h : KeepsFields w s u) (hf : f ∈ w) :
    KeepsFields w s (u.setFld f x) := fun g hq hw => by
  rw [fld_setFld_ne u x (by rcases hw f hf with a | a | a <;> omega), h g hq hw]

/-- A register that may be written is written. -/
theorem KeepsFields.setReg {w : List Field} {s u : State} (a : Nat) (v : Word) (h : KeepsFields w s u) (hf : wholeReg a ∈ w)
    : KeepsFields w s (u.setReg a v) := fun g hq hw => by
  by_cases e : g.addr = a
  · have : g.width = 0 ∨ 32 ≤ g.lo := by
      rcases hw _ hf with b | b | b
      · exact absurd e b
      · exact .inr (by simpa [wholeReg] using b)
      · exact .inl (by simp only [wholeReg] at b; omega)
    have z : ∀ t : State, t.fld g = 0 := fun t => by
      rcases this with b | b
      · simp [State.fld, wordBits, b, Nat.mod_one]
      · have : (t.reg g.addr).toNat >>> g.lo = 0 := by
          rw [Nat.shiftRight_eq_div_pow]
          exact Nat.div_eq_of_lt (Nat.lt_of_lt_of_le (t.reg g.addr).isLt (Nat.pow_le_pow_right (by decide) b))
        simp [State.fld, wordBits, this]
    rw [z, z]
  · rw [fld_setReg_ne u a v e, h g hq hw]

/-- A pair that may be written is written. -/
theorem KeepsFields.setPair {w : List Field} {s u : State} (p : Pair) (x : Nat) (h : KeepsFields w s u)
    (h1 : wholeReg p.addr ∈ w) (h2 : wholeReg (p.addr + 4) ∈ w) : KeepsFields w s (u.setPair p x) :=
  (h.setReg _ _ h1).setReg _ _ h2

/-- Another part of the state changes. -/
theorem KeepsFields.of_regs {w : List Field} {s u v : State} (h : KeepsFields w s u) (e : v.regs = u.regs) : KeepsFields w s v :=
  fun g hq hw => by rw [← h g hq hw]; simp only [State.fld, State.reg, e]

/-- An event is logged. -/
theorem KeepsFields.logEvent {w : List Field} {s u : State} (c v a : Nat) (h : KeepsFields w s u)
    (hw : ∀ f ∈ logFields, f ∈ w) : KeepsFields w s (u.logEvent c v a) := by
  have h1 := hw HAND_LOG_COUNT_COUNT (by decide)
  unfold State.logEvent
  split
  · exact h
  · simp only
    split
    · exact h.of_regs rfl
    · split
      · exact ((h.setFld _ _ h1).of_regs rfl).setFld _ _ (hw HAND_STAT_LOG_ATTN (by decide))
      · split
        · exact (((h.setFld _ _ h1).of_regs rfl).setFld _ _ (hw HAND_STAT_LOG_FATAL (by decide))).of_regs rfl
        · exact (h.setFld _ _ h1).of_regs rfl

/-- More fields may be written. -/
theorem KeepsFields.mono {w w' : List Field} {s t : State} (h : KeepsFields w s t) (hw : ∀ f ∈ w, f ∈ w') : KeepsFields w' s t :=
  fun g hq hg => h g hq (fun f hf => hg f (hw f hf))

/-- One update after another. -/
theorem KeepsFields.trans {w : List Field} {s t u : State} (h : KeepsFields w s t) (h' : KeepsFields w t u) : KeepsFields w s u :=
  fun g hq hg => (h' g hq hg).trans (h g hq hg)

/-! ### Parts and messages -/

/-- Settling changes the derived signals alone. -/
theorem SameParts.settle {v u : State} (h : u = { v with regs := u.regs, out := u.out }) : SameParts v u.settle := by
  obtain ⟨r, b, o, f, a, e⟩ := settle_eq u
  unfold SameParts
  rw [e]
  rw [h]

/-- Settling sends MSI-X messages alone. -/
theorem sendMsix_out (s : State) (v : Nat) : ∃ vs : List Nat, (s.sendMsix v).out = s.out ++ vs.map Out.msix := by
  unfold State.sendMsix
  split
  · split
    · exact ⟨[], by simp⟩
    · exact ⟨[v], by simp⟩
  · exact ⟨[], by simp⟩

theorem settleVector_out (s : State) (v : Nat) : ∃ vs : List Nat, (s.settleVector v).out = s.out ++ vs.map Out.msix := by
  unfold State.settleVector
  simp only
  split
  · exact ⟨[], by simp⟩
  · split
    · obtain ⟨vs, e⟩ := sendMsix_out ((s.putBit HOST_INT_REQ_REQ v (s.vectorActive v)).stick HOST_INT_PEND_PEND v) v
      exact ⟨vs, e⟩
    · exact ⟨[], by simp [putBit_eq]⟩

theorem settleVectors_out (l : List Nat) (s : State) :
    ∃ vs : List Nat, (l.foldl (fun t v => t.settleVector v) s).out = s.out ++ vs.map Out.msix := by
  induction l generalizing s with
  | nil => exact ⟨[], by simp⟩
  | cons v t ih =>
    obtain ⟨a, ha⟩ := settleVector_out s v
    obtain ⟨b, hb⟩ := ih (s.settleVector v)
    exact ⟨a ++ b, by rw [List.foldl_cons, hb, ha]; simp⟩

theorem OnlyMsix.settle {s u : State} (h : u.out = s.out) : OnlyMsix s u.settle := by
  obtain ⟨vs, e⟩ := settleVectors_out (List.range 32) u.settleFault.settleAlert
  exact ⟨vs, by rw [State.settle, e, ← h]; rfl⟩

/-- A command whose outcome settles runs as its frame says. -/
theorem Runs.done {c : Instr} {s u : State} {w : List Field} {parts : State → State} {result : State → Prop} {sent : List Out}
    (hc : exec c s = Machine.done u) (hr : result u.settle) (hw : KeepsFields w s u)
    (hp : u = { parts u.settle with regs := u.regs, out := u.out }) (ho : u.out = s.out ++ sent) :
    Runs c s w parts result sent :=
  ⟨u.settle, hc, hr, hw.settle, SameParts.settle hp, OnlyMsix.settle ho⟩

end Sys2Proof
end

