-- ==== Sys2Proof/Laws/Calc.lean ====
section
/-! SUPPORT. Reading fields through the updates of a command. Each lemma carries the side conditions that concrete fields decide, so
that a simp call with the discharger decide evaluates a field of an outcome. -/

namespace Sys2Proof.Machine

/-! ### A state with the registers of another -/

section
variable (s : State) (holdLo : List (Nat × Word)) (capture : List (Nat × Word)) (rdata : List Word) (out : List Out) (pins : Pins)
    (img : ImageCfg) (deal : DealState) (conv : ConvState) (dealer : List (Nat × Dealer)) (hand : HandState) (host
    : HostState) (imgDone : Bool) (halted : Bool) (railsBad : Bool) (lastFatal : Nat × Nat) (links : Nat) (sdram :
    List (Nat × Byte)) (time : TimeState) (trig : TrigState) (cap : CapState) (zoom : ZoomState) (eth : EthState)
    (kit : KitState) (mem : MemState) (pot : PotState) (clk : ClockState) (linkDegr : Nat) (disp : DispState)
    (boot : BootState) (test : TestState) (ports : PortState) (dmaTurn : Nat) (free : Nat) (pending : List Instr)

theorem reg_mk (a : Nat) : (State.mk s.regs holdLo capture rdata out pins img deal conv dealer hand host imgDone halted railsBad
    lastFatal links sdram time trig cap zoom eth kit mem pot clk linkDegr disp boot test ports dmaTurn free
    pending).reg a = s.reg a := rfl
theorem fld_mk (f : Field) : (State.mk s.regs holdLo capture rdata out pins img deal conv dealer hand host imgDone halted railsBad
    lastFatal links sdram time trig cap zoom eth kit mem pot clk linkDegr disp boot test ports dmaTurn free
    pending).fld f = s.fld f := rfl
theorem flag_mk (f : Field) : (State.mk s.regs holdLo capture rdata out pins img deal conv dealer hand host imgDone halted railsBad
    lastFatal links sdram time trig cap zoom eth kit mem pot clk linkDegr disp boot test ports dmaTurn free
    pending).flag f = s.flag f := rfl
theorem bitSet_mk (f : Field) (i : Nat) : (State.mk s.regs holdLo capture rdata out pins img deal conv dealer hand host imgDone halted railsBad
    lastFatal links sdram time trig cap zoom eth kit mem pot clk linkDegr disp boot test ports dmaTurn free
    pending).bitSet f i = s.bitSet f i := rfl
theorem pair_mk (p : Pair) : (State.mk s.regs holdLo capture rdata out pins img deal conv dealer hand host imgDone halted railsBad
    lastFatal links sdram time trig cap zoom eth kit mem pot clk linkDegr disp boot test ports dmaTurn free
    pending).pair p = s.pair p := rfl
theorem keeps_mk {w : List Field} {v : State} (h : KeepsFields w v s) : KeepsFields w v (State.mk s.regs holdLo capture rdata out pins img deal conv dealer hand host imgDone halted railsBad
    lastFatal links sdram time trig cap zoom eth kit mem pot clk linkDegr disp boot test ports dmaTurn free
    pending) := h.of_regs rfl

end

/-! ### After one update -/

theorem fld_setFld_eq (s : State) (f : Field) (x : Nat) (h : f.lo + f.width ≤ 32) : (s.setFld f x).fld f = x % 2 ^ f.width :=
  fld_setFld_self s f x h

theorem flag_set (s : State) (f : Field) (h : f.lo + f.width ≤ 32) (hw : 0 < f.width) : (s.setFld f 1).flag f = true :=
  flag_setFld_one s f h hw

theorem flag_clear (s : State) (f : Field) (h : f.lo + f.width ≤ 32) : (s.setFld f 0).flag f = false := by
  simp [State.flag, fld_setFld_self s f 0 h]

theorem flag_put (s : State) (f : Field) (b : Bool) (h : f.lo + f.width ≤ 32) (hw : f.width = 1) :
    (s.setFld f (b2n b)).flag f = b := flag_setFld_b2n s f b h hw

theorem flag_setPair (s : State) (p : Pair) (x : Nat) (g : Field) (h : g.addr ≠ p.addr) (h' : g.addr ≠ p.addr + 4) :
    (s.setPair p x).flag g = s.flag g := flag_congr (fld_setPair_ne s p x h h')

theorem flag_setReg (s : State) (a : Nat) (v : Word) (g : Field) (h : g.addr ≠ a) : (s.setReg a v).flag g = s.flag g :=
  flag_congr (fld_setReg_ne s a v h)

theorem fld_setReg_eq (s : State) (a : Nat) (v : Word) (g : Field) (h : g.addr = a) :
    (s.setReg a v).fld g = wordBits v g.lo g.width := by
  subst h
  exact fld_setReg_self s v g

theorem pair_setReg_ne (s : State) (a : Nat) (v : Word) (p : Pair) (h : p.addr ≠ a) (h' : p.addr + 4 ≠ a) :
    (s.setReg a v).pair p = s.pair p := by
  simp [State.pair, h, h']

theorem pair_setPair_ne (s : State) (q : Pair) (x : Nat) (p : Pair)
    (h : p.addr ≠ q.addr ∧ p.addr ≠ q.addr + 4 ∧ p.addr + 4 ≠ q.addr ∧ p.addr + 4 ≠ q.addr + 4) :
    (s.setPair q x).pair p = s.pair p := by
  simp [State.pair, reg_setPair_ne, h]

/-- After an event is logged, only its own fields and its log differ. -/
theorem logEvent_parts (s : State) (c v a : Nat) :
    s.logEvent c v a =
      { withLogOf s (s.logEvent c v a) with regs := (s.logEvent c v a).regs } := by
  obtain ⟨r, l, f, h⟩ := logEvent_eq s c v a
  rw [h]; rfl

/-- Logging at ATTENTION sets LOG_ATTN outside WDOG (R212). -/
theorem logEvent_attn (s : State) (c a : Nat) (h : s.flag SUP_STAT_WDOG = false) :
    (s.logEvent c sevAttention a).flag HAND_STAT_LOG_ATTN = true := by
  unfold State.logEvent
  rw [if_neg (by simp [h])]
  simp only
  rw [if_neg (by simp [sevAttention, sevInfo]), if_pos trivial]
  exact flag_setFld_one _ _

end Sys2Proof.Machine
end

