-- ==== Sys2Proof/Laws/Memory.lean ====
section
/-! SUPPORT. Laws of capture SDRAM: what a byte reads after bytes are written, and that every operation keeps the canonical
form. -/

namespace Sys2Proof.Machine

/-- Everything that writing a byte can change. -/
theorem sdPut_eq (s : State) (o : Nat) (b : Byte) :
    s.sdPut o b = { s with sdram := if o < s.capacity then sparseSet sdramDefault s.sdram o b else s.sdram } := by
  unfold State.sdPut
  split <;> rfl

/-- Everything that writing bytes can change. -/
theorem sdWrite_eq (s : State) (a : Nat) (bs : List Byte) : ∃ m, s.sdWrite a bs = { s with sdram := m } := by
  induction bs generalizing s a with
  | nil => exact ⟨s.sdram, rfl⟩
  | cons b t ih =>
    unfold State.sdWrite
    obtain ⟨m, h⟩ := ih (if sdramBase ≤ a then s.sdPut (a - sdramBase) b else s) (a + 1)
    refine ⟨m, ?_⟩
    rw [h]
    split
    · rw [sdPut_eq]
    · rfl

/-- Registers stay. -/
@[simp] theorem sdWrite_reg (s : State) (a : Nat) (bs : List Byte) (r : Nat) : (s.sdWrite a bs).reg r = s.reg r := by
  obtain ⟨m, h⟩ := sdWrite_eq s a bs; rw [h]; rfl

/-- Fields stay. -/
@[simp] theorem sdWrite_fld (s : State) (a : Nat) (bs : List Byte) (f : Field) : (s.sdWrite a bs).fld f = s.fld f := by
  obtain ⟨m, h⟩ := sdWrite_eq s a bs; rw [h]; rfl

/-- The capacity stays. -/
@[simp] theorem sdWrite_capacity (s : State) (a : Nat) (bs : List Byte) : (s.sdWrite a bs).capacity = s.capacity := by
  obtain ⟨m, h⟩ := sdWrite_eq s a bs; rw [h]; rfl

/-- The capacity stays. -/
@[simp] theorem sdPut_capacity (s : State) (o : Nat) (b : Byte) : (s.sdPut o b).capacity = s.capacity := by
  rw [sdPut_eq]; rfl

/-- A byte after a byte is written. -/
theorem sdByte_sdPut (s : State) (o : Nat) (b : Byte) (j : Nat) :
    (s.sdPut o b).sdByte j = if j = o ∧ o < s.capacity then b else s.sdByte j := by
  unfold State.sdByte
  rw [sdPut_capacity, sdPut_eq]
  by_cases h : j < s.capacity
  · by_cases ho : o < s.capacity
    · by_cases hj : j = o
      · simp [h, ho, hj]
      · simp [h, ho, hj]
    · have : j ≠ o := by omega
      simp [h, ho]
  · have : ¬ (j = o ∧ o < s.capacity) := by omega
    simp [h, this]

/-- A byte outside those written. -/
theorem sdByte_sdWrite_out (s : State) (a : Nat) (bs : List Byte) (j : Nat)
    (h : j + sdramBase < a ∨ a + bs.length ≤ j + sdramBase) : (s.sdWrite a bs).sdByte j = s.sdByte j := by
  induction bs generalizing s a with
  | nil => rfl
  | cons b t ih =>
    unfold State.sdWrite
    rw [ih _ _ (by simp only [List.length_cons] at h; omega)]
    split
    · next hb =>
      rw [sdByte_sdPut]
      have : ¬ (j = a - sdramBase ∧ a - sdramBase < s.capacity) := by simp only [List.length_cons] at h; omega
      simp [this]
    · rfl

/-- A byte among those written, within capacity. -/
theorem sdByte_sdWrite_in (s : State) (a : Nat) (bs : List Byte) (i : Nat) (ha : sdramBase ≤ a) (hi : i < bs.length)
    (hc : a + i < sdramBase + s.capacity) : (s.sdWrite a bs).sdByte (a + i - sdramBase) = bs.getD i 0 := by
  induction bs generalizing s a i with
  | nil => simp at hi
  | cons b t ih =>
    unfold State.sdWrite
    simp only [ha, if_true]
    cases i with
    | zero =>
      rw [sdByte_sdWrite_out _ _ _ _ (by omega), sdByte_sdPut]
      have : a + 0 - sdramBase = a - sdramBase ∧ a - sdramBase < s.capacity := by omega
      simp [this]
    | succ n =>
      have e : a + (n + 1) - sdramBase = a + 1 + n - sdramBase := by omega
      rw [e, ih (s.sdPut (a - sdramBase) b) (a + 1) n (by omega) (by simpa using hi) (by simp; omega)]
      simp

/-! ### The canonical form -/

/-- Writing a byte keeps the canonical form. -/
theorem wf_sdPut (s : State) (o : Nat) (b : Byte) (h : Memory.wf s.sdram = true) : Memory.wf (s.sdPut o b).sdram = true := by
  rw [sdPut_eq]
  simp only
  split
  · exact sparseWf_set _ _ h
  · exact h

/-- Writing bytes keeps the canonical form. -/
theorem wf_sdWrite (s : State) (a : Nat) (bs : List Byte) (h : Memory.wf s.sdram = true) :
    Memory.wf (s.sdWrite a bs).sdram = true := by
  induction bs generalizing s a with
  | nil => exact h
  | cons b t ih =>
    unfold State.sdWrite
    apply ih
    split
    · exact wf_sdPut s _ b h
    · exact h

/-- Losing bytes (R366, R369) keeps the canonical form. -/
theorem wf_filter {m : List Host.Cell} (f : Host.Cell → Bool) (h : Memory.wf m = true) : Memory.wf (m.filter f) = true :=
  sparseWf_filter f h

/-- Memory after reset is canonical. -/
theorem wf_reset : Memory.wf State.reset.sdram = true := rfl

end Sys2Proof.Machine
end

