-- ==== Sys2Proof/Laws/PerInstr.lean ====
section
/-! SUPPORT. Statements made of every command as syntax, with one lemma for each constructor. -/

namespace Sys2Proof.Laws.Unspelled

/-- No word spells the command: the opcode table gives no row any bits. -/
def Statement (c : Instr) : Prop := ∀ nbits w : Nat, decodeTableWord nbits w ≠ some c

theorem registerWrite (src : Source) (addr : Nat) (bytes : Nat) (value : Word) : Statement (.registerWrite src addr bytes value) := fun _ _ h => nomatch h
theorem closePoint : Statement (.closePoint) := fun _ _ h => nomatch h
theorem dealTick (ms : Nat) : Statement (.dealTick ms) := fun _ _ h => nomatch h
theorem stageGateWrite (gate : Bool) : Statement (.stageGateWrite gate) := fun _ _ h => nomatch h
theorem stageRelease : Statement (.stageRelease) := fun _ _ h => nomatch h
theorem amendmentSubmit (hi : Word) : Statement (.amendmentSubmit hi) := fun _ _ h => nomatch h
theorem amendmentChecked : Statement (.amendmentChecked) := fun _ _ h => nomatch h
theorem amdCancel : Statement (.amdCancel) := fun _ _ h => nomatch h
theorem dealWorkLate (leader : Fin 1024) (deal : Nat) : Statement (.dealWorkLate leader deal) := fun _ _ h => nomatch h
theorem overrun (leader : Fin 1024) (deal : Nat) : Statement (.overrun leader deal) := fun _ _ h => nomatch h
theorem sclkLost : Statement (.sclkLost) := fun _ _ h => nomatch h
theorem calDwellEnd (input : Fin 4) (meas : CalMeasure) : Statement (.calDwellEnd input meas) := fun _ _ h => nomatch h
theorem calReq (input : Fin 4) : Statement (.calReq input) := fun _ _ h => nomatch h
theorem calHoldWrite (input : Fin 4) (hold : Bool) : Statement (.calHoldWrite input hold) := fun _ _ h => nomatch h
theorem snapshotGo (input : Fin 4) (lenM1 : BitVec 15) : Statement (.snapshotGo input lenM1) := fun _ _ h => nomatch h
theorem snapshotFillStart (input : Fin 4) : Statement (.snapshotFillStart input) := fun _ _ h => nomatch h
theorem snapshotFillEnd (input : Fin 4) : Statement (.snapshotFillEnd input) := fun _ _ h => nomatch h
theorem snapshotRetire (input : Fin 4) : Statement (.snapshotRetire input) := fun _ _ h => nomatch h
theorem rawTapEntry (input : Fin 4) (entry : Int) (samples : List Int) : Statement (.rawTapEntry input entry samples) := fun _ _ h => nomatch h
theorem dealerHop (input : Fin 4) (samples : List Int) : Statement (.dealerHop input samples) := fun _ _ h => nomatch h
theorem coefDataRead (input : Fin 4) : Statement (.coefDataRead input) := fun _ _ h => nomatch h
theorem taskDispatch (p : Fin 1088) (up : Upset) : Statement (.taskDispatch p up) := fun _ _ h => nomatch h
theorem load (p : Fin 1088) (slot : LdSlot) (ecc : Ecc) : Statement (.load p slot ecc) := fun _ _ h => nomatch h
theorem st (p : Fin 1088) (slot : StSlot) : Statement (.st p slot) := fun _ _ h => nomatch h
theorem stAdd (p : Fin 1088) (slot : StSlot) (ecc : Ecc) : Statement (.stAdd p slot ecc) := fun _ _ h => nomatch h
theorem stHist (p : Fin 1088) (slot : StSlot) : Statement (.stHist p slot) := fun _ _ h => nomatch h
theorem push (p : Fin 1088) (slot : StSlot) : Statement (.push p slot) := fun _ _ h => nomatch h
theorem cmul (p : Fin 1088) (slot : AluSlot) : Statement (.cmul p slot) := fun _ _ h => nomatch h
theorem pwr (p : Fin 1088) (slot : AluSlot) : Statement (.pwr p slot) := fun _ _ h => nomatch h
theorem add (p : Fin 1088) (slot : AluSlot) : Statement (.add p slot) := fun _ _ h => nomatch h
theorem sub (p : Fin 1088) (slot : AluSlot) : Statement (.sub p slot) := fun _ _ h => nomatch h
theorem ldv (p : Fin 1088) (slot : AluSlot) : Statement (.ldv p slot) := fun _ _ h => nomatch h
theorem clr (p : Fin 1088) (slot : AluSlot) : Statement (.clr p slot) := fun _ _ h => nomatch h
theorem cselMax (p : Fin 1088) (slot : AluSlot) : Statement (.cselMax p slot) := fun _ _ h => nomatch h
theorem cselMin (p : Fin 1088) (slot : AluSlot) : Statement (.cselMin p slot) := fun _ _ h => nomatch h
theorem log2 (p : Fin 1088) (slot : AluSlot) : Statement (.log2 p slot) := fun _ _ h => nomatch h
theorem exp (p : Fin 1088) (slot : AluSlot) : Statement (.exp p slot) := fun _ _ h => nomatch h
theorem norm (p : Fin 1088) (slot : AluSlot) : Statement (.norm p slot) := fun _ _ h => nomatch h
theorem bfly4 (p : Fin 1088) (slot : AluSlot) : Statement (.bfly4 p slot) := fun _ _ h => nomatch h
theorem bfly2 (p : Fin 1088) (slot : AluSlot) : Statement (.bfly2 p slot) := fun _ _ h => nomatch h
theorem move (p : Fin 1088) (slot : MvSlot) : Statement (.move p slot) := fun _ _ h => nomatch h
theorem vperm (p : Fin 1088) (slot : MvSlot) : Statement (.vperm p slot) := fun _ _ h => nomatch h
theorem moveExp (p : Fin 1088) (slot : MvSlot) : Statement (.moveExp p slot) := fun _ _ h => nomatch h
theorem setsc (p : Fin 1088) (slot : CtlSlot) : Statement (.setsc p slot) := fun _ _ h => nomatch h
theorem setscB (p : Fin 1088) (slot : CtlSlot) : Statement (.setscB p slot) := fun _ _ h => nomatch h
theorem setscE (p : Fin 1088) (slot : CtlSlot) : Statement (.setscE p slot) := fun _ _ h => nomatch h
theorem bexpClr (p : Fin 1088) (slot : CtlSlot) : Statement (.bexpClr p slot) := fun _ _ h => nomatch h
theorem agBase (p : Fin 1088) (slot : CtlSlot) : Statement (.agBase p slot) := fun _ _ h => nomatch h
theorem agOff (p : Fin 1088) (slot : CtlSlot) : Statement (.agOff p slot) := fun _ _ h => nomatch h
theorem agStep (p : Fin 1088) (slot : CtlSlot) : Statement (.agStep p slot) := fun _ _ h => nomatch h
theorem agLstr (p : Fin 1088) (slot : CtlSlot) : Statement (.agLstr p slot) := fun _ _ h => nomatch h
theorem agMod (p : Fin 1088) (slot : CtlSlot) : Statement (.agMod p slot) := fun _ _ h => nomatch h
theorem agBr (p : Fin 1088) (slot : CtlSlot) : Statement (.agBr p slot) := fun _ _ h => nomatch h
theorem agInwin (p : Fin 1088) (slot : CtlSlot) : Statement (.agInwin p slot) := fun _ _ h => nomatch h
theorem agParam (p : Fin 1088) (slot : CtlSlot) : Statement (.agParam p slot) := fun _ _ h => nomatch h
theorem agCarry (p : Fin 1088) (slot : CtlSlot) : Statement (.agCarry p slot) := fun _ _ h => nomatch h
theorem tw (p : Fin 1088) (slot : CtlSlot) : Statement (.tw p slot) := fun _ _ h => nomatch h
theorem twInc (p : Fin 1088) (slot : CtlSlot) : Statement (.twInc p slot) := fun _ _ h => nomatch h
theorem idxr (p : Fin 1088) (slot : CtlSlot) : Statement (.idxr p slot) := fun _ _ h => nomatch h
theorem hb (p : Fin 1088) (slot : CtlSlot) : Statement (.hb p slot) := fun _ _ h => nomatch h
theorem hm (p : Fin 1088) (slot : CtlSlot) : Statement (.hm p slot) := fun _ _ h => nomatch h
theorem hl (p : Fin 1088) (slot : CtlSlot) : Statement (.hl p slot) := fun _ _ h => nomatch h
theorem xpub (p : Fin 1088) (slot : CtlSlot) : Statement (.xpub p slot) := fun _ _ h => nomatch h
theorem xwait (p : Fin 1088) (slot : CtlSlot) : Statement (.xwait p slot) := fun _ _ h => nomatch h
theorem xwaitSatisfied (p : Fin 1088) : Statement (.xwaitSatisfied p) := fun _ _ h => nomatch h
theorem ropen (p : Fin 1088) (slot : CtlSlot) : Statement (.ropen p slot) := fun _ _ h => nomatch h
theorem rclose (p : Fin 1088) (slot : CtlSlot) : Statement (.rclose p slot) := fun _ _ h => nomatch h
theorem carrySet (p : Fin 1088) (slot : CtlSlot) : Statement (.carrySet p slot) := fun _ _ h => nomatch h
theorem carryAdd (p : Fin 1088) (slot : CtlSlot) : Statement (.carryAdd p slot) := fun _ _ h => nomatch h
theorem nextWord (p : Fin 1088) (up : Upset) : Statement (.nextWord p up) := fun _ _ h => nomatch h
theorem repeatLoop (p : Fin 1088) (count : BitVec 16) (stop : BitVec 14) (up : Upset) : Statement (.repeatLoop p count stop up) := fun _ _ h => nomatch h
theorem jmp (p : Fin 1088) (target : BitVec 14) (up : Upset) : Statement (.jmp p target up) := fun _ _ h => nomatch h
theorem br (p : Fin 1088) (cond : Fin 16) (target : BitVec 14) (up : Upset) : Statement (.br p cond target up) := fun _ _ h => nomatch h
theorem commit (p : Fin 1088) (ends : Bool) (target : BitVec 14) (up : Upset) : Statement (.commit p ends target up) := fun _ _ h => nomatch h
theorem resultFifoDrain (p : Fin 1088) : Statement (.resultFifoDrain p) := fun _ _ h => nomatch h
theorem routineRestart (p : Fin 1088) (bad : List SharedWord) (up : Upset) : Statement (.routineRestart p bad up) := fun _ _ h => nomatch h
theorem issueWatchdog (p : Fin 1088) : Statement (.issueWatchdog p) := fun _ _ h => nomatch h
theorem takeoverComplete (logical : Fin 1024) (ns : Nat) (bad : List Nat) (shared : List SharedWord) : Statement (.takeoverComplete logical ns bad shared) := fun _ _ h => nomatch h
theorem handForce (value : Word) : Statement (.handForce value) := fun _ _ h => nomatch h
theorem handCfgWrite (value : Word) : Statement (.handCfgWrite value) := fun _ _ h => nomatch h
theorem recordRelease : Statement (.recordRelease) := fun _ _ h => nomatch h
theorem recordAbsent (deal : Nat) : Statement (.recordAbsent deal) := fun _ _ h => nomatch h
theorem fmtEventArrival (index : Nat) : Statement (.fmtEventArrival index) := fun _ _ h => nomatch h
theorem arbitrationWindowClose (scope : Fin 5) : Statement (.arbitrationWindowClose scope) := fun _ _ h => nomatch h
theorem pksMerge (product : Fin 256) (deal : Nat) (scope : Fin 5) : Statement (.pksMerge product deal scope) := fun _ _ h => nomatch h
theorem zoomSegment (chain : Fin 16) : Statement (.zoomSegment chain) := fun _ _ h => nomatch h
theorem zcSettleEnd (chain : Fin 16) : Statement (.zcSettleEnd chain) := fun _ _ h => nomatch h
theorem zcPowerValue (chain : Fin 16) : Statement (.zcPowerValue chain) := fun _ _ h => nomatch h
theorem edgeTimed (channel : Fin 20) (count : BitVec 48) (code : BitVec 9) (x : Crossing) : Statement (.edgeTimed channel count code x) := fun _ _ h => nomatch h
theorem timeoutFire (slot : Fin 8) (isB : Bool) : Statement (.timeoutFire slot isB) := fun _ _ h => nomatch h
theorem todFire (g : Fin 4) : Statement (.todFire g) := fun _ _ h => nomatch h
theorem trgForce (mask : BitVec 8) (idx : Int) : Statement (.trgForce mask idx) := fun _ _ h => nomatch h
theorem trigOutAssert (o : Fin 2) (late : Bool) : Statement (.trigOutAssert o late) := fun _ _ h => nomatch h
theorem trigOutRelease (o : Fin 2) : Statement (.trigOutRelease o) := fun _ _ h => nomatch h
theorem triggerArrival (unit : Fin 8) (ns : Nat) : Statement (.triggerArrival unit ns) := fun _ _ h => nomatch h
theorem captureRowComplete (unit : Fin 8) (acked : Nat) : Statement (.captureRowComplete unit acked) := fun _ _ h => nomatch h
theorem segmentComplete (unit : Fin 8) : Statement (.segmentComplete unit) := fun _ _ h => nomatch h
theorem acceptanceWindowClose (channel : Fin 20) : Statement (.acceptanceWindowClose channel) := fun _ _ h => nomatch h
theorem secondBoundary : Statement (.secondBoundary) := fun _ _ h => nomatch h
theorem gridMarker (die : Fin 2) (k : Int) (count : BitVec 48) (code : BitVec 9) : Statement (.gridMarker die k count code) := fun _ _ h => nomatch h
theorem codeDensityRefresh (channel : Fin 20) (hits : List Nat) : Statement (.codeDensityRefresh channel hits) := fun _ _ h => nomatch h
theorem resync : Statement (.resync) := fun _ _ h => nomatch h
theorem timeEpochSet (hi : Word) : Statement (.timeEpochSet hi) := fun _ _ h => nomatch h
theorem refLost (quiet edges : Nat) : Statement (.refLost quiet edges) := fun _ _ h => nomatch h
theorem refRequal (windows fewest most : Nat) : Statement (.refRequal windows fewest most) := fun _ _ h => nomatch h
theorem relockComplete (locked : BitVec 4) (ns : Nat) : Statement (.relockComplete locked ns) := fun _ _ h => nomatch h
theorem cgUnlock (m : Fin 4) : Statement (.cgUnlock m) := fun _ _ h => nomatch h
theorem cgBandSearch (m : Fin 4) (band : Option (BitVec 6)) (ns : Nat) : Statement (.cgBandSearch m band ns) := fun _ _ h => nomatch h
theorem cgMdll2CfgWrite (value : Word) : Statement (.cgMdll2CfgWrite value) := fun _ _ h => nomatch h
theorem clkoutCfgWrite (o : Fin 3) (value : Word) : Statement (.clkoutCfgWrite o value) := fun _ _ h => nomatch h
theorem phaseStep (o : Fin 7) : Statement (.phaseStep o) := fun _ _ h => nomatch h
theorem dieLinkRetransmit (link : Fin 6) : Statement (.dieLinkRetransmit link) := fun _ _ h => nomatch h
theorem linkFail (link : Fin 6) : Statement (.linkFail link) := fun _ _ h => nomatch h
theorem memoryRequest (off : Nat) (write : Option (List Byte)) (cls : Fin 8) (ecc : Fin 3) (served : Nat) : Statement (.memoryRequest off write cls ecc served) := fun _ _ h => nomatch h
theorem refreshDue (sub : Fin 16) (rank : Fin 2) (bank : Fin 4) : Statement (.refreshDue sub rank bank) := fun _ _ h => nomatch h
theorem powerDownEntry (sub : Fin 16) (sr : Bool) : Statement (.powerDownEntry sub sr) := fun _ _ h => nomatch h
theorem dimmTempPoll (ch : Fin 8) (t : Int) : Statement (.dimmTempPoll ch t) := fun _ _ h => nomatch h
theorem retrainWindow (sub : Fin 16) (ends : Option Eye) : Statement (.retrainWindow sub ends) := fun _ _ h => nomatch h
theorem memcRetrain (sub : Fin 16) : Statement (.memcRetrain sub) := fun _ _ h => nomatch h
theorem memcStore : Statement (.memcStore) := fun _ _ h => nomatch h
theorem evacuationGranuleCopy (answers : Bool) (ue : List Nat) : Statement (.evacuationGranuleCopy answers ue) := fun _ _ h => nomatch h
theorem scrubStep (sub : Fin 16) (ces : Nat) (ue : List Nat) : Statement (.scrubStep sub ces ue) := fun _ _ h => nomatch h
theorem ethSignalDetect (port : Fin 2) (link : Fin 4) : Statement (.ethSignalDetect port link) := fun _ _ h => nomatch h
theorem linkUp (port : Fin 2) (link : Fin 4) : Statement (.linkUp port link) := fun _ _ h => nomatch h
theorem ethAlignTimeout (port : Fin 2) (link : Fin 4) : Statement (.ethAlignTimeout port link) := fun _ _ h => nomatch h
theorem linkDown (port : Fin 2) (link : Fin 4) (cause : Fin 3) : Statement (.linkDown port link cause) := fun _ _ h => nomatch h
theorem ethFrameReceived (port : Fin 2) (link : Fin 4) (corr : Nat) (uncorr : Nat) : Statement (.ethFrameReceived port link corr uncorr) := fun _ _ h => nomatch h
theorem packetTransmit (port : Fin 2) (link : Fin 4) (ns : Nat) : Statement (.packetTransmit port link ns) := fun _ _ h => nomatch h
theorem recordAgeExpiry (port : Fin 2) (stream : Fin 64) : Statement (.recordAgeExpiry port stream) := fun _ _ h => nomatch h
theorem spillReadBack (port : Fin 2) (ue : Option Nat) : Statement (.spillReadBack port ue) := fun _ _ h => nomatch h
theorem gapRecord (port : Fin 2) (stream : Fin 64) : Statement (.gapRecord port stream) := fun _ _ h => nomatch h
theorem statRecord (port : Fin 2) : Statement (.statRecord port) := fun _ _ h => nomatch h
theorem vdifFrame (port : Fin 2) (stream : Fin 64) : Statement (.vdifFrame port stream) := fun _ _ h => nomatch h
theorem kittyWord (word : BitVec 16) (last : Bool) : Statement (.kittyWord word last) := fun _ _ h => nomatch h
theorem kitCut : Statement (.kitCut) := fun _ _ h => nomatch h
theorem kitTagRead : Statement (.kitTagRead) := fun _ _ h => nomatch h
theorem kitDrop : Statement (.kitDrop) := fun _ _ h => nomatch h
theorem pciePerst : Statement (.pciePerst) := fun _ _ h => nomatch h
theorem hotReset (kind : Fin 3) : Statement (.hotReset kind) := fun _ _ h => nomatch h
theorem pcieLinkDown : Statement (.pcieLinkDown) := fun _ _ h => nomatch h
theorem portDataRead : Statement (.portDataRead) := fun _ _ h => nomatch h
theorem portDataWrite (value : Word) : Statement (.portDataWrite value) := fun _ _ h => nomatch h
theorem apertureAccess (off : Fin 65536) (len : Nat) (data : Option (List Byte)) : Statement (.apertureAccess off len data) := fun _ _ h => nomatch h
theorem cplLate (addr : Nat) : Statement (.cplLate addr) := fun _ _ h => nomatch h
theorem hostIntPendClear (mask : Word) : Statement (.hostIntPendClear mask) := fun _ _ h => nomatch h
theorem msixEnable (en fmask : Bool) : Statement (.msixEnable en fmask) := fun _ _ h => nomatch h
theorem dmaStart (c : Fin 16) (en ie dir : Bool) : Statement (.dmaStart c en ie dir) := fun _ _ h => nomatch h
theorem dmaStop (c : Fin 16) (ie dir : Bool) : Statement (.dmaStop c ie dir) := fun _ _ h => nomatch h
theorem dmaBurstComplete (data : List Byte) : Statement (.dmaBurstComplete data) := fun _ _ h => nomatch h
theorem dmaErr (c : Fin 16) (data : List Byte) : Statement (.dmaErr c data) := fun _ _ h => nomatch h
theorem dispHpd (up : Bool) : Statement (.dispHpd up) := fun _ _ h => nomatch h
theorem irqHpd : Statement (.irqHpd) := fun _ _ h => nomatch h
theorem dispTrainingEnd (good : Bool) : Statement (.dispTrainingEnd good) := fun _ _ h => nomatch h
theorem dispRetrain : Statement (.dispRetrain) := fun _ _ h => nomatch h
theorem lineStart (line : Fin 4096) (gotY gotC : Nat) : Statement (.lineStart line gotY gotC) := fun _ _ h => nomatch h
theorem lineMatch : Statement (.lineMatch) := fun _ _ h => nomatch h
theorem dispClosePoint : Statement (.dispClosePoint) := fun _ _ h => nomatch h
theorem frameDone : Statement (.frameDone) := fun _ _ h => nomatch h
theorem vblankStart : Statement (.vblankStart) := fun _ _ h => nomatch h
theorem frameBegin : Statement (.frameBegin) := fun _ _ h => nomatch h
theorem dispCommit : Statement (.dispCommit) := fun _ _ h => nomatch h
theorem renderStart : Statement (.renderStart) := fun _ _ h => nomatch h
theorem renderDone : Statement (.renderDone) := fun _ _ h => nomatch h
theorem powerOn (rise cool : Bool) : Statement (.powerOn rise cool) := fun _ _ h => nomatch h
theorem resetN (ns : Nat) (taken cool : Bool) : Statement (.resetN ns taken cool) := fun _ _ h => nomatch h
theorem startStepComplete (r : StepResult) : Statement (.startStepComplete r) := fun _ _ h => nomatch h
theorem supervisorWatchdog : Statement (.supervisorWatchdog) := fun _ _ h => nomatch h
theorem thermalShutdown : Statement (.thermalShutdown) := fun _ _ h => nomatch h
theorem flashRead : Statement (.flashRead) := fun _ _ h => nomatch h
theorem flashProgram : Statement (.flashProgram) := fun _ _ h => nomatch h
theorem flashErase4k : Statement (.flashErase4k) := fun _ _ h => nomatch h
theorem flashErase64k : Statement (.flashErase64k) := fun _ _ h => nomatch h
theorem flashDone (ready : Bool) : Statement (.flashDone ready) := fun _ _ h => nomatch h
theorem lcAdvance (confirm : BitVec 16) (target : Fin 8) : Statement (.lcAdvance confirm target) := fun _ _ h => nomatch h
theorem lcTransitionDone (zeroed : Bool) (left : Nat) (blown : Bool) : Statement (.lcTransitionDone zeroed left blown) := fun _ _ h => nomatch h
theorem otpKey : Statement (.otpKey) := fun _ _ h => nomatch h
theorem otpPkh : Statement (.otpPkh) := fun _ _ h => nomatch h
theorem otpSecure : Statement (.otpSecure) := fun _ _ h => nomatch h
theorem otpProgrammed : Statement (.otpProgrammed) := fun _ _ h => nomatch h
theorem iftDue (q : Fin 4) : Statement (.iftDue q) := fun _ _ h => nomatch h
theorem iftTestEnd (q : Fin 4) (lb : List (Fin 4 × BitVec 64)) (mb : List MbEntry) : Statement (.iftTestEnd q lb mb) := fun _ _ h => nomatch h
theorem iftHandback (q : Fin 4) : Statement (.iftHandback q) := fun _ _ h => nomatch h
theorem iftRun (p : Fin 2048) : Statement (.iftRun p) := fun _ _ h => nomatch h
theorem calSave : Statement (.calSave) := fun _ _ h => nomatch h
theorem calSaveDue : Statement (.calSaveDue) := fun _ _ h => nomatch h
theorem calStoreWrite (fails : Nat) : Statement (.calStoreWrite fails) := fun _ _ h => nomatch h
theorem calLoad (src : Bool) (inputs : BitVec 4) : Statement (.calLoad src inputs) := fun _ _ h => nomatch h
theorem jmapEdit (remove : Bool) (p : Fin 2048) : Statement (.jmapEdit remove p) := fun _ _ h => nomatch h
theorem testCsDataRead : Statement (.testCsDataRead) := fun _ _ h => nomatch h
theorem smbusAddr (addr : Word) (pec : Bool) : Statement (.smbusAddr addr pec) := fun _ _ h => nomatch h
theorem smbusDataRead : Statement (.smbusDataRead) := fun _ _ h => nomatch h
theorem smbusDataWrite (value : Word) (pec : Bool) : Statement (.smbusDataWrite value pec) := fun _ _ h => nomatch h
theorem smbusStatus : Statement (.smbusStatus) := fun _ _ h => nomatch h
theorem alertResponse : Statement (.alertResponse) := fun _ _ h => nomatch h
theorem telemetryUpdate (mv ma : Nat) (temps : List Int) (mj : Nat) (rail : Option (Nat × Nat)) : Statement (.telemetryUpdate mv ma temps mj rail) := fun _ _ h => nomatch h
theorem vinLow (mv : Nat) : Statement (.vinLow mv) := fun _ _ h => nomatch h
theorem overvoltageStop (mv : Nat) : Statement (.overvoltageStop mv) := fun _ _ h => nomatch h
theorem ilimit (ma : Nat) : Statement (.ilimit ma) := fun _ _ h => nomatch h
theorem overvoltageRelease : Statement (.overvoltageRelease) := fun _ _ h => nomatch h
theorem pcieLinkUp (rate : Fin 5) (width : Fin 4) : Statement (.pcieLinkUp rate width) := fun _ _ h => nomatch h
theorem unaligned : Statement (.unaligned) := fun _ _ h => nomatch h
theorem kitClkLost : Statement (.kitClkLost) := fun _ _ h => nomatch h
theorem tapInstruction (t : TapInstr) : Statement (.tapInstruction t) := fun _ _ h => nomatch h
theorem subchannelPhyFailure (sub : Fin 16) : Statement (.subchannelPhyFailure sub) := fun _ _ h => nomatch h
theorem railsNotGood : Statement (.railsNotGood) := fun _ _ h => nomatch h
theorem ppsCountedEdge (ns : Nat) (x : Crossing) : Statement (.ppsCountedEdge ns x) := fun _ _ h => nomatch h

end Sys2Proof.Laws.Unspelled
end

