-- ==== Sys2Proof/Laws/Slot.lean ====
section
/-! SUPPORT. What a slot of an engine's microword can do: it gives its result to the state that the microword's slots write, or the
microword raises a program fault; an operation that is not the next to issue changes nothing. -/

namespace Sys2Proof

open Sys2Proof.Machine

/-- An engine put back is read back. -/
@[simp] theorem engOf_setEng (s : State) (p q : Nat) (e : Engine) :
    (s.setEng p e).engOf q = if q = p then e else s.engOf q := by
  simp [State.engOf, State.setEng]

/-- A leaf put back is read back. -/
@[simp] theorem leafOf_setLeaf (s : State) (l k : Nat) (x : Leaf) :
    (s.setLeaf l x).leafOf k = if k = l then x else s.leafOf k := by
  simp [State.leafOf, State.setLeaf]

/-- Changing an engine writes no register and sends nothing. -/
theorem setEng_parts (s : State) (p : Nat) (e : Engine) :
    s.setEng p e = { s with hand := { s.hand with eng := (s.setEng p e).hand.eng } } := rfl

/-- A slot whose function gives a result takes it. -/
theorem slot_ok {s : State} {p : Nat} {op : SlotOp} {f : Engine → EngCore → EngCore → Except Nat EngCore} {core : EngCore}
    (hi : s.issuesOp p op = true) (hf : f (s.engOf p) (s.engOf p).pre (s.engOf p).cur.pop = .ok core) :
    s.slot p op f = s.setEng p { s.engOf p with cur := core } := by
  simp [State.slot, hi, hf]

/-- A slot whose function raises a fault makes it the engine's program fault. -/
theorem slot_error {s : State} {p : Nat} {op : SlotOp} {f : Engine → EngCore → EngCore → Except Nat EngCore} {code : Nat}
    (hi : s.issuesOp p op = true) (hf : f (s.engOf p) (s.engOf p).pre (s.engOf p).cur.pop = .error code) :
    s.slot p op f = s.programFault p code := by
  simp [State.slot, hi, hf]

/-- An operation that the engine does not issue next changes nothing. -/
theorem slot_idle {s : State} {p : Nat} {op : SlotOp} {f : Engine → EngCore → EngCore → Except Nat EngCore}
    (hi : s.issuesOp p op = false) : s.slot p op f = s := by
  simp [State.slot, hi]

/-- A command that changes one engine alone. -/
theorem Runs.engine {c : Instr} {s : State} {p : Nat} {e : Engine} (hc : exec c s = Machine.done (s.setEng p e)) :
    Runs c s [] (fun t => { s with hand := { s.hand with eng := t.hand.eng } })
      (fun t => t.engOf p = e ∧ ∀ q : Nat, q ≠ p → t.engOf q = s.engOf q) := by
  refine Runs.done hc ?_ ?_ ?_ ?_
  · have h : ∀ q : Nat, (s.setEng p e).settle.engOf q = if q = p then e else s.engOf q := fun q => by
      rw [show (s.setEng p e).settle.engOf q = (s.setEng p e).engOf q by simp [State.engOf], engOf_setEng]
    exact ⟨by simp [h], fun q hq => by simp [h, hq]⟩
  · exact (KeepsFields.refl _ s).of_regs rfl
  · simp [State.setEng]
  · simp [State.setEng]

/-- A slot command that gives a result. -/
theorem SlotGives.of_ok {c : Instr} {s : State} {p : Nat} {op : SlotOp} {f : Engine → EngCore → EngCore → Except Nat EngCore}
    {core : EngCore} (hc : exec c s = Machine.done (s.slot p op f)) (hi : s.issuesOp p op = true)
    (hf : f (s.engOf p) (s.engOf p).pre (s.engOf p).cur.pop = .ok core) : SlotGives c s p core :=
  Runs.engine (by rw [hc, slot_ok hi hf])

end Sys2Proof
end

section
/-! PROOFS. The statements of 00_scope.md: writes of registers and what turns them away (O7, O8), HAND_CFG (O27), timekeeping
(O36), and the read of the data port that does not give what is stored (O49). -/

namespace Sys2Proof

open Sys2Proof.Machine

/-! ### What commands of the simplest shapes do -/

/-- A command that leaves the state as it was. -/
theorem Runs.still {c : Instr} {s : State} (hc : exec c s = Machine.done s) : Runs c s [] (fun _ => s) (fun _ => True) :=
  Runs.done hc trivial (.refl _ s) rfl (by simp)

/-- A command that is recorded as ignored, and does nothing else. -/
theorem Runs.ignored {c : Instr} {s : State} {a : Nat} (hc : exec c s = Machine.done (s.ignored a)) :
    Runs c s logFields (fun t => withLogOf s t) (fun t => t.hand.log = (s.ignored a).hand.log) := by
  refine Runs.done hc (by simp) ((KeepsFields.refl _ s).logEvent _ _ _ fun _ h => h) ?_ (by simp)
  simp only [withLogOf, settle_hand, settle_lastFatal, ignored_out]
  exact logEvent_parts s 0x0009 sevInfo (a % 2 ^ 32)

/-! ### Words, bits and flags -/

/-- A field of a word, by division. -/
theorem wordBits_eq (v : Word) (lo w : Nat) : wordBits v lo w = v.toNat / 2 ^ lo % 2 ^ w := by
  rw [wordBits, Nat.shiftRight_eq_div_pow]

/-- A field of a word fits the field's width. -/
theorem wordBits_mod_self (v : Word) (lo w : Nat) : wordBits v lo w % 2 ^ w = wordBits v lo w := Nat.mod_mod _ _

/-- A bit of a register, through the field of that bit alone. -/
theorem reg_bit_congr {s t : State} {a i : Nat} (h : t.fld { addr := a, lo := i, width := 1 } = s.fld { addr := a, lo := i, width := 1 }) :
    (t.reg a).getLsbD i = (s.reg a).getLsbD i := by
  have hbit : (wordBits (t.reg a) i 1).testBit 0 = (wordBits (s.reg a) i 1).testBit 0 := congrArg (fun n => Nat.testBit n 0) h
  simpa only [testBit_wordBits, Nat.zero_lt_one, decide_true, Bool.true_and, Nat.add_zero] using hbit

/-- The bits of a word given as a number. -/
theorem getLsbD_word (n i : Nat) : (word n).getLsbD i = (decide (i < 32) && n.testBit i) := by
  rw [word, BitVec.getLsbD_ofNat]

/-- A flag of a state with the same registers. -/
theorem flag_of_regs {s t : State} {f : Field} (h : t.regs = s.regs) : t.flag f = s.flag f := by
  rw [State.flag, State.flag, State.fld, State.fld, State.reg, State.reg, h]

/-! ### HAND_CFG (O27) -/

/-- A write of HAND_CFG with a limit of 0 is recorded only. -/
theorem handCfg_refused {s : State} {v : Word} (h : wordBits v 8 4 = 0 ∨ wordBits v 0 8 = 0) :
    s.handCfg v = s.ignored HAND_CFG.addr := if_pos h

/-- Any other write of HAND_CFG stores its three fields and judges the margin. -/
theorem handCfg_stored {s : State} {v : Word} (h : wordBits v 8 4 ≠ 0) (h' : wordBits v 0 8 ≠ 0) :
    s.handCfg v =
      (((s.setFld HAND_CFG_RATE_LIMIT (wordBits v 16 8)).setFld HAND_CFG_CONSEC_LIMIT (wordBits v 8 4)).setFld
        HAND_CFG_WATCHDOG (wordBits v 0 8)).judgeMargin := if_neg (not_or.mpr ⟨h, h'⟩)

/-- Settles O27: the check of the two limits, then the three fields and MARGIN_LOW one write after another. -/
theorem handConfigurationJudgesTheMargin : Obligations.HandConfigurationJudgesTheMargin := by
  intro s v
  have hrate : v.toNat / 2 ^ 16 % 256 = wordBits v 16 8 := (wordBits_eq v 16 8).symm
  have hconsec : v.toNat / 2 ^ 8 % 16 = wordBits v 8 4 := (wordBits_eq v 8 4).symm
  have hdog : v.toNat % 256 = wordBits v 0 8 := by simp [wordBits_eq]
  simp only [hrate, hconsec, hdog]
  refine ⟨fun h => Runs.ignored (congrArg Machine.done (handCfg_refused h)), fun hc hd => ?_⟩
  refine Runs.done (congrArg Machine.done (handCfg_stored hc hd)) ⟨?_, ?_, ?_, ?_⟩ ?_ rfl (by simp [State.judgeMargin])
  · simp (disch := decide) only [settle_fld, State.judgeMargin, fld_setFld_ne, fld_setFld_eq]
    exact wordBits_mod_self v 16 8
  · simp (disch := decide) only [settle_fld, State.judgeMargin, fld_setFld_ne, fld_setFld_eq]
    exact wordBits_mod_self v 8 4
  · simp (disch := decide) only [settle_fld, State.judgeMargin, fld_setFld_ne, fld_setFld_eq]
    exact wordBits_mod_self v 0 8
  · have hfits : wordBits v 0 8 % 2 ^ HAND_CFG_WATCHDOG.width = wordBits v 0 8 := wordBits_mod_self v 0 8
    simp (disch := decide) only [settle_flag, State.judgeMargin, State.hidingBound, flag_put, fld_setFld_ne, fld_setFld_eq, hfits]
  · exact ((((KeepsFields.refl _ s).setFld _ _ (by decide)).setFld _ _ (by decide)).setFld _ _ (by decide)).setFld _ _ (by decide)

/-! ### Ports that count refused accesses (R434) -/

/-- An access of a source that counts: PORT_ERR sets and HOST_ERRS counts. -/
theorem portErr_counted (s : State) {src : Source} (hd : src ≠ .dma) (hs : src ≠ .smbus) :
    s.portErr src = (s.setFld HOST_STAT_PORT_ERR 1).addSat HOST_ERRS_PORT 1 := by
  cases src with
  | dma => exact absurd rfl hd
  | smbus => exact absurd rfl hs
  | port => rfl
  | aperture => rfl
  | bar => rfl

/-- An access of DMA does not count. -/
@[simp] theorem portErr_dma (s : State) : s.portErr .dma = s := rfl

/-- Counting a refused access changes registers alone. -/
theorem portErr_regs (s : State) (src : Source) : s.portErr src = { s with regs := (s.portErr src).regs } := by
  cases src <;> rfl

/-- Counting a refused access writes PORT_ERR and the count alone. -/
theorem KeepsFields.portErr {w : List Field} {s u : State} (src : Source) (h : KeepsFields w s u) (hf : HOST_STAT_PORT_ERR ∈ w)
    (hc : HOST_ERRS_PORT ∈ w) : KeepsFields w s (u.portErr src) := by
  have hset : KeepsFields w s ((u.setFld HOST_STAT_PORT_ERR 1).addSat HOST_ERRS_PORT 1) := (h.setFld _ _ hf).setFld _ _ hc
  cases src with
  | dma => exact h
  | smbus => exact h
  | port => exact hset
  | aperture => exact hset
  | bar => exact hset

/-- PORT_ERR after an access is refused. -/
theorem portErr_flag (s : State) {src : Source} (hs : src ≠ .smbus) :
    (s.portErr src).flag HOST_STAT_PORT_ERR = (decide (src ≠ .dma) || s.flag HOST_STAT_PORT_ERR) := by
  by_cases hd : src = .dma
  · simp [hd]
  · rw [portErr_counted s hd hs, addSat_eq, flag_setFld_ne _ _ (by decide), flag_set _ _ (by decide) (by decide)]
    simp [hd]

/-- The count after an access is refused. -/
theorem portErr_count (s : State) {src : Source} (hs : src ≠ .smbus) :
    (s.portErr src).fld HOST_ERRS_PORT =
      if decide (src ≠ .dma) then min (s.fld HOST_ERRS_PORT + 1) 0xFFFF else s.fld HOST_ERRS_PORT := by
  by_cases hd : src = .dma
  · simp [hd]
  · have hfits : min (s.fld HOST_ERRS_PORT + 1) 0xFFFF % 2 ^ 16 = min (s.fld HOST_ERRS_PORT + 1) 0xFFFF :=
      Nat.mod_eq_of_lt (by omega)
    rw [portErr_counted s hd hs, addSat_eq, fld_setFld_self _ _ _ (by decide), fld_setFld_ne _ _ (by decide),
      if_pos (by simpa using hd)]
    exact hfits

/-! ### Where a write goes (R6, R418, R551) -/

/-- Before a device is alive a write does nothing. -/
theorem writeAccess_dead {s : State} {src : Source} {a bytes : Nat} {v : Word} (h : s.alive = false) :
    s.writeAccess src a bytes v = s := if_pos (.inl h)

/-- A write through BAR0 outside the HOST block is counted only. -/
theorem writeAccess_barOutside {s : State} {a bytes : Nat} {v : Word} (h : s.alive = true) (hw : within 0xC0000 0x10000 a = false) :
    s.writeAccess .bar a bytes v = s.portErr .bar := by
  simp [State.writeAccess, h, hw]

/-- A write that may reach its address is taken as an access when it is one aligned word, and refused otherwise. -/
theorem writeAccess_reaching {s : State} {src : Source} {a bytes : Nat} {v : Word} (h : s.alive = true)
    (hbar : src = .bar → within 0xC0000 0x10000 a = true)
    (hsmb : src = .smbus → s.flag SUP_STAT_WDOG = false ∧ smbusWritable (aliased a) = true)
    (hr : s.reachable src (aliased a) = true) :
    s.writeAccess src a bytes v =
      if bytes ≠ 4 ∨ a % 4 ≠ 0 then s.refuseAccess src (aliased a) else s.accessWrite src a v := by
  unfold State.writeAccess
  rw [if_neg, if_neg, if_neg, if_neg]
  · simp [hr]
  · rintro ⟨e, hn⟩; simp [(hsmb e).2] at hn
  · rintro ⟨e, hn⟩; simp [hbar e] at hn
  · rintro (hn | ⟨e, hn⟩)
    · simp [h] at hn
    · simp [(hsmb e).1] at hn

/-- An aligned word for a register of the tables goes to that register's fields. -/
theorem accessWrite_register {s : State} {src : Source} {a : Nat} {v : Word} {r : RegSpec} {inst : List Nat}
    (hal : aliased a = a) (hreg : regionAt a = .register) (hr : s.reachable src a = true) (hdata : a = PORT_DATA.addr → src = .port)
    (hport : ¬(src = .port ∧ portReg a = true)) (hat : regAt a = some (r, inst)) :
    s.accessWrite src a v = s.writeFields r a v := by
  have hdirect : ¬(a = PORT_DATA.addr ∧ src ≠ .port) := fun h => h.2 (hdata h.1)
  simp only [State.accessWrite, if_neg hdirect, State.wordWrite, hal, hr, hreg, State.regWrite, hat, if_neg hport]
  simp

/-- A value that a register does not permit is ignored and recorded. -/
theorem writeFields_outOfRange {s : State} {r : RegSpec} {a : Nat} {v : Word} (h : outOfRange false r.fields v.toNat = true) :
    s.writeFields r a v = s.ignored a := if_pos h

/-! ### Refused writes (O8) -/

/-- A refused access is recorded as ignored and counts. -/
theorem Runs.refuseAccess {c : Instr} {s : State} {src : Source} {a : Nat} (hs : src ≠ .smbus)
    (hc : exec c s = Machine.done (s.refuseAccess src a)) :
    Runs c s (logFields ++ [HOST_STAT_PORT_ERR, HOST_ERRS_PORT]) (fun t => withLogOf s t)
      (fun t => t.hand.log = (s.ignored a).hand.log ∧
        t.flag HOST_STAT_PORT_ERR = (decide (src ≠ .dma) || s.flag HOST_STAT_PORT_ERR) ∧
        t.fld HOST_ERRS_PORT =
          if decide (src ≠ .dma) then min (s.fld HOST_ERRS_PORT + 1) 0xFFFF else s.fld HOST_ERRS_PORT) := by
  have hflag : (s.ignored a).flag HOST_STAT_PORT_ERR = s.flag HOST_STAT_PORT_ERR :=
    flag_congr (ignored_fld s a _ (by decide) (by decide))
  have hcount : (s.ignored a).fld HOST_ERRS_PORT = s.fld HOST_ERRS_PORT := ignored_fld s a _ (by decide) (by decide)
  have hregs := portErr_regs (s.ignored a) src
  refine Runs.done hc ⟨?_, ?_, ?_⟩ ?_ ?_ ?_
  · rw [settle_hand, State.refuseAccess, hregs]
  · rw [settle_flag _ _ (by decide), State.refuseAccess, portErr_flag _ hs, hflag]
  · rw [settle_fld _ _ (by decide), State.refuseAccess, portErr_count _ hs, hcount]
  · exact ((KeepsFields.refl _ s).logEvent _ _ _ fun _ h => List.mem_append_left _ h).portErr src (by simp) (by simp)
  · obtain ⟨r, l, f, hlog⟩ := logEvent_eq s 0x0009 sevInfo (a % 2 ^ 32)
    rw [withLogOf, settle_hand, settle_lastFatal, State.refuseAccess, hregs, State.ignored, hlog]
  · rw [State.refuseAccess, hregs]
    simp

/-- Settles O8: each of the four kinds of write is refused at its own check of the path. -/
theorem refusedWritesChangeNothing : Obligations.RefusedWritesChangeNothing := by
  intro s src a bytes v
  refine ⟨fun hdead => ?_, fun halive hsmb hbar hr hsize => ?_, fun halive hout => ?_,
    fun r inst halive hr hal hword hreg hat hdata hbad => ?_⟩
  · exact Runs.still (congrArg Machine.done (writeAccess_dead hdead))
  · refine Runs.refuseAccess hsmb (congrArg Machine.done ?_)
    rw [writeAccess_reaching halive hbar (fun e => absurd e hsmb) hr, if_pos hsize]
  · refine Runs.done (congrArg Machine.done (writeAccess_barOutside halive hout)) ⟨?_, ?_⟩
      ((KeepsFields.refl _ s).portErr _ (by decide) (by decide)) (portErr_regs s .bar) (by rw [portErr_regs]; simp)
    · rw [settle_flag _ _ (by decide), portErr_flag s (by decide)]
      rfl
    · rw [settle_fld _ _ (by decide), portErr_count s (by decide)]
      rfl
  · refine Runs.ignored (congrArg Machine.done ?_)
    rw [writeAccess_reaching (src := .dma) halive nofun nofun (by rwa [hal]), if_neg (by simp [hword]),
      accessWrite_register hal hreg hr (fun e => absurd e hdata) (by simp) hat, writeFields_outOfRange hbad]

/-! ### A register write under its access codes (O7) -/

/-! #### Staging (R10, R48) -/

/-- Where a staged write goes. -/
theorem stage_deal (s : State) (w : StagedWrite) :
    (s.stage w).deal =
      if s.flag DEAL_CTL_STAGE_GATE then
        { s.deal with held := s.deal.held ++ [{ w with seq := s.deal.writes }], writes := s.deal.writes + 1 }
      else if s.deal.closed then
        { s.deal with later := s.deal.later ++ [{ w with seq := s.deal.writes }], writes := s.deal.writes + 1 }
      else { s.deal with due := s.deal.due ++ [{ w with seq := s.deal.writes }], writes := s.deal.writes + 1 } := rfl

/-- Showing what is staged writes DEAL_STAT alone. -/
theorem showStaged_reg (s : State) {a : Nat} (h : a ≠ DEAL_STAT_STAGED_PENDING.addr) : s.showStaged.reg a = s.reg a := by
  rw [State.showStaged, reg_setFld_ne _ _ _ (by exact h), reg_setFld_ne _ _ _ h]

/-- Staging writes DEAL_STAT alone. -/
theorem stage_reg (s : State) (w : StagedWrite) {a : Nat} (h : a ≠ DEAL_STAT_STAGED_PENDING.addr) : (s.stage w).reg a = s.reg a :=
  showStaged_reg _ h

/-- Of DEAL_STAT, staging writes the two bits that show what is staged and what is held. -/
theorem KeepsFields.stage {w : List Field} {s u : State} (x : StagedWrite) (h : KeepsFields w s u) (hp : DEAL_STAT_STAGED_PENDING ∈ w)
    (hg : DEAL_STAT_GATE_HELD ∈ w) : KeepsFields w s (u.stage x) :=
  ((h.of_regs rfl).setFld _ _ hp).setFld _ _ hg

/-! #### The fields of a register -/

/-- Everything that writing a register's fields can change: registers and the sets of staged writes. -/
theorem putFields_eq (s : State) (a : Nat) (fs : List FieldSpec) (v : Word) :
    ∃ r d, s.putFields a fs v = { s with regs := r, deal := d } := by
  unfold State.putFields
  simp only
  split
  · exact ⟨_, s.deal, rfl⟩
  · exact ⟨_, _, rfl⟩

/-- Writing a register's fields writes that register, and what shows its staged bits. -/
theorem KeepsFields.putFields {w : List Field} {s u : State} (a : Nat) (fs : List FieldSpec) (v : Word) (h : KeepsFields w s u)
    (ha : wholeReg a ∈ w) (hp : DEAL_STAT_STAGED_PENDING ∈ w) (hg : DEAL_STAT_GATE_HELD ∈ w) :
    KeepsFields w s (u.putFields a fs v) := by
  unfold State.putFields
  simp only
  split
  · exact h.setReg _ _ ha
  · exact (h.setReg _ _ ha).stage _ hp hg

/-- A register after its fields are written: staged bits change nothing yet. DEAL_STAT has no staged bits. -/
theorem putFields_reg (s : State) {a : Nat} {fs : List FieldSpec} (v : Word)
    (h : a = DEAL_STAT_STAGED_PENDING.addr → word (accessMask .st fs) = 0) :
    (s.putFields a fs v).reg a =
      mergeBits (s.reg a) (s.directMask fs) v &&& ~~~(v &&& word (accessMask .w1c fs)) := by
  unfold State.putFields
  simp only
  split
  · simp
  · next hst => rw [stage_reg _ _ (fun e => hst (h e)), reg_setReg, if_pos rfl]

/-- Each bit of a register after its fields are written, by access code (R9). -/
theorem putFields_bit (s : State) {a i : Nat} {fs : List FieldSpec} (v : Word)
    (h : a = DEAL_STAT_STAGED_PENDING.addr → word (accessMask .st fs) = 0) (hi : i < 32) :
    ((s.putFields a fs v).reg a).getLsbD i =
      if (word (accessMask .w1c fs)).getLsbD i && v.getLsbD i then false
      else if (word (accessMask .rw fs)).getLsbD i || (word (accessMask .wo fs)).getLsbD i ||
          ((word (accessMask .lk fs)).getLsbD i && !s.imgDone) then v.getLsbD i
      else (s.reg a).getLsbD i := by
  have hdirect : (s.directMask fs).getLsbD i = ((word (accessMask .rw fs)).getLsbD i || (word (accessMask .wo fs)).getLsbD i ||
      ((word (accessMask .lk fs)).getLsbD i && !s.imgDone)) := by
    cases hd : s.imgDone <;> simp [State.directMask, getLsbD_word, hd, hi, -BitVec.getLsbD_eq_getElem]
  rw [putFields_reg s v h, BitVec.getLsbD_and, getLsbD_mergeBits, hdirect, BitVec.getLsbD_not, BitVec.getLsbD_and]
  simp only [hi, decide_true, Bool.true_and]
  cases (word (accessMask .w1c fs)).getLsbD i <;> cases v.getLsbD i <;> simp

/-- The sets of staged writes after a register's fields are written. The register that holds the gate is another. -/
theorem putFields_deal (s : State) {a : Nat} {fs : List FieldSpec} (v : Word) (h : a ≠ DEAL_CTL_STAGE_GATE.addr) :
    (s.putFields a fs v).deal =
      if word (accessMask .st fs) = 0 then s.deal
      else (s.stage { addr := a, mask := word (accessMask .st fs), value := v }).deal := by
  unfold State.putFields
  simp only
  split
  · rfl
  · rw [stage_deal, stage_deal, flag_setReg _ _ _ _ (Ne.symm h)]
    rfl

/-! #### The record of locked bits -/

/-- Everything that recording a write under a condition can change. -/
theorem when_ignored_eq (s : State) (b : Bool) (a : Nat) :
    ∃ r l f, s.when b (fun t => t.ignored a) = { s with regs := r, hand := { s.hand with log := l }, lastFatal := f } := by
  cases b
  · exact ⟨s.regs, s.hand.log, s.lastFatal, rfl⟩
  · exact logEvent_eq ..

/-- Recording a write under a condition leaves the registers that logging leaves. -/
theorem when_ignored_reg (s : State) (b : Bool) (a : Nat) {c : Nat}
    (h : b = true → c ≠ HAND_LOG_COUNT_COUNT.addr ∧ c ≠ HAND_STAT_LOG_ATTN.addr) : (s.when b (fun t => t.ignored a)).reg c = s.reg c := by
  cases b
  · rfl
  · exact ignored_reg s a (h rfl).1 (h rfl).2

/-- Recording a write under a condition writes the fields of the log alone. -/
theorem KeepsFields.when_ignored {w : List Field} {s u : State} (b : Bool) (a : Nat) (h : KeepsFields w s u)
    (hw : ∀ f ∈ logFields, f ∈ w) : KeepsFields w s (u.when b (fun t => t.ignored a)) := by
  cases b
  · exact h
  · exact h.logEvent _ _ _ hw

/-! #### What the register tables say of three registers -/

/-- DEAL_STAT has no staged field. -/
theorem regAt_dealStat_st {r : RegSpec} {inst : List Nat} (h : regAt DEAL_STAT_STAGED_PENDING.addr = some (r, inst)) :
    accessMask .st r.fields = 0 := by
  have : ((regAt DEAL_STAT_STAGED_PENDING.addr).map fun x => accessMask .st x.1.fields) = some 0 := by decide
  simpa [h] using this

/-- The registers that show the log have no locked field. -/
theorem regAt_log_lk {a : Nat} {r : RegSpec} {inst : List Nat} (h : regAt a = some (r, inst))
    (ha : a = HAND_LOG_COUNT_COUNT.addr ∨ a = HAND_STAT_LOG_ATTN.addr) : accessMask .lk r.fields = 0 := by
  have hcount : ((regAt HAND_LOG_COUNT_COUNT.addr).map fun x => accessMask .lk x.1.fields) = some 0 := by decide
  have hstat : ((regAt HAND_STAT_LOG_ATTN.addr).map fun x => accessMask .lk x.1.fields) = some 0 := by decide
  rcases ha with rfl | rfl
  · simpa [h] using hcount
  · simpa [h] using hstat

/-- DEAL_CTL has a write of its own. -/
theorem ownWrite_dealCtl (s : State) (v : Word) : s.ownWrite DEAL_CTL_STAGE_GATE.addr v = some (s.dealCtl v) := rfl

/-! #### The write -/

/-- A permitted value for a single register without a meaning of its own: the locked bits are judged, then the fields are
written. -/
theorem writeFields_single {s : State} {r : RegSpec} {a : Nat} {v : Word} (hhalf : r.half = .single)
    (hok : outOfRange false r.fields v.toNat = false) (hown : s.ownWrite a v = none) (hstrobe : ∀ u : State, u.strobe a v = u) :
    s.writeFields r a v = (s.when (s.lkDiffers a r.fields v) (fun t => t.ignored a)).putFields a r.fields v := by
  simp [State.writeFields, State.holds, hhalf, hok, hown, hstrobe]

/-- Settles O7: the path of the write, the record of its locked bits, and its fields under their access codes. -/
theorem registerWriteFollowsTheAccessCodes : Obligations.RegisterWriteFollowsTheAccessCodes := by
  intro s src a v r inst halive hword hal hreg hr hbar hsmb hdata hport hat hhalf hok hown hstrobe mask d staged
  set b := s.lkDiffers a r.fields v with hb
  set u := s.when b (fun t => t.ignored a) with hu
  have hwrite : exec (.registerWrite src a 4 v) s = Machine.done (u.putFields a r.fields v) := by
    refine congrArg Machine.done ?_
    rw [writeAccess_reaching halive hbar (by rwa [hal]) (by rwa [hal]), if_neg (by simp [hword]),
      accessWrite_register hal hreg hr hdata hport hat, writeFields_single hhalf hok hown hstrobe]
  have hgate : a ≠ DEAL_CTL_STAGE_GATE.addr := by
    rintro rfl
    simp [ownWrite_dealCtl] at hown
  have hlocked : b = true → a ≠ HAND_LOG_COUNT_COUNT.addr ∧ a ≠ HAND_STAT_LOG_ATTN.addr := by
    intro hdiffers
    by_contra hlog
    simp [hb, State.lkDiffers, regAt_log_lk hat (by tauto), word] at hdiffers
  have hnoStaged : a = DEAL_STAT_STAGED_PENDING.addr → word (accessMask .st r.fields) = 0 := by
    rintro rfl
    rw [regAt_dealStat_st hat]
    rfl
  have hgateFlag : u.flag DEAL_CTL_STAGE_GATE = s.flag DEAL_CTL_STAGE_GATE :=
    flag_congr (fld_congr (when_ignored_reg s b a (fun _ => ⟨by decide, by decide⟩)))
  have hbits : u.reg a = s.reg a := when_ignored_reg s b a hlocked
  have hkeeps : KeepsFields ([wholeReg a, DEAL_STAT_STAGED_PENDING, DEAL_STAT_GATE_HELD] ++ logFields) s u :=
    (KeepsFields.refl _ s).when_ignored _ _ fun _ h => List.mem_append_right _ h
  have hlog : u.hand.log = (if b then s.ignored a else s).hand.log := rfl
  obtain ⟨ur, ul, uf, hparts⟩ : ∃ r l f, u = { s with regs := r, hand := { s.hand with log := l }, lastFatal := f } :=
    when_ignored_eq s b a
  obtain ⟨pr, pd, hput⟩ := putFields_eq u a r.fields v
  refine Runs.done hwrite ⟨fun i hi hq => ?_, ?_, ?_⟩ ?_ ?_ ?_
  · rw [reg_bit_congr (settle_fld _ _ hq), putFields_bit u v hnoStaged hi, hbits, hparts]
  · rw [settle_deal, putFields_deal u v hgate, stage_deal, hgateFlag, hparts]
  · rw [settle_hand, hput, hlog]
    rfl
  · exact hkeeps.putFields _ _ _ (by simp) (by simp) (by simp)
  · rw [withLogOf, settle_hand, settle_lastFatal, settle_deal, hput, hparts]
  · rw [hput, hparts]
    simp

/-! ### Timekeeping (O36) -/

/-! #### Second boundaries (R325) -/

/-- A second boundary that has not come changes nothing. -/
theorem secondBoundary_early {s : State} (h : ¬(s.time.grid = true ∧ timeOfPos s.nextSecond ≤ s.trigNow)) :
    s.secondBoundary = s := by
  refine if_pos ?_
  rw [← Bool.not_eq_true, ← Int.not_le]
  exact not_and_or.mp h

/-- A second boundary that has come begins the next second, with the one that ends judged. -/
theorem secondBoundary_come {s : State} (h : s.time.grid = true ∧ timeOfPos s.nextSecond ≤ s.trigNow) :
    s.secondBoundary =
      if s.time.inSecond then { s with time := { s.time with second := s.nextSecond, inSecond := false } }
      else { s with time := { s.time with second := s.nextSecond, driftRun := 0 } }.addSat TIME_PPS_MISS_COUNT 1 := by
  refine if_neg ?_
  rintro (hg | hlt)
  · rw [h.1] at hg
    cases hg
  · exact absurd h.2 (not_le.mpr hlt)

/-! #### RESYNC (R326) -/

/-- When RESYNC is taken: there is an error to step by, an epoch is set, and a PPS was accepted in the last 2 s. -/
def CanResync (s : State) : Prop :=
  ∃ e t0 y : Int, s.time.lastErr = some e ∧ s.time.lastPps = some (t0, y) ∧ s.epoch.isSet = true ∧
    s.rawNow * unitSample - t0 ≤ 2 * (s.nsps : Int) * unitSample

/-- A step waits for the first tick whose close point follows. -/
theorem stageStep_eq (s : State) (e : Int) :
    s.stageStep e = { s with
      time := if s.deal.closed then { s.time with stepLater := some e } else { s.time with stepDue := some e } } := by
  unfold State.stageStep
  split <;> rfl

/-- RESYNC stages a step by the latest error. -/
theorem resync_taken {s : State} (h : CanResync s) :
    s.resync = { s.setFld TIME_CTL_RESYNC 1 with
      time := if s.deal.closed then { s.time with stepLater := s.time.lastErr } else { s.time with stepDue := s.time.lastErr } } := by
  obtain ⟨e, t0, y, herr, hpps, hset, hrecent⟩ := h
  have hstep : s.resync = (s.setFld TIME_CTL_RESYNC 1).stageStep e := by simp [State.resync, herr, hpps, hset, hrecent]
  rw [hstep, stageStep_eq, ← herr]
  rfl

/-- RESYNC is ignored otherwise. -/
theorem resync_refused {s : State} (h : ¬CanResync s) : s.resync = s.ignored TIME_CTL.addr := by
  unfold State.resync
  cases herr : s.time.lastErr with
  | none => rfl
  | some e =>
    refine if_neg fun hgo => h ?_
    cases hpps : s.time.lastPps with
    | none => simp [hpps] at hgo
    | some p =>
      simp only [hpps, Bool.and_eq_true, decide_eq_true_eq] at hgo
      exact ⟨e, p.1, p.2, herr, hpps, hgo.1, hgo.2⟩

/-! #### The count of edges (R323) -/

/-- When an edge counts: with EPOCH_SRC 2, inside the count and after the write, at least 0.5 s after the last, and when the pin
resolves it with its slope. -/
def EdgeCounts (s : State) (ns : Nat) (x : Crossing) : Prop :=
  s.fld TIME_CFG_EPOCH_SRC = 2 ∧ s.time.counting = true ∧ s.time.setSec.isSome = true ∧
    (∀ y : Nat, s.time.lastEdge = some y → y + 500000000 ≤ ns) ∧
    (∃ rising : Bool, s.crossing 0 x = some rising ∧ s.pinDelivers 0 rising = true)

/-- An edge that counts. -/
theorem countPps_counted {s : State} {ns : Nat} {x : Crossing} (h : EdgeCounts s ns x) :
    s.countPps ns x = { s with time := { s.time with counted := s.time.counted + 1, lastEdge := some ns } } := by
  obtain ⟨hsrc, hcount, hset, hapart, rising, hcross, hpin⟩ := h
  refine if_pos ⟨hsrc, hcount, hset, ?_, by simpa [hcross] using hpin⟩
  cases hlast : s.time.lastEdge with
  | none => rfl
  | some y => simpa using hapart y hlast

/-- Any other edge. -/
theorem countPps_uncounted {s : State} {ns : Nat} {x : Crossing} (h : ¬EdgeCounts s ns x) : s.countPps ns x = s := by
  refine if_neg fun ⟨hsrc, hcount, hset, hapart, hseen⟩ => h ⟨hsrc, hcount, hset, fun y hy => by simpa [hy] using hapart, ?_⟩
  cases hcross : s.crossing 0 x with
  | none => simp [hcross] at hseen
  | some rising => exact ⟨rising, rfl, by simpa [hcross] using hseen⟩

/-! #### The epoch's second (R11, R323) -/

/-- TIME_EPOCH_SET_HI stores the pair; inside the wait the count begins anew from it. -/
theorem epochSetWrite_eq (s : State) (hi : Word) :
    let v := (sparseGet (fun _ => (0 : Word)) s.holdLo TIME_EPOCH_SET.addr).toNat + 2 ^ 32 * (hi.toNat % 2 ^ 16)
    s.epochSetWrite hi = { s.setPair TIME_EPOCH_SET v with
      time := if s.flag TIME_STAT_EPOCH_WAIT then { s.time with setSec := some v, counted := 0, lastEdge := none } else s.time } := by
  intro v
  have hwait : (s.setPair TIME_EPOCH_SET v).flag TIME_STAT_EPOCH_WAIT = s.flag TIME_STAT_EPOCH_WAIT :=
    flag_setPair s _ _ _ (by decide) (by decide)
  change (if (s.setPair TIME_EPOCH_SET v).flag TIME_STAT_EPOCH_WAIT = true then _ else s.setPair TIME_EPOCH_SET v) = _
  rw [hwait]
  split <;> rfl

/-! #### Starting unaligned (R38, R39) -/

/-- Everything that telling a list of Dealers where to count from can change. -/
theorem countDealers_eq (l : List Nat) (j : Int) (s : State) :
    ∃ d, l.foldl (fun s i => s.setDealer i { s.dealerOf i with j := j, aligned := true }) s = { s with dealer := d } := by
  induction l generalizing s with
  | nil => exact ⟨s.dealer, rfl⟩
  | cons i l ih =>
    obtain ⟨d, h⟩ := ih (s.setDealer i { s.dealerOf i with j := j, aligned := true })
    exact ⟨d, by rw [List.foldl_cons, h, State.setDealer]⟩

/-- A Dealer after a list of them is told where to count from. -/
theorem dealerOf_countDealers (l : List Nat) (j : Int) (s : State) (i : Nat) :
    (l.foldl (fun s i => s.setDealer i { s.dealerOf i with j := j, aligned := true }) s).dealerOf i =
      if i ∈ l then { s.dealerOf i with j := j, aligned := true } else s.dealerOf i := by
  induction l generalizing s with
  | nil => simp
  | cons k l ih =>
    rw [List.foldl_cons, ih, dealerOf_setDealer]
    by_cases hk : i = k <;> by_cases hl : i ∈ l <;> simp [hk, hl]

/-- Everything that counting from one deal before deal 0 can change. -/
theorem countUnaligned_eq (s : State) :
    ∃ d, s.countUnaligned = { s with dealer := d, deal := { s.deal with next := 0, first := 0 } } := by
  obtain ⟨d, h⟩ := countDealers_eq (List.range 4) (-(s.dealLen : Int)) s
  exact ⟨d, by rw [State.countUnaligned, State.countFrom, h]⟩

/-- Counting from one deal before deal 0 writes no register. -/
theorem countUnaligned_regs (s : State) : s.countUnaligned.regs = s.regs := by
  obtain ⟨d, h⟩ := countUnaligned_eq s
  rw [h]

/-- The Dealers that count from one deal before deal 0. -/
theorem dealerOf_countUnaligned (s : State) {i : Nat} (h : i < 4) :
    s.countUnaligned.dealerOf i = { s.dealerOf i with j := -(s.dealLen : Int), aligned := true } := by
  have hdeal : s.countUnaligned.dealerOf i = (s.countFrom (-(s.dealLen : Int))).dealerOf i := rfl
  rw [hdeal, State.countFrom, dealerOf_countDealers, if_pos (List.mem_range.mpr h)]

/-- With no PPS in time, a device that waits for alignment starts unaligned. -/
theorem noPps_waiting {s : State} (h : s.time.waitAlign = true) : s.noPps = s.unaligned 0 := if_pos h

/-- A device that does not wait for alignment goes on. -/
theorem noPps_still {s : State} (h : s.time.waitAlign = false) : s.noPps = s := if_neg (by simp [h])

/-- The record of a start without alignment, before the Dealers count. -/
def markUnaligned (s : State) (arg : Nat) : State :=
  (({ s with time := { s.time with waitAlign := false } } : State).setFld DEAL_STAT_UNALIGNED 1).logEvent 0x0101 sevAttention arg

/-- A start without alignment is recorded; the Dealers count from one deal before deal 0 when they are on. -/
theorem unaligned_eq (s : State) (arg : Nat) :
    s.unaligned arg = if (s.dealerOf 0).on then (markUnaligned s arg).countUnaligned else markUnaligned s arg := by
  have hon : (markUnaligned s arg).dealerOf 0 = s.dealerOf 0 := by simp [markUnaligned, State.dealerOf]
  rw [← hon]
  rfl

/-- Everything that the record can change. -/
theorem markUnaligned_eq (s : State) (arg : Nat) :
    ∃ r l f, markUnaligned s arg =
      { s with regs := r, hand := { s.hand with log := l }, lastFatal := f, time := { s.time with waitAlign := false } } := by
  obtain ⟨r, l, f, h⟩ := logEvent_eq
    (({ s with time := { s.time with waitAlign := false } } : State).setFld DEAL_STAT_UNALIGNED 1) 0x0101 sevAttention arg
  exact ⟨r, l, f, by rw [markUnaligned, h]; rfl⟩

/-- The record sets UNALIGNED. -/
theorem markUnaligned_flag (s : State) (arg : Nat) : (markUnaligned s arg).flag DEAL_STAT_UNALIGNED = true := by
  rw [markUnaligned, logEvent_flag _ _ _ _ _ (by decide) (by decide), flag_set _ _ (by decide) (by decide)]

/-- Outside WDOG the record sets LOG_ATTN. -/
theorem markUnaligned_attention (s : State) (arg : Nat) (h : s.flag SUP_STAT_WDOG = false) :
    (markUnaligned s arg).flag HAND_STAT_LOG_ATTN = true := by
  refine logEvent_attention _ _ _ ?_
  rw [flag_setFld_ne _ _ (by decide)]
  exact h

/-- The record writes UNALIGNED and the fields of the log. -/
theorem markUnaligned_keeps (s : State) (arg : Nat) : KeepsFields (DEAL_STAT_UNALIGNED :: logFields) s (markUnaligned s arg) := by
  have hwait : KeepsFields (DEAL_STAT_UNALIGNED :: logFields) s { s with time := { s.time with waitAlign := false } } :=
    (KeepsFields.refl _ s).of_regs rfl
  exact (hwait.setFld DEAL_STAT_UNALIGNED 1 (by simp)).logEvent _ _ _ fun _ h => List.mem_cons_of_mem _ h

/-- The deal length is not the record's to change. -/
theorem markUnaligned_dealLen (s : State) (arg : Nat) : (markUnaligned s arg).dealLen = s.dealLen := by
  rw [State.dealLen, State.k, markUnaligned, logEvent_fld _ _ _ _ _ (by decide) (by decide), fld_setFld_ne _ _ (by decide)]
  rfl

/-- Starting unaligned writes the registers that its record writes. -/
theorem unaligned_regs (s : State) (arg : Nat) : (s.unaligned arg).regs = (markUnaligned s arg).regs := by
  rw [unaligned_eq]
  split
  · exact countUnaligned_regs _
  · rfl

/-- Everything that starting unaligned can change. -/
theorem unaligned_parts (s : State) (arg : Nat) :
    ∃ r l f d, s.unaligned arg =
      { s with regs := r, hand := { s.hand with log := l }, lastFatal := f, time := { s.time with waitAlign := false }, dealer := d,
               deal := if (s.dealerOf 0).on then { s.deal with next := 0, first := 0 } else s.deal } := by
  obtain ⟨r, l, f, h⟩ := markUnaligned_eq s arg
  obtain ⟨d, hd⟩ := countUnaligned_eq (markUnaligned s arg)
  rw [unaligned_eq]
  split
  · exact ⟨r, l, f, d, by rw [hd, h]⟩
  · exact ⟨r, l, f, s.dealer, h⟩

/-- The Dealers after a start without alignment. -/
theorem unaligned_dealerOf (s : State) (arg : Nat) {i : Nat} (hi : i < 4) :
    (s.unaligned arg).dealerOf i =
      if (s.dealerOf 0).on then { s.dealerOf i with j := -(s.dealLen : Int), aligned := true } else s.dealerOf i := by
  have hdealer : (markUnaligned s arg).dealerOf i = s.dealerOf i := by simp [markUnaligned, State.dealerOf]
  rw [unaligned_eq]
  split
  · rw [dealerOf_countUnaligned _ hi, hdealer, markUnaligned_dealLen]
  · exact hdealer

/-- Settles O36: each command by the equations of its outcomes. -/
theorem secondsStepsAndEpochsFollowTimekeeping : Obligations.SecondsStepsAndEpochsFollowTimekeeping := by
  intro s hi ns x timeIs
  refine ⟨⟨fun hcome hin => ?_, fun hcome hin => ?_, fun hearly => ?_⟩, ⟨fun hable => ?_, fun hunable => ?_⟩, ?_, ?_, fun hwait => ?_,
    fun hstill => ?_⟩
  · refine Runs.done (congrArg Machine.done ((secondBoundary_come hcome).trans (if_pos hin))) trivial ?_ rfl (by simp)
    exact (KeepsFields.refl _ s).of_regs rfl
  · have hcount : min (s.fld TIME_PPS_MISS_COUNT + 1) 0xFFFFFFFF % 2 ^ 32 = min (s.fld TIME_PPS_MISS_COUNT + 1) 0xFFFFFFFF :=
      Nat.mod_eq_of_lt (by omega)
    refine Runs.done (congrArg Machine.done ((secondBoundary_come hcome).trans (if_neg (by simp [hin])))) ?_ ?_ rfl
      (by simp [addSat_eq])
    · rw [settle_fld _ _ (by decide), addSat_eq, fld_setFld_eq _ _ _ (by decide)]
      exact hcount
    · exact KeepsFields.setFld (u := { s with time := { s.time with second := s.nextSecond, driftRun := 0 } }) _ _
        ((KeepsFields.refl _ s).of_regs rfl) (by simp)
  · exact Runs.still (congrArg Machine.done (secondBoundary_early hearly))
  · refine Runs.done (congrArg Machine.done (resync_taken hable)) ?_ ?_ rfl (by simp)
    · rw [settle_flag _ _ (by decide)]
      exact flag_set s _ (by decide) (by decide)
    · exact ((KeepsFields.refl _ s).setFld TIME_CTL_RESYNC 1 (by simp)).of_regs rfl
  · exact Runs.ignored (congrArg Machine.done (resync_refused hunable))
  · intro v
    have hv : v < 2 ^ 64 := by
      have hlo := (sparseGet (fun _ => (0 : Word)) s.holdLo TIME_EPOCH_SET.addr).isLt
      omega
    refine Runs.done (congrArg Machine.done (epochSetWrite_eq s hi)) ⟨?_, ?_⟩ ?_ ?_ (by simp [State.setPair])
    · rw [settle_pair _ (by decide) (by decide)]
      exact (pair_setPair s TIME_EPOCH_SET v).trans (Nat.mod_eq_of_lt hv)
    · rw [settle_time]
    · exact ((KeepsFields.refl _ s).setPair TIME_EPOCH_SET v (by decide) (by decide)).of_regs rfl
    · simp only [timeIs, settle_time]
      rfl
  · by_cases hedge : EdgeCounts s ns x
    · refine Runs.done (congrArg Machine.done (countPps_counted hedge)) ?_ ?_ ?_ (by simp)
      · rw [settle_time]
        exact (if_pos hedge).symm
      · exact (KeepsFields.refl _ s).of_regs rfl
      · simp only [timeIs, settle_time]
    · refine Runs.done (congrArg Machine.done (countPps_uncounted hedge)) ?_ (.refl _ s) ?_ (by simp)
      · rw [settle_time]
        exact (if_neg hedge).symm
      · simp only [timeIs, settle_time]
  · have hdealers : (s.unaligned 0).settle.dealer = (s.unaligned 0).dealer := settle_dealer _
    obtain ⟨r, l, f, d, hparts⟩ := unaligned_parts s 0
    refine Runs.done (congrArg Machine.done (noPps_waiting hwait)) ⟨?_, fun hw => ?_, fun i hi => ?_⟩
      ((markUnaligned_keeps s 0).of_regs (unaligned_regs s 0)) ?_ ?_
    · rw [settle_flag _ _ (by decide), flag_of_regs (unaligned_regs s 0), markUnaligned_flag]
    · rw [settle_flag _ _ (by decide), flag_of_regs (unaligned_regs s 0), markUnaligned_attention s 0 hw]
    · rw [State.dealerOf, hdealers]
      exact unaligned_dealerOf s 0 hi
    · rw [withLogOf, settle_hand, settle_lastFatal, settle_dealer, hparts]
    · rw [hparts]
      simp
  · exact Runs.still (congrArg Machine.done (noPps_still hstill))

/-! ### A read that no subchannel answers (O49) -/

/-- A running device in which SDRAM holds the byte 1 at offset 0, on subchannel 0, which retires under cause 5 and no longer
answers (R367); PORT_ADDR stands at that byte. -/
def stateWithSilentSubchannel : State :=
  { State.reset with
    imgDone := true
    mem := { MemState.reset with stripe := List.range 16 }
    sdram := [(0, 1)]
    regs := [(SUP_STAT_STATE.addr, 0xC0000000), (MEMC_CAPACITY.addr, 0x1000),
      ((MEMCS_STAT_STATE 0).addr, 0x70000005), (PORT_ADDR.addr + 4, 0x1000)] }

/-- The read gives 0 there, as R367 has it. -/
theorem silentSubchannel_portRead : stateWithSilentSubchannel.portRead.1 = 0 := by decide

/-- Refutes O49: its clause on reads of SDRAM says that a read returns the bytes stored at PORT_ADDR, but a subchannel that does
not answer reads 0 (R367). -/
theorem not_dataPortAndApertureReachTheAddressedBytes : ¬ Obligations.DataPortAndApertureReachTheAddressedBytes := by
  unfold Obligations.DataPortAndApertureReachTheAddressedBytes
  intro h
  obtain ⟨-, hlive⟩ := h stateWithSilentSubchannel 0 0 0 []
  obtain ⟨-, hram, -⟩ := hlive (by decide)
  obtain ⟨-, t, ht, ⟨-, hread⟩, -⟩ := hram (by decide) rfl
  have hshown : t.rdata = [0] := by
    obtain rfl : State.settle _ = t := Host.Outcome.next.inj ht
    rw [settle_rdata, if_pos (by decide), silentSubchannel_portRead]
  rw [hshown] at hread
  exact absurd hread (by decide)

end Sys2Proof
end

section
/-! PROOFS. The statement of 01_signal_path.md on the links that join the dies (O39). -/

namespace Sys2Proof

open Sys2Proof.Machine

/-! ### FATAL events (R212) -/

/-- Outside WDOG a FATAL event is kept as the last FATAL event, with the low 32 bits of its argument. -/
theorem logEvent_fatal_lastFatal (s : State) (c a : Nat) (hw : s.flag SUP_STAT_WDOG = false) :
    (s.logEvent c sevFatal a).lastFatal = (c, a % 2 ^ 32) := by
  unfold State.logEvent
  rw [if_neg (by simp [hw])]
  simp only
  rw [if_neg (by simp [sevFatal, sevInfo]), if_neg (by simp [sevFatal, sevAttention]), if_pos trivial]

/-- LOG_FATAL asserts FAULT_N. -/
theorem settle_pins_fault_of_logFatal {s : State} (h : s.flag HAND_STAT_LOG_FATAL = true) : s.settle.pins.fault = true := by
  rw [settle_pins_fault, State.faultCond, h, Bool.or_true, Bool.true_or, Bool.true_or, Bool.true_or]

/-! ### A link that fails (R16) -/

/-- Settling leaves every link as it is. -/
@[simp] theorem settle_linkFailed (s : State) (k : Nat) : s.settle.linkFailed k = s.linkFailed k := by
  rw [State.linkFailed, settle_links, State.linkFailed]

/-- A link that has failed does not fail again. -/
theorem linkFail_failed {s : State} {l : Nat} (h : s.linkFailed l = true) : s.linkFail l = s := if_pos h

/-- A link in service is marked as failed, and a FATAL event that names it is logged. -/
theorem linkFail_inService {s : State} {l : Nat} (h : s.linkFailed l = false) :
    s.linkFail l = ({ s with links := s.links ||| 2 ^ l } : State).logEvent 0x000B sevFatal l := if_neg (by simp [h])

/-- The links that have failed after link `l` fails: `l`, and those that had failed before. -/
theorem linkFailed_linkFail (s : State) (l k : Nat) : (s.linkFail l).linkFailed k = (s.linkFailed k || decide (l = k)) := by
  cases h : s.linkFailed l with
  | true =>
    rw [linkFail_failed h]
    by_cases hk : l = k
    · rw [← hk, h, Bool.true_or]
    · simp [hk]
  | false =>
    rw [linkFail_inService h, State.linkFailed, logEvent_links, bitOf, Nat.testBit_or, Nat.testBit_two_pow]
    rfl

/-- Outside WDOG a link that fails sets LOG_FATAL. -/
theorem linkFail_logFatal {s : State} {l : Nat} (h : s.linkFailed l = false) (hw : s.flag SUP_STAT_WDOG = false) :
    (s.linkFail l).flag HAND_STAT_LOG_FATAL = true := by
  rw [linkFail_inService h]
  exact logEvent_fatal _ _ _ hw

/-- Outside WDOG a link that fails is the last FATAL event. -/
theorem linkFail_lastFatal {s : State} {l : Nat} (h : s.linkFailed l = false) (hw : s.flag SUP_STAT_WDOG = false) :
    (s.linkFail l).lastFatal = (0x000B, l % 2 ^ 32) := by
  rw [linkFail_inService h]
  exact logEvent_fatal_lastFatal _ _ _ hw

/-- A link that fails writes the fields of the log alone. -/
theorem linkFail_keeps {s : State} {l : Nat} (h : s.linkFailed l = false) : KeepsFields logFields s (s.linkFail l) := by
  have hmarked : KeepsFields logFields s { s with links := s.links ||| 2 ^ l } := (KeepsFields.refl _ s).of_regs rfl
  rw [linkFail_inService h]
  exact hmarked.logEvent _ _ _ fun _ hf => hf

/-- A link that fails sends nothing. -/
@[simp] theorem linkFail_out (s : State) (l : Nat) : (s.linkFail l).out = s.out := by
  cases h : s.linkFailed l with
  | true => rw [linkFail_failed h]
  | false => rw [linkFail_inService h, logEvent_out]

/-- Beyond the registers, a link that fails changes the links and what logging changes. -/
theorem linkFail_parts {s : State} {l : Nat} (h : s.linkFailed l = false) :
    s.linkFail l = { withLogOf s (s.linkFail l) with links := s.links ||| 2 ^ l, regs := (s.linkFail l).regs } := by
  rw [linkFail_inService h]
  exact logEvent_parts _ _ _ _

/-- Settles O39: by whether the link had failed, and the rules of a FATAL event for one that had not. -/
theorem dieLinksFailOnce : Obligations.DieLinksFailOnce := by
  intro s l
  refine ⟨Runs.still rfl, fun hfailed => Runs.still (congrArg Machine.done (linkFail_failed hfailed)), fun hserving => ?_⟩
  have hlink : l.val % 2 ^ 32 = l.val := Nat.mod_eq_of_lt (by omega)
  refine Runs.done (u := s.linkFail l) rfl ⟨?_, fun k hk => ?_, fun hw => ⟨?_, ?_, ?_⟩⟩ (linkFail_keeps hserving) ?_ ?_
  · simp [linkFailed_linkFail]
  · simp [linkFailed_linkFail, hk.symm]
  · rw [settle_flag _ _ (by decide), linkFail_logFatal hserving hw]
  · rw [settle_lastFatal, linkFail_lastFatal hserving hw, hlink]
  · exact settle_pins_fault_of_logFatal (linkFail_logFatal hserving hw)
  · rw [withLogOf, settle_hand, settle_lastFatal, linkFail_out]
    exact linkFail_parts hserving
  · rw [linkFail_out, List.append_nil]

end Sys2Proof
end

section
/-! PROOFS. The statements of 02_deal_commit_determinism.md: the gate and the release of the held set (O9), and the states of an
amendment (O11). -/

namespace Sys2Proof

open Sys2Proof.Machine

/-! ### Commands that change registers alone, beside what they name -/

/-- A state is another but for its registers. -/
def RegsOnly (s t : State) : Prop := ∃ r, t = { s with regs := r }

/-- A state and itself. -/
theorem RegsOnly.refl (s : State) : RegsOnly s s := ⟨s.regs, rfl⟩

/-- A register is given a value. -/
theorem RegsOnly.setReg {s u : State} (a : Nat) (v : Word) (h : RegsOnly s u) : RegsOnly s (u.setReg a v) := by
  obtain ⟨r, rfl⟩ := h
  exact ⟨_, rfl⟩

/-- A field is given a value. -/
theorem RegsOnly.setFld {s u : State} (f : Field) (x : Nat) (h : RegsOnly s u) : RegsOnly s (u.setFld f x) := h.setReg _ _

/-- A pair is given a value. -/
theorem RegsOnly.setPair {s u : State} (p : Pair) (x : Nat) (h : RegsOnly s u) : RegsOnly s (u.setPair p x) :=
  (h.setReg _ _).setReg _ _

/-- The deal block's own state is given one value on both sides. -/
theorem RegsOnly.withDeal {s u : State} (d : DealState) (h : RegsOnly s u) : RegsOnly { s with deal := d } { u with deal := d } := by
  obtain ⟨r, rfl⟩ := h
  exact ⟨r, rfl⟩

/-- Such a state has the other's parts. -/
theorem RegsOnly.parts {s t : State} (h : RegsOnly s t) : t = { s with regs := t.regs, out := t.out } := by
  obtain ⟨r, rfl⟩ := h
  rfl

/-- Such a state has sent what the other has. -/
theorem RegsOnly.out_eq {s t : State} (h : RegsOnly s t) : t.out = s.out := by
  obtain ⟨r, rfl⟩ := h
  rfl

/-- Such a state has the other's deal block. -/
theorem RegsOnly.deal_eq {s t : State} (h : RegsOnly s t) : t.deal = s.deal := by
  obtain ⟨r, rfl⟩ := h
  rfl

/-- A command that sends nothing, and whose outcome, before settling, differs in its registers alone from what `parts` names. -/
theorem Runs.regsOnly {c : Instr} {s u : State} {w : List Field} {parts : State → State} {result : State → Prop}
    (hc : exec c s = Machine.done u) (hr : result u.settle) (hw : KeepsFields w s u) (hp : RegsOnly (parts u.settle) u)
    (ho : (parts u.settle).out = s.out) : Runs c s w parts result :=
  Runs.done hc hr hw hp.parts (by rw [hp.out_eq, ho, List.append_nil])

/-! ### What is staged, as DEAL_STAT shows it (R48, R64) -/

/-- Showing what is staged changes registers alone. -/
theorem RegsOnly.showStaged {s u : State} (h : RegsOnly s u) : RegsOnly s u.showStaged := (h.setFld _ _).setFld _ _

@[simp] theorem showStaged_deal (s : State) : s.showStaged.deal = s.deal := rfl
@[simp] theorem showStaged_hand (s : State) : s.showStaged.hand = s.hand := rfl
@[simp] theorem showStaged_lastFatal (s : State) : s.showStaged.lastFatal = s.lastFatal := rfl

/-- Showing what is staged writes the two bits that show it. -/
theorem KeepsFields.showStaged {w : List Field} {s u : State} (h : KeepsFields w s u) (hp : DEAL_STAT_STAGED_PENDING ∈ w)
    (hg : DEAL_STAT_GATE_HELD ∈ w) : KeepsFields w s u.showStaged :=
  (h.setFld _ _ hp).setFld _ _ hg

/-- STAGED_PENDING shows whether writes wait for a tick. -/
theorem showStaged_pending (s : State) :
    s.showStaged.flag DEAL_STAT_STAGED_PENDING = (!s.deal.due.isEmpty || !s.deal.later.isEmpty) := by
  rw [State.showStaged, flag_setFld_ne _ _ (by decide)]
  exact flag_put _ _ _ (by decide) (by decide)

/-- GATE_HELD shows whether a held set exists. -/
theorem showStaged_gateHeld (s : State) : s.showStaged.flag DEAL_STAT_GATE_HELD = !s.deal.held.isEmpty :=
  flag_put _ _ _ (by decide) (by decide)

/-- Fields apart from the two bits stay as they were. -/
theorem showStaged_fld (s : State) {g : Field} (h : g.addr ≠ DEAL_STAT_STAGED_PENDING.addr ∨ 10 ≤ g.lo ∨ g.lo + g.width ≤ 8) :
    s.showStaged.fld g = s.fld g := by
  have hheld : apart g DEAL_STAT_GATE_HELD := h.imp_right fun h => h.imp_right (·.trans (by decide))
  have hpending : apart g DEAL_STAT_STAGED_PENDING := h.imp_right fun h => h.imp_left (Nat.le_trans (by decide))
  rw [State.showStaged, fld_setFld_ne _ _ hheld, fld_setFld_ne _ _ hpending]

/-- Flags apart from the two bits stay as they were. -/
theorem showStaged_flag (s : State) (g : Field) (h : g.addr ≠ DEAL_STAT_STAGED_PENDING.addr ∨ 10 ≤ g.lo ∨ g.lo + g.width ≤ 8) :
    s.showStaged.flag g = s.flag g := flag_congr (showStaged_fld s h)

/-- Pairs of other registers stay as they were. -/
theorem showStaged_pair (s : State) {p : Pair} (h : p.addr ≠ DEAL_STAT_STAGED_PENDING.addr ∧ p.addr + 4 ≠ DEAL_STAT_STAGED_PENDING.addr) :
    s.showStaged.pair p = s.pair p := by
  rw [State.pair, showStaged_reg s h.1, showStaged_reg s h.2, State.pair]

/-! ### The gate and the release (O9) -/

/-- The sets of staged writes after the held set has moved to the first tick whose close point is ahead. -/
def moveHeld (d : DealState) : DealState :=
  if d.closed then { d with later := mergeWrites d.later d.held, held := [] }
  else { d with due := mergeWrites d.due d.held, held := [] }

/-- A release moves the held set and shows what is left. -/
theorem releaseHeld_eq (s : State) : s.releaseHeld = ({ s with deal := moveHeld s.deal } : State).showStaged := rfl

/-- Once the held set has moved, no write is held. -/
@[simp] theorem moveHeld_held (d : DealState) : (moveHeld d).held = [] := by
  unfold moveHeld
  split <;> rfl

/-- A command that releases the held set, after a state that differs in its registers alone from the one it runs from. -/
theorem Runs.releaseHeld {c : Instr} {s u : State} {w : List Field} {result : State → Prop}
    (hc : exec c s = Machine.done u.releaseHeld) (hu : RegsOnly s u) (hw : KeepsFields w s u) (hp : DEAL_STAT_STAGED_PENDING ∈ w)
    (hg : DEAL_STAT_GATE_HELD ∈ w) (hr : result u.releaseHeld.settle) :
    Runs c s w (fun _ => { s with deal := moveHeld s.deal }) result := by
  have hmoved : KeepsFields w s { u with deal := moveHeld u.deal } := hw.of_regs rfl
  refine Runs.regsOnly hc hr (hmoved.showStaged hp hg) ?_ rfl
  rw [releaseHeld_eq, hu.deal_eq]
  exact (hu.withDeal _).showStaged

/-- After a release nothing is held, and STAGED_PENDING shows what waits for a tick. -/
theorem releaseHeld_shown (u : State) :
    u.releaseHeld.settle.flag DEAL_STAT_GATE_HELD = false ∧
      u.releaseHeld.settle.flag DEAL_STAT_STAGED_PENDING = (!(moveHeld u.deal).due.isEmpty || !(moveHeld u.deal).later.isEmpty) := by
  rw [settle_flag _ _ (by decide), settle_flag _ _ (by decide), releaseHeld_eq, showStaged_gateHeld, showStaged_pending]
  simp

/-- Settles O9: closing the gate writes its bit alone; opening it writes its bit and releases, as STAGE_RELEASE does. -/
theorem gateHoldsAndReleasesTheHeldSet : Obligations.GateHoldsAndReleasesTheHeldSet := by
  intro s d moved shown pending
  refine ⟨?_, ?_, ?_⟩
  · refine Runs.regsOnly (u := s.setFld DEAL_CTL_STAGE_GATE 1) rfl ?_ ((KeepsFields.refl _ s).setFld _ _ (by decide))
      ((RegsOnly.refl s).setFld _ _) rfl
    rw [settle_flag _ _ (by decide)]
    exact flag_set s _ (by decide) (by decide)
  · refine Runs.releaseHeld (u := s.setFld DEAL_CTL_STAGE_GATE 0) rfl ((RegsOnly.refl s).setFld _ _)
      ((KeepsFields.refl _ s).setFld _ _ (by decide)) (by decide) (by decide) ⟨?_, releaseHeld_shown _⟩
    rw [settle_flag _ _ (by decide), releaseHeld_eq, showStaged_flag _ _ (by decide)]
    exact flag_clear s DEAL_CTL_STAGE_GATE (by decide)
  · exact Runs.releaseHeld (u := s) rfl (.refl s) (.refl _ s) (by decide) (by decide) (releaseHeld_shown s)

/-! ### What judging a set of writes can change (R264, R399, R551) -/

/-- The fields of registers in which a close point records what it discards. -/
def judgedFields : List Field := [ZC_STAT_REFUSED, ZC_REFUSE_CAUSE, ZC_REFUSE_CHAIN, ETH_STAT_REFUSED] ++ logFields

/-- One state is another but for the record of discarded writes: those fields, the log, and the last FATAL event. -/
def RecordsOnly (s t : State) : Prop :=
  KeepsFields judgedFields s t ∧
    ∃ r l f, t = { s with regs := r, hand := { s.hand with log := l }, lastFatal := f }

/-- A state and itself. -/
theorem RecordsOnly.refl (s : State) : RecordsOnly s s := ⟨.refl _ s, s.regs, s.hand.log, s.lastFatal, rfl⟩

/-- Two changes of the record alone, one after the other. -/
theorem RecordsOnly.trans {s t u : State} (h : RecordsOnly s t) (h' : RecordsOnly t u) : RecordsOnly s u := by
  obtain ⟨hkeeps, r, l, f, ht⟩ := h
  obtain ⟨hkeeps', r', l', f', hu⟩ := h'
  exact ⟨hkeeps.trans hkeeps', r', l', f', by rw [hu, ht]⟩

/-- A field of the record is written. -/
theorem RecordsOnly.setFld {s u : State} (f : Field) (x : Nat) (h : RecordsOnly s u) (hf : f ∈ judgedFields) :
    RecordsOnly s (u.setFld f x) :=
  h.trans ⟨(KeepsFields.refl _ u).setFld f x hf, _, u.hand.log, u.lastFatal, rfl⟩

/-- An event is logged. -/
theorem RecordsOnly.logEvent {s u : State} (c v a : Nat) (h : RecordsOnly s u) : RecordsOnly s (u.logEvent c v a) :=
  h.trans ⟨(KeepsFields.refl _ u).logEvent c v a fun _ hf => List.mem_append_right _ hf, logEvent_eq u c v a⟩

/-- Steps that each change the record alone do so together. -/
theorem foldl_recordsOnly {α β : Type} {f : State × α → β → State × α} (hf : ∀ x b, RecordsOnly x.1 (f x b).1) (l : List β)
    (x : State × α) : RecordsOnly x.1 (l.foldl f x).1 := by
  induction l generalizing x with
  | nil => exact .refl _
  | cons b l ih => exact (hf x b).trans (ih _)

/-- Discarded writes are recorded one after another. -/
theorem foldl_ignored_recordsOnly (ws : List StagedWrite) (s : State) : RecordsOnly s (ws.foldl (fun s w => s.ignored w.addr) s) := by
  induction ws generalizing s with
  | nil => exact .refl _
  | cons w ws ih => exact ((RecordsOnly.refl s).logEvent _ _ _).trans (ih _)

/-- Discarding writes changes the record alone. -/
theorem discard_recordsOnly (s : State) (ws : List StagedWrite) (bad : Bool) (sel : StagedWrite → Bool) :
    RecordsOnly s (s.discard ws bad sel).1 := by
  unfold State.discard
  split
  · exact foldl_ignored_recordsOnly _ s
  · exact .refl s

/-- The zoom limits change the record alone. -/
theorem judgeZoomWrites_recordsOnly (s : State) (ws : List StagedWrite) : RecordsOnly s (s.judgeZoomWrites ws).1 := by
  unfold State.judgeZoomWrites
  split
  · exact ((((RecordsOnly.refl s).setFld _ _ (by decide)).setFld _ _ (by decide)).setFld _ _ (by decide)).logEvent _ _ _
  · exact .refl s

/-- The rate of a link changes the record alone. -/
theorem judgeEthWrites_recordsOnly (s : State) (ws : List StagedWrite) : RecordsOnly s (s.judgeEthWrites ws).1 := by
  unfold State.judgeEthWrites
  split
  · exact ((RecordsOnly.refl s).setFld _ _ (by decide)).logEvent _ _ _
  · exact .refl s

/-- The checks of a close point change the record alone. -/
theorem judgeWrites_recordsOnly (s : State) (ws : List StagedWrite) : RecordsOnly s (s.judgeWrites ws).1 := by
  unfold State.judgeWrites
  split
  · exact .refl s
  · refine RecordsOnly.trans ?_ (foldl_recordsOnly (fun _ _ => discard_recordsOnly ..) (List.range 20) _)
    refine RecordsOnly.trans ?_ (foldl_recordsOnly (fun _ _ => discard_recordsOnly ..) (List.range 2) _)
    refine RecordsOnly.trans ?_ (foldl_recordsOnly (fun _ _ => discard_recordsOnly ..) (List.range 8) _)
    refine RecordsOnly.trans ?_ (judgeEthWrites_recordsOnly _ _)
    refine RecordsOnly.trans ?_ (judgeZoomWrites_recordsOnly _ _)
    exact foldl_recordsOnly (fun _ _ => discard_recordsOnly ..) (List.range 16) (s, ws)

/-- Judging the writes of the next tick changes the record, and leaves out of the two sets what the checks discard. -/
theorem judgeDue_eq (s : State) :
    ∃ t due held, RecordsOnly s t ∧ due.Sublist s.deal.due ∧ held.Sublist s.deal.amdHeld ∧
      s.judgeDue = { t with deal := { s.deal with due := due, amdHeld := held } } := by
  have hrecords := judgeWrites_recordsOnly s (s.writesAt s.deal.next)
  have hdeal : (s.judgeWrites (s.writesAt s.deal.next)).1.deal = s.deal := by
    obtain ⟨-, r, l, f, h⟩ := hrecords
    rw [h]
  unfold State.judgeDue
  simp only [hdeal]
  refine ⟨_, _, _, hrecords, List.filter_sublist, ?_, rfl⟩
  split
  · exact List.filter_sublist
  · exact .refl _

/-- Of the staged writes, judging only takes away. -/
theorem judgeDue_sublist (s : State) :
    s.judgeDue.deal.due.Sublist s.deal.due ∧ s.judgeDue.deal.amdHeld.Sublist s.deal.amdHeld := by
  obtain ⟨t, due, held, -, hdue, hheld, h⟩ := judgeDue_eq s
  rw [h]
  exact ⟨hdue, hheld⟩

/-- Judging writes the fields of the record. -/
theorem KeepsFields.judgeDue {w : List Field} {s u : State} (h : KeepsFields w s u) (hw : ∀ f ∈ judgedFields, f ∈ w) :
    KeepsFields w s u.judgeDue := by
  obtain ⟨t, due, held, ⟨hrecord, -⟩, -, -, hu⟩ := judgeDue_eq u
  rw [hu]
  exact (h.trans (hrecord.mono hw)).of_regs rfl

/-- Beyond the registers, judging changes the log and the two sets. -/
theorem RegsOnly.judgeDue {s u : State} (h : RegsOnly s u) :
    RegsOnly { withLogOf s u.judgeDue with
      deal := { s.deal with due := u.judgeDue.deal.due, amdHeld := u.judgeDue.deal.amdHeld } } u.judgeDue := by
  obtain ⟨r₀, rfl⟩ := h
  obtain ⟨t, due, held, ⟨-, r, l, f, rfl⟩, -, -, hjudged⟩ := judgeDue_eq { s with regs := r₀ }
  rw [hjudged]
  exact ⟨r, rfl⟩

/-- A flag outside the record. -/
theorem RecordsOnly.flag {s t : State} (h : RecordsOnly s t) {g : Field} (hq : quiet g = true)
    (hg : ∀ f ∈ judgedFields, g.addr ≠ f.addr) : t.flag g = s.flag g :=
  flag_congr (h.1 g hq fun f hf => .inl (hg f hf))

/-- A register of which no field is in the record. -/
theorem RecordsOnly.reg {s t : State} (h : RecordsOnly s t) {a : Nat} (hq : quiet (wholeReg a) = true)
    (ha : ∀ f ∈ judgedFields, a ≠ f.addr) : t.reg a = s.reg a := by
  have hfld := h.1 (wholeReg a) hq fun f hf => .inl (ha f hf)
  simpa [State.fld, wordBits, wholeReg, Nat.mod_eq_of_lt (BitVec.isLt _), BitVec.toNat_inj] using hfld

/-- A pair outside the record. -/
theorem RecordsOnly.pair {s t : State} (h : RecordsOnly s t) {p : Pair} (hq : quiet (wholeReg p.addr) = true)
    (hq' : quiet (wholeReg (p.addr + 4)) = true) (hp : ∀ f ∈ judgedFields, p.addr ≠ f.addr)
    (hp' : ∀ f ∈ judgedFields, p.addr + 4 ≠ f.addr) : t.pair p = s.pair p := by
  rw [State.pair, State.pair, h.reg hq hp, h.reg hq' hp']

/-! ### The codes of a refusal (R55) -/

/-- A refusal found in a list of checks is one of the list's. -/
theorem firstCode_mem {l : List (Bool × AmdRefusal)} {r : AmdRefusal} (h : firstCode l = some r) : r ∈ l.map Prod.snd := by
  induction l with
  | nil => cases h
  | cons x l ih =>
    obtain ⟨b, q⟩ := x
    cases b with
    | true =>
      obtain rfl := Option.some.inj h
      exact List.mem_cons_self
    | false => exact List.mem_cons_of_mem _ (ih h)

/-- The checks of the header, the records, the tag, the nonce and the sequence give codes 0x01 to 0x08. -/
theorem amdFrame_code {s : State} {r : AmdRefusal} (h : s.amdFrame = .error r) : r.code ≤ 0x08 := by
  unfold State.amdFrame at h
  simp only at h
  split at h
  · next hhead =>
    obtain rfl := Except.error.inj h
    have := firstCode_mem hhead
    simp only [List.map_cons, List.map_nil, List.mem_cons, List.not_mem_nil, or_false] at this
    rcases this with rfl | rfl | rfl <;> decide
  · split at h
    · obtain rfl := Except.error.inj h
      decide
    · split at h
      · obtain rfl := Except.error.inj h
        exact (by decide : 0x04 ≤ 0x08)
      · split at h
        · next htail =>
          obtain rfl := Except.error.inj h
          have := firstCode_mem htail
          simp only [List.map_cons, List.map_nil, List.mem_cons, List.not_mem_nil, or_false] at this
          rcases this with rfl | rfl | rfl | rfl <;> decide
        · cases h

/-- A record's values are refused with code 0x0A. -/
theorem afterRecords_code {rs : List (ImageRecord × Nat)} {s : State} {epoch : Bool} {r : AmdRefusal}
    (h : s.afterRecords epoch rs = .error r) : r.code = 0x0A := by
  induction rs generalizing s epoch with
  | nil => cases h
  | cons x rs ih =>
    unfold State.afterRecords at h
    split at h
    · obtain rfl := Except.error.inj h
      rfl
    · exact ih h

/-- The resulting configuration is refused with code 0x0A. -/
theorem resultRefusal_code {s t : State} {rs : List (ImageRecord × Nat)} {r : AmdRefusal} (h : s.resultRefusal t rs = some r) :
    r.code = 0x0A := by
  unfold State.resultRefusal at h
  obtain ⟨i, -, rfl⟩ := Option.map_eq_some_iff.mp h
  rfl

/-- The checks of R55 give codes 0x01 to 0x0B. -/
theorem checkAmendment_code {s : State} {r : AmdRefusal} {zoom : Bool} (h : s.checkAmendment = .error (r, zoom)) : r.code ≤ 0x0B := by
  unfold State.checkAmendment at h
  split at h
  · next hframe =>
    cases h
    exact (amdFrame_code hframe).trans (by decide)
  · simp only at h
    split at h
    · cases h
      exact (by decide : 0x09 ≤ 0x0B)
    · split at h
      · next hvalues =>
        cases h
        exact (afterRecords_code hvalues).trans_le (by decide)
      · split at h
        · next hresult =>
          cases h
          exact (resultRefusal_code hresult).trans_le (by decide)
        · split at h
          · cases h
            decide
          · cases h

/-! ### Submission (R56, R466) -/

/-- The 64-bit target that a write of DEAL_COMMIT_HI completes. -/
def commitTarget (s : State) (hi : Word) : Nat :=
  (sparseGet (fun _ => (0 : Word)) s.holdLo DEAL_COMMIT.addr).toNat + 2 ^ 32 * hi.toNat

/-- A target takes 64 bits. -/
theorem commitTarget_lt (s : State) (hi : Word) : commitTarget s hi < 2 ^ 64 := by
  have hlo := (sparseGet (fun _ => (0 : Word)) s.holdLo DEAL_COMMIT.addr).isLt
  have hhi := hi.isLt
  unfold commitTarget
  omega

/-- The sets of staged writes when an amendment is submitted: it takes the held set along (R48). -/
def amdTaken (d : DealState) : DealState :=
  { d with amdState := .check, amdCancel := false, amdHeld := d.held, held := [], amdEarly := if d.closed then d.next + 1 else d.next }

/-- Under WDOG a submission writes DEAL_COMMIT. -/
theorem amdSubmit_wdog {s : State} {hi : Word} (h : s.flag SUP_STAT_WDOG = true) :
    s.amdSubmit hi = s.setPair DEAL_COMMIT (commitTarget s hi) := if_pos h

/-- A submission while an amendment is in progress is recorded as ignored. -/
theorem amdSubmit_inProgress {s : State} {hi : Word} (hw : s.flag SUP_STAT_WDOG = false) (hs : s.deal.amdState ≠ .idle) :
    s.amdSubmit hi = s.ignored (DEAL_COMMIT.addr + 4) :=
  (if_neg (by simp [hw])).trans (if_pos hs)

/-- A submission in IDLE stores the target and takes the held set. -/
theorem amdSubmit_idle {s : State} {hi : Word} (hw : s.flag SUP_STAT_WDOG = false) (hs : s.deal.amdState = .idle) :
    s.amdSubmit hi =
      (({ s.setPair DEAL_COMMIT (commitTarget s hi) with deal := amdTaken s.deal } : State).setFld DEAL_STAT_AMD_BUSY 1).showStaged := by
  have hearly : s.deal.next + b2n s.deal.closed = if s.deal.closed then s.deal.next + 1 else s.deal.next := by
    cases s.deal.closed <;> rfl
  refine ((if_neg (by simp [hw])).trans (if_neg (by simp [hs]))).trans ?_
  rw [amdTaken, ← hearly]
  rfl

/-! ### The end of an amendment that is not applied (R48, R55, R56) -/

/-- The sets of staged writes when an amendment ends unapplied: its set returns ahead of newer held writes (R48). -/
def amdReturned (d : DealState) : DealState :=
  { d with amdState := .idle, amdCancel := false, amdRecs := [], held := d.amdHeld ++ d.held, amdHeld := [] }

/-- The fields that the end of an amendment writes. -/
def endedFields : List Field :=
  [DEAL_STAT_AMD_BUSY, DEAL_STAT_AMD_PENDING, DEAL_STAT_AMD_REFUSED, DEAL_CTL_AMD_CANCEL, wholeReg DEAL_AMD_STAT_CODE.addr,
    DEAL_STAT_STAGED_PENDING, DEAL_STAT_GATE_HELD]

/-- What the registers show of an amendment that ended with a code and a record, and of the held set `held`. -/
def EndedAs (held : List StagedWrite) (code rec' : Nat) (t : State) : Prop :=
  t.flag DEAL_STAT_AMD_BUSY = false ∧ t.flag DEAL_STAT_AMD_PENDING = false ∧ t.flag DEAL_STAT_AMD_REFUSED = true ∧
  t.fld DEAL_AMD_STAT_CODE = code % 256 ∧ t.fld DEAL_AMD_STAT_RECORD = rec' % 65536 ∧ t.flag DEAL_STAT_GATE_HELD = !held.isEmpty

/-- DEAL_AMD_STAT as the end of an amendment writes it. -/
theorem amdStat_fields (s : State) (r : AmdRefusal) (h : r.code < 65536) :
    (s.setReg DEAL_AMD_STAT_CODE.addr (BitVec.ofNat 32 (r.rec' <<< 16 + r.code))).fld DEAL_AMD_STAT_CODE = r.code % 256 ∧
    (s.setReg DEAL_AMD_STAT_CODE.addr (BitVec.ofNat 32 (r.rec' <<< 16 + r.code))).fld DEAL_AMD_STAT_RECORD = r.rec' % 65536 := by
  rw [fld_setReg_self, fld_setReg_eq _ DEAL_AMD_STAT_CODE.addr _ DEAL_AMD_STAT_RECORD rfl]
  simp only [wordBits_eq, BitVec.toNat_ofNat, Nat.shiftLeft_eq, DEAL_AMD_STAT_CODE, DEAL_AMD_STAT_RECORD]
  omega

/-- After an amendment ends unapplied, the registers show why. -/
theorem amdRefuse_shown (s : State) (r : AmdRefusal) (h : r.code < 65536) :
    EndedAs (s.deal.amdHeld ++ s.deal.held) r.code r.rec' (s.amdRefuse r) := by
  unfold State.amdRefuse
  refine ⟨?_, ?_, ?_, ?_, ?_, showStaged_gateHeld _⟩
  · simp (disch := decide) only [showStaged_flag, flag_setReg, flag_setFld_ne, flag_clear]
  · simp (disch := decide) only [showStaged_flag, flag_setReg, flag_setFld_ne, flag_clear]
  · simp (disch := decide) only [showStaged_flag, flag_setReg, flag_setFld_ne, flag_set]
  · rw [showStaged_fld _ (.inl (by decide)), (amdStat_fields _ r h).1]
  · rw [showStaged_fld _ (.inl (by decide)), (amdStat_fields _ r h).2]

/-- The end of an amendment writes the fields that show it. -/
theorem KeepsFields.amdRefuse {w : List Field} {s u : State} (r : AmdRefusal) (h : KeepsFields w s u) (hw : ∀ f ∈ endedFields, f ∈ w) :
    KeepsFields w s (u.amdRefuse r) := by
  have hdeal : KeepsFields w s { u with deal := amdReturned u.deal } := h.of_regs rfl
  unfold State.amdRefuse
  exact (((((hdeal.setFld _ _ (hw _ (by decide))).setFld _ _ (hw _ (by decide))).setFld _ _ (hw _ (by decide))).setFld _ _
    (hw _ (by decide))).setReg _ _ (hw _ (by decide))).showStaged (hw _ (by decide)) (hw _ (by decide))

/-- What the registers show of the end of an amendment is not touched by settling. -/
theorem EndedAs.settle {held : List StagedWrite} {code rec' : Nat} {t : State} (h : EndedAs held code rec' t) :
    EndedAs held code rec' t.settle := by
  unfold EndedAs
  simp (disch := decide) only [settle_flag, settle_fld]
  exact h

/-- The end of an amendment changes the registers and the sets of staged writes. -/
theorem RegsOnly.amdRefuse {s u : State} (r : AmdRefusal) (h : RegsOnly s u) :
    RegsOnly { s with deal := amdReturned u.deal } (u.amdRefuse r) := by
  unfold State.amdRefuse
  exact ((((((h.withDeal (amdReturned u.deal)).setFld _ _).setFld _ _).setFld _ _).setFld _ _).setReg _ _).showStaged

/-- A command that ends an amendment unapplied, after a state that differs in its registers alone from the one it runs from. -/
theorem Runs.amdRefuse {c : Instr} {s u : State} {w : List Field} {r : AmdRefusal} (hc : exec c s = Machine.done (u.amdRefuse r))
    (hu : RegsOnly s u) (hkeeps : KeepsFields w s u) (hw : ∀ f ∈ endedFields, f ∈ w) (hr : r.code < 65536) :
    Runs c s w (fun _ => { s with deal := amdReturned s.deal }) (EndedAs (s.deal.amdHeld ++ s.deal.held) r.code r.rec') := by
  rw [← hu.deal_eq]
  exact Runs.regsOnly hc (amdRefuse_shown u r hr).settle (hkeeps.amdRefuse r hw) (hu.amdRefuse r) rfl

/-! ### The end of the checks (R55, R56) -/

/-- Outside CHECK and under WDOG the checks do nothing. -/
theorem amdChecked_still {s : State} (h : s.deal.amdState ≠ .check ∨ s.flag SUP_STAT_WDOG = true) : s.amdChecked = s := if_pos h

/-- A check that fails ends the amendment with its refusal. -/
theorem amdChecked_refused {s : State} {r : AmdRefusal} {zoom : Bool} (hw : s.flag SUP_STAT_WDOG = false) (hs : s.deal.amdState = .check)
    (hr : s.checkAmendment = .error (r, zoom)) :
    s.amdChecked =
      (s.setReg DEAL_BUDGET_ENG_FAIL.addr (if zoom then BitVec.ofNat 32 (2 ^ 31 + 4 * 2 ^ 28) else 0)).amdRefuse r := by
  unfold State.amdChecked
  rw [if_neg (by simp [hw, hs])]
  simp only [hr]

/-- A held cancel ends an amendment that passes the checks. -/
theorem amdChecked_cancelled {s : State} {rs : List ImageRecord} (hw : s.flag SUP_STAT_WDOG = false) (hs : s.deal.amdState = .check)
    (hr : s.checkAmendment = .ok rs) (hc : s.deal.amdCancel = true) :
    s.amdChecked = (s.setReg DEAL_BUDGET_ENG_FAIL.addr 0).amdRefuse (amdCode 0x0C) := by
  unfold State.amdChecked
  rw [if_neg (by simp [hw, hs])]
  simp only [hr]
  exact if_pos hc

/-- An amendment that passes the checks is pending, and its SEQ is recorded. -/
def amdAccepted (s : State) (rs : List ImageRecord) : State :=
  ((({ s.setReg DEAL_BUDGET_ENG_FAIL.addr 0 with deal := { s.deal with amdState := .pending, amdRecs := rs } } : State).setFld
    DEAL_STAT_AMD_BUSY 0).setFld DEAL_STAT_AMD_PENDING 1).setPair DEAL_AMD_SEQ (leNat (s.amdBytes 0x10 8))

/-- Beyond the registers, an amendment that is accepted changes its state and its records. -/
theorem amdAccepted_regsOnly (s : State) (rs : List ImageRecord) :
    RegsOnly { s with deal := { s.deal with amdState := .pending, amdRecs := rs } } (amdAccepted s rs) :=
  (((((RegsOnly.refl s).setReg _ _).withDeal _).setFld _ _).setFld _ _).setPair _ _

/-- An accepted amendment is due at the tick that its target and its arrival give. -/
theorem amdDue_amdAccepted {s : State} (rs : List ImageRecord) (n : Nat) (hw : s.flag SUP_STAT_WDOG = false) :
    (amdAccepted s rs).amdDue n = decide (s.amdTick ≤ n) := by
  have hflag : (amdAccepted s rs).flag SUP_STAT_WDOG = false := by
    rw [← hw]
    unfold amdAccepted
    simp (disch := decide) only [flag_setPair, flag_setFld_ne, flag_mk, flag_setReg]
  have htarget : (amdAccepted s rs).pair DEAL_COMMIT = s.pair DEAL_COMMIT := by
    unfold amdAccepted
    simp (disch := decide) only [pair_setPair_ne, pair_setFld_ne, pair_mk, pair_setReg_ne]
  have htick : (amdAccepted s rs).amdTick = s.amdTick := congrArg (fun x => max x s.deal.amdEarly) htarget
  rw [State.amdDue, hflag, htick]
  exact Bool.and_true _

/-- An amendment that passes the checks goes to PENDING; past the close point of its tick, its set is judged then. -/
theorem amdChecked_accepted {s : State} {rs : List ImageRecord} (hw : s.flag SUP_STAT_WDOG = false) (hs : s.deal.amdState = .check)
    (hr : s.checkAmendment = .ok rs) (hc : s.deal.amdCancel = false) :
    s.amdChecked =
      if s.deal.closed && decide (s.amdTick ≤ s.deal.next) then (amdAccepted s rs).judgeDue.showStaged else amdAccepted s rs := by
  rw [← amdDue_amdAccepted rs s.deal.next hw]
  unfold State.amdChecked
  rw [if_neg (by simp [hw, hs])]
  simp only [hr]
  exact if_neg (by simp [hc])

/-- The fields that the acceptance of an amendment writes. -/
def acceptedFields : List Field :=
  wholeReg DEAL_BUDGET_ENG_FAIL.addr :: DEAL_STAT_AMD_BUSY :: DEAL_STAT_AMD_PENDING :: pairFields DEAL_AMD_SEQ

/-- What the registers show of an amendment that passed the checks. -/
def AcceptedAs (seq : Nat) (t : State) : Prop :=
  t.flag DEAL_STAT_AMD_BUSY = false ∧ t.flag DEAL_STAT_AMD_PENDING = true ∧ t.pair DEAL_AMD_SEQ = seq % 2 ^ 64

/-- After an amendment is accepted, the registers show it. -/
theorem amdAccepted_shown (s : State) (rs : List ImageRecord) : AcceptedAs (leNat (s.amdBytes 0x10 8)) (amdAccepted s rs) := by
  refine ⟨?_, ?_, pair_setPair _ _ _⟩
  · simp (disch := decide) only [amdAccepted, flag_setPair, flag_setFld_ne, flag_clear]
  · simp (disch := decide) only [amdAccepted, flag_setPair, flag_set]

/-- What the registers show of an accepted amendment is not touched by settling. -/
theorem AcceptedAs.settle {seq : Nat} {t : State} (h : AcceptedAs seq t) : AcceptedAs seq t.settle := by
  unfold AcceptedAs
  rw [settle_flag _ _ (by decide), settle_flag _ _ (by decide), settle_pair _ (by decide) (by decide)]
  exact h

/-- Judging the staged writes leaves what the registers show of the amendment. -/
theorem AcceptedAs.judgeDue {seq : Nat} {t : State} (h : AcceptedAs seq t) : AcceptedAs seq t.judgeDue.showStaged := by
  obtain ⟨hbusy, hpending, hseq⟩ := h
  obtain ⟨u, due, held, hrecords, -, -, hu⟩ := judgeDue_eq t
  rw [hu]
  refine ⟨?_, ?_, ?_⟩
  · rw [showStaged_flag _ _ (by decide), flag_mk, hrecords.flag (by decide) (by decide), hbusy]
  · rw [showStaged_flag _ _ (by decide), flag_mk, hrecords.flag (by decide) (by decide), hpending]
  · rw [showStaged_pair _ (by decide), pair_mk, hrecords.pair (by decide) (by decide) (by decide) (by decide), hseq]

/-- The acceptance of an amendment writes the fields that show it. -/
theorem amdAccepted_keeps (s : State) (rs : List ImageRecord) : KeepsFields acceptedFields s (amdAccepted s rs) := by
  have hbudget : KeepsFields acceptedFields s (s.setReg DEAL_BUDGET_ENG_FAIL.addr 0) := (KeepsFields.refl _ s).setReg _ _ (by decide)
  have hpending : KeepsFields acceptedFields s
      { s.setReg DEAL_BUDGET_ENG_FAIL.addr 0 with deal := { s.deal with amdState := .pending, amdRecs := rs } } := hbudget.of_regs rfl
  exact ((hpending.setFld _ _ (by decide)).setFld _ _ (by decide)).setPair _ _ (by decide) (by decide)

/-- The result of the checks that pass: the amendment is shown as pending, and of the two sets of its tick's writes nothing is lost but
what the checks of a close point discard, if they run. -/
def PendsWith (d : DealState) (seq : Nat) (judged : Bool) (t : State) : Prop :=
  t.flag DEAL_STAT_AMD_BUSY = false ∧ t.flag DEAL_STAT_AMD_PENDING = true ∧ t.pair DEAL_AMD_SEQ = seq % 2 ^ 64 ∧
  t.deal.due.Sublist d.due ∧ t.deal.amdHeld.Sublist d.amdHeld ∧
  (judged = false → t.deal.due = d.due ∧ t.deal.amdHeld = d.amdHeld)

/-- A command that accepts an amendment, and judges the writes of its tick where the tick's close point has passed. -/
theorem Runs.amdAccept {c : Instr} {s : State} {rs : List ImageRecord} {judged : Bool}
    (hc : exec c s = Machine.done (if judged then (amdAccepted s rs).judgeDue.showStaged else amdAccepted s rs)) :
    Runs c s
      (acceptedFields ++ if judged then [ZC_STAT_REFUSED, ZC_REFUSE_CAUSE, ZC_REFUSE_CHAIN, ETH_STAT_REFUSED] ++
        [DEAL_STAT_STAGED_PENDING, DEAL_STAT_GATE_HELD] ++ logFields else [])
      (fun t => { (if judged then withLogOf s t else s) with
        deal := { s.deal with amdState := .pending, amdRecs := rs, due := t.deal.due, amdHeld := t.deal.amdHeld } })
      (PendsWith s.deal (leNat (s.amdBytes 0x10 8)) judged) := by
  have hshown := amdAccepted_shown s rs
  have hkeeps : ∀ w, KeepsFields (acceptedFields ++ w) s (amdAccepted s rs) := fun _ =>
    (amdAccepted_keeps s rs).mono fun _ => List.mem_append_left _
  have hparts := amdAccepted_regsOnly s rs
  have hdeal := hparts.deal_eq
  cases judged with
  | false =>
    obtain ⟨hbusy, hpending, hseq⟩ := hshown.settle
    rw [if_neg (by decide)] at hc
    refine Runs.regsOnly hc ⟨hbusy, hpending, hseq, ?_⟩ (hkeeps _) ?_ rfl
    · simp [settle_deal, hdeal]
    · rw [settle_deal, hdeal]
      exact hparts
  | true =>
    obtain ⟨hbusy, hpending, hseq⟩ := hshown.judgeDue.settle
    obtain ⟨hdue, hheld⟩ := judgeDue_sublist (amdAccepted s rs)
    rw [hdeal] at hdue hheld
    rw [if_pos rfl] at hc
    refine Runs.regsOnly hc ⟨hbusy, hpending, hseq, ?_, ?_, nofun⟩
      (((hkeeps _).judgeDue (by decide)).showStaged (by decide) (by decide)) ?_ rfl
    · rw [settle_deal, showStaged_deal]
      exact hdue
    · rw [settle_deal, showStaged_deal]
      exact hheld
    · simp only [withLogOf, settle_deal, settle_hand, settle_lastFatal, showStaged_deal, showStaged_hand, showStaged_lastFatal]
      exact hparts.judgeDue.showStaged

/-! ### Cancellation (R56, R466) -/

/-- Under WDOG a cancel does nothing. -/
theorem amdCancelWrite_wdog {s : State} (h : s.flag SUP_STAT_WDOG = true) : s.amdCancelWrite = s := if_pos h

/-- Outside WDOG a cancel in IDLE is recorded as ignored. -/
theorem amdCancelWrite_idle {s : State} (hw : s.flag SUP_STAT_WDOG = false) (hs : s.deal.amdState = .idle) :
    s.amdCancelWrite = s.ignored DEAL_CTL_AMD_CANCEL.addr := by
  simp [State.amdCancelWrite, hw, hs]

/-- Outside WDOG a cancel in CHECK is held. -/
theorem amdCancelWrite_check {s : State} (hw : s.flag SUP_STAT_WDOG = false) (hs : s.deal.amdState = .check) :
    s.amdCancelWrite = ({ s with deal := { s.deal with amdCancel := true } } : State).setFld DEAL_CTL_AMD_CANCEL 1 := by
  simp [State.amdCancelWrite, hw, hs]

/-- Outside WDOG a cancel in PENDING ends the amendment, unless the close point of its tick has passed. -/
theorem amdCancelWrite_pending {s : State} (hw : s.flag SUP_STAT_WDOG = false) (hs : s.deal.amdState = .pending) :
    s.amdCancelWrite = if s.amdTick ≤ s.deal.next ∧ s.deal.closed = true then s else s.amdRefuse (amdCode 0x0C) := by
  simp [State.amdCancelWrite, hw, hs]

/-! ### The state table -/

/-- A submission in IDLE. -/
theorem Runs.amdSubmit {s : State} {hi : Word} (hw : s.flag SUP_STAT_WDOG = false) (hs : s.deal.amdState = .idle) :
    Runs (.amendmentSubmit hi) s
      (pairFields DEAL_COMMIT ++ DEAL_STAT_AMD_BUSY :: [DEAL_STAT_STAGED_PENDING, DEAL_STAT_GATE_HELD])
      (fun t => { s with deal := t.deal })
      (fun t => t.deal = amdTaken s.deal ∧ t.flag DEAL_STAT_AMD_BUSY = true ∧ t.flag DEAL_STAT_GATE_HELD = false ∧
        t.pair DEAL_COMMIT = commitTarget s hi) := by
  refine Runs.regsOnly (congrArg Machine.done (amdSubmit_idle hw hs)) ⟨?_, ?_, ?_, ?_⟩ ?_ ?_ ?_
  · rw [settle_deal]
    rfl
  · rw [settle_flag _ _ (by decide), showStaged_flag _ _ (by decide)]
    exact flag_set _ _ (by decide) (by decide)
  · rw [settle_flag _ _ (by decide), showStaged_gateHeld]
    rfl
  · rw [settle_pair _ (by decide) (by decide), showStaged_pair _ (by decide), pair_setFld_ne _ _ _ (by decide) (by decide), pair_mk,
      pair_setPair, Nat.mod_eq_of_lt (commitTarget_lt s hi)]
  · have htarget : KeepsFields (pairFields DEAL_COMMIT ++ DEAL_STAT_AMD_BUSY :: [DEAL_STAT_STAGED_PENDING, DEAL_STAT_GATE_HELD]) s
        (s.setPair DEAL_COMMIT (commitTarget s hi)) := (KeepsFields.refl _ s).setPair _ _ (by decide) (by decide)
    have htaken : KeepsFields (pairFields DEAL_COMMIT ++ DEAL_STAT_AMD_BUSY :: [DEAL_STAT_STAGED_PENDING, DEAL_STAT_GATE_HELD]) s
        { s.setPair DEAL_COMMIT (commitTarget s hi) with deal := amdTaken s.deal } := htarget.of_regs rfl
    exact (htaken.setFld _ _ (by decide)).showStaged (by decide) (by decide)
  · rw [settle_deal]
    exact ((((RegsOnly.refl s).setPair _ _).withDeal _).setFld _ _).showStaged
  · rfl

/-- Settles O11: each state and event of the table of R56, by the equation of that transition. -/
theorem amendmentMovesThroughItsStates : Obligations.AmendmentMovesThroughItsStates := by
  intro s hi d lo shown judged back ended refusedAs
  refine ⟨fun hw hs => Runs.amdSubmit hw hs, fun hw hs => Runs.ignored (congrArg Machine.done (amdSubmit_inProgress hw hs)),
    fun hw => ⟨?_, ?_, ?_⟩, fun hw hs => ⟨fun r zoom hr => ?_, fun rs hr hc => ?_, fun rs hr hc => ?_, ?_⟩,
    fun hw hs => Runs.ignored (congrArg Machine.done (amdCancelWrite_idle hw hs)),
    fun hw hs => ⟨fun hbefore => ?_, fun hdue hclosed => ?_⟩⟩
  · exact Runs.regsOnly (congrArg Machine.done (amdSubmit_wdog hw)) trivial
      ((KeepsFields.refl _ s).setPair _ _ (by decide) (by decide)) ((RegsOnly.refl s).setPair _ _) rfl
  · exact Runs.still (congrArg Machine.done (amdChecked_still (.inr hw)))
  · exact Runs.still (congrArg Machine.done (amdCancelWrite_wdog hw))
  · exact Runs.amdRefuse (congrArg Machine.done (amdChecked_refused hw hs hr)) ((RegsOnly.refl s).setReg _ _)
      ((KeepsFields.refl _ s).setReg _ _ (by simp)) (fun _ => List.mem_cons_of_mem _) ((checkAmendment_code hr).trans_lt (by decide))
  · exact Runs.amdRefuse (r := amdCode 0x0C) (congrArg Machine.done (amdChecked_cancelled hw hs hr hc)) ((RegsOnly.refl s).setReg _ _)
      ((KeepsFields.refl _ s).setReg _ _ (by simp)) (fun _ => List.mem_cons_of_mem _) (by decide)
  · exact Runs.amdAccept (congrArg Machine.done (amdChecked_accepted hw hs hr hc))
  · refine Runs.regsOnly (congrArg Machine.done (amdCancelWrite_check hw hs)) ?_ ?_ ((RegsOnly.refl _).setFld _ _) rfl
    · rw [settle_flag _ _ (by decide)]
      exact flag_set _ _ (by decide) (by decide)
    · have hheld : KeepsFields [DEAL_CTL_AMD_CANCEL] s { s with deal := { s.deal with amdCancel := true } } :=
        (KeepsFields.refl _ s).of_regs rfl
      exact hheld.setFld _ _ (by decide)
  · refine Runs.amdRefuse (r := amdCode 0x0C) (u := s) (congrArg Machine.done ?_) (.refl s) (.refl _ s) (fun _ h => h) (by decide)
    rw [amdCancelWrite_pending hw hs, if_neg]
    rintro ⟨hdue, hclosed⟩
    rcases hbefore with hahead | hopen
    · exact absurd hdue (Nat.not_le.mpr hahead)
    · exact absurd (hclosed.symm.trans hopen) (by decide)
  · refine Runs.still (congrArg Machine.done ?_)
    rw [amdCancelWrite_pending hw hs, if_pos ⟨hdue, hclosed⟩]

end Sys2Proof
end

section
/-! PROOFS. The statements of 03_wideband_converters.md: loss of the sample clock (O13), calibration (O14), and injected snapshots
(O15). -/

namespace Sys2Proof

open Sys2Proof.Machine

/-! ### Loss of the sample clock (O13) -/

/-- Under WDOG nothing is logged. -/
theorem logEvent_wdog {s : State} (c v a : Nat) (h : s.flag SUP_STAT_WDOG = true) : s.logEvent c v a = s := if_pos h

/-- A FATAL event meets a condition of FAULT_N: outside WDOG by LOG_FATAL, under WDOG by WDOG itself (R212). -/
theorem logEvent_fatal_faultCond (s : State) (c a : Nat) : (s.logEvent c sevFatal a).faultCond = true := by
  cases hw : s.flag SUP_STAT_WDOG with
  | false => simp [State.faultCond, logEvent_fatal s c a hw]
  | true => simp [logEvent_wdog _ _ _ hw, State.faultCond, hw]

/-- With the internal clock selected the event does nothing. -/
theorem sclkStop_internal {s : State} (h : s.flag CONV_CLK_SRC = true) : s.sclkStop = s := if_pos h

/-- With the external clock selected its loss is shown, logged as FATAL, and no tick follows. -/
theorem sclkStop_external {s : State} (h : s.flag CONV_CLK_SRC = false) :
    s.sclkStop =
      { (s.setFld CONV_STAT_SCLK_LOST 1).logEvent 0x0402 sevFatal 0 with deal := { s.deal with stopped := true } } := by
  rw [State.sclkStop, if_neg (by simp [h])]
  simp

/-- Once the sample clock has stopped no close point passes. -/
theorem closePoint_stopped {s : State} (h : s.deal.stopped = true) : s.closePoint = s := if_pos (.inr (.inl h))

/-- Once the sample clock has stopped no tick occurs. -/
theorem tick_stopped {s : State} (ms : Nat) (h : s.deal.stopped = true) : s.tick ms = s := if_pos (by simp [State.ticking, h])

/-- Settles O13: the loss logged as FATAL, and the close point and the tick of a stopped clock. -/
theorem sampleClockLossEndsTheTicks : Obligations.SampleClockLossEndsTheTicks := by
  intro s
  refine ⟨fun hext => ?_, fun hint => Runs.still (congrArg Machine.done (sclkStop_internal hint))⟩
  have hwdog : (s.setFld CONV_STAT_SCLK_LOST 1).flag SUP_STAT_WDOG = s.flag SUP_STAT_WDOG := flag_setFld_ne _ _ (by decide)
  have hstopped : s.sclkStop.settle.deal.stopped = true := by rw [settle_deal, sclkStop_external hext]
  have hparts := logEvent_parts (s.setFld CONV_STAT_SCLK_LOST 1) 0x0402 sevFatal 0
  refine Runs.done (u := s.sclkStop) rfl ⟨?_, hstopped, ?_, fun hw => ⟨?_, ?_⟩,
    Runs.still (congrArg Machine.done (closePoint_stopped hstopped)),
    fun ms => Runs.still (congrArg Machine.done (tick_stopped ms hstopped))⟩ ?_ ?_ ?_
  · rw [settle_flag _ _ (by decide), sclkStop_external hext, flag_mk, logEvent_flag _ _ _ _ _ (by decide) (by decide)]
    exact flag_set _ _ (by decide) (by decide)
  · rw [settle_pins_fault, sclkStop_external hext]
    exact logEvent_fatal_faultCond (s.setFld CONV_STAT_SCLK_LOST 1) 0x0402 0
  · rw [settle_flag _ _ (by decide), sclkStop_external hext, flag_mk, logEvent_fatal _ _ _ (hwdog.trans hw)]
  · rw [settle_lastFatal, sclkStop_external hext]
    exact logEvent_fatal_lastFatal _ _ _ (hwdog.trans hw)
  · rw [sclkStop_external hext]
    exact (((KeepsFields.refl _ s).setFld _ _ (by decide)).logEvent _ _ _ (by decide)).of_regs rfl
  · rw [withLogOf, settle_hand, settle_lastFatal, sclkStop_external hext, hparts]
    rfl
  · rw [sclkStop_external hext]
    simp

/-! ### Calibration (O14) -/

/-! #### What changes of the calibrators -/

/-- Settling leaves every calibrator. -/
@[simp] theorem settle_calibOf (s : State) (i : Nat) : s.settle.calibOf i = s.calibOf i := by
  rw [State.calibOf, settle_conv, State.calibOf]

/-- Of a family of records, record `i` is `x` and every other is as it was. -/
def Becomes {α : Type} (get : State → Nat → α) (s : State) (i : Nat) (x : α) (t : State) : Prop :=
  get t i = x ∧ ∀ j : Nat, j ≠ i → get t j = get s j

/-- What a read gives after one record is put. -/
theorem Becomes.of_put {α : Type} {get : State → Nat → α} {s t : State} {i : Nat} {x : α}
    (h : ∀ j, get t j = if j = i then x else get s j) : Becomes get s i x t :=
  ⟨by rw [h, if_pos rfl], fun j hj => by rw [h, if_neg hj]⟩

/-- No record is put. -/
theorem Becomes.same {α : Type} {get : State → Nat → α} {s t : State} {i : Nat} (h : ∀ j, get t j = get s j) :
    Becomes get s i (get s i) t := ⟨h i, fun j _ => h j⟩

/-- After a calibrator is put in a state with the calibrators of `s`, and the signals settle. -/
theorem Becomes.setCalib {s u : State} {i : Nat} {x : Calib} (h : u.conv = s.conv) :
    Becomes State.calibOf s i x (u.setCalib i x).settle :=
  .of_put fun j => by rw [settle_calibOf, calibOf_setCalib, State.calibOf, h, State.calibOf]

/-- A command whose outcome differs in registers and calibrators alone. -/
theorem Runs.calibOnly {c : Instr} {s u : State} {w : List Field} {result : State → Prop} (hc : exec c s = Machine.done u)
    (hu : ∃ r l, u = { s with regs := r, conv := { s.conv with calib := l } }) (hw : KeepsFields w s u) (hr : result u.settle) :
    Runs c s w (fun t => { s with conv := { s.conv with calib := t.conv.calib } }) result := by
  refine Runs.regsOnly hc hr hw ?_ rfl
  obtain ⟨r, l, rfl⟩ := hu
  rw [settle_conv]
  exact ⟨r, rfl⟩

/-! #### Requests for full recalibration (R81) -/

/-- While a full recalibration runs a request is recorded as ignored. -/
theorem calRequest_recal {s : State} {i : Nat} (h : s.fld (CONVI_LANE_STAT_MODE i) = modeRecal) :
    s.calRequest i = s.ignored CONV_CTL.addr := if_pos h

/-- With the calibrator stopped a request is discarded. -/
theorem calRequest_stopped {s : State} {i : Nat} (h : s.fld (CONVI_LANE_STAT_MODE i) = modeStopped) : s.calRequest i = s := by
  simp [State.calRequest, h, modeStopped, modeRecal]

/-- Any other request waits in CAL_REQ. -/
theorem calRequest_waits {s : State} {i : Nat} (h : s.fld (CONVI_LANE_STAT_MODE i) ≠ modeRecal)
    (h' : s.fld (CONVI_LANE_STAT_MODE i) ≠ modeStopped) : s.calRequest i = s.stick CONV_CTL_CAL_REQ i := by
  simp [State.calRequest, h, h']

/-! #### CAL_HOLD (R80) -/

/-- Setting CAL_HOLD notes the limit counts, unless it was set. -/
theorem calHold_set (s : State) (i : Nat) :
    s.calHold i true =
      if s.bitSet CONV_CTL_CAL_HOLD i then s.putBit CONV_CTL_CAL_HOLD i true
      else (s.putBit CONV_CTL_CAL_HOLD i true).setCalib i { s.calibOf i with kept := (s.calibOf i).limits } := by
  unfold State.calHold
  cases s.bitSet CONV_CTL_CAL_HOLD i <;> rfl

/-- Clearing CAL_HOLD takes the noted counts back, where it was set. -/
theorem calHold_clear (s : State) (i : Nat) :
    s.calHold i false =
      if s.bitSet CONV_CTL_CAL_HOLD i then
        (s.putBit CONV_CTL_CAL_HOLD i false).setCalib i { s.calibOf i with restart := true, limits := (s.calibOf i).kept }
      else s.putBit CONV_CTL_CAL_HOLD i false := by
  unfold State.calHold
  cases s.bitSet CONV_CTL_CAL_HOLD i <;> rfl

/-- CAL_HOLD reads what was put in it. -/
theorem calHold_shown (s : State) {u : State} (i : Fin 4) {b : Bool} (h : u.regs = (s.putBit CONV_CTL_CAL_HOLD i b).regs) :
    u.settle.bitSet CONV_CTL_CAL_HOLD i = b := by
  have hquiet : quiet (CONV_CTL_CAL_HOLD.bit i) = true := (by decide : ∀ i : Fin 4, quiet (CONV_CTL_CAL_HOLD.bit i) = true) i
  have hbits : CONV_CTL_CAL_HOLD.lo + i < 32 := (by decide : ∀ i : Fin 4, CONV_CTL_CAL_HOLD.lo + i < 32) i
  rw [settle_bitSet _ _ _ hquiet, bitSet_congr (fld_congr (congrArg (fun r => sparseGet regReset r _) h)), bitSet_putBit _ _ _ _ hbits]

/-- A write of CAL_HOLD that leaves the calibrators. -/
theorem Runs.calHoldSame {c : Instr} {s : State} {i : Fin 4} {b : Bool} (hc : exec c s = Machine.done (s.putBit CONV_CTL_CAL_HOLD i b)) :
    Runs c s [CONV_CTL_CAL_HOLD.bit i] (fun t => { s with conv := { s.conv with calib := t.conv.calib } })
      (fun t => t.bitSet CONV_CTL_CAL_HOLD i = b ∧ Becomes State.calibOf s i (s.calibOf i) t) :=
  Runs.calibOnly hc ⟨_, _, rfl⟩ ((KeepsFields.refl _ s).setFld _ _ (by simp))
    ⟨calHold_shown s i rfl, .same fun j => settle_calibOf _ j⟩

/-- A write of CAL_HOLD that changes its input's calibrator. -/
theorem Runs.calHoldMoves {c : Instr} {s : State} {i : Fin 4} {b : Bool} {x : Calib}
    (hc : exec c s = Machine.done ((s.putBit CONV_CTL_CAL_HOLD i b).setCalib i x)) :
    Runs c s [CONV_CTL_CAL_HOLD.bit i] (fun t => { s with conv := { s.conv with calib := t.conv.calib } })
      (fun t => t.bitSet CONV_CTL_CAL_HOLD i = b ∧ Becomes State.calibOf s i x t) := by
  have hput : KeepsFields [CONV_CTL_CAL_HOLD.bit i] s (s.putBit CONV_CTL_CAL_HOLD i b) := (KeepsFields.refl _ s).setFld _ _ (by simp)
  exact Runs.calibOnly hc ⟨_, _, rfl⟩ (hput.of_regs rfl) ⟨calHold_shown s i rfl, .setCalib rfl⟩

/-! #### The end of a dwell (R77, R84, R87) -/

/-- The end of a dwell that is not the running one, or is judged already, or comes when the calibrator has stopped, does nothing. -/
theorem dwellEnd_still {s : State} {i : Nat} (m : CalMeasure)
    (h : s.fld (CONVI_LANE_STAT_MODE i) = modeStopped ∨ (s.calibOf i).dwellLeft ≠ 1 ∨ (s.calibOf i).move.isSome = true) :
    s.dwellEnd i m = s := if_pos h

/-- The calibrator of input `i` stops: the loads staged for the tick stay, and CAL_STOPPED and an ATTENTION event show it. -/
def calStopped (s : State) (i : Nat) : State :=
  (((s.setCalib i { s.calibOf i with staged := (s.calibOf i).staged.filter (fun x => x.load) }).setFld
    (CONVI_LANE_STAT_MODE i) modeStopped).stick CONV_STAT_CAL_STOPPED i).logEvent 0x0406 sevAttention i

/-- A ruler that has failed stops the calibrator. -/
theorem dwellEnd_rulerFail {s : State} {i : Nat} {m : CalMeasure} (h : s.fld (CONVI_LANE_STAT_MODE i) ≠ modeStopped)
    (hleft : (s.calibOf i).dwellLeft = 1) (hmove : (s.calibOf i).move = none)
    (hfail : m.rulerFail = true ∧ (s.fld (CONVI_LANE_STAT_MODE i) = modeRotate ∨ s.fld (CONVI_LANE_STAT_MODE i) = modeRecal)) :
    s.dwellEnd i m = calStopped s i := by
  unfold State.dwellEnd
  rw [if_neg (by simp [h, hleft, hmove])]
  exact if_pos hfail

/-- The calibrator after a dwell has been judged: the limit counts, the change staged for the tick, and where the ruler goes then. -/
def calJudged (s : State) (i : Nat) (m : CalMeasure) : Calib :=
  let c := s.calibOf i
  let mode := s.fld (CONVI_LANE_STAT_MODE i)
  let slot := s.fld (CONVI_LANE_STAT_SHADOW_SLOT i)
  let lane := s.fld (CONVI_SLOT_LANE_LANE i slot)
  let hits := if atLimit m then instGet 0 c.limits slot + 1 else 0
  let failed := m.residual || decide (3 ≤ hits)
  { c with
    limits := instSet 0 c.limits slot (if failed then 0 else hits)
    staged := c.staged ++ dwellChange mode slot lane failed (s.bitSet CONV_CTL_CAL_HOLD i) m
    move := some (dwellMove mode slot lane failed) }

/-- Any other dwell that ends is judged. -/
theorem dwellEnd_judged {s : State} {i : Nat} {m : CalMeasure} (h : s.fld (CONVI_LANE_STAT_MODE i) ≠ modeStopped)
    (hleft : (s.calibOf i).dwellLeft = 1) (hmove : (s.calibOf i).move = none)
    (hfail : ¬(m.rulerFail = true ∧ (s.fld (CONVI_LANE_STAT_MODE i) = modeRotate ∨ s.fld (CONVI_LANE_STAT_MODE i) = modeRecal))) :
    s.dwellEnd i m = s.setCalib i (calJudged s i m) := by
  unfold State.dwellEnd
  rw [if_neg (by simp [h, hleft, hmove])]
  exact if_neg hfail

/-- Everything that the stop of a calibrator changes. -/
theorem calStopped_eq (s : State) (i : Nat) :
    ∃ r l f, calStopped s i =
      { s.setCalib i { s.calibOf i with staged := (s.calibOf i).staged.filter (fun x => x.load) } with
        regs := r, hand := { s.hand with log := l }, lastFatal := f } := logEvent_eq ..

/-- The stop of a calibrator writes its mode, CAL_STOPPED, and what logging writes. -/
theorem calStopped_keeps (s : State) (i : Nat) :
    KeepsFields (CONVI_LANE_STAT_MODE i :: CONV_STAT_CAL_STOPPED.bit i :: logFields) s (calStopped s i) := by
  have hcalib : KeepsFields (CONVI_LANE_STAT_MODE i :: CONV_STAT_CAL_STOPPED.bit i :: logFields) s
      (s.setCalib i { s.calibOf i with staged := (s.calibOf i).staged.filter (fun x => x.load) }) := (KeepsFields.refl _ s).of_regs rfl
  exact ((hcalib.setFld _ _ (by simp)).setFld _ _ (by simp)).logEvent _ _ _ fun _ h => by simp [h]

/-- What the registers show of a stopped calibrator. -/
theorem calStopped_shown (s : State) (i : Fin 4) :
    (calStopped s i).fld (CONVI_LANE_STAT_MODE i) = modeStopped ∧ (calStopped s i).bitSet CONV_STAT_CAL_STOPPED i = true ∧
      (s.flag SUP_STAT_WDOG = false → (calStopped s i).flag HAND_STAT_LOG_ATTN = true) := by
  have hmode : ∀ i : Fin 4, ((CONVI_LANE_STAT_MODE i).addr ≠ HAND_LOG_COUNT_COUNT.addr ∧
      (CONVI_LANE_STAT_MODE i).addr ≠ HAND_STAT_LOG_ATTN.addr) ∧ (CONVI_LANE_STAT_MODE i).addr ≠ (CONV_STAT_CAL_STOPPED.bit i).addr ∧
      CONV_STAT_CAL_STOPPED.lo + i < 32 ∧ SUP_STAT_WDOG.addr ≠ (CONVI_LANE_STAT_MODE i).addr := by decide
  obtain ⟨hlog, hstat, hbits, hwdog⟩ := hmode i
  refine ⟨?_, ?_, fun hw => logEvent_attn _ _ _ ?_⟩
  · rw [calStopped, logEvent_fld _ _ _ _ _ hlog.1 hlog.2, stick_eq, fld_setFld_addr _ _ hstat,
      fld_setFld_eq _ _ _ (by simp [CONVI_LANE_STAT_MODE])]
    rfl
  · rw [calStopped, bitSet_congr (logEvent_fld _ _ _ _ _ (by simp [Field.bit]; decide) (by simp [Field.bit]; decide)),
      bitSet_stick _ _ _ hbits]
  · rw [stick_eq, flag_setFld_ne _ _ (.inl (by simp [Field.bit]; decide)), flag_setFld_ne _ _ (.inl hwdog)]
    exact hw

/-- Settles O14: each command by the equation of its case. -/
theorem calibrationCommandsStageTheirChanges : Obligations.CalibrationCommandsStageTheirChanges := by
  intro s i m mode hold c parts becomes
  have hfields : ∀ i : Fin 4, quiet (CONV_CTL_CAL_REQ.bit i) = true ∧ CONV_CTL_CAL_REQ.lo + i < 32 ∧
      quiet (CONVI_LANE_STAT_MODE i) = true ∧ quiet (CONV_STAT_CAL_STOPPED.bit i) = true := by decide
  obtain ⟨hquiet, hbits, hquietMode, hquietStopped⟩ := hfields i
  refine ⟨fun hrecal hstopped => ?_, fun hrecal => Runs.ignored (congrArg Machine.done (calRequest_recal hrecal)),
    fun hstopped => Runs.still (congrArg Machine.done (calRequest_stopped hstopped)), ?_, ?_,
    fun hmode hleft hmove hfail hruler => ?_, fun hmode hleft hmove hfail => ?_,
    fun h => Runs.still (congrArg Machine.done (dwellEnd_still m h))⟩
  · refine Runs.regsOnly (congrArg Machine.done (calRequest_waits hrecal hstopped)) ?_ ((KeepsFields.refl _ s).setFld _ _ (by simp))
      ((RegsOnly.refl s).setFld _ _) rfl
    rw [settle_bitSet _ _ _ hquiet, bitSet_stick _ _ _ hbits]
  · have hset := calHold_set s i
    change s.calHold i true = if hold then _ else _ at hset
    cases hh : hold with
    | true => exact Runs.calHoldSame (congrArg Machine.done (hset.trans (if_pos hh)))
    | false => exact Runs.calHoldMoves (congrArg Machine.done (hset.trans (if_neg (by simp [hh]))))
  · have hclear := calHold_clear s i
    change s.calHold i false = if hold then _ else _ at hclear
    cases hh : hold with
    | true => exact Runs.calHoldMoves (congrArg Machine.done (hclear.trans (if_pos hh)))
    | false => exact Runs.calHoldSame (congrArg Machine.done (hclear.trans (if_neg (by simp [hh]))))
  · obtain ⟨r, l, f, hparts⟩ := calStopped_eq s i
    obtain ⟨hshown, hbit, hattn⟩ := calStopped_shown s i
    refine Runs.done (congrArg Machine.done (dwellEnd_rulerFail hmode hleft hmove ⟨hfail, hruler⟩)) ⟨?_, ?_, ?_, fun hw => ?_⟩
      (calStopped_keeps s i) ?_ ?_
    · rw [settle_fld _ _ hquietMode, hshown]
    · rw [settle_bitSet _ _ _ hquietStopped, hbit]
    · refine Becomes.of_put fun j => ?_
      rw [settle_calibOf, hparts]
      exact calibOf_setCalib s i _ j
    · rw [settle_flag _ _ (by decide), hattn hw]
    · rw [withLogOf, settle_hand, settle_lastFatal, settle_conv, hparts]
      rfl
    · rw [hparts]
      simp
  · refine Runs.calibOnly (congrArg Machine.done (dwellEnd_judged hmode hleft hmove hfail)) ⟨_, _, rfl⟩
      ((KeepsFields.refl _ s).of_regs rfl) ?_
    exact Becomes.setCalib rfl

/-! ### Injected snapshots (O15) -/

/-- Settling leaves every snapshot engine. -/
@[simp] theorem settle_snapOf (s : State) (d : Nat) : s.settle.snapOf d = s.snapOf d := by
  rw [State.snapOf, settle_conv, State.snapOf]

/-- After a snapshot engine is put in a state with the engines of `s`, and the signals settle. -/
theorem Becomes.setSnap {s u : State} {d : Nat} {x : Snapshot} (h : u.conv = s.conv) :
    Becomes State.snapOf s d x (u.setSnap d x).settle :=
  .of_put fun j => by rw [settle_snapOf, snapOf_setSnap, State.snapOf, h, State.snapOf]

/-- A command whose outcome differs in registers and snapshot engines alone. -/
theorem Runs.snapOnly {c : Instr} {s u : State} {w : List Field} {result : State → Prop} (hc : exec c s = Machine.done u)
    (hu : ∃ r l, u = { s with regs := r, conv := { s.conv with snap := l } }) (hw : KeepsFields w s u) (hr : result u.settle) :
    Runs c s w (fun t => { s with conv := { s.conv with snap := t.conv.snap } }) result := by
  refine Runs.regsOnly hc hr hw ?_ rfl
  obtain ⟨r, l, rfl⟩ := hu
  rw [settle_conv]
  exact ⟨r, rfl⟩

/-- The fields of CONVi_SNAP_STAT and SNAP_DONE show no derived signal. -/
theorem quiet_snapStat (i : Fin 4) :
    quiet (CONVI_SNAP_STAT_BUSY i) = true ∧ quiet (CONVI_SNAP_STAT_OVR i) = true ∧ quiet (CONVI_SNAP_STAT_ERR i) = true ∧
      quiet (CONV_STAT_SNAP_DONE.bit i) = true := by
  revert i
  decide

/-! #### GO (R88, R89, R91) -/

/-- The codes of a refusal. -/
theorem snapRefusal_le (s : State) (i n : Nat) : s.snapRefusal i n ≤ 6 := by
  unfold State.snapRefusal
  simp only
  split_ifs <;> decide

/-- A request that meets no refusal finds its die's engine free. -/
theorem snapBusy_of_accepted {s : State} {i n : Nat} (h : s.snapRefusal i n = 0) : s.snapBusy (dieOf i) = false := by
  unfold State.snapRefusal at h
  simp only at h
  split_ifs at h with _ _ _ hbusy
  simpa using hbusy

/-- Another value of LEN_M1 does not change SNAP_ADDR. -/
theorem snapAddr_setLen (s : State) (i : Fin 4) (x : Nat) :
    (s.setFld (CONVI_INJECT_LEN_M1 i) x).pair (CONVI_SNAP_ADDR i) = s.pair (CONVI_SNAP_ADDR i) := by
  have hne : ∀ i : Fin 4, (CONVI_SNAP_ADDR i).addr ≠ (CONVI_INJECT_LEN_M1 i).addr ∧
      (CONVI_SNAP_ADDR i).addr + 4 ≠ (CONVI_INJECT_LEN_M1 i).addr := by decide
  exact pair_setFld_ne _ _ _ (hne i).1 (hne i).2

/-- Another value of LEN_M1 does not change the verdict on a request. -/
theorem snapRefusal_setLen (s : State) (i : Fin 4) (x n : Nat) :
    (s.setFld (CONVI_INJECT_LEN_M1 i) x).snapRefusal i n = s.snapRefusal i n := by
  have hne : ∀ i : Fin 4, MEMC_CAPACITY.addr ≠ (CONVI_INJECT_LEN_M1 i).addr ∧
      MEMC_CAPACITY.addr + 4 ≠ (CONVI_INJECT_LEN_M1 i).addr := by decide
  have hcapacity : (s.setFld (CONVI_INJECT_LEN_M1 i) x).capacity = s.capacity := pair_setFld_ne _ _ _ (hne i).1 (hne i).2
  simp only [State.snapRefusal, snapAddr_setLen, hcapacity]
  rfl

/-- An engine that waits for the first entry at least 64 sample periods on. -/
def snapWaiting (s : State) (i lenM1 : Nat) : Snapshot :=
  { phase := .waiting, input := i, first := entryFrom (s.rawNow + 64), dest := s.pair (CONVI_SNAP_ADDR i), entries := lenM1 + 1,
    store := [], held := false }

/-- The state after a GO that is accepted. -/
def snapTaken (s : State) (i lenM1 : Nat) : State :=
  (((s.setFld (CONVI_INJECT_LEN_M1 i) lenM1).setFld (CONVI_SNAP_STAT_BUSY i) 1).setFld (CONVI_SNAP_STAT_OVR i) 0).setSnap (dieOf i)
    (snapWaiting s i lenM1)

/-- A GO with nothing to refuse it makes the engine wait. -/
theorem snapGo_accepted {s : State} {i : Fin 4} {n : Nat} (h : s.snapRefusal i (n + 1) = 0) : s.snapGo i n = snapTaken s i n := by
  have hfree : s.snapBusy (dieOf i) = false := snapBusy_of_accepted h
  have hbusy : (s.setFld (CONVI_INJECT_LEN_M1 i) n).snapBusy (dieOf i) = false := hfree
  have hne : ∀ i : Fin 4, ((CONVI_SNAP_ADDR i).addr ≠ (CONVI_SNAP_STAT_BUSY i).addr ∧
      (CONVI_SNAP_ADDR i).addr + 4 ≠ (CONVI_SNAP_STAT_BUSY i).addr) ∧ (CONVI_SNAP_ADDR i).addr ≠ (CONVI_SNAP_STAT_OVR i).addr ∧
      (CONVI_SNAP_ADDR i).addr + 4 ≠ (CONVI_SNAP_STAT_OVR i).addr := by decide
  obtain ⟨⟨hbusyLo, hbusyHi⟩, hovrLo, hovrHi⟩ := hne i
  unfold State.snapGo
  simp only [snapRefusal_setLen, h, hbusy, ne_eq, not_true_eq_false, if_false, Bool.false_eq_true]
  rw [pair_setFld_ne _ _ _ hovrLo hovrHi, pair_setFld_ne _ _ _ hbusyLo hbusyHi, snapAddr_setLen]
  rfl

/-- A refused GO stores ERR; one that finds a snapshot in progress is recorded as ignored as well. -/
theorem snapGo_refused {s : State} {i : Fin 4} {n : Nat} (h : s.snapRefusal i (n + 1) ≠ 0) :
    s.snapGo i n =
      ((s.setFld (CONVI_INJECT_LEN_M1 i) n).when (s.snapBusy (dieOf i)) (fun t => t.ignored (CONVI_INJECT i).addr)).setFld
        (CONVI_SNAP_STAT_ERR i) (s.snapRefusal i (n + 1)) := by
  unfold State.snapGo
  simp only [snapRefusal_setLen]
  exact if_pos h

/-- The awaited entry is the first one on the entry grid at least 64 sample periods on. -/
theorem snapWaiting_first (s : State) (i n : Nat) :
    (snapWaiting s i n).first % 16 = 0 ∧ s.rawNow + 64 ≤ (snapWaiting s i n).first ∧ (snapWaiting s i n).first < s.rawNow + 80 := by
  simp only [snapWaiting, entryFrom]
  omega

/-- A number coded in `w` bits fits them. -/
theorem ofSigned_lt (w : Nat) (x : Int) : ofSigned w x < 2 ^ w := by
  have hpos : (0 : Int) < ((2 ^ w : Nat) : Int) := by exact_mod_cast Nat.two_pow_pos w
  have hlt := Int.emod_lt_of_pos x hpos
  have hnonneg := Int.emod_nonneg x hpos.ne'
  unfold ofSigned
  omega

/-! #### FILL and DRAIN (R89 to R91) -/

/-- The awaited entry begins the fill. -/
theorem snapFill_waiting {s : State} {i : Nat} (h : (s.snapOf (dieOf i)).phase = .waiting) (hi : (s.snapOf (dieOf i)).input = i) :
    s.snapFill i =
      (s.setPair (CONVI_SNAP_SAMPLE i) (ofSigned 64 (s.snapOf (dieOf i)).first)).setSnap (dieOf i)
        { s.snapOf (dieOf i) with phase := .filling } := if_pos ⟨h, hi⟩

/-- No fill begins where none is awaited. -/
theorem snapFill_still {s : State} {i : Nat} (h : (s.snapOf (dieOf i)).phase ≠ .waiting ∨ (s.snapOf (dieOf i)).input ≠ i) :
    s.snapFill i = s := if_neg (by tauto)

/-- A full store begins the drain. -/
theorem snapFull_filling {s : State} {i : Nat} (h : (s.snapOf (dieOf i)).phase = .filling) (hi : (s.snapOf (dieOf i)).input = i)
    (hn : (s.snapOf (dieOf i)).store.length = (s.snapOf (dieOf i)).entries) :
    s.snapFull i = s.setSnap (dieOf i) { s.snapOf (dieOf i) with phase := .draining } := if_pos ⟨h, hi, hn⟩

/-- No drain begins where nothing fills. -/
theorem snapFull_still {s : State} {i : Nat} (h : (s.snapOf (dieOf i)).phase ≠ .filling ∨ (s.snapOf (dieOf i)).input ≠ i) :
    s.snapFull i = s := if_neg (by tauto)

/-- The state after a drain of die `dieOf i`. -/
def snapDrained (s : State) (i : Nat) : State :=
  (((s.sdWrite (s.snapOf (dieOf i)).dest (s.snapOf (dieOf i)).store.flatten).setFld (CONVI_SNAP_STAT_BUSY i) 0).stick
    CONV_STAT_SNAP_DONE i).setSnap (dieOf i) { s.snapOf (dieOf i) with phase := .idle, store := [] }

/-- The last acknowledged write ends the drain. -/
theorem snapRetire_draining {s : State} {i : Nat} (h : (s.snapOf (dieOf i)).phase = .draining) (hi : (s.snapOf (dieOf i)).input = i) :
    s.snapRetire i = snapDrained s i := if_pos ⟨h, hi⟩

/-- No drain ends where none runs. -/
theorem snapRetire_still {s : State} {i : Nat} (h : (s.snapOf (dieOf i)).phase ≠ .draining ∨ (s.snapOf (dieOf i)).input ≠ i) :
    s.snapRetire i = s := if_neg (by tauto)

/-- A byte of capture memory is what its contents and the installed capacity say. -/
theorem sdByte_congr {s t : State} (hcapacity : t.capacity = s.capacity) (hsdram : t.sdram = s.sdram) (o : Nat) :
    t.sdByte o = s.sdByte o := by
  rw [State.sdByte, State.sdByte, hcapacity, hsdram]

/-- Of capture memory, a drain writes the entries and no other byte. -/
theorem snapDrained_sdByte (s : State) (i : Fin 4) (o : Nat) :
    (snapDrained s i).settle.sdByte o = (s.sdWrite (s.snapOf (dieOf i)).dest (s.snapOf (dieOf i)).store.flatten).sdByte o := by
  have hne : ∀ i : Fin 4, (MEMC_CAPACITY.addr ≠ (CONVI_SNAP_STAT_BUSY i).addr ∧ MEMC_CAPACITY.addr + 4 ≠ (CONVI_SNAP_STAT_BUSY i).addr) ∧
      MEMC_CAPACITY.addr ≠ (CONV_STAT_SNAP_DONE.bit i).addr ∧ MEMC_CAPACITY.addr + 4 ≠ (CONV_STAT_SNAP_DONE.bit i).addr := by decide
  obtain ⟨⟨hbusyLo, hbusyHi⟩, hdoneLo, hdoneHi⟩ := hne i
  refine sdByte_congr ?_ (by rw [settle_sdram]; rfl) o
  rw [State.capacity, settle_pair _ (by decide) (by decide), snapDrained, setSnap_pair, stick_eq, pair_setFld_ne _ _ _ hdoneLo hdoneHi,
    pair_setFld_ne _ _ _ hbusyLo hbusyHi, State.capacity]

/-- The entries stand at the destination, as far as the installed capacity reaches. -/
theorem snapDrained_inside {s : State} {i : Fin 4} {k : Nat} {b : Byte} (hbase : sdramBase ≤ (s.snapOf (dieOf i)).dest)
    (hk : (s.snapOf (dieOf i)).store.flatten[k]? = some b) (hc : (s.snapOf (dieOf i)).dest - sdramBase + k < s.capacity) :
    (snapDrained s i).settle.sdByte ((s.snapOf (dieOf i)).dest - sdramBase + k) = b := by
  obtain ⟨hlt, hget⟩ := List.getElem?_eq_some_iff.mp hk
  have hplace : (s.snapOf (dieOf i)).dest - sdramBase + k = (s.snapOf (dieOf i)).dest + k - sdramBase := by omega
  rw [snapDrained_sdByte, hplace, sdByte_sdWrite_in _ _ _ _ hbase hlt (by omega), List.getD_eq_getElem _ _ hlt, hget]

/-- Bytes before the destination and past the entries stay. -/
theorem snapDrained_outside {s : State} {i : Fin 4} {o : Nat} (hbase : sdramBase ≤ (s.snapOf (dieOf i)).dest)
    (h : o < (s.snapOf (dieOf i)).dest - sdramBase ∨
      (s.snapOf (dieOf i)).dest - sdramBase + (s.snapOf (dieOf i)).store.flatten.length ≤ o) :
    (snapDrained s i).settle.sdByte o = s.sdByte o := by
  rw [snapDrained_sdByte, sdByte_sdWrite_out _ _ _ _ (by omega)]

/-! #### The state table -/

/-- A GO that is accepted. -/
theorem Runs.snapGoAccepted {s : State} {i : Fin 4} {len : BitVec 15} (h : s.snapRefusal i (len.toNat + 1) = 0) :
    Runs (.snapshotGo i len) s [CONVI_INJECT_LEN_M1 i, CONVI_SNAP_STAT_BUSY i, CONVI_SNAP_STAT_OVR i]
      (fun t => { s with conv := { s.conv with snap := t.conv.snap } })
      (fun t => t.flag (CONVI_SNAP_STAT_BUSY i) = true ∧ Becomes State.snapOf s (dieOf i) (snapWaiting s i len.toNat) t) := by
  obtain ⟨hquiet, -⟩ := quiet_snapStat i
  have hset : KeepsFields [CONVI_INJECT_LEN_M1 i, CONVI_SNAP_STAT_BUSY i, CONVI_SNAP_STAT_OVR i] s
      (((s.setFld (CONVI_INJECT_LEN_M1 i) len.toNat).setFld (CONVI_SNAP_STAT_BUSY i) 1).setFld (CONVI_SNAP_STAT_OVR i) 0) :=
    (((KeepsFields.refl _ s).setFld _ _ (by simp)).setFld _ _ (by simp)).setFld _ _ (by simp)
  refine Runs.snapOnly (congrArg Machine.done (snapGo_accepted h)) ⟨_, _, rfl⟩ (hset.of_regs rfl) ⟨?_, Becomes.setSnap rfl⟩
  rw [settle_flag _ _ hquiet, snapTaken, State.flag, setSnap_fld]
  exact (flag_setFld_ne _ _ (by simp [CONVI_SNAP_STAT_BUSY, CONVI_SNAP_STAT_OVR])).trans
    (flag_set _ _ (by simp [CONVI_SNAP_STAT_BUSY]) (by simp [CONVI_SNAP_STAT_BUSY]))

/-- A GO that is refused. -/
theorem Runs.snapGoRefused {s : State} {i : Fin 4} {len : BitVec 15} (h : s.snapRefusal i (len.toNat + 1) ≠ 0) :
    Runs (.snapshotGo i len) s (CONVI_INJECT_LEN_M1 i :: CONVI_SNAP_STAT_ERR i :: logFields) (fun t => withLogOf s t)
      (fun t => t.fld (CONVI_SNAP_STAT_ERR i) = s.snapRefusal i (len.toNat + 1)) := by
  obtain ⟨-, -, hquiet, -⟩ := quiet_snapStat i
  have hfits : s.snapRefusal i (len.toNat + 1) % 2 ^ 8 = s.snapRefusal i (len.toNat + 1) :=
    Nat.mod_eq_of_lt ((snapRefusal_le s i _).trans_lt (by decide))
  have hset : KeepsFields (CONVI_INJECT_LEN_M1 i :: CONVI_SNAP_STAT_ERR i :: logFields) s (s.setFld (CONVI_INJECT_LEN_M1 i) len.toNat) :=
    (KeepsFields.refl _ s).setFld _ _ (by simp)
  obtain ⟨r, l, f, hlog⟩ :=
    when_ignored_eq (s.setFld (CONVI_INJECT_LEN_M1 i) len.toNat) (s.snapBusy (dieOf i)) (CONVI_INJECT i).addr
  refine Runs.done (congrArg Machine.done (snapGo_refused h)) ?_
    ((hset.when_ignored _ _ fun _ h => by simp [h]).setFld _ _ (by simp)) ?_ ?_
  · rw [settle_fld _ _ hquiet, fld_setFld_eq _ _ _ (by simp [CONVI_SNAP_STAT_ERR])]
    exact hfits
  · rw [withLogOf, settle_hand, settle_lastFatal, hlog]
    rfl
  · rw [hlog]
    simp

/-- A drain that ends. -/
theorem Runs.snapRetire {s : State} {i : Fin 4} (h : (s.snapOf (dieOf i)).phase = .draining) (hi : (s.snapOf (dieOf i)).input = i)
    {result : State → Prop} (hr : result (snapDrained s i).settle) :
    Runs (.snapshotRetire i) s [CONVI_SNAP_STAT_BUSY i, CONV_STAT_SNAP_DONE.bit i]
      (fun t => { s with conv := { s.conv with snap := t.conv.snap }, sdram := t.sdram }) result := by
  obtain ⟨m, hwrite⟩ := sdWrite_eq s (s.snapOf (dieOf i)).dest (s.snapOf (dieOf i)).store.flatten
  have hwritten : KeepsFields [CONVI_SNAP_STAT_BUSY i, CONV_STAT_SNAP_DONE.bit i] s { s with sdram := m } :=
    (KeepsFields.refl _ s).of_regs rfl
  refine Runs.done (congrArg Machine.done (snapRetire_draining h hi)) hr ?_ ?_ ?_
  · rw [snapDrained, hwrite]
    exact ((hwritten.setFld _ _ (by simp)).setFld _ _ (by simp)).of_regs rfl
  · rw [settle_conv, settle_sdram, snapDrained, hwrite]
    rfl
  · rw [snapDrained, hwrite, List.append_nil]
    rfl

/-- What the registers show after a drain. -/
theorem snapDrained_shown (s : State) (i : Fin 4) :
    (snapDrained s i).settle.flag (CONVI_SNAP_STAT_BUSY i) = false ∧ (snapDrained s i).settle.bitSet CONV_STAT_SNAP_DONE i = true := by
  obtain ⟨hquiet, -, -, hquietDone⟩ := quiet_snapStat i
  have hapart : ∀ i : Fin 4, (CONVI_SNAP_STAT_BUSY i).addr ≠ (CONV_STAT_SNAP_DONE.bit i).addr ∧
      CONV_STAT_SNAP_DONE.lo + i < 32 := by decide
  rw [settle_flag _ _ hquiet, settle_bitSet _ _ _ hquietDone]
  exact ⟨(flag_setFld_ne _ _ (.inl (hapart i).1)).trans (flag_clear _ _ (by simp [CONVI_SNAP_STAT_BUSY])),
    bitSet_stick _ _ _ (hapart i).2⟩

/-- Settles O15: each state and event of the engine, by the equation of that transition. -/
theorem snapshotRunsThroughItsStates : Obligations.SnapshotRunsThroughItsStates := by
  intro s i len d x dest parts others
  refine ⟨fun h => ?_, fun h => Runs.snapGoRefused h, fun hphase hinput => ?_, fun hphase hinput hfull => ?_,
    fun hphase hinput hbase => ?_, fun h => Runs.still (congrArg Machine.done (snapFill_still h)),
    fun h => Runs.still (congrArg Machine.done (snapFull_still h)), fun h => Runs.still (congrArg Machine.done (snapRetire_still h))⟩
  · obtain ⟨t, hexec, ⟨hbusy, hsnap, hothers⟩, hframe⟩ := Runs.snapGoAccepted h
    obtain ⟨hgrid, hfrom, hto⟩ := snapWaiting_first s i len.toNat
    refine ⟨t, hexec, ⟨hbusy, hothers, ?_⟩, hframe⟩
    rw [hsnap]
    exact ⟨rfl, rfl, hgrid, hfrom, hto, rfl, rfl, rfl⟩
  · have hset : KeepsFields (pairFields (CONVI_SNAP_SAMPLE i)) s (s.setPair (CONVI_SNAP_SAMPLE i) (ofSigned 64 x.first)) :=
      (KeepsFields.refl _ s).setPair _ _ (by simp [pairFields, wholeReg]) (by simp [pairFields, wholeReg])
    refine Runs.snapOnly (congrArg Machine.done (snapFill_waiting hphase hinput)) ⟨_, _, rfl⟩ (hset.of_regs rfl) ?_
    obtain ⟨hsnap, hothers⟩ := Becomes.setSnap (s := s) (u := s.setPair (CONVI_SNAP_SAMPLE i) (ofSigned 64 x.first)) (d := d)
      (x := { x with phase := .filling }) rfl
    refine ⟨hsnap, hothers, ?_⟩
    have hquiet : ∀ i : Fin 4, ∀ a ∈ [(CONVI_SNAP_SAMPLE i).addr, (CONVI_SNAP_SAMPLE i).addr + 4], a ≠ HOST_INT_REQ_REQ.addr ∧
        a ≠ HOST_INT_PEND_PEND.addr ∧ a ≠ SUP_STAT_FAULT.addr ∧ a ≠ HOST_STAT_FAULT.addr ∧ a ≠ VREG_STAT_ALERT.addr := by decide
    rw [settle_pair _ (hquiet i _ (by simp)) (hquiet i _ (by simp)), setSnap_pair, pair_setPair]
    exact Nat.mod_eq_of_lt (ofSigned_lt _ _)
  · refine Runs.snapOnly (congrArg Machine.done (snapFull_filling hphase hinput hfull)) ⟨_, _, rfl⟩
      ((KeepsFields.refl _ s).of_regs rfl) ?_
    exact Becomes.setSnap rfl
  · intro data
    obtain ⟨hbusy, hdone⟩ := snapDrained_shown s i
    obtain ⟨hsnap, hothers⟩ : Becomes State.snapOf s d { x with phase := .idle, store := [] } (snapDrained s i).settle := by
      refine Becomes.of_put fun j => ?_
      obtain ⟨m, hwrite⟩ := sdWrite_eq s x.dest x.store.flatten
      rw [settle_snapOf, snapDrained, snapOf_setSnap, hwrite]
      rfl
    exact Runs.snapRetire hphase hinput ⟨congrArg Snapshot.phase hsnap, hothers, hbusy, hdone,
      fun k b hk hcapacity => snapDrained_inside hbase hk hcapacity, fun o hout => snapDrained_outside hbase hout⟩

end Sys2Proof
end

section
/-! PROOFS. The statement of 03_wideband_converters.md on raw tap entries, hops and coefficient reads (O16): what streams, outputs and
zoom chains leave of the converters and Dealers, then the tap and the Dealer themselves. -/

namespace Sys2Proof

open Sys2Proof.Machine

/-! ### What the streams leave of the converters (R390, R400, R401, R410) -/

/-- Steps that each keep a part of the state do so together. -/
theorem foldl_keeps {α β : Type} {get : State → β} {f : State → α → State} (h : ∀ s x, get (f s x) = get s)
    (l : List α) (s : State) : get (l.foldl f s) = get s :=
  l.foldlRecOn f (motive := fun t => get t = get s) rfl fun t ht x _ => (h t x).trans ht

/-! #### The kitty queue -/

/-- An entry written to the kitty queue leaves the converters. -/
@[simp] theorem kitWrite_conv (s : State) (e : KitEntry) : (s.kitWrite e).conv = s.conv := by
  unfold State.kitWrite
  simp only
  split
  · split <;> rfl
  · split
    · exact logEvent_conv ..
    · rfl

/-- The release of a held entry leaves the converters. -/
@[simp] theorem kitRelease_conv (s : State) : s.kitRelease.conv = s.conv := by
  unfold State.kitRelease
  split
  · split
    · rfl
    · exact kitWrite_conv ..
  · rfl

/-- Discarding queued entries leaves the converters. -/
@[simp] theorem kitPurge_conv (s : State) (p : Nat) (l : List KitEntry) : (s.kitPurge p l).1.conv = s.conv := by
  induction l generalizing s with
  | nil => rfl
  | cons e t ih =>
    unfold State.kitPurge
    split
    · simp only
      split
      · exact ih _
      · rfl
    · rfl

/-- Discarding the rest of a packet leaves the converters. -/
@[simp] theorem kitDiscard_conv (s : State) (p : Nat) : (s.kitDiscard p).conv = s.conv := by
  rw [State.kitDiscard, kitRelease_conv]
  exact kitPurge_conv s p _

/-! #### Streams -/

/-- Changing a stream leaves the converters. -/
@[simp] theorem setStream_conv (s : State) (p st : Nat) (x : Stream) : (s.setStream p st x).conv = s.conv := rfl

/-- Counting a dropped record leaves the converters. -/
@[simp] theorem countDrop_conv (s : State) (p st cause size deal rseq : Nat) (vdif : Bool) :
    (s.countDrop p st cause size deal rseq vdif).conv = s.conv := logEvent_conv ..

/-- Dropping the rest of a kitty packet leaves the converters. -/
@[simp] theorem dropKitty_conv (s : State) (p st : Nat) (k : Option (Nat × Bool)) : (s.dropKitty p st k).conv = s.conv := by
  unfold State.dropKitty
  split
  · simp only
    split
    · exact kitDiscard_conv ..
    · rfl
  · rfl

/-- Dropping a queued record leaves the converters. -/
@[simp] theorem dropQueued_conv (s : State) (p st : Nat) (q : QRec) (cause : Nat) : (s.dropQueued p st q cause).conv = s.conv := by
  unfold State.dropQueued
  cases q.gap with
  | some g => cases q.spill <;> rfl
  | none =>
    refine (dropKitty_conv ..).trans ((countDrop_conv ..).trans ?_)
    cases q.spill <;> rfl

/-- The age test leaves the converters. -/
@[simp] theorem ageHead_conv (s : State) (p st n : Nat) : (s.ageHead p st n).conv = s.conv := by
  induction n generalizing s with
  | zero => rfl
  | succ n ih =>
    unfold State.ageHead
    split
    · split
      · rw [ih, dropQueued_conv]
      · rfl
    · rfl

/-- Bytes written to capture memory leave the converters. -/
@[simp] theorem sdWrite_conv (s : State) (a : Nat) (bs : List Byte) : (s.sdWrite a bs).conv = s.conv := by
  obtain ⟨m, hwrite⟩ := sdWrite_eq s a bs
  rw [hwrite]

/-- A record that enters a queue leaves the converters. -/
theorem enter?_conv {s t : State} {p st : Nat} {q : QRec} (h : s.enter? p st q = some t) : t.conv = s.conv := by
  unfold State.enter? at h
  simp only at h
  split at h
  · obtain rfl := Option.some.inj h
    rfl
  · split at h
    · obtain rfl := Option.some.inj h
      exact sdWrite_conv ..
    · cases h

/-- A record offered to a stream leaves the converters. -/
@[simp] theorem offer_conv (s : State) (p st : Nat) (bytes : List Byte) (deal : Nat) (dest : Dest) (vdif : Bool)
    (kpkt : Option (Nat × Bool)) : (s.offer p st bytes deal dest vdif kpkt).conv = s.conv := by
  unfold State.offer
  simp only
  split
  · next t ht => rw [State.ageTest, ageHead_conv, enter?_conv ht]; rfl
  · rw [dropKitty_conv, countDrop_conv]; rfl

/-- A record of a deal leaves the converters. -/
@[simp] theorem offerDeal_conv (s : State) (p st n : Nat) (bytes : List Byte) (vdif : Bool) :
    (s.offerDeal p st n bytes vdif).conv = s.conv := by
  unfold State.offerDeal
  simp only
  split
  · exact offer_conv ..
  · rfl

/-- A sample that joins a VDIF stream leaves the converters. -/
@[simp] theorem vdifTake_conv (s : State) (p st n : Nat) (y : Int) (r c code : Nat) (invalid : Bool) :
    (s.vdifTake p st n y r c code invalid).conv = s.conv := by
  unfold State.vdifTake
  simp only
  split <;> rfl

/-- A raw block that completes leaves the converters. -/
@[simp] theorem rawClose_conv (s : State) (p st i : Nat) : (s.rawClose p st i).conv = s.conv := by
  unfold State.rawClose
  simp only
  split
  · rfl
  · split
    · rfl
    · exact offerDeal_conv ..

/-- A sample that joins a raw block leaves the converters. -/
@[simp] theorem rawPut_conv (s : State) (p st i : Nat) (r v : Int) (degr : Bool) : (s.rawPut p st i r v degr).conv = s.conv := by
  unfold State.rawPut
  simp only
  have hbase : ∀ b : Bool, (if b = true then s else s.rawClose p st i).conv = s.conv := by
    rintro (_ | _)
    · exact rawClose_conv ..
    · rfl
  split
  · rw [rawClose_conv, setStream_conv, hbase]
  · rw [setStream_conv, hbase]

/-- A raw tap entry that reaches the streams leaves the converters. -/
@[simp] theorem rawOut_conv (s : State) (i : Nat) (e : Int) (xs : List Int) (gap : Bool) : (s.rawOut i e xs gap).conv = s.conv := by
  refine foldl_keeps (get := State.conv) (fun s x => foldl_keeps (get := State.conv) (fun s v => ?_) _ s) _ s
  simp only
  split_ifs
  · exact vdifTake_conv ..
  · exact rawPut_conv ..
  · rfl

/-! ### Raw tap entries (R92 to R94) -/

/-- Settling leaves every tap queue. -/
@[simp] theorem settle_tapOf (s : State) (i : Nat) : s.settle.tapOf i = s.tapOf i := by
  rw [State.tapOf, settle_conv, State.tapOf]

/-- Whether a filling snapshot takes entry `e` of input `i`. -/
def tapTaken (s : State) (i : Nat) (e : Int) : Bool :=
  decide ((s.snapOf (dieOf i)).phase = .filling) && decide ((s.snapOf (dieOf i)).input = i) &&
    decide ((s.snapOf (dieOf i)).first ≤ 16 * e) && decide ((s.snapOf (dieOf i)).store.length < (s.snapOf (dieOf i)).entries)

/-- The die's snapshot engine after the entry. -/
def tapSnap (s : State) (i : Nat) (e : Int) (xs : List Int) : Snapshot :=
  if tapTaken s i e then { s.snapOf (dieOf i) with store := (s.snapOf (dieOf i)).store ++ [s.tapData i xs] } else s.snapOf (dieOf i)

/-- The state after a filling snapshot has had its part of the entry. -/
def tapStored (s : State) (i : Nat) (e : Int) (xs : List Int) : State :=
  if tapTaken s i e then
    (s.setSnap (dieOf i) { s.snapOf (dieOf i) with store := (s.snapOf (dieOf i)).store ++ [s.tapData i xs] }).setIf (xs.any fullScale)
      (CONVI_SNAP_STAT_OVR i)
  else s

/-- The entry with its side tag (R93). -/
def tapTagged (s : State) (i : Nat) (e : Int) (xs : List Int) : TapEntry :=
  { input := i, index := e, data := s.tapData i xs,
    tag := b2n (tapTaken s i e && decide ((s.snapOf (dieOf i)).store.length + 1 = (s.snapOf (dieOf i)).entries)) +
      2 * b2n (s.tapOf i).gap + 4 * b2n (tapTaken s i e) + 8 * b2n (decide ((s.tapOf i).trim = some (16 * e))) +
      16 * b2n (decide ((16 * e) % ((400 * s.dealLen : Nat) : Int) = 0)) + 32 * b2n (xs.any fullScale) + 64 * i }

/-- The tap queue after the entry (R94). -/
def tapQueued (s : State) (i : Nat) (e : Int) (xs : List Int) : TapQueue :=
  if !s.rawWanted i then { s.tapOf i with queue := [], gap := false }
  else if s.tapStuck i then
    if (s.tapOf i).queue.length < 512 then
      { s.tapOf i with queue := (s.tapOf i).queue ++ [tapTagged s i e xs], gap := false }
    else { s.tapOf i with gap := true }
  else { s.tapOf i with given := if s.rawCaptured i then (s.tapOf i).given ++ [tapTagged s i e xs] else [], gap := false }

/-- The snapshot's part changes registers and engines alone. -/
theorem tapStored_eq (s : State) (i : Nat) (e : Int) (xs : List Int) :
    ∃ r l, tapStored s i e xs = { s with regs := r, conv := { s.conv with snap := l } } := by
  unfold tapStored State.setIf
  split
  · split <;> exact ⟨_, _, rfl⟩
  · exact ⟨s.regs, s.conv.snap, rfl⟩

/-- Of the registers, it writes OVR. -/
theorem tapStored_keeps (s : State) (i : Nat) (e : Int) (xs : List Int) :
    KeepsFields [CONVI_SNAP_STAT_OVR i] s (tapStored s i e xs) := by
  have hsnap : ∀ x, KeepsFields [CONVI_SNAP_STAT_OVR i] s (s.setSnap (dieOf i) x) := fun x => (KeepsFields.refl _ s).of_regs rfl
  unfold tapStored State.setIf
  split
  · split
    · exact (hsnap _).setFld _ _ (by simp)
    · exact hsnap _
  · exact .refl _ s

/-- The engine of the die after the snapshot's part. -/
theorem tapStored_snapOf (s : State) (i : Nat) (e : Int) (xs : List Int) : (tapStored s i e xs).snapOf (dieOf i) = tapSnap s i e xs := by
  have hset : ∀ x, (s.setSnap (dieOf i) x).snapOf (dieOf i) = x := fun x => by rw [snapOf_setSnap, if_pos rfl]
  unfold tapStored tapSnap State.setIf
  split
  · split <;> exact hset _
  · rfl

/-- OVR is set by a full-scale sample of an entry that is taken. -/
theorem tapStored_ovr (s : State) (i : Nat) (e : Int) (xs : List Int) :
    (tapStored s i e xs).flag (CONVI_SNAP_STAT_OVR i) = (tapTaken s i e && xs.any fullScale || s.flag (CONVI_SNAP_STAT_OVR i)) := by
  unfold tapStored State.setIf
  cases tapTaken s i e with
  | false => rfl
  | true =>
    cases xs.any fullScale with
    | false => rfl
    | true => exact flag_set _ _ (by simp [CONVI_SNAP_STAT_OVR]) (by simp [CONVI_SNAP_STAT_OVR])

/-- Whether capture units take an input's samples does not depend on the snapshot. -/
theorem tapStored_rawCaptured (s : State) (i : Fin 4) (e : Int) (xs : List Int) :
    (tapStored s i e xs).rawCaptured i = s.rawCaptured i := by
  have harmed : ∀ n, (tapStored s i e xs).bitSet CAP_RUN_ARMED n = s.bitSet CAP_RUN_ARMED n := fun n => by
    have haddr : ∀ i : Fin 4, CAP_RUN_ARMED.addr ≠ (CONVI_SNAP_STAT_OVR i).addr := by decide
    refine bitSet_congr (tapStored_keeps s i e xs (CAP_RUN_ARMED.bit n) rfl fun g hg => .inl ?_)
    rw [List.mem_singleton.mp hg]
    exact haddr i
  obtain ⟨r, l, heq⟩ := tapStored_eq s i e xs
  have hcap : (tapStored s i e xs).cap = s.cap := by rw [heq]
  simp only [State.rawCaptured, harmed, hcap]

/-- Before the converters start, once the sample clock has stopped, and for another number of samples, nothing enters the tap. -/
theorem tapEntry_still {s : State} {i : Nat} {e : Int} {xs : List Int}
    (h : xs.length ≠ 16 ∨ s.time.grid = false ∨ s.deal.stopped = true) : s.tapEntry i e xs = s := if_pos h

/-- An entry first meets the snapshot, then the queue. -/
theorem tapEntry_live {s : State} {i : Fin 4} {e : Int} {xs : List Int}
    (h : ¬(xs.length ≠ 16 ∨ s.time.grid = false ∨ s.deal.stopped = true)) :
    s.tapEntry i e xs = (tapStored s i e xs).setTap i (tapQueued s i e xs) := by
  have hstuck : (tapStored s i e xs).tapStuck i = s.tapStuck i := by
    obtain ⟨r, l, heq⟩ := tapStored_eq s i e xs
    rw [heq]
    rfl
  have hcaptured := tapStored_rawCaptured s i e xs
  unfold State.tapEntry
  rw [if_neg h]
  change (if !s.rawWanted i then (tapStored s i e xs).setTap i _
    else if (tapStored s i e xs).tapStuck i then
      if (s.tapOf i).queue.length < 512 then (tapStored s i e xs).setTap i _ else (tapStored s i e xs).setTap i _
    else (tapStored s i e xs).setTap i
      { s.tapOf i with given := if (tapStored s i e xs).rawCaptured i then _ else [], gap := false }) = _
  rw [hstuck, hcaptured]
  unfold tapQueued
  split_ifs <;> rfl

/-- The entry, and what the streams do with it, leave the same converters. -/
theorem rawTapEntry_done (s : State) (i : Fin 4) (e : Int) (xs : List Int) :
    ∃ u, exec (.rawTapEntry i e xs) s = Machine.done u ∧ u.conv = (s.tapEntry i e xs).conv := by
  refine ⟨_, rfl, ?_⟩
  split
  · exact rawOut_conv ..
  · rfl

/-- An entry that no stream takes does what the tap does. -/
theorem rawTapEntry_tapOnly {s : State} {i : Fin 4} {e : Int} {xs : List Int}
    (h : ¬(xs.length = 16 ∧ s.time.grid = true ∧ s.deal.stopped = false ∧ s.rawWanted i = true ∧ s.tapStuck i = false)) :
    exec (.rawTapEntry i e xs) s = Machine.done (s.tapEntry i e xs) := congrArg Machine.done (if_neg h)

/-- Where an entry that enters the tap has gone, in a state with the converters that the tap leaves. -/
theorem tapEntry_shown {s t : State} {i : Fin 4} {e : Int} {xs : List Int}
    (h : ¬(xs.length ≠ 16 ∨ s.time.grid = false ∨ s.deal.stopped = true)) (ht : t.conv = (s.tapEntry i e xs).conv) :
    t.snapOf (dieOf i) = tapSnap s i e xs ∧ Becomes State.tapOf s i (tapQueued s i e xs) t := by
  have hsnap : t.snapOf (dieOf i) = (s.tapEntry i e xs).snapOf (dieOf i) := by rw [State.snapOf, ht, State.snapOf]
  have htap : ∀ j, t.tapOf j = (s.tapEntry i e xs).tapOf j := fun j => by rw [State.tapOf, ht, State.tapOf]
  obtain ⟨r, l, heq⟩ := tapStored_eq s i e xs
  refine ⟨?_, .of_put fun j => ?_⟩
  · rw [hsnap, tapEntry_live h, ← tapStored_snapOf]
    rfl
  · rw [htap, tapEntry_live h, tapOf_setTap, heq]
    rfl

/-- An entry that stays with the tap. -/
theorem Runs.tapEntry {s : State} {i : Fin 4} {e : Int} {xs : List Int}
    (h : ¬(xs.length ≠ 16 ∨ s.time.grid = false ∨ s.deal.stopped = true)) (hstay : s.rawWanted i = false ∨ s.tapStuck i = true) :
    Runs (.rawTapEntry i e xs) s [CONVI_SNAP_STAT_OVR i]
      (fun t => { s with conv := { s.conv with snap := t.conv.snap, tap := t.conv.tap } })
      (fun t => (t.snapOf (dieOf i) = tapSnap s i e xs ∧ Becomes State.tapOf s i (tapQueued s i e xs) t) ∧
        t.flag (CONVI_SNAP_STAT_OVR i) = (tapTaken s i e && xs.any fullScale || s.flag (CONVI_SNAP_STAT_OVR i))) := by
  obtain ⟨-, hquiet, -⟩ := quiet_snapStat i
  obtain ⟨r, l, heq⟩ := tapStored_eq s i e xs
  have hexec : exec (.rawTapEntry i e xs) s = Machine.done (s.tapEntry i e xs) :=
    rawTapEntry_tapOnly fun ⟨_, _, _, hwanted, hfree⟩ => by simp [hwanted, hfree] at hstay
  refine Runs.done hexec ⟨tapEntry_shown h (settle_conv _), ?_⟩ ?_ ?_ ?_
  · rw [settle_flag _ _ hquiet, tapEntry_live h, ← tapStored_ovr]
    rfl
  · rw [tapEntry_live h]
    exact (tapStored_keeps s i e xs).of_regs rfl
  · rw [settle_conv, tapEntry_live h, heq]
    rfl
  · rw [tapEntry_live h, heq, List.append_nil]
    rfl

/-! ### What outputs, zoom chains and the end of a deal leave of the Dealers (R254, R336, R116) -/

/-- A CLKOUT setting that takes effect leaves the Dealers. -/
@[simp] theorem putOut_dealer (s : State) (o : Nat) (v : Word) : (s.putOut o v).dealer = s.dealer := by
  unfold State.putOut
  simp only
  split_ifs <;> split <;> rfl

/-- CLKOUT writes that take effect leave the Dealers. -/
@[simp] theorem releaseOuts_dealer (s : State) : s.releaseOuts.dealer = s.dealer :=
  foldl_keeps (get := State.dealer) (fun _ _ => putOut_dealer ..) _ _

/-- Where no CLKOUT write waits, none takes effect. -/
theorem releaseOuts_idle {s : State} (h : s.clk.writes = []) : s.releaseOuts = s := by
  have hclk : { s.clk with writes := [] } = s.clk := by rw [← h]
  simp [State.releaseOuts, h, hclk]

/-- An output of a zoom chain leaves the Dealers. -/
@[simp] theorem zoomOutput_dealer (s : State) (k : Nat) (n : Int) (y : Cx × Bool) : (s.zoomOutput k n y).dealer = s.dealer := by
  unfold State.zoomOutput
  simp only
  split
  · rfl
  · split
    · rfl
    · split <;> rfl

/-- A sample that reaches a zoom chain leaves the Dealers. -/
@[simp] theorem zoomSample_dealer (s : State) (k : Nat) (n v : Int) : (s.zoomSample k n v).dealer = s.dealer := by
  unfold State.zoomSample
  simp only
  split
  · exact zoomOutput_dealer ..
  · rfl

/-- Showing a zoom chain leaves the Dealers. -/
@[simp] theorem zoomShow_dealer (s : State) (k : Nat) : (s.zoomShow k).dealer = s.dealer := rfl

/-- A hop that reaches the zoom chains leaves the Dealers. -/
@[simp] theorem zoomHop_dealer (s : State) (i : Nat) (n : Int) (xs : List Int) : (s.zoomHop i n xs).dealer = s.dealer := by
  refine foldl_keeps (get := State.dealer) (fun s k => ?_) _ s
  rw [zoomShow_dealer]
  exact foldl_keeps (get := State.dealer) (fun s (v : Int × Nat) => zoomSample_dealer s k (n + (v.2 : Int)) v.1) _ s

/-- The saturation registers of a completed deal are registers alone. -/
theorem RegsOnly.closeSat {s u : State} (i n mask : Nat) (h : RegsOnly s u) : RegsOnly s (u.closeSat i n mask) := by
  have hflags : RegsOnly s ((List.range 8).foldl (fun s w => s.setFld (CBKI_SAT_FLAGS i w) (bitsOf mask (32 * w) 32)) u) :=
    List.foldlRecOn _ _ h fun _ ht _ _ => ht.setFld _ _
  have hshown := (hflags.setFld (CBKI_SAT_COUNT_COUNT i) ((List.range 256).countP (fun k => bitOf mask k))).setPair (CBKI_SAT_DEAL i) n
  unfold State.closeSat
  simp only
  split
  · exact hshown
  · exact hshown.setFld _ _

/-- The end of a deal changes registers alone. -/
theorem RegsOnly.endDeal {s u : State} (i n sat ovr : Nat) (h : RegsOnly s u) : RegsOnly s (u.endDeal i n sat ovr) := by
  unfold State.endDeal
  split
  · exact (h.closeSat _ _ _).setFld _ _
  · exact h

/-! ### Hops (R68, R105, R115, R121) -/

/-- Settling leaves every Dealer. -/
@[simp] theorem settle_dealerOf (s : State) (i : Nat) : s.settle.dealerOf i = s.dealerOf i := by
  rw [State.dealerOf, settle_dealer, State.dealerOf]

/-- In a state whose Dealers are those of `s` with one put. -/
theorem Becomes.setDealer {s t : State} {i : Nat} {d : Dealer} (h : t.dealer = (s.setDealer i d).dealer) :
    Becomes State.dealerOf s i d t :=
  .of_put fun k => by rw [← dealerOf_setDealer, State.dealerOf, h, State.dealerOf]

/-- A Dealer's history after a hop: the samples clipped, newest first. -/
def rawAfter (d : Dealer) (xs : List Int) : List Int := ((xs.map clipCode).reverse ++ d.raw).take 8192

/-- A Dealer puts out a sample when a hop fills its history. -/
theorem emits_eq (d : Dealer) {xs : List Int} (h : xs.length = 400) :
    d.emits = (d.on && d.aligned && decide ((rawAfter d xs).length = 8192)) := by
  have hfull : 7792 ≤ d.raw.length ↔ (rawAfter d xs).length = 8192 := by
    simp only [rawAfter, List.length_take, List.length_append, List.length_reverse, List.length_map, h]
    omega
  simp only [Dealer.emits, hfull]

/-- Clipping keeps a sample at full scale, and makes none. -/
theorem fullScale_clipCode (v : Int) : fullScale (clipCode v) = fullScale v := by
  unfold fullScale clipCode clampInt
  split_ifs <;> simp <;> omega

/-- A hop has as many full-scale samples clipped as unclipped. -/
theorem countP_clipped (xs : List Int) : (xs.map clipCode).countP fullScale = xs.countP fullScale := by
  rw [List.countP_map]
  exact List.countP_congr fun v _ => by simp [fullScale_clipCode]

/-- The state after a hop's full-scale samples are shown. -/
def ovrShown (s : State) (i : Nat) (xs : List Int) : State :=
  s.when (decide (0 < (xs.map clipCode).countP fullScale)) (fun s => s.stick CONV_STAT_OVR i)

/-- Showing full-scale samples changes registers alone. -/
theorem ovrShown_regsOnly (s : State) (i : Nat) (xs : List Int) : RegsOnly s (ovrShown s i xs) := by
  unfold ovrShown State.when
  split
  · exact (RegsOnly.refl s).setFld _ _
  · exact .refl s

/-- Of the registers, it writes the input's bit of OVR. -/
theorem ovrShown_keeps (s : State) (i : Nat) (xs : List Int) : KeepsFields [CONV_STAT_OVR.bit i] s (ovrShown s i xs) := by
  unfold ovrShown State.when
  split
  · exact (KeepsFields.refl _ s).setFld _ _ (by simp)
  · exact .refl _ s

/-- Fields of other registers stay. -/
theorem ovrShown_fld (s : State) (i : Nat) (xs : List Int) {g : Field} (h : g.addr ≠ CONV_STAT_OVR.addr) :
    (ovrShown s i xs).fld g = s.fld g := by
  unfold ovrShown State.when
  split
  · exact fld_setFld_addr s _ h
  · rfl

/-- The length of a deal stays. -/
theorem ovrShown_dealLen (s : State) (i : Nat) (xs : List Int) : (ovrShown s i xs).dealLen = s.dealLen := by
  rw [State.dealLen, State.k, ovrShown_fld _ _ _ (by decide), State.dealLen, State.k]

/-- A coarse sample is requantised as before. -/
theorem coarseWord_ovrShown (s : State) (i : Fin 4) (xs : List Int) (k : Nat) (y : Cx) :
    (ovrShown s i xs).coarseWord i k y = s.coarseWord i k y := by
  have hre : (ovrShown s i xs).fld (CBKI_EQ_RE_RE i k) = s.fld (CBKI_EQ_RE_RE i k) :=
    ovrShown_fld _ _ _ (by simp only [CBKI_EQ_RE_RE, CONV_STAT_OVR]; omega)
  have him : (ovrShown s i xs).fld (CBKI_EQ_IM_IM i k) = s.fld (CBKI_EQ_IM_IM i k) :=
    ovrShown_fld _ _ _ (by simp only [CBKI_EQ_IM_IM, CONV_STAT_OVR]; omega)
  have hshift : (ovrShown s i xs).fld (CBKI_CFG_SHIFT i) = s.fld (CBKI_CFG_SHIFT i) :=
    ovrShown_fld _ _ _ (by simp only [CBKI_CFG_SHIFT, CONV_STAT_OVR]; omega)
  have hzone : (ovrShown s i xs).flag (CBKI_CFG_ZONE i) = s.flag (CBKI_CFG_ZONE i) :=
    flag_congr (ovrShown_fld _ _ _ (by simp only [CBKI_CFG_ZONE, CONV_STAT_OVR]; omega))
  simp only [State.coarseWord, hre, him, hshift, hzone]

/-- A Dealer after a hop that puts nothing out: its history and its count of full-scale samples follow; its index is `j`. -/
def silentAfter (s : State) (i : Nat) (xs : List Int) (j : Int) : Dealer :=
  { s.dealerOf i with
    raw := rawAfter (s.dealerOf i) xs,
    ovr := (if decide ((s.dealerOf i).j % (s.dealLen : Int) = 0) then 0 else (s.dealerOf i).ovr) + (xs.map clipCode).countP fullScale,
    j := j }

/-- A hop of a Dealer that puts nothing out. -/
theorem hop_silent {s : State} {i : Nat} {xs : List Int} (hlive : ¬(xs.length ≠ 400 ∨ s.deal.stopped = true ∨ s.time.grid = false))
    (hsilent : (s.dealerOf i).emits = false) : ∃ j, s.hop i xs = (ovrShown s i xs).setDealer i (silentAfter s i xs j) := by
  unfold State.hop silentAfter
  rw [if_neg hlive, ← ovrShown_dealLen s i xs]
  exact ⟨_, if_neg (by simp [hsilent])⟩

/-- The coarse samples of a hop: each channel's sum over the new history, requantised. -/
def coarseAfter (s : State) (i : Nat) (xs : List Int) : List Word :=
  (List.range 256).map fun k =>
    (s.coarseWord i k (channelSum dealerTwiddles ((s.dealerOf i).branches (rawAfter (s.dealerOf i) xs)) (s.dealerOf i).j k)).1

/-- What a hop that puts out coarse samples makes of its Dealer. -/
def PutsOut (s : State) (i : Nat) (xs : List Int) (d : Dealer) : Prop :=
  d.raw = rawAfter (s.dealerOf i) xs ∧ d.j = (s.dealerOf i).j + 1 ∧
    ∃ h : CoarseHop, d.ring.head? = some h ∧ h.j = (s.dealerOf i).j ∧ h.z = coarseAfter s i xs

/-- With no program to feed, the end of a deal and the delivery of a hop leave the Dealers. -/
theorem deliverHop_dealer {s : State} (i : Nat) (j : Int) (b : Bool) (n sat ovr : Nat) (h : s.img.programs = []) :
    ((s.when b (fun s => s.endDeal i n sat ovr)).deliverHop i j).dealer = s.dealer := by
  obtain ⟨r, hend⟩ : RegsOnly s (s.when b (fun s => s.endDeal i n sat ovr)) := by
    cases b
    · exact .refl s
    · exact (RegsOnly.refl s).endDeal _ _ _ _
  rw [hend, State.deliverHop, if_pos (by simp [h])]

/-- A hop of a Dealer that puts out coarse samples, with no program to feed. -/
theorem hop_emitting {s : State} {i : Fin 4} {xs : List Int}
    (hlive : ¬(xs.length ≠ 400 ∨ s.deal.stopped = true ∨ s.time.grid = false)) (hemits : (s.dealerOf i).emits = true)
    (hprograms : s.img.programs = []) :
    ∃ d, PutsOut s i xs d ∧ (s.hop i xs).dealer = (s.setDealer i d).dealer := by
  obtain ⟨r, hshown⟩ := ovrShown_regsOnly s i xs
  obtain ⟨d, b, n, sat, ovr, hout, hhop⟩ : ∃ d b n sat ovr, PutsOut s i xs d ∧
      s.hop i xs = (((ovrShown s i xs).setDealer i d).when b (fun s => s.endDeal i n sat ovr)).deliverHop i (s.dealerOf i).j := by
    unfold State.hop
    rw [if_neg hlive]
    refine ⟨_, _, _, _, _, ⟨rfl, rfl, _, rfl, rfl, ?_⟩, if_pos hemits⟩
    rw [List.map_map]
    exact List.map_congr_left fun k _ => congrArg Prod.fst (coarseWord_ovrShown s i xs k _)
  refine ⟨d, hout, ?_⟩
  rw [hhop, deliverHop_dealer _ _ _ _ _ _ (by rw [hshown]; exact hprograms), hshown]
  rfl

/-! ### Raw samples that reach a Dealer (R46, R105) -/

/-- Where no coarse sample comes out no deal begins. -/
theorem tickFalls_silent {s : State} {i : Nat} (h : (s.dealerOf i).emits = false) : s.tickFalls i = false := by
  simp [State.tickFalls, h]

/-- Where no deal begins with a hop, what follows the Dealer's own part leaves the Dealers. -/
theorem rawHop_dealer {s : State} {i : Nat} {xs : List Int}
    (hlive : ¬(xs.length ≠ 400 ∨ s.deal.stopped = true ∨ s.time.grid = false))
    (hfalls : s.tickFalls i = false) : (s.rawHop i xs).dealer = (s.hop i xs).dealer := by
  unfold State.rawHop
  rw [if_neg hlive]
  simp only [hfalls, if_false, Bool.false_eq_true]
  split
  · rw [zoomHop_dealer, releaseOuts_dealer]
  · exact releaseOuts_dealer _

/-- Where no coarse sample comes out and no CLKOUT write waits, the Dealer's part is all. -/
theorem rawHop_silent {s : State} {i : Nat} {xs : List Int}
    (hlive : ¬(xs.length ≠ 400 ∨ s.deal.stopped = true ∨ s.time.grid = false))
    (hsilent : (s.dealerOf i).emits = false) (hwrites : s.clk.writes = []) : s.rawHop i xs = s.hop i xs := by
  obtain ⟨j, hhop⟩ := hop_silent hlive hsilent
  obtain ⟨r, hshown⟩ := ovrShown_regsOnly s i xs
  have hidle : (s.hop i xs).releaseOuts = s.hop i xs := releaseOuts_idle (by rw [hhop, hshown]; exact hwrites)
  unfold State.rawHop
  rw [if_neg hlive]
  simp only [tickFalls_silent hsilent, hsilent, Bool.and_false, if_false, Bool.false_eq_true]
  exact hidle

/-- What a Dealer that puts nothing out has of a hop: its history, and its count of full-scale samples. -/
def Heard (s : State) (i : Nat) (xs : List Int) (t : State) : Prop :=
  (t.dealerOf i).raw = rawAfter (s.dealerOf i) xs ∧
  (t.dealerOf i).ovr =
    (if decide ((s.dealerOf i).j % (s.dealLen : Int) = 0) then 0 else (s.dealerOf i).ovr) + xs.countP fullScale ∧
  (t.dealerOf i).ring = (s.dealerOf i).ring ∧ ∀ j : Nat, j ≠ i → t.dealerOf j = s.dealerOf j

/-- A hop that puts nothing out is heard, in any state with the Dealers that it leaves. -/
theorem hop_heard {s t : State} {i : Nat} {xs : List Int} (hlive : ¬(xs.length ≠ 400 ∨ s.deal.stopped = true ∨ s.time.grid = false))
    (hsilent : (s.dealerOf i).emits = false) (ht : t.dealer = (s.hop i xs).dealer) : Heard s i xs t := by
  obtain ⟨j, hhop⟩ := hop_silent hlive hsilent
  obtain ⟨r, hshown⟩ := ovrShown_regsOnly s i xs
  obtain ⟨hself, hothers⟩ := Becomes.setDealer (s := s) (t := t) (i := i) (d := silentAfter s i xs j) (by rw [ht, hhop, hshown]; rfl)
  rw [Heard, hself, ← countP_clipped]
  exact ⟨rfl, rfl, rfl, hothers⟩

/-- A hop that puts nothing out, where no CLKOUT write waits. -/
theorem Runs.hopSilent {s : State} {i : Fin 4} {xs : List Int}
    (hlive : ¬(xs.length ≠ 400 ∨ s.deal.stopped = true ∨ s.time.grid = false))
    (hsilent : (s.dealerOf i).emits = false) (hwrites : s.clk.writes = []) :
    Runs (.dealerHop i xs) s [CONV_STAT_OVR.bit i] (fun t => { s with dealer := t.dealer })
      (fun t => Heard s i xs t ∧ (0 < xs.countP fullScale → t.bitSet CONV_STAT_OVR i = true)) := by
  have hbits : ∀ i : Fin 4, quiet (CONV_STAT_OVR.bit i) = true ∧ CONV_STAT_OVR.lo + i < 32 := by decide
  obtain ⟨j, hhop⟩ := hop_silent hlive hsilent
  obtain ⟨r, hshown⟩ := ovrShown_regsOnly s i xs
  refine Runs.regsOnly (congrArg Machine.done (rawHop_silent hlive hsilent hwrites))
    ⟨hop_heard hlive hsilent (settle_dealer _), fun hclips => ?_⟩ ?_ ?_ rfl
  · rw [settle_bitSet _ _ _ (hbits i).1, hhop, ovrShown, countP_clipped, State.when, if_pos (by simpa using hclips)]
    exact bitSet_stick s _ _ (hbits i).2
  · rw [hhop]
    exact (ovrShown_keeps s i xs).of_regs rfl
  · rw [settle_dealer, hhop, hshown]
    exact ⟨r, rfl⟩

/-! ### Coefficient reads (R125) -/

/-- A read of CBKi_COEF_DATA returns the coefficient that the index names, and the index moves on. -/
theorem Runs.coefDataRead (s : State) (i : Fin 4) :
    Runs (.coefDataRead i) s [CBKI_COEF_IDX_IDX i] (fun t => { s with rdata := t.rdata })
      (fun t => t.rdata = [BitVec.ofInt 32 ((s.dealerOf i).coefAt (s.fld (CBKI_COEF_IDX_IDX i)))] ∧
        t.fld (CBKI_COEF_IDX_IDX i) = (s.fld (CBKI_COEF_IDX_IDX i) + 1) % 8192) := by
  have hquiet : ∀ i : Fin 4, quiet (CBKI_COEF_IDX_IDX i) = true := by decide
  have hread : KeepsFields [CBKI_COEF_IDX_IDX i] s
      { s with rdata := [BitVec.ofInt 32 ((s.dealerOf i).coefAt (s.fld (CBKI_COEF_IDX_IDX i)))] } := (KeepsFields.refl _ s).of_regs rfl
  refine Runs.regsOnly (u := s.coefRead i) rfl ⟨?_, ?_⟩ (hread.setFld _ _ (by simp)) ?_ rfl
  · rw [settle_rdata]
    rfl
  · rw [settle_fld _ _ (hquiet i), State.coefRead, fld_setFld_eq _ _ _ (by simp [CBKI_COEF_IDX_IDX])]
    exact Nat.mod_mod _ _
  · rw [settle_rdata]
    exact ⟨_, rfl⟩

/-- Settles O16: the entry by the tap's two parts, the hop by whether its Dealer puts out a coarse sample, and the read. -/
theorem tapHopAndCoefficientRead : Obligations.TapHopAndCoefficientRead := by
  intro s i e xs d x q taken wanted data live tag ent queued
  have hclock : live = true → s.time.grid = true ∧ s.deal.stopped = false := by simp [live]
  have hdead : live = false → s.time.grid = false ∨ s.deal.stopped = true := by
    simp only [live, Bool.and_eq_false_iff, Bool.not_eq_false', imp_self]
  have hentry : xs.length = 16 → live = true → ¬(xs.length ≠ 16 ∨ s.time.grid = false ∨ s.deal.stopped = true) :=
    fun hlen hlive => by simp [hlen, hclock hlive]
  refine ⟨fun hlen hlive hwanted => ?_, fun hlen hlive hstay => ?_, fun hstill => ?_, ?_, Runs.coefDataRead s i⟩
  · obtain ⟨u, hexec, hconv⟩ := rawTapEntry_done s i e xs
    obtain ⟨hsnap, htap, -⟩ := tapEntry_shown (t := u.settle) (hentry hlen hlive) ((settle_conv u).trans hconv)
    exact ⟨u.settle, hexec, hsnap, htap⟩
  · obtain ⟨t, hexec, ⟨⟨hsnap, htap, hothers⟩, hovr⟩, hframe⟩ := Runs.tapEntry (hentry hlen hlive) hstay
    exact ⟨t, hexec, ⟨⟨hsnap, htap⟩, hothers, hovr⟩, hframe⟩
  · have hoff : xs.length ≠ 16 ∨ s.time.grid = false ∨ s.deal.stopped = true := hstill.imp_right hdead
    refine Runs.still ((rawTapEntry_tapOnly fun ⟨hlen, hgrid, hrun, _⟩ => ?_).trans (congrArg Machine.done (tapEntry_still hoff)))
    simp [hlen, hgrid, hrun] at hoff
  · intro dl hist out clips begins heard hlen hlive
    have hhop : ¬(xs.length ≠ 400 ∨ s.deal.stopped = true ∨ s.time.grid = false) := by simp [hlen, hclock hlive]
    have hemits : dl.emits = out := emits_eq dl hlen
    refine ⟨fun hout => ?_, fun hout _ hwrites => Runs.hopSilent hhop (hemits.trans hout) hwrites, fun hout hfalls hprograms => ?_⟩
    · have hsilent := hemits.trans hout
      exact ⟨(s.rawHop i xs).settle, rfl,
        hop_heard hhop hsilent ((settle_dealer _).trans (rawHop_dealer hhop (tickFalls_silent hsilent)))⟩
    · obtain ⟨d', ⟨hraw, hj, h, hhead, hhj, hz⟩, hdealer⟩ := hop_emitting hhop (hemits.trans hout) hprograms
      obtain ⟨hself, hothers⟩ : Becomes State.dealerOf s i d' (s.rawHop i xs).settle :=
        .setDealer (by rw [settle_dealer, rawHop_dealer hhop hfalls, hdealer])
      refine ⟨(s.rawHop i xs).settle, rfl, ?_⟩
      rw [hself]
      refine ⟨hraw, hj, hothers, h, hhead, hhj, by simp [hz, coarseAfter], fun k hk => ?_⟩
      rw [hz, coarseAfter, List.getElem?_map, List.getElem?_range hk]
      rfl

end Sys2Proof
end

section
/-! PROOFS. The statements of 05_engine_datapath.md on the ALU slot (O17, O18) and the MOVE slot (O19). -/

namespace Sys2Proof

open Sys2Proof.Machine

/-! ### What the shared parts of the slots do -/

/-- A saturation sets the OVF latch and its sticky bit (R135). -/
theorem satIf_eq (c : EngCore) (b : Bool) (bit : Nat) :
    c.satIf b bit = { c with ovf := b || c.ovf, sticky := if b then c.sticky ||| 2 ^ bit else c.sticky } := by
  cases b <;> rfl

/-- BEXP follows the headroom while tracking is on (R147). -/
theorem track_eq (c : EngCore) (on : Bool) (h : Nat) :
    c.track on h = { c with bexp := if on then min c.bexp h else c.bexp } := by
  cases on <;> rfl

/-- A vector of lanes depends on the lanes alone. -/
theorem Quad.of_congr {f g : Nat → Cx} (h : ∀ l < 4, f l = g l) : Quad.of f = Quad.of g := by
  simp only [Quad.of, h 0 (by decide), h 1 (by decide), h 2 (by decide), h 3 (by decide)]

/-- Whether some lane meets a condition depends on the lanes alone. -/
theorem anyLane_congr {f g : Nat → Bool} (h : ∀ l < 4, f l = g l) : (List.range 4).any f = (List.range 4).any g := by
  rw [Bool.eq_iff_iff, List.any_eq_true, List.any_eq_true]
  exact exists_congr fun l => and_congr_right fun hl => by rw [h l (List.mem_range.mp hl)]

/-! ### The ALU slot -/

/-- What an operation that writes A leaves (R144): `f` gives the lanes' values before the limit, `tag` says whether A is then
built from a word that carries the OVF tag. -/
def aluGives (x : AluSlot) (tag : Bool) (pre cur : EngCore) (f : Nat → Cx) : EngCore :=
  (cur.putA (Quad.of (fun l => if bitOf x.skip l then pre.a.lane l else (limitLane (f l)).1)) tag).satIf
    ((List.range 4).any (fun l => !bitOf x.skip l && (limitLane (f l)).2)) stAccOvf

/-- The shared write of A, for lane values given in another form. -/
theorem aluWrite_eq (x : AluSlot) {usesA : Bool} {srcs : List Nat} {tag : Bool} {pre : EngCore} (cur : EngCore) {f g : Nat → Cx}
    (htag : (srcs.any pre.vOvf || ((usesA || decide (x.skip.val ≠ 0)) && pre.hOvf 0)) = tag) (h : ∀ l < 4, f l = g l) :
    aluWrite x usesA srcs pre cur f = aluGives x tag pre cur g := by
  have hlanes : (List.range 4).any (fun l => !bitOf x.skip l && (limitLane (f l)).2) =
      (List.range 4).any (fun l => !bitOf x.skip l && (limitLane (g l)).2) := anyLane_congr fun l hl => by rw [h l hl]
  rw [aluWrite, htag, aluGives, hlanes, Quad.of_congr fun l hl => by rw [h l hl]]

/-- A lane is limited to ±(2^47 − 1), and the limit is noted when it changes a component (R144). -/
theorem limitLane_eq (v : Cx) :
    limitLane v = ({ re := clampInt (-(2 ^ 47 - 1)) (2 ^ 47 - 1) v.re, im := clampInt (-(2 ^ 47 - 1)) (2 ^ 47 - 1) v.im },
      decide (clampInt (-(2 ^ 47 - 1)) (2 ^ 47 - 1) v.re ≠ v.re ∨ clampInt (-(2 ^ 47 - 1)) (2 ^ 47 - 1) v.im ≠ v.im)) := by
  rw [Bool.decide_or]
  rfl

/-- What an operation that writes A leaves, field by field. -/
theorem aluGives_fields (x : AluSlot) (tag : Bool) (pre cur : EngCore) (f : Nat → Cx) :
    let lim := fun (v : Int) => clampInt (-(2 ^ 47 - 1)) (2 ^ 47 - 1) v
    let sat := (List.range 4).any (fun l => !bitOf x.skip l && decide (lim (f l).re ≠ (f l).re ∨ lim (f l).im ≠ (f l).im))
    aluGives x tag pre cur f = { cur with
      hist := (Quad.of (fun l => if bitOf x.skip l then pre.a.lane l else { re := lim (f l).re, im := lim (f l).im }) ::
        cur.hist).take 8,
      hTag := (tag :: cur.hTag).take 8, ovf := sat || cur.ovf,
      sticky := if sat then cur.sticky ||| 2 ^ stAccOvf else cur.sticky } := by
  simp only [aluGives, satIf_eq, limitLane_eq]
  rfl

/-- The accumulating form by its parts (R145). -/
theorem accumulate_eq (x : AluSlot) (pre : EngCore) (l : Nat) (v : Cx) :
    let acc := fun (held new : Int) => if bitOf x.amod 3 then held + new else new
    accumulate x pre l v = { re := acc (pre.a.lane l).re v.re, im := acc (pre.a.lane l).im v.im } := by
  unfold accumulate aluAccum
  cases bitOf x.amod 3 <;> rfl

/-- A value negated or not, by its parts. -/
theorem negIf_eq (n : Bool) (v : Cx) : (if n then negCx v else v) = { re := if n then -v.re else v.re, im := if n then -v.im else v.im } := by
  cases n <;> rfl

/-- The second operand of CMUL (R145): its real part alone, its conjugate, or itself. -/
theorem secondOperand_eq (r j : Bool) (b : Cx) :
    (if r then { re := b.re, im := 0 } else if j then conjCx b else b) =
      ({ re := b.re, im := if r then 0 else if j then -b.im else b.im } : Cx) := by
  cases r
  · cases j <;> rfl
  · rfl

/-- Settles O17: each operation is the shared write of A, with the table's value for each lane. -/
theorem aluArithmeticWritesAByItsTable : Obligations.AluArithmeticWritesAByItsTable := by
  intro s p x pre cur m A a b lim va held writes acc neg bi
  have hwrites : ∀ {c : Instr} {op : Fin 32} {usesA : Bool} {srcs : List Nat} {tag : Bool} {f : EngCore → Nat → Cx} {re im : Nat → Int},
      exec c s = Machine.done (s.slot p (.alu op x) (fun _ pre cur => .ok (aluWrite x usesA srcs pre cur (f pre)))) →
      (srcs.any pre.vOvf || held usesA) = tag → (∀ l < 4, f pre l = { re := re l, im := im l }) → writes c op tag re im := by
    intro c op usesA srcs tag f re im hc htag h hi
    have hgives : SlotGives c s p (aluGives x tag pre cur (fun l => { re := re l, im := im l })) :=
      SlotGives.of_ok hc hi (by rw [aluWrite_eq x _ htag h])
    rwa [aluGives_fields] at hgives
  refine ⟨fun _ => hwrites rfl ?_ fun l _ => ?_, fun _ => hwrites rfl ?_ fun l _ => accumulate_eq x pre l _,
    fun _ => ⟨hwrites rfl ?_ fun l _ => rfl, hwrites rfl ?_ fun l _ => rfl, hwrites rfl ?_ fun l _ => rfl,
      hwrites rfl ?_ fun l _ => rfl⟩⟩
  case refine_2 =>
    simp only [secondOperand_eq, negIf_eq, accumulate_eq]
    rfl
  all_goals simp [va, m, aluAccum, Bool.or_assoc]

/-! ### The operations of their own (R149 to R153) -/

/-- Where AMOD is 0 or 4, bit 2 says that it is 4. -/
theorem aluJ_of_idx {x : AluSlot} (hm : x.amod.val = 0 ∨ x.amod.val = 4) : aluJ x = decide (x.amod.val = 4) := by
  rcases hm with h | h <;> rw [aluJ, h] <;> rfl

/-- A lane of CSEL, with the IDX variant as AMOD = 4 (R151). -/
theorem cselLane_eq (x : AluSlot) (pre : EngCore) (better : Int → Int → Bool) (l : Nat) (hm : x.amod.val = 0 ∨ x.amod.val = 4) :
    (if better ((pre.vreg x.va).lane l).re (pre.a.lane l).re then
        { re := ((pre.vreg x.va).lane l).re, im := if aluJ x then ((pre.idxr + l : Nat) : Int) else (pre.a.lane l).im }
      else pre.a.lane l : Cx) =
    (if better ((pre.vreg x.va).lane l).re (pre.a.lane l).re then
        { re := ((pre.vreg x.va).lane l).re, im := if x.amod.val = 4 then ((pre.idxr + l : Nat) : Int) else (pre.a.lane l).im }
      else pre.a.lane l) := by
  simp only [aluJ_of_idx hm, decide_eq_true_eq]

/-- A value turned by i, or by −i in the inverse form (R149). -/
theorem turned_eq (inv : Bool) (v : Cx) :
    (if inv then negCx (timesI v) else timesI v) = cmulCx (if inv then conjCx { re := 0, im := 1 } else { re := 0, im := 1 }) v := by
  cases inv <;> simp [negCx, timesI, cmulCx, conjCx]

/-- Sums and differences of complex integers in another order. -/
theorem sub_add_sub (a b c d : Cx) : addCx (subCx a b) (subCx d c) = addCx (subCx (subCx a b) c) d := by
  simp only [addCx, subCx, Cx.mk.injEq]
  omega

theorem sub_add_sub' (a b c d : Cx) : addCx (subCx a b) (subCx c d) = subCx (addCx (subCx a b) c) d := by
  simp only [addCx, subCx, Cx.mk.injEq]
  omega

theorem add_sub_add (a b c d : Cx) : subCx (addCx a b) (addCx c d) = subCx (subCx (addCx a b) c) d := by
  simp only [addCx, subCx, Cx.mk.injEq]
  omega

/-- A twiddle in the form an INV variant takes. -/
theorem twiddleInv_eq (inv : Bool) (u : Nat) : twiddleInv inv u = if inv then conjCx (twiddle u) else twiddle u := rfl

/-- BFLY4's sums by lane (R149), from the legs and the turned legs. -/
def quadSum (leg turned : Nat → Cx) (l : Nat) : Cx :=
  match l with
  | 0 => addCx (addCx (leg 0) (leg 1)) (addCx (leg 2) (leg 3))
  | 1 => addCx (subCx (subCx (leg 0) (turned 1)) (leg 2)) (turned 3)
  | 2 => subCx (addCx (subCx (leg 0) (leg 1)) (leg 2)) (leg 3)
  | _ => subCx (subCx (addCx (leg 0) (turned 1)) (leg 2)) (turned 3)

/-- TW after an operation that steps it `k` times with ADV (R149, R150). -/
def advanceTw (x : AluSlot) (pre : EngCore) (k : Nat) (c : EngCore) : EngCore :=
  if aluR x then { c with tw := (pre.tw + k * pre.twInc) % 131072 } else c

/-- IDXR after CSEL, which steps it in the IDX variant (R151). -/
def advanceIdx (x : AluSlot) (pre c : EngCore) : EngCore :=
  if x.amod.val = 4 then { c with idxr := (pre.idxr + 4) % 131072 } else c

/-- CSEL writes A as its comparison says, and advances IDXR in the IDX variant (R151). -/
theorem aluCsel_eq {x : AluSlot} {e : Engine} {pre cur : EngCore} {tag : Bool} (better : Int → Int → Bool)
    (hm : x.amod.val = 0 ∨ x.amod.val = 4) (htag : (pre.vOvf x.va || pre.hOvf 0) = tag) :
    aluCsel better x e pre cur = .ok (advanceIdx x pre (aluGives x tag pre cur (fun l =>
      if better ((pre.vreg x.va).lane l).re (pre.a.lane l).re then
        { re := ((pre.vreg x.va).lane l).re, im := if x.amod.val = 4 then ((pre.idxr + l : Nat) : Int) else (pre.a.lane l).im }
      else pre.a.lane l))) := by
  unfold aluCsel advanceIdx
  rw [aluWrite_eq x cur (by simpa using htag) fun l _ => cselLane_eq x pre better l hm, aluJ_of_idx hm]
  simp only [decide_eq_true_eq]

/-- LOG2 writes the logarithm of A.re (R152). -/
theorem aluLog2_eq {x : AluSlot} {e : Engine} {pre cur : EngCore} {tag : Bool} (htag : pre.hOvf 0 = tag) :
    aluLog2 x e pre cur = .ok (aluGives x tag pre cur (fun l => { re := log2Units (pre.a.lane l).re, im := 0 })) := by
  unfold aluLog2
  rw [aluWrite_eq x cur (by simpa using htag) fun l _ => rfl]

/-- BFLY4 writes the sums of its legs times the twiddles, and advances TW with ADV (R149). -/
theorem aluBfly4_eq {x : AluSlot} {e : Engine} {pre cur : EngCore} {tag : Bool}
    (htag : (pre.vOvf x.va || (decide (x.skip.val ≠ 0) && pre.hOvf 0)) = tag) :
    let inv := fun (v : Cx) => if aluJ x then conjCx v else v
    let leg := fun (l : Nat) => cmulCx ((pre.vreg x.va).lane l) (inv (twiddle (l * pre.tw % 131072)))
    let turned := fun (l : Nat) => cmulCx (inv { re := 0, im := 1 }) (leg l)
    aluBfly4 x e pre cur = .ok (advanceTw x pre 1 (aluGives x tag pre cur (quadSum leg turned))) := by
  intro inv leg turned
  unfold aluBfly4 advanceTw
  simp only [twiddleInv_eq, turned_eq, Nat.one_mul pre.twInc]
  rw [aluWrite_eq x (g := quadSum leg turned) cur (by simpa using htag) fun l hl => ?_]
  interval_cases l
  · rfl
  · exact sub_add_sub ..
  · exact sub_add_sub' ..
  · exact add_sub_add ..

/-- BFLY2's sums by lane (R150): two pairs of legs, the odd one of each turned by its twiddle. -/
def pairSum (leg : Nat → Cx) (w : Nat → Cx) (tw inc l : Nat) : Cx :=
  let even := cmulCx (leg (l / 2 * 2)) (w 0)
  let odd := cmulCx (leg (l / 2 * 2 + 1)) (w (tw + l / 2 * inc))
  if l % 2 = 0 then addCx even odd else subCx even odd

/-- BFLY2 writes the sums and differences of its pairs, and advances TW by two steps with ADV (R150). -/
theorem aluBfly2_eq {x : AluSlot} {e : Engine} {pre cur : EngCore} {tag : Bool}
    (htag : (pre.vOvf x.va || (decide (x.skip.val ≠ 0) && pre.hOvf 0)) = tag) :
    let inv := fun (v : Cx) => if aluJ x then conjCx v else v
    aluBfly2 x e pre cur = .ok (advanceTw x pre 2 (aluGives x tag pre cur
      (pairSum (pre.vreg x.va).lane (fun u => inv (twiddle (u % 131072))) pre.tw pre.twInc))) := by
  intro inv
  unfold aluBfly2 advanceTw
  simp only [twiddleInv_eq]
  rw [aluWrite_eq x (g := pairSum (pre.vreg x.va).lane (fun u => inv (twiddle (u % 131072))) pre.tw pre.twInc) cur
    (by simpa using htag) fun l hl => ?_]
  interval_cases l <;> simp [pairSum, inv]

/-- NORM writes A times 2^n, exactly, and the headrooms n (R153). -/
theorem normLane_eq (x : AluSlot) (pre : EngCore) (l : Nat) :
    let n := min (headroom 48 (pre.a.lane l).re) (headroom 48 (pre.a.lane l).im)
    (if bitOf x.skip l then pre.a.lane l
      else { re := (pre.a.lane l).re * ((2 ^ laneHead (pre.a.lane l) : Nat) : Int),
             im := (pre.a.lane l).im * ((2 ^ laneHead (pre.a.lane l) : Nat) : Int) } : Cx) =
    if bitOf x.skip l then pre.a.lane l else { re := (pre.a.lane l).re * 2 ^ n, im := (pre.a.lane l).im * 2 ^ n } := by
  simp [laneHead]

/-- Settles O18: every operation but EXP and NORM is the shared write of A, with the values of its rule; EXP and NORM write as
their rule says. -/
theorem aluSpecialOperationsFollowTheirRules : Obligations.AluSpecialOperationsFollowTheirRules := by
  intro s p x pre cur m A a va held kept next writes select index n heads inv w j leg turned step quad4 pair2
  have hcsel : (va || pre.hOvf 0) = (va || held true) := rfl
  have hbfly : (pre.vOvf x.va || (decide (x.skip.val ≠ 0) && pre.hOvf 0)) = (va || held false) := rfl
  refine ⟨fun hm => ⟨fun hi => SlotGives.of_ok rfl hi (aluCsel_eq _ hm hcsel), fun hi => SlotGives.of_ok rfl hi (aluCsel_eq _ hm hcsel)⟩,
    fun hm => ⟨fun hi => ?_, fun hi => ?_, fun hi => ?_⟩, fun _ _ => ⟨fun hi => ?_, fun hi => ?_⟩⟩
  · exact SlotGives.of_ok rfl hi (aluLog2_eq rfl)
  · exact SlotGives.of_ok rfl hi rfl
  · refine SlotGives.of_ok rfl hi ?_
    rw [aluNorm]
    simp only [normLane_eq]
    rfl
  · exact SlotGives.of_ok rfl hi (aluBfly4_eq hbfly)
  · exact SlotGives.of_ok rfl hi (aluBfly2_eq hbfly)

/-! ### The MOVE slot -/

/-- A component's headroom after the scaler, by its value before the limit (R147). -/
theorem scaleHead_eq (sh : Int) (w : Nat) (v : Int) :
    scaleHead sh w v = if satSym (scaleRaw sh v) w ≠ scaleRaw sh v then 0 else headroom w (scaleRaw sh v) := by
  unfold scaleHead scaleComp satSymHit
  by_cases h : satSym (scaleRaw sh v) w = scaleRaw sh v <;> simp [h]

/-- A vector's components as the scaler rounds them, before the limit (R146). -/
def scaledParts (sh : Int) (q : Quad) : List Int :=
  q.list.map (fun v => scaleRaw sh v.re) ++ q.list.map (fun v => scaleRaw sh v.im)

/-- The scaler by its components: the limited values, whether one was limited, and the smallest headroom (R146, R147). -/
theorem scaleQuad_eq (sh : Int) (w : Nat) (q : Quad) :
    scaleQuad sh w q =
      (Quad.of (fun l => { re := satSym (scaleRaw sh (q.lane l).re) w, im := satSym (scaleRaw sh (q.lane l).im) w }),
        (scaledParts sh q).any (fun v => satSymHit v w),
        (scaledParts sh q).foldl (fun m v => min m (if satSym v w ≠ v then 0 else headroom w v)) 47) := by
  have hparts : scaledParts sh q = (q.list.map (fun v => v.re) ++ q.list.map (fun v => v.im)).map (scaleRaw sh) := by
    rw [scaledParts, List.map_append, List.map_map, List.map_map]
    rfl
  rw [scaleQuad, hparts, List.any_map, List.foldl_map]
  simp only [scaleHead_eq]
  rfl

/-- Settles O19: MOVE by the scaler's parts, VPERM lane by lane, and MOVE.EXP as it stands. -/
theorem moveSlotWritesItsVRegister : Obligations.MoveSlotWritesItsVRegister := by
  intro s p x pre cur sh src raw lim parts sat head q
  refine ⟨fun hi => SlotGives.of_ok rfl hi ?_, fun hi => SlotGives.of_ok rfl hi ?_, fun hi => SlotGives.of_ok rfl hi rfl⟩
  · simp only [mvMove, scaleQuad_eq, satIf_eq, track_eq]
    rfl
  · rw [mvPerm]
    congr 2
    exact Quad.of_congr fun l _ => by
      rw [bitsOf, Nat.shiftRight_eq_div_pow, Nat.pow_mul]
      rfl

end Sys2Proof
end

section
/-! PROOFS. The statements of 05_engine_datapath.md on the CTL slot: block scale and address generators (O21), the routine's other
registers, records and waits (O22). -/

namespace Sys2Proof

open Sys2Proof.Machine

/-! ### Block scale (R147, R170) -/

/-- A value is limited exactly where it lies outside the limits. -/
theorem clampInt_ne_iff (lo hi v : Int) : clampInt lo hi v ≠ v ↔ v < lo ∨ hi < v := by
  unfold clampInt
  split
  · omega
  · split <;> omega

/-- Settles O21: each operation sets its register or its field of the named generator; a limit is noted as MOV_SAT. -/
theorem controlSlotSetsScaleAndGenerators : Obligations.ControlSlotSetsScaleAndGenerators := by
  intro s p x e pre cur gives v g note sets
  have hok : ∀ {c : Instr} {op : Fin 64} {f : CtlSlot → Engine → EngCore → EngCore → Except Nat EngCore} {core : EngCore},
      exec c s = Machine.done (s.slot p (.ctl op x) (f x)) → f x e pre cur = .ok core → gives c op core :=
    fun hc hf hi => SlotGives.of_ok hc hi hf
  refine ⟨hok rfl rfl, fun _ => ⟨hok rfl rfl, hok rfl ?_, hok rfl ?_⟩, fun _ => ⟨hok rfl rfl,
    fun _ => ⟨hok rfl rfl, hok rfl rfl, hok rfl rfl, hok rfl rfl⟩, fun _ => hok rfl rfl,
    fun d hd => ⟨hok rfl ?_, fun _ => hok rfl ?_⟩, hok rfl rfl⟩⟩
  · simp only [ctlSetscB, satIf_eq, clampInt_ne_iff]
    rfl
  · simp only [ctlSetscE, satIf_eq, clampInt_ne_iff]
    rfl
  · rw [ctlAgInwin, Engine.desc, hd]
    rfl
  · rw [ctlAgParam, Engine.desc, hd]
    rfl

/-! ### Waits for siblings (R139) -/

/-- A command that leaves an engine as `e`, which it already is. -/
theorem Runs.engineSame {c : Instr} {s : State} {p : Nat} {e : Engine} (hc : exec c s = Machine.done s) (he : s.engOf p = e) :
    Runs c s [] (fun t => { s with hand := { s.hand with eng := t.hand.eng } })
      (fun t => t.engOf p = e ∧ ∀ q : Nat, q ≠ p → t.engOf q = s.engOf q) :=
  Runs.done hc (by simp [State.engOf, ← he]) (.refl _ s) (by simp) (by simp)

/-- An engine that issues is not stalled. -/
theorem stall_of_issuesOp {s : State} {p : Nat} {op : SlotOp} (h : s.issuesOp p op = true) : (s.engOf p).stall = none := by
  simp only [State.issuesOp, State.issues, Bool.and_eq_true, Option.isNone_iff_eq_none] at h
  exact h.1.1.2

/-- A wait on a sibling that exists is over when no engine serves the sibling any more, or when its takeover is not in progress and
its committed count has reached XS + v (R139, R200, R207). -/
theorem waitOver_sibling {s : State} {p sigma v l : Nat} (h : s.sibling? (s.logicalOf p) sigma = some l) :
    s.waitOver p sigma v = (!s.flag (HAND_MAP_VALID l) || (!s.flag (HAND_MAP_PENDING l) &&
      decide (((s.fld (ENG_XCNT_XCNT (s.fld (HAND_MAP_PHYS l))) : Int) -
        (((s.engOf p).task.map (fun d => d.xs)).getD 0 + v : Nat)) % 65536 < 32768))) := by
  unfold State.waitOver
  cases hvalid : s.flag (HAND_MAP_VALID l)
  · simp [h, hvalid]
  · cases hpending : s.flag (HAND_MAP_PENDING l)
    · cases htask : (s.engOf p).task <;> simp [h, hvalid, hpending]
    · simp [h, hvalid, hpending]

/-- XWAIT on a sibling that exists notes the sibling, and stalls the engine while the wait is not over. -/
theorem xwaitSlot_sibling {s : State} {p : Nat} {x : CtlSlot} {l : Nat} (hi : s.issuesOp p (.ctl 0x14 x) = true)
    (h : s.sibling? (s.logicalOf p) x.ag = some l) :
    s.xwaitSlot p x = s.setEng p { s.engOf p with
      cur := { (s.engOf p).cur.pop with reads := (s.engOf p).cur.reads ++ [l] },
      stall := if s.waitOver p x.ag x.imm.toNat then none else some (.xwait x.ag x.imm.toNat) } := by
  simp only [State.xwaitSlot, hi, if_true, h]
  cases s.waitOver p x.ag x.imm.toNat
  · rfl
  · simp only [if_true, ← stall_of_issuesOp hi]

/-- A stalled engine resumes once its wait is over (R139). -/
theorem xwaitDone_over {s : State} {p sigma v : Nat} (hs : (s.engOf p).stall = some (.xwait sigma v)) (h : s.waitOver p sigma v = true) :
    s.xwaitDone p = s.setEng p { s.engOf p with stall := none } := by
  simp only [State.xwaitDone, hs, h, if_true]

/-- And not before. -/
theorem xwaitDone_waiting {s : State} {p sigma v : Nat} (hs : (s.engOf p).stall = some (.xwait sigma v))
    (h : s.waitOver p sigma v = false) : s.xwaitDone p = s := by
  simp [State.xwaitDone, hs, h]

/-! ### Immediates (R170) -/

/-- An 18-bit immediate, signed. -/
theorem toSigned_18 {v : Nat} (h : v < 2 ^ 18) : toSigned 18 v = if v < 2 ^ 17 then (v : Int) else (v : Int) - 2 ^ 18 := by
  rw [toSigned, Nat.mod_eq_of_lt h]
  rfl

/-- A 20-bit signed immediate added to a 32-bit value, modulo 2^32. -/
theorem carryAdd_eq (c : Nat) (imm : BitVec 20) :
    ofSigned 32 ((c : Int) + toSigned 20 imm.toNat) =
      (c + (if imm.toNat < 2 ^ 19 then imm.toNat else 2 ^ 32 + imm.toNat - 2 ^ 20)) % 2 ^ 32 := by
  have hlt := imm.isLt
  simp only [ofSigned, toSigned, Nat.mod_eq_of_lt hlt]
  split <;> omega

/-- Settles O22: each register operation by its slot; a wait by whether it is over. -/
theorem controlSlotSetsRegistersRecordsAndWaits : Obligations.ControlSlotSetsRegistersRecordsAndWaits := by
  intro s p x e cur v gives
  have hok : ∀ {c : Instr} {op : Fin 64} {f : CtlSlot → Engine → EngCore → EngCore → Except Nat EngCore} {core : EngCore},
      exec c s = Machine.done (s.slot p (.ctl op x) (f x)) → f x e e.pre cur = .ok core → gives c op core :=
    fun hc hf hi => SlotGives.of_ok hc hi hf
  refine ⟨⟨fun _ => ⟨hok rfl rfl, hok rfl rfl, hok rfl rfl⟩, fun hv => ⟨hok rfl ?_, hok rfl rfl⟩, fun _ => hok rfl rfl, hok rfl rfl,
    fun d hd _ hrec => hok rfl ?_, fun r hrec => hok rfl ?_, hok rfl rfl, hok rfl ?_⟩, fun l hl => ?_⟩
  · rw [ctlHb, toSigned_18 hv]
  · simp only [ctlRopen, Engine.desc, hrec, hd]
    rfl
  · simp only [ctlRclose, hrec]
    rfl
  · rw [ctlCarryAdd, carryAdd_eq]
  · intro reached engine
    have hreached : s.waitOver p x.ag v = reached := waitOver_sibling hl
    refine ⟨fun hi _ => ?_, fun hstall => ?_⟩
    · exact Runs.engine (by rw [← hreached]; exact congrArg Machine.done (xwaitSlot_sibling hi hl))
    · cases hover : reached
      · exact Runs.engineSame (congrArg Machine.done (xwaitDone_waiting hstall (hreached.trans hover))) (by simp [e, ← hstall])
      · exact Runs.engine (congrArg Machine.done (xwaitDone_over hstall (hreached.trans hover)))

end Sys2Proof
end

section
/-! PROOFS. What the end or the loss of a task leaves of the registers and of the engines (R172, R192 to R195): it counts, marks and
combines, and no engine's task, V registers or data SRAM change by it. -/

namespace Sys2Proof

open Sys2Proof.Machine

/-! ### The frame of the accounting -/

/-- What counting ended, lost and ready tasks leaves: of the registers all but XCNT and those of the log, of every engine its task,
its V registers and its data SRAM. -/
def Accounts (s t : State) : Prop :=
  (∀ a : Nat, (∀ q : Nat, a ≠ (ENG_XCNT_XCNT q).addr) → a ≠ HAND_LOG_COUNT_COUNT.addr → a ≠ HAND_STAT_LOG_ATTN.addr →
    t.reg a = s.reg a) ∧
  ∀ q : Nat, (t.engOf q).task = (s.engOf q).task ∧ (t.engOf q).cur.v = (s.engOf q).cur.v ∧
    (t.engOf q).cur.sram = (s.engOf q).cur.sram

theorem Accounts.refl (s : State) : Accounts s s := ⟨fun _ _ _ _ => rfl, fun _ => ⟨rfl, rfl, rfl⟩⟩

theorem Accounts.trans {s t u : State} (h : Accounts s t) (h' : Accounts t u) : Accounts s u :=
  ⟨fun a h1 h2 h3 => (h'.1 a h1 h2 h3).trans (h.1 a h1 h2 h3), fun q => by
    obtain ⟨htask, hv, hsram⟩ := h.2 q
    obtain ⟨htask', hv', hsram'⟩ := h'.2 q
    exact ⟨htask'.trans htask, hv'.trans hv, hsram'.trans hsram⟩⟩

/-- The registers and the engines stay. -/
theorem Accounts.of_same {s u v : State} (h : Accounts s u) (hr : v.regs = u.regs) (he : v.hand.eng = u.hand.eng) : Accounts s v :=
  h.trans ⟨fun a _ _ _ => by rw [State.reg, hr, State.reg], fun q => by simp [State.engOf, he]⟩

/-- An engine changes, but for its task, its V registers and its data SRAM. -/
theorem Accounts.setEng {s u : State} {p : Nat} {e : Engine} (h : Accounts s u) (htask : e.task = (u.engOf p).task)
    (hv : e.cur.v = (u.engOf p).cur.v) (hsram : e.cur.sram = (u.engOf p).cur.sram) : Accounts s (u.setEng p e) :=
  h.trans ⟨fun _ _ _ _ => rfl, fun q => by
    rw [engOf_setEng]
    split
    · next hq => exact hq ▸ ⟨htask, hv, hsram⟩
    · exact ⟨rfl, rfl, rfl⟩⟩

/-- XCNT of an engine is written. -/
theorem Accounts.setXcnt {s u : State} (q x : Nat) (h : Accounts s u) : Accounts s (u.setFld (ENG_XCNT_XCNT q) x) :=
  h.trans ⟨fun _ hx _ _ => reg_setFld_ne _ _ _ (hx q), fun _ => ⟨rfl, rfl, rfl⟩⟩

/-- An event is logged. -/
theorem Accounts.logEvent {s u : State} (c v a : Nat) (h : Accounts s u) : Accounts s (u.logEvent c v a) :=
  h.trans ⟨fun _ _ hl hs => logEvent_reg _ _ _ _ hl hs, fun q => by simp [State.engOf]⟩

/-- XCNT at the start of an engine's task is moved. -/
theorem Accounts.setXstart {s u : State} (p n : Nat) (h : Accounts s u) :
    Accounts s (u.setEng p { u.engOf p with xstart := n }) := h.setEng rfl rfl rfl

/-- A lost task is noted. -/
theorem Accounts.noteLost {s u : State} (x : List (Nat × Nat × Nat × Bool)) (h : Accounts s u) :
    Accounts s { u with hand := { u.hand with lost := x } } := h.of_same rfl rfl

/-- A mirror control record is written. -/
theorem Accounts.putMirrorCtl {s u : State} (p : Nat) (h : Accounts s u) : Accounts s (u.putMirrorCtl p) := h.of_same rfl rfl

/-- A sequence of updates. -/
theorem Accounts.foldl {α : Type} {f : State → α → State} {s u : State} (l : List α) (h : Accounts s u)
    (hf : ∀ (t : State) (x : α), Accounts t (f t x)) : Accounts s (l.foldl f u) := by
  induction l generalizing u with
  | nil => exact h
  | cons x l ih => exact ih (h.trans (hf u x))

/-! ### The operations -/

theorem Accounts.degradeHand {s u : State} (l d : Nat) (h : Accounts s u) : Accounts s (u.degradeHand l d) := by
  unfold State.degradeHand
  refine Accounts.of_same (Accounts.foldl _ h fun t x => ?_) rfl rfl
  have heng := Accounts.setEng (p := t.fld (HAND_MAP_PHYS x)) (e := (t.engOf (t.fld (HAND_MAP_PHYS x))).degrade) (.refl t) rfl rfl rfl
  exact heng.of_same rfl rfl

theorem Accounts.commitWord {s u : State} (p i v : Nat) (tag : Bool) (h : Accounts s u) : Accounts s (u.commitWord p i v tag) := by
  have heng := h.setEng (p := p) (e := { u.engOf p with
    acc := instSet 0 (u.engOf p).acc i v, tag := instSet false (u.engOf p).tag i tag }) rfl rfl rfl
  exact heng.of_same rfl rfl

theorem combineTake_accounts (s : State) (c : Combine) (n : HandNode) (p : Nat) (r : ResultRecord) :
    Accounts s (s.combineTake c n p r).1 := by
  unfold State.combineTake
  cases c.first with
  | none => exact Accounts.foldl _ (.refl s) fun t i => Accounts.commitWord _ _ _ _ (.refl t)
  | some ff =>
    simp only
    split
    · exact Accounts.foldl _ (.refl s) fun t i => Accounts.commitWord _ _ _ _ (.refl t)
    · exact .refl s

theorem combineRun_accounts (n : HandNode) (members : List Nat) (p : Nat) (oneQuad : Bool) (fuel : Nat) (s : State) (c : Combine) :
    Accounts s (s.combineRun n members p oneQuad fuel c).1 := by
  induction fuel generalizing s c with
  | zero => exact .refl s
  | succ fuel ih =>
    unfold State.combineRun
    simp only
    split
    · exact .refl s
    · exact (combineTake_accounts ..).trans (ih ..)

theorem Accounts.combineSettle {s u : State} (node product deal l : Nat) (r : Option ResultRecord) (h : Accounts s u) :
    Accounts s (u.combineSettle node product deal l r) := by
  refine h.trans ?_
  unfold State.combineSettle
  split
  · exact .refl u
  · simp only
    split
    · exact .refl u
    · exact Accounts.of_same (combineRun_accounts ..) rfl rfl

theorem Accounts.loseTask {s u : State} (l : Nat) (d : Descriptor) (h : Accounts s u) : Accounts s (u.loseTask l d) := by
  unfold State.loseTask
  exact ((((h.degradeHand l d.deal).setXcnt _ _).setXstart _ _).noteLost _).putMirrorCtl _

theorem Accounts.settleWith {s u : State} {ready : State → Nat → Nat → Nat → State} (l : Nat) (d : Descriptor) (produced : Nat → Bool)
    (h : Accounts s u) (hready : ∀ (t : State) (k g n : Nat), Accounts t (ready t k g n)) :
    Accounts s (u.settleWith ready l d produced) := by
  refine Accounts.foldl _ h fun t x => ?_
  split
  · exact .refl t
  · exact Accounts.foldl _ (.refl t) fun v i => (Accounts.combineSettle _ _ _ _ _ (.refl v)).trans (hready ..)

theorem dealReadyN_accounts (fuel : Nat) (s : State) (l prog deal : Nat) : Accounts s (State.dealReadyN fuel s l prog deal) := by
  induction fuel generalizing s l prog deal with
  | zero => exact .refl s
  | succ fuel ih =>
    unfold State.dealReadyN
    split
    · exact .refl s
    · simp only
      split
      · split
        · exact Accounts.of_same (.refl s) rfl rfl
        · exact Accounts.logEvent _ _ _ (Accounts.settleWith _ _ _ (Accounts.loseTask _ _ (Accounts.of_same (.refl s) rfl rfl)) ih)
      · exact .refl s

/-- A task that has ended or been dropped is counted. -/
theorem Accounts.taskOver {s u : State} (l : Nat) (d : Descriptor) (produced : Nat → Bool) (h : Accounts s u) :
    Accounts s (u.taskOver l d produced) := by
  unfold State.taskOver State.settleGroups State.dealReady
  split
  · exact Accounts.settleWith _ _ _ (h.of_same rfl rfl) (dealReadyN_accounts 1024)
  · exact (h.of_same rfl rfl).trans (dealReadyN_accounts ..)

/-- A field that the accounting leaves. -/
theorem Accounts.fld {s t : State} (h : Accounts s t) {f : Field} (hx : ∀ q : Nat, f.addr ≠ (ENG_XCNT_XCNT q).addr)
    (hl : f.addr ≠ HAND_LOG_COUNT_COUNT.addr) (hs : f.addr ≠ HAND_STAT_LOG_ATTN.addr) : t.fld f = s.fld f :=
  fld_congr (h.1 _ hx hl hs)

end Sys2Proof
end

section
/-! PROOFS. The statements of 05_engine_datapath.md and 06_control_store_microcode.md on sequencing and COMMIT (O23). -/

namespace Sys2Proof

open Sys2Proof.Machine

/-! ### The fetch (R166, R169) -/

/-- A word that passes its parity and is legal is fetched: its operations are the next to issue. -/
theorem fetch_clean {s : State} {p : Nat} (hparity : parityGood (s.storeWord (clusterOf p) (s.engOf p).pre.pc) = true)
    (hlegal : wordIllegal (s.storeWord (clusterOf p) (s.engOf p).pre.pc) = false) :
    let ops := wordOps (s.storeWord (clusterOf p) (s.engOf p).pre.pc)
    s.fetch p .clean = s.setEng p { s.engOf p with
      pre := { (s.engOf p).pre with todo := ops }, cur := { (s.engOf p).cur with todo := ops } } := by
  simp [State.fetch, State.spoil, hparity, hlegal]

/-- A word that passes its parity and is illegal is a program fault. -/
theorem fetch_illegal {s : State} {p : Nat} (hparity : parityGood (s.storeWord (clusterOf p) (s.engOf p).pre.pc) = true)
    (hillegal : wordIllegal (s.storeWord (clusterOf p) (s.engOf p).pre.pc) = true) :
    s.fetch p .clean = s.programFault p fIllegal := by
  simp [State.fetch, State.spoil, hparity, hillegal]

/-! ### The end of a microword (R142, R157, R181) -/

/-- A microword ends within the commit bound: the sticky bits rise, its cost is counted, and the next one is fetched. -/
theorem endWord_goes {s : State} {p : Nat} {op : SeqOp} {up : Upset} {f : Engine → EngCore → Except Nat EngCore} {c : EngCore}
    (hi : s.issuesOp p (.seq op) = true) (hcc : (s.engOf p).cur.cc + issueCost (s.engOf p).cur ≤ 65536)
    (hf : f (s.engOf p) (s.engOf p).cur = .ok c) :
    s.endWord p op up f = ((s.flushSticky p).setEng p { s.engOf p with pre := c.endWord, cur := c.endWord }).fetch p up := by
  simp [State.endWord, hi, hf, Nat.not_lt.mpr hcc]

/-- A command that writes registers and engines alone. -/
theorem Runs.enginesAndRegs {c : Instr} {s u : State} {w : List Field} {result : State → Prop} (hc : exec c s = Machine.done u)
    (hu : u = { s with regs := u.regs, hand := { s.hand with eng := u.hand.eng } }) (hw : KeepsFields w s u)
    (hr : result u.settle) : Runs c s w (fun t => { s with hand := { s.hand with eng := t.hand.eng } }) result := by
  refine Runs.done hc hr hw ?_ (by rw [hu]; simp)
  rw [hu]
  simp

/-- Settling leaves the engines. -/
@[simp] theorem settle_engOf (s : State) (q : Nat) : s.settle.engOf q = s.engOf q := by
  rw [State.engOf, settle_hand, State.engOf]

/-- A register of an engine shows no derived signal. -/
theorem settle_engReg (s : State) {a : Nat} (h : 0x1000000 ≤ a) : s.settle.reg a = s.reg a := by
  refine settle_reg s ⟨?_, ?_, ?_, ?_, ?_⟩ <;> rintro rfl <;> exact absurd h (by decide)

/-- A microword that ends within the commit bound goes on to the microword at `pc`, whose copy is whole and whose encoding is
legal. -/
theorem Runs.sequences {s : State} {p : Fin 1088} {i : Instr} {op : SeqOp} {f : Engine → EngCore → Except Nat EngCore}
    {pc : Nat} {loops : List Loop} (hc : exec i s = Machine.done (s.endWord p op .clean f))
    (hcc : (s.engOf p).cur.cc + issueCost (s.engOf p).cur ≤ 65536)
    (hf : f (s.engOf p) (s.engOf p).cur = .ok { (s.engOf p).cur with pc := pc, loops := loops })
    (hi : s.issuesOp p (.seq op) = true)
    (hclean : parityGood (s.storeWord (clusterOf p) pc) = true ∧ wordIllegal (s.storeWord (clusterOf p) pc) = false) :
    let c := (s.engOf p).cur
    let next := { c with pc := pc, loops := loops, cc := c.cc + issueCost c, todo := wordOps (s.storeWord (clusterOf p) pc),
                         words := [], window := false, sticky := 0 }
    Runs i s [wholeReg (ENG_STAT p).addr] (fun t => { s with hand := { s.hand with eng := t.hand.eng } })
      (fun t => t.engOf p = { s.engOf p with pre := next, cur := next } ∧ (∀ q : Nat, q ≠ p → t.engOf q = s.engOf q) ∧
        t.reg (ENG_STAT p).addr = s.reg (ENG_STAT p).addr ||| BitVec.ofNat 32 c.sticky) := by
  intro c next
  have hpc : (((s.flushSticky p).setEng p { s.engOf p with
      pre := { c with pc := pc, loops := loops }.endWord, cur := { c with pc := pc, loops := loops }.endWord }).engOf p).pre.pc = pc := by
    rw [engOf_setEng, if_pos rfl]
    rfl
  have hword : ∀ (x : State) (e : Engine), x = s.flushSticky p →
      (x.setEng p e).storeWord (clusterOf p) pc = s.storeWord (clusterOf p) pc := fun x e hx => by subst hx; rfl
  have hstate : s.endWord p op .clean f = ((s.flushSticky p).setEng p { s.engOf p with
      pre := { c with pc := pc, loops := loops }.endWord, cur := { c with pc := pc, loops := loops }.endWord }).setEng p
        { s.engOf p with pre := next, cur := next } := by
    rw [endWord_goes hi hcc hf, fetch_clean (by rw [hpc, hword _ _ rfl]; exact hclean.1) (by rw [hpc, hword _ _ rfl]; exact hclean.2),
      hpc, hword _ _ rfl, engOf_setEng, if_pos rfl]
    rfl
  refine Runs.enginesAndRegs (hc.trans (congrArg Machine.done hstate)) rfl ?_ ⟨by simp, fun q hq => ?_, ?_⟩
  · exact ((KeepsFields.refl _ s).setReg _ _ (by simp)).of_regs rfl
  · simp only [settle_engOf, engOf_setEng, if_neg hq]
    rfl
  · rw [settle_engReg _ (by simp [ENG_STAT]; omega)]
    exact (reg_setReg ..).trans (if_pos rfl)

/-! ### The sequencing operations (R157, R173) -/

/-- An address in the region of the running task's entry. -/
theorem sameRegion_iff {e : Engine} {a : Nat} (h : ∀ d : Descriptor, e.task = some d → (0x3000 ≤ a ↔ 0x3000 ≤ d.entry)) :
    e.sameRegion a = true := by
  unfold Engine.sameRegion
  split
  · next d hd => simp [customerWord, h d hd]
  · rfl

/-- A REPEAT within its rules opens a level. -/
theorem seqRepeat_ok {e : Engine} {c : EngCore} {count stop : Nat} (hdepth : c.loops.length < 4) (hahead : c.pc < stop)
    (hregion : e.sameRegion stop = true) (hinner : ∀ l : Loop, c.loops.head? = some l → stop ≤ l.stop) :
    seqRepeat count stop e c =
      .ok { c with pc := c.pc + 1, loops := { start := c.pc + 1, stop := stop, left := count } :: c.loops } := by
  unfold seqRepeat
  cases hloops : c.loops with
  | nil =>
    simp only [illegalIf, hregion, Nat.not_le.mpr hahead]
    rfl
  | cons l rest =>
    have hbody : ¬l.stop < stop := Nat.not_lt.mpr (hinner l (by rw [hloops]; rfl))
    simp only [illegalIf, hregion, Nat.not_le.mpr (hloops ▸ hdepth), Nat.not_le.mpr hahead, hbody]
    rfl

/-- A jump forward in the same region. -/
theorem seqJump_ok {e : Engine} {c : EngCore} {target : Nat} (hahead : c.pc < target) (hregion : e.sameRegion target = true) :
    seqJump target e c = .ok (c.jump target) := by
  simp only [seqJump, illegalIf, hregion, Nat.not_le.mpr hahead]
  rfl

/-- A branch that is taken is a jump. -/
theorem seqBr_taken {e : Engine} {c : EngCore} {cond target : Nat} (h : brCond e cond = some true) :
    seqBr cond target e c = seqJump target e c := by
  rw [seqBr, h]

/-- A branch that is not taken goes on in sequence. -/
theorem seqBr_passed {e : Engine} {c : EngCore} {cond target : Nat} (h : brCond e cond = some false)
    (hregion : e.sameRegion target = true) : seqBr cond target e c = .ok c.advance := by
  rw [seqBr, h]
  simp only [illegalIf, hregion]
  rfl

/-! ### COMMIT (R177) -/

/-- The working words of a commit, written one after another. -/
def commitWords (s : State) (p : Nat) (e : Engine) (c : EngCore) (l : List (Nat × WorkWord)) : State :=
  l.foldl (fun s x => s.commitWord p x.1 x.2.value (commitTag e c x.1 x.2)) s

/-- A committed word changes its engine's committed layer and the mirror. -/
theorem commitWord_eq (s : State) (p i v : Nat) (tag : Bool) : ∃ eng mirror mirTag,
    s.commitWord p i v tag = { s with hand := { s.hand with eng := eng, mirror := mirror, mirTag := mirTag } } := ⟨_, _, _, rfl⟩

/-- They change the engine's committed layer and its mirror alone. -/
theorem commitWords_frame (s : State) (p : Nat) (e : Engine) (c : EngCore) (l : List (Nat × WorkWord)) :
    let t := commitWords s p e c l
    t = { s with hand := { s.hand with eng := t.hand.eng, mirror := t.hand.mirror, mirTag := t.hand.mirTag } } ∧
    t.engOf p = { s.engOf p with acc := (t.engOf p).acc, tag := (t.engOf p).tag } ∧
    ∀ q : Nat, q ≠ p → t.engOf q = s.engOf q := by
  induction l generalizing s with
  | nil => exact ⟨rfl, rfl, fun _ _ => rfl⟩
  | cons x l ih =>
    obtain ⟨hstate, hown, hothers⟩ := ih (s.commitWord p x.1 x.2.value (commitTag e c x.1 x.2))
    have hcommit : ∀ q : Nat, (s.commitWord p x.1 x.2.value (commitTag e c x.1 x.2)).engOf q = if q = p then
        { s.engOf p with acc := instSet 0 (s.engOf p).acc x.1 x.2.value,
                         tag := instSet false (s.engOf p).tag x.1 (commitTag e c x.1 x.2) } else s.engOf q :=
      fun q => engOf_setEng ..
    refine ⟨?_, ?_, fun q hq => (hothers q hq).trans ((hcommit q).trans (if_neg hq))⟩
    · obtain ⟨eng, mirror, mirTag, hword⟩ := commitWord_eq s p x.1 x.2.value (commitTag e c x.1 x.2)
      simp only [hword] at hstate
      simp only [commitWords, List.foldl_cons, hword]
      exact hstate
    · rw [hcommit, if_pos rfl] at hown
      exact hown

/-- A word that is among them reads as its working value. -/
theorem commitWords_acc {s : State} {p : Nat} {e : Engine} {c : EngCore} {l : List (Nat × WorkWord)}
    (hkeys : (l.map (fun x => x.1)).Nodup) (i : Nat) :
    instGet 0 ((commitWords s p e c l).engOf p).acc i =
      match l.find? (fun x => decide (x.1 = i)) with
      | some x => x.2.value
      | none => instGet 0 (s.engOf p).acc i := by
  induction l generalizing s with
  | nil => rfl
  | cons x l ih =>
    obtain ⟨hfresh, hrest⟩ := List.nodup_cons.mp hkeys
    have hown : ((s.commitWord p x.1 x.2.value (commitTag e c x.1 x.2)).engOf p).acc = instSet 0 (s.engOf p).acc x.1 x.2.value :=
      congrArg Engine.acc ((engOf_setEng ..).trans (if_pos rfl))
    have hstep := ih (s := s.commitWord p x.1 x.2.value (commitTag e c x.1 x.2)) hrest
    rw [hown, instGet_instSet] at hstep
    refine hstep.trans ?_
    by_cases hx : x.1 = i
    · have hnone : l.find? (fun y => decide (y.1 = i)) = none := List.find?_eq_none.mpr fun y hy => by
        have hne : y.1 ≠ i := fun h => hfresh (List.mem_map.mpr ⟨y, hy, h.trans hx.symm⟩)
        simpa using hne
      simp [hx, hnone]
    · simp [hx, Ne.symm hx]

/-- An entry of a family whose keys do not repeat is read back. -/
theorem instGet_of_mem {α : Type} {d : α} {m : List (Nat × α)} (hkeys : (m.map (fun x => x.1)).Nodup) {i : Nat} {v : α}
    (h : (i, v) ∈ m) : instGet d m i = v := by
  induction m with
  | nil => cases h
  | cons x m ih =>
    obtain ⟨hfresh, hrest⟩ := List.nodup_cons.mp hkeys
    rcases List.mem_cons.mp h with rfl | h
    · simp [instGet, sparseGet]
    · have hne : i ≠ x.1 := fun hi => hfresh (List.mem_map.mpr ⟨_, h, hi⟩)
      have hread := ih hrest h
      simpa [instGet, sparseGet, hne] using hread

/-- A value that is not the default stands in the family. -/
theorem mem_of_instGet {α : Type} {m : List (Nat × Option α)} {i : Nat} {v : α} (h : instGet none m i = some v) : (i, some v) ∈ m := by
  induction m with
  | nil => cases h
  | cons x m ih =>
    by_cases hi : i = x.1
    · have hx : x.2 = some v := by simpa [instGet, sparseGet, hi] using h
      exact List.mem_cons.mpr (.inl (by rw [hi, ← hx]))
    · exact List.mem_cons_of_mem _ (ih (by simpa [instGet, sparseGet, hi] using h))

/-- The working words are the entries of the working layer. -/
theorem mem_workWords {c : EngCore} {i : Nat} {w : WorkWord} : (i, w) ∈ c.workWords ↔ (i, some w) ∈ c.work := by
  rw [EngCore.workWords, List.mem_filterMap]
  constructor
  · rintro ⟨⟨j, o⟩, hmem, ho⟩
    cases o with
    | none => cases ho
    | some y => cases ho; exact hmem
  · exact fun h => ⟨_, h, rfl⟩

/-- Their indexes do not repeat where those of the working layer do not. -/
theorem workWords_nodup {c : EngCore} (hkeys : (c.work.map (fun x => x.1)).Nodup) : (c.workWords.map (fun x => x.1)).Nodup := by
  have hsub : (c.workWords.map (fun x => x.1)).Sublist (c.work.map (fun x => x.1)) := by
    unfold EngCore.workWords
    induction c.work with
    | nil => exact List.Sublist.refl _
    | cons x l ih =>
      cases hx : x.2 with
      | none => simpa [hx] using ih.cons x.1
      | some w => simpa [hx] using ih
  exact hkeys.sublist hsub

/-- The committed layer after a commit: working words where there are any, and what was committed elsewhere (R134, R177). -/
theorem commitWords_layer {s : State} {p : Nat} {e : Engine} {c : EngCore} (hkeys : (c.work.map (fun x => x.1)).Nodup) (i : Nat) :
    instGet 0 ((commitWords s p e c c.workWords).engOf p).acc i =
      match instGet none c.work i with
      | some w => w.value
      | none => instGet 0 (s.engOf p).acc i := by
  rw [commitWords_acc (workWords_nodup hkeys)]
  cases hread : instGet none c.work i with
  | some w =>
    have hmem := mem_workWords.mpr (mem_of_instGet hread)
    cases hfind : c.workWords.find? (fun x => decide (x.1 = i)) with
    | none => exact absurd (decide_eq_true rfl) (List.find?_eq_none.mp hfind _ hmem)
    | some x =>
      have hx : x.1 = i := by simpa using List.find?_some hfind
      have hw := instGet_of_mem hkeys (mem_workWords.mp (show (i, x.2) ∈ _ from hx ▸ List.mem_of_find?_eq_some hfind)) (d := none)
      simp [Option.some.inj (hw.symm.trans hread)]
  | none =>
    have hnone : c.workWords.find? (fun x => decide (x.1 = i)) = none := List.find?_eq_none.mpr fun x hx => by
      have hne : x.1 ≠ i := fun h => by
        have hw := instGet_of_mem hkeys (mem_workWords.mp (show (i, x.2) ∈ _ from h ▸ hx)) (d := none)
        rw [hread] at hw
        cases hw
      simpa using hne
    rw [hnone]

/-- What steps 1 to 5 of a commit leave of the engine: the committed layer, the FIFO with the working entries, the open record and
the task's continuation (R177). -/
def committed (e : Engine) (acc : List (Nat × Nat)) (tag : List (Nat × Bool)) (target : Nat) : Engine :=
  { e with acc := acc, tag := tag, fifo := e.fifo ++ e.cur.fifoW.map (markOvf e.cur.ovf), openC := e.cur.orec,
           task := e.task.map (fun d => { d with entry := target, carry := e.cur.carry }) }

/-- Steps 1 to 5 of a commit change the engine, its mirror and XCNT (R177). -/
theorem commitSteps_shown (s : State) (p target : Nat) : ∃ eng mirror mirTag mirCtl acc tag,
    s.commitSteps p target = { s.addWrap (ENG_XCNT_XCNT p) (s.engOf p).cur.xpub with
      hand := { s.hand with eng := eng, mirror := mirror, mirTag := mirTag, mirCtl := mirCtl } } ∧
    (s.commitSteps p target).engOf p = committed (s.engOf p) acc tag target ∧
    (∀ q : Nat, q ≠ p → (s.commitSteps p target).engOf q = s.engOf q) ∧
    acc = ((commitWords s p (s.engOf p) (s.engOf p).cur (s.engOf p).cur.workWords).engOf p).acc := by
  obtain ⟨hstate, hown, hothers⟩ := commitWords_frame s p (s.engOf p) (s.engOf p).cur (s.engOf p).cur.workWords
  have hsteps : ∀ u, u = commitWords s p (s.engOf p) (s.engOf p).cur (s.engOf p).cur.workWords →
      s.commitSteps p target = ((u.addWrap (ENG_XCNT_XCNT p) (s.engOf p).cur.xpub).setEng p
        { u.engOf p with
          fifo := (u.engOf p).fifo ++ (s.engOf p).cur.fifoW.map (markOvf (s.engOf p).cur.ovf), openC := (s.engOf p).cur.orec,
          task := (u.engOf p).task.map (fun d => { d with entry := target, carry := (s.engOf p).cur.carry }) }).putMirrorCtl p :=
    fun u hu => by subst hu; rfl
  rw [hsteps _ rfl]
  generalize commitWords s p (s.engOf p) (s.engOf p).cur (s.engOf p).cur.workWords = u at hstate hown hothers ⊢
  obtain ⟨eng, mirror, mirTag, hu⟩ : ∃ eng mirror mirTag,
      u = { s with hand := { s.hand with eng := eng, mirror := mirror, mirTag := mirTag } } := ⟨_, _, _, hstate⟩
  obtain ⟨acc, hacc⟩ : ∃ acc, acc = (u.engOf p).acc := ⟨_, rfl⟩
  obtain ⟨tag, htag⟩ : ∃ tag, tag = (u.engOf p).tag := ⟨_, rfl⟩
  rw [← hacc, ← htag] at hown
  clear hstate
  subst hu
  refine ⟨_, _, _, _, acc, tag, rfl, ?_, fun q hq => ?_, hacc⟩
  · refine (engOf_setEng ..).trans ((if_pos rfl).trans ?_)
    rw [hown]
    rfl
  · exact (engOf_setEng ..).trans ((if_neg hq).trans (hothers q hq))

/-- Where no GROUP combines a product, settling what a member owes changes nothing (R192). -/
theorem settleWith_uncombined {s : State} {ready : State → Nat → Nat → Nat → State} (l : Nat) (d : Descriptor) (produced : Nat → Bool)
    (h : ∀ x ∈ s.img.products, s.combiners x.number = []) : s.settleWith ready l d produced = s := by
  unfold State.settleWith
  have hall : ∀ x ∈ s.img.products.filter (fun x => decide (x.prog = d.prog)), s.combiners x.number = [] :=
    fun x hx => h x (List.mem_of_mem_filter hx)
  generalize s.img.products.filter (fun x => decide (x.prog = d.prog)) = products at hall ⊢
  induction products with
  | nil => rfl
  | cons x products ih =>
    rw [List.foldl_cons, hall x (by simp), List.foldl_nil, ite_self]
    exact ih fun y hy => hall y (List.mem_cons_of_mem _ hy)

/-- Where the ring has room, a DEAL task whose time has come enters it, and nothing else changes (R172). -/
theorem dealReadyN_room {s : State} {fuel l prog deal : Nat} (h : (s.leafOf l).ring.length < 1024) :
    ∃ leaf, State.dealReadyN fuel s l prog deal = { s with hand := { s.hand with leaf := leaf } } := by
  cases fuel with
  | zero => exact ⟨_, rfl⟩
  | succ fuel =>
    unfold State.dealReadyN
    split
    · exact ⟨_, rfl⟩
    · simp only
      split
      · exact ⟨_, rfl⟩
      · exact ⟨_, rfl⟩

/-- Where the ring has room and no GROUP combines a product, the end of a task is noted in its leaf alone (R172). -/
theorem taskOver_room {s : State} {l : Nat} (d : Descriptor) (produced : Nat → Bool) (hroom : (s.leafOf l).ring.length < 1024)
    (hplain : ∀ x ∈ s.img.products, s.combiners x.number = []) :
    ∃ leaf, s.taskOver l d produced = { s with hand := { s.hand with leaf := leaf } } := by
  unfold State.taskOver
  split
  · exact ⟨_, settleWith_uncombined _ _ _ hplain⟩
  · obtain ⟨leaf, hleaf⟩ := dealReadyN_room (fuel := 1024) (prog := d.prog) (deal := d.deal)
      (s := s.setLeaf l { s.leafOf l with ended := ((s.leafOf l).ended.filter (fun e => !(decide (e.1 = d.prog) && decide (e.2.1 = d.deal)))) ++
        [(d.prog, d.deal, (((s.leafOf l).ended.find? (fun e => decide (e.1 = d.prog) && decide (e.2.1 = d.deal))).map (fun e => e.2.2)).getD 0 + 1)] })
      (l := l) (by simpa using hroom)
    exact ⟨leaf, hleaf⟩

/-- An engine that issues has a task. -/
theorem task_of_issuesOp {s : State} {p : Nat} {op : SlotOp} (h : s.issuesOp p op = true) : ∃ d, (s.engOf p).task = some d := by
  simp only [State.issuesOp, State.issues, Bool.and_eq_true, Option.isSome_iff_exists] at h
  exact h.1.1.1.2

/-- A COMMIT with END outside a loop and with no record open, in a routine that is no library program's, goes through its six
steps. -/
theorem commit_ends {s : State} {p : Nat} {goes : BitVec 14} {up : Upset} (hi : s.issuesOp p (.seq (.commit true goes)) = true)
    (hlib : s.libraryRoutine p = .none) (hloops : (s.engOf p).cur.loops = []) (hrec : (s.engOf p).cur.orec = none) :
    s.commit p true goes up = s.commitWith p true (s.engOf p).taskEntry up := by
  simp [State.commit, hi, hlib, hloops, hrec]

/-- An engine whose task has ended is IDLE, and its mirror record says so (R158, R196). -/
def idled (s : State) (p : Nat) : State :=
  ((s.setEng p { s.engOf p with task := none, stall := none, consec := 0 }).setFld (ENG_STAT_STATE p) esIdle).putMirrorCtl p

/-- A field that is not the engine's STATE. -/
theorem idled_fld (s : State) (p : Nat) {f : Field} (h : f.addr ≠ (ENG_STAT_STATE p).addr) : (idled s p).fld f = s.fld f :=
  fld_setFld_addr (s.setEng p _) esIdle h

/-- The end of a task idles its engine and is counted (R177). -/
theorem endTask_eq {s : State} {p : Nat} {d : Descriptor} (h : (s.engOf p).task = some d) :
    s.endTask p = (idled s p).taskOver (s.logicalOf p) d ((s.engOf p).produced d.prog d.deal) := by
  have hl : (idled s p).logicalOf p = s.logicalOf p := idled_fld s p (by simp [ENG_ID_LOGICAL, ENG_STAT_STATE])
  unfold State.endTask
  simp only [h]
  rw [← hl]
  rfl

/-- The state that the end of a routine's task counts from: what the commit made lasting, and the engine with the V registers and
the data SRAM of the routine (R177, R178). -/
def committedEnd (s : State) (p target : Nat) : State :=
  let u := (s.flushSticky p).commitSteps p target
  u.setEng p { u.engOf p with pre := keptCore (u.engOf p).cur, cur := keptCore (u.engOf p).cur }

/-- What the commit leaves of the device, beside its engine and the mirror. -/
theorem committedEnd_shown (s : State) (p target : Nat) : ∃ acc tag,
    (committedEnd s p target).engOf p = { committed (s.engOf p) acc tag target with
      pre := keptCore (s.engOf p).cur, cur := keptCore (s.engOf p).cur } ∧
    (committedEnd s p target).fld (ENG_XCNT_XCNT p) = (s.fld (ENG_XCNT_XCNT p) + (s.engOf p).cur.xpub) % 65536 ∧
    (committedEnd s p target).logicalOf p = s.logicalOf p ∧ (committedEnd s p target).img = s.img ∧
    (committedEnd s p target).hand.leaf = s.hand.leaf := by
  obtain ⟨eng, mirror, mirTag, mirCtl, acc, tag, hsteps, hown, -, -⟩ := commitSteps_shown (s.flushSticky p) p target
  have hx : (s.flushSticky p).fld (ENG_XCNT_XCNT p) = s.fld (ENG_XCNT_XCNT p) := fld_setReg_ne _ _ _ (by simp [ENG_XCNT_XCNT, ENG_STAT])
  have hl : (s.flushSticky p).logicalOf p = s.logicalOf p := fld_setReg_ne _ _ _ (by simp [ENG_ID_LOGICAL, ENG_STAT])
  unfold committedEnd
  generalize (s.flushSticky p).commitSteps p target = u at hsteps hown ⊢
  refine ⟨acc, tag, ?_, ?_, ?_, ?_, ?_⟩
  · simp only [engOf_setEng, if_true, hown]
    rfl
  · subst hsteps
    refine (fld_setFld_eq (s.flushSticky p) (ENG_XCNT_XCNT p) _ (by simp [ENG_XCNT_XCNT])).trans ?_
    rw [hx]
    exact Nat.mod_mod _ _
  · subst hsteps
    exact (fld_setFld_addr (s.flushSticky p) _ (by simp [ENG_ID_LOGICAL, ENG_XCNT_XCNT])).trans hl
  · rw [hsteps]
    rfl
  · rw [hsteps]
    rfl

/-- STATE of an engine whose task has ended. -/
theorem idled_state (s : State) (p : Nat) : (idled s p).fld (ENG_STAT_STATE p) = esIdle :=
  fld_setFld_eq (s.setEng p _) (ENG_STAT_STATE p) esIdle (by simp [ENG_STAT_STATE])

/-- An engine whose task has ended. -/
theorem idled_engOf (s : State) (p : Nat) :
    (idled s p).engOf p = { s.engOf p with task := none, stall := none, consec := 0 } :=
  (engOf_setEng ..).trans (if_pos rfl)

/-- A COMMIT with END is its lasting work, then the end of the task. -/
theorem commitWith_ends {s : State} {p target : Nat} {up : Upset} :
    s.commitWith p true target up = (committedEnd s p target).endTask p := rfl

/-- A field of an engine's registers other than XCNT after the accounting of a task. -/
theorem Accounts.engFld {s t : State} (h : Accounts s t) {p : Nat} : t.fld (ENG_STAT_STATE p) = s.fld (ENG_STAT_STATE p) :=
  h.fld (fun q => by simp [ENG_STAT_STATE, ENG_XCNT_XCNT]; omega) (by simp [ENG_STAT_STATE, HAND_LOG_COUNT_COUNT]; omega)
    (by simp [ENG_STAT_STATE, HAND_STAT_LOG_ATTN]; omega)

/-- A register above the host's, but for that of the supplies, is quiet. -/
theorem quiet_high {f : Field} (h : 0x100000 ≤ f.addr) (hv : f.addr ≠ VREG_STAT_ALERT.addr) : quiet f = true := by
  have hne : ∀ a : Nat, a < 0x100000 → f.addr ≠ a := fun a ha => by omega
  simp [quiet, hne _ (show HOST_INT_REQ_REQ.addr < 0x100000 by decide), hne _ (show HOST_INT_PEND_PEND.addr < 0x100000 by decide),
    hne _ (show SUP_STAT_FAULT.addr < 0x100000 by decide), hne _ (show HOST_STAT_FAULT.addr < 0x100000 by decide), hv]

/-- A register of an engine is quiet. -/
theorem quiet_eng {f : Field} (h : 0x1000000 ≤ f.addr) : quiet f = true :=
  quiet_high (by omega) (by rw [show VREG_STAT_ALERT.addr = 0x120000 from rfl]; omega)

/-- A COMMIT with END ends the task: the engine is IDLE, and keeps its V registers and its data SRAM. Where the ring has room and no
GROUP combines a product, XCNT and the FIFO are what the commit made of them. -/
theorem commit_end {s : State} {p : Fin 1088} {target : BitVec 14} {up : Upset}
    (hi : s.issuesOp p (.seq (.commit true target)) = true) (hlib : s.libraryRoutine p = .none)
    (hloops : (s.engOf p).cur.loops = []) (hrec : (s.engOf p).cur.orec = none) :
    ∃ t : State, exec (.commit p true target up) s = .next t ∧ (t.engOf p).task = none ∧ t.fld (ENG_STAT_STATE p) = esIdle ∧
      (t.engOf p).cur.v = (s.engOf p).cur.v ∧ (t.engOf p).cur.sram = (s.engOf p).cur.sram ∧
      ((s.leafOf (s.logicalOf p)).ring.length < 1024 → (∀ x ∈ s.img.products, s.combiners x.number = []) →
        t.fld (ENG_XCNT_XCNT p) = (s.fld (ENG_XCNT_XCNT p) + (s.engOf p).cur.xpub) % 65536 ∧
        (t.engOf p).fifo = (s.engOf p).fifo ++ (s.engOf p).cur.fifoW.map (markOvf (s.engOf p).cur.ovf)) := by
  obtain ⟨d, hd⟩ := task_of_issuesOp hi
  obtain ⟨acc, tag, heng, hxcnt, hl, himg, hleaf⟩ := committedEnd_shown s p (s.engOf p).taskEntry
  obtain ⟨d', hd'⟩ : ∃ d', ((committedEnd s p (s.engOf p).taskEntry).engOf p).task = some d' := by
    rw [heng, committed, hd]
    exact ⟨_, rfl⟩
  have hexec : exec (.commit p true target up) s = Machine.done (s.commit p true target up) := rfl
  rw [commit_ends hi hlib hloops hrec, commitWith_ends, endTask_eq hd'] at hexec
  generalize committedEnd s p (s.engOf p).taskEntry = v at heng hxcnt hl himg hleaf hexec
  generalize (v.engOf p).produced d'.prog d'.deal = produced at hexec
  have hcounted := (Accounts.refl (idled v p)).taskOver (v.logicalOf p) d' produced
  obtain ⟨hnone, hv, hsram⟩ := hcounted.2 p
  rw [idled_engOf, heng] at hnone hv hsram
  refine ⟨_, hexec, ?_⟩
  rw [settle_engOf, settle_fld _ _ (quiet_eng (by simp [ENG_STAT_STATE]; omega)),
    settle_fld _ _ (quiet_eng (by simp [ENG_XCNT_XCNT]; omega))]
  refine ⟨hnone, hcounted.engFld.trans (idled_state v p), hv, hsram, fun hroom hplain => ?_⟩
  have hplain' : ∀ x ∈ (idled v p).img.products, (idled v p).combiners x.number = [] := by
    rw [show (idled v p).img = s.img from himg]
    intro x hx
    rw [← hplain x hx, State.combiners, State.combiners, show (idled v p).img = s.img from himg]
  obtain ⟨leaf, hover⟩ := taskOver_room (s := idled v p) (l := v.logicalOf p) d' produced
    (by rw [hl, State.leafOf, show (idled v p).hand.leaf = s.hand.leaf from hleaf]; exact hroom) hplain'
  rw [hover]
  exact ⟨(idled_fld v p (by simp [ENG_XCNT_XCNT, ENG_STAT_STATE])).trans hxcnt,
    (congrArg Engine.fifo (idled_engOf v p)).trans (by rw [heng]; rfl)⟩

/-- A COMMIT that goes on, outside a loop and to a target ahead in the same region, in a routine that is no library program's. -/
theorem commit_continues {s : State} {p : Nat} {target : BitVec 14} {up : Upset}
    (hi : s.issuesOp p (.seq (.commit false target)) = true) (hlib : s.libraryRoutine p = .none)
    (hloops : (s.engOf p).cur.loops = []) (hahead : (s.engOf p).cur.pc < target.toNat) (hend : target.toNat ≠ 0x3FFF)
    (hregion : (s.engOf p).sameRegion target.toNat = true) :
    s.commit p false target up = s.commitWith p false target.toNat up := by
  simp [State.commit, hi, hlib, hloops, hend, hregion, Nat.not_le.mpr hahead]

/-- The engine that goes on after a commit: the task's next routine at its entry, its first microword fetched (R173, R177). -/
def continued (e : Engine) (acc : List (Nat × Nat)) (tag : List (Nat × Bool)) (d : Descriptor) (ops : List SlotOp) : Engine :=
  let core := { entryCore e.cur d e.cur.orec with todo := ops }
  { committed e acc tag d.entry with pre := core, cur := core, task := some d, stall := none, halted := false, await := none }

/-- A COMMIT that goes on makes the routine's work lasting and enters the task's next routine, whose first word is whole and
legal (R177). -/
theorem commitWith_continues {s : State} {p target : Nat} {d : Descriptor} (hd : (s.engOf p).task = some d)
    (hparity : parityGood (s.storeWord (clusterOf p) target) = true) (hlegal : wordIllegal (s.storeWord (clusterOf p) target) = false) :
    ∃ eng mirror mirTag mirCtl acc tag,
      s.commitWith p false target .clean = ({ (s.flushSticky p).addWrap (ENG_XCNT_XCNT p) (s.engOf p).cur.xpub with
          hand := { s.hand with eng := eng, mirror := mirror, mirTag := mirTag, mirCtl := mirCtl } } : State).setEng p
        (continued (s.engOf p) acc tag { d with entry := target, carry := (s.engOf p).cur.carry }
          (wordOps (s.storeWord (clusterOf p) target))) ∧
      (∀ q : Nat, q ≠ p → instGet Engine.reset eng q = s.engOf q) ∧
      acc = ((commitWords (s.flushSticky p) p (s.engOf p) (s.engOf p).cur (s.engOf p).cur.workWords).engOf p).acc := by
  obtain ⟨eng, mirror, mirTag, mirCtl, acc, tag, hsteps, hown, hothers, hacc⟩ := commitSteps_shown (s.flushSticky p) p target
  have hown' : ((s.flushSticky p).commitSteps p target).engOf p = committed (s.engOf p) acc tag target := hown
  have htask : (committed (s.engOf p) acc tag target).task = some { d with entry := target, carry := (s.engOf p).cur.carry } := by
    rw [committed, hd]
    rfl
  have hwith : s.commitWith p false target .clean =
      (((s.flushSticky p).commitSteps p target).setEng p
        (({ committed (s.engOf p) acc tag target with pre := (s.engOf p).cur } : Engine).enter
          { d with entry := target, carry := (s.engOf p).cur.carry })).fetch p .clean := by
    simp only [State.commitWith, hown', htask, Bool.false_eq_true, if_false]
    rfl
  have hword : ∀ e : Engine, (((s.flushSticky p).commitSteps p target).setEng p e).storeWord (clusterOf p) target =
      s.storeWord (clusterOf p) target := fun e => by
    rw [hsteps]
    rfl
  have hpc : ∀ u : State, ((u.setEng p (({ committed (s.engOf p) acc tag target with pre := (s.engOf p).cur } : Engine).enter
      { d with entry := target, carry := (s.engOf p).cur.carry })).engOf p).pre.pc = target := fun u => by
    rw [engOf_setEng, if_pos rfl]
    rfl
  rw [hwith, fetch_clean (by rw [hpc, hword]; exact hparity) (by rw [hpc, hword]; exact hlegal), hpc, hword, engOf_setEng, if_pos rfl,
    hsteps]
  refine ⟨_, mirror, mirTag, mirCtl, acc, tag, rfl, fun q hq => ?_, hacc⟩
  rw [hsteps] at hothers
  exact (engOf_setEng ..).trans ((if_neg hq).trans (hothers q hq))

/-- A COMMIT that goes on: the engine's work is lasting, and the task's next routine has begun. -/
theorem Runs.commitContinues {s : State} {p : Fin 1088} {target : BitVec 14} {d : Descriptor}
    (hi : s.issuesOp p (.seq (.commit false target)) = true) (hlib : s.libraryRoutine p = .none) (hloops : (s.engOf p).cur.loops = [])
    (hd : (s.engOf p).task = some d) (hahead : (s.engOf p).cur.pc < target.toNat) (hend : target.toNat ≠ 0x3FFF)
    (hregion : (s.engOf p).sameRegion target.toNat = true)
    (hclean : parityGood (s.storeWord (clusterOf p) target.toNat) = true ∧ wordIllegal (s.storeWord (clusterOf p) target.toNat) = false)
    (hkeys : ((s.engOf p).cur.work.map (fun x => x.1)).Nodup) :
    let e := s.engOf p
    let c := e.cur
    let d' := { d with entry := target.toNat, carry := c.carry }
    Runs (.commit p false target .clean) s [wholeReg (ENG_STAT p).addr, ENG_XCNT_XCNT p]
      (fun t => { s with hand := { s.hand with
        eng := t.hand.eng, mirror := t.hand.mirror, mirTag := t.hand.mirTag, mirCtl := t.hand.mirCtl } })
      (fun t => (∀ q : Nat, q ≠ p → t.engOf q = s.engOf q) ∧
        (t.engOf p).task = some d' ∧ (t.engOf p).openC = c.orec ∧ (t.engOf p).fifo = e.fifo ++ c.fifoW.map (markOvf c.ovf) ∧
        (t.engOf p).cur = { entryCore c d' c.orec with todo := wordOps (s.storeWord (clusterOf p) target.toNat) } ∧
        (t.engOf p).pre = (t.engOf p).cur ∧
        t.fld (ENG_XCNT_XCNT p) = (s.fld (ENG_XCNT_XCNT p) + c.xpub) % 65536 ∧
        ∀ i : Nat, instGet 0 (t.engOf p).acc i = (match instGet none c.work i with
          | some w => w.value
          | none => instGet 0 e.acc i)) := by
  intro e c d'
  obtain ⟨eng, mirror, mirTag, mirCtl, acc, tag, hstate, hothers, hacc⟩ := commitWith_continues hd hclean.1 hclean.2
  have hexec : exec (.commit p false target .clean) s = Machine.done (s.commit p false target .clean) := rfl
  rw [commit_continues hi hlib hloops hahead hend hregion, hstate] at hexec
  have hx : (s.flushSticky p).fld (ENG_XCNT_XCNT p) = s.fld (ENG_XCNT_XCNT p) := fld_setReg_ne _ _ _ (by simp [ENG_XCNT_XCNT, ENG_STAT])
  refine Runs.done hexec ⟨fun q hq => ?_, ?_⟩ ?_ ?_ ?_
  · rw [settle_engOf, engOf_setEng, if_neg hq]
    exact hothers q hq
  · rw [settle_engOf, engOf_setEng, if_pos rfl, settle_fld _ _ (quiet_eng (by simp [ENG_XCNT_XCNT]; omega))]
    refine ⟨rfl, rfl, rfl, rfl, rfl, ?_, fun i => ?_⟩
    · refine (fld_setFld_eq (s.flushSticky p) (ENG_XCNT_XCNT p) _ (by simp [ENG_XCNT_XCNT])).trans ?_
      rw [hx]
      exact Nat.mod_mod _ _
    · exact (congrArg (fun m => instGet 0 m i) hacc).trans (commitWords_layer hkeys i)
  · exact (((KeepsFields.refl _ s).setReg _ _ (by simp)).setFld _ _ (by simp)).of_regs rfl
  · simp only [settle_hand]
    rfl
  · rw [List.append_nil]
    rfl

/-- Settles O23: the four ways to the next microword by what their operation makes of pc and loops, then the two forms of COMMIT. -/
theorem sequencingAndCommitFollowTheirRules : Obligations.SequencingAndCommitFollowTheirRules := by
  intro s p e c cost word' clean same goes held
  refine ⟨fun hcc => ⟨Runs.sequences rfl hcc rfl, fun count stop hdepth hahead hsame hinner => ?_, fun target hahead hsame => ⟨?_, fun cond hcond => ?_⟩,
    fun cond target hcond hsame => ?_⟩, fun target up hi hlib hloops hrec => commit_end hi hlib hloops hrec,
    fun target d hi hlib hloops hd hahead hend hsame hclean hkeys =>
      Runs.commitContinues hi hlib hloops hd hahead hend (sameRegion_iff hsame) hclean hkeys⟩
  · exact Runs.sequences rfl hcc (seqRepeat_ok hdepth hahead (sameRegion_iff hsame) hinner)
  · exact Runs.sequences rfl hcc (seqJump_ok hahead (sameRegion_iff hsame))
  · exact Runs.sequences rfl hcc ((seqBr_taken hcond).trans (seqJump_ok hahead (sameRegion_iff hsame)))
  · exact Runs.sequences rfl hcc (seqBr_passed hcond (sameRegion_iff hsame))

end Sys2Proof
end

section
/-! PROOFS. The statement of 05_engine_datapath.md on program faults (O24). -/

namespace Sys2Proof

open Sys2Proof.Machine

/-! ### A program fault in a routine whose sticky bits reach STATE -/

/-- A dropped task leaves STATE of an engine that is not in RUN. -/
theorem dropTask_state {s : State} {p : Nat} (h : s.engState p ≠ esRun) :
    (s.dropTask p).fld (ENG_STAT_STATE p) = s.fld (ENG_STAT_STATE p) := by
  unfold State.dropTask
  cases htask : (s.engOf p).task with
  | none => simp only [htask]
  | some d =>
    simp only [htask]
    generalize hu : State.setFld _ (ENG_XCNT_XCNT p) _ = u
    have hstate : u.fld (ENG_STAT_STATE p) = s.fld (ENG_STAT_STATE p) := by
      rw [← hu]
      exact (Accounts.setXcnt _ _ (Accounts.degradeHand _ _ (.refl s))).engFld
    have hrun : ∀ e : Engine, (u.setEng p e).engState p ≠ esRun := fun e => by
      change u.fld (ENG_STAT_STATE p) ≠ esRun
      rw [hstate]
      exact h
    rw [if_neg (hrun _), (Accounts.taskOver _ _ _ (Accounts.putMirrorCtl _ (.refl _))).engFld, ← hstate]
    rfl

/-- A program fault leaves STATE of an engine that is not in RUN. -/
theorem programFault_state {s : State} {p code : Nat} (h : s.engState p ≠ esRun) :
    (s.programFault p code).fld (ENG_STAT_STATE p) = s.fld (ENG_STAT_STATE p) := by
  have hput : ∀ pc : Nat, ((s.putFault p code pc).setFld (ENG_STAT_PROG_FAULT p) 1).fld (ENG_STAT_STATE p) =
      s.fld (ENG_STAT_STATE p) := by
    intro pc
    rw [fld_setFld_ne _ _ (.inr (.inl (Nat.le_of_ble_eq_true rfl))), State.putFault, fld_setFld_addr, fld_setFld_addr] <;>
      simp [ENG_STAT_STATE, ENG_FAULT_CODE, ENG_FAULT_PC]
  have hdrop : _ := dropTask_state (p := p) (s := (s.putFault p code (s.engOf p).pre.pc).setFld (ENG_STAT_PROG_FAULT p) 1)
    (by rw [State.engState, hput]; exact h)
  exact (Accounts.logEvent _ _ _ (.refl _)).engFld.trans (hdrop.trans (hput _))

/-- A core at the end of a microword, with a sticky bit noted that lies in the field STATE of ENGp_STAT. -/
def coreWithStrayBit : EngCore := { EngCore.reset with todo := [.seq .next], sticky := 2 ^ 28 }

/-- A task of the routine at word 0. -/
def taskAtZero : Descriptor :=
  { entry := 0, isDeal := false, prog := 0, first := false, last := false, face := 0, frame := 0, deal := 0, inBase := 0, inLen := 0,
    xs := 0, carry := 0, param := [] }

/-- The state after reset, but that engine 0 runs that core, and word 1 of the control store is illegal: it has reserved bits set,
two of them, so that its parity is good. -/
def stateWithStrayBit : State :=
  { State.reset with
    regs := [((ENG_STAT 0).addr, 0x20000000)]
    hand := { State.reset.hand with
      cstore := [(1, 3)]
      eng := [(0, { Engine.reset with pre := coreWithStrayBit, cur := coreWithStrayBit, task := some taskAtZero })] } }

/-- Its engine's microword has all but its sequencing issued. -/
theorem stateWithStrayBit_issues : stateWithStrayBit.issuesOp 0 (.seq .next) = true := by decide

/-- What the microword's sticky bits leave in STATE is 3, no state of an engine that a dropped task changes. -/
theorem stateWithStrayBit_state (e : Engine) : ((stateWithStrayBit.flushSticky 0).setEng 0 e).engState 0 = 3 := by
  have hflush : (stateWithStrayBit.flushSticky 0).engState 0 = 3 := by decide
  exact hflush

/-- A program fault there leaves STATE at 3. -/
theorem stateWithStrayBit_fault (e : Engine) (code : Nat) :
    (((stateWithStrayBit.flushSticky 0).setEng 0 e).programFault 0 code).settle.fld (ENG_STAT_STATE 0) = 3 := by
  have hrun : ((stateWithStrayBit.flushSticky 0).setEng 0 e).engState 0 ≠ esRun := by
    rw [stateWithStrayBit_state]
    decide
  rw [settle_fld _ _ (quiet_eng (by decide)), programFault_state hrun]
  exact stateWithStrayBit_state e

/-- Refutes O24: the last microword of an engine in RUN raises a sticky bit that is a bit of STATE, so that STATE is 3, and the illegal
microword after it drops the task of an engine that is no longer in RUN, whose STATE does not become IDLE. -/
theorem not_ruleBreakingMicrowordsRaiseProgramFaults : ¬ Obligations.RuleBreakingMicrowordsRaiseProgramFaults := by
  intro h
  obtain ⟨⟨-, -, -, hillegal, -⟩, -⟩ := h stateWithStrayBit 0
  obtain ⟨t, ht, -, -, -, -, hidle, -⟩ := hillegal stateWithStrayBit_issues (by decide) (by decide) (by decide)
  have hexec : exec (.nextWord 0 .clean) stateWithStrayBit =
      Machine.done (stateWithStrayBit.endWord 0 .next .clean seqNext) := rfl
  rw [hexec, endWord_goes stateWithStrayBit_issues (by decide) rfl, fetch_illegal (by decide) (by decide)] at ht
  obtain rfl : _ = t := Host.Outcome.next.inj ht
  exact absurd ((stateWithStrayBit_fault _ _).symm.trans hidle) (by decide)

end Sys2Proof
end

section
/-! PROOFS. The statement of 05_engine_datapath.md on the start, the restart and the draining of tasks (O25). -/

namespace Sys2Proof

open Sys2Proof.Machine

/-! ### A task starts (R127, R171, R173) -/

/-- The engine at the entry of a task's routine, its first microword fetched. -/
def atEntry (s : State) (p : Nat) (e : Engine) (d : Descriptor) : Engine :=
  let c := { entryCore e.pre d e.openC with todo := wordOps (s.storeWord (clusterOf p) d.entry) }
  { e.enter d with pre := c, cur := c }

/-- An engine at the entry of a routine whose first microword's copy is whole and legal fetches it. -/
theorem fetch_entry {s u : State} {p : Nat} {e e' : Engine} {d : Descriptor} (hword : u.storeWord (clusterOf p) = s.storeWord (clusterOf p))
    (hclean : parityGood (s.storeWord (clusterOf p) d.entry) = true ∧ wordIllegal (s.storeWord (clusterOf p) d.entry) = false)
    (he : u.engOf p = e') (hpre : e'.pre = entryCore e.pre d e.openC) (hcur : e'.cur = e'.pre) :
    u.fetch p .clean = u.setEng p { e' with
      pre := (atEntry s p e d).pre, cur := (atEntry s p e d).pre } := by
  subst he
  have hpc : (u.engOf p).pre.pc = d.entry := by rw [hpre]; rfl
  rw [fetch_clean (by rw [hpc, hword]; exact hclean.1) (by rw [hpc, hword]; exact hclean.2), hcur, hpc, hword, hpre]
  rfl

/-- The state in which an engine has taken a descriptor of its leaf's ring. -/
def dispatched (s : State) (p : Nat) (d : Descriptor) : State :=
  let x := s.leafOf (s.logicalOf p)
  let xc := s.fld (ENG_XCNT_XCNT p)
  let u := s.setLeaf (s.logicalOf p) { x with ring := x.ring.erase d, taken := x.taken + 1 }
  let u := (u.setPair (ENG_IN_BASE p) (ofSigned 64 d.inBase)).setFld (ENG_IN_LEN_LEN p) d.inLen
  let u := u.setEng p { (s.engOf p).enter { d with xs := xc } with xstart := xc, consec := 0 }
  (u.setFld (ENG_STAT_STATE p) esRun).putMirrorCtl p

/-- An engine that serves takes the first descriptor that is not held. -/
theorem dispatch_starts {s : State} {p : Nat} {d : Descriptor}
    (hserves : s.engState p = esIdle ∧ s.flag (ENG_ID_ACTIVE p) = true ∧ (s.engOf p).task = none ∧
      s.flag (HAND_MAP_PENDING (s.logicalOf p)) = false)
    (hfind : (s.leafOf (s.logicalOf p)).ring.find? (fun d => !s.heldTask (s.logicalOf p) d) = some d) (hentry : d.entry ≠ 0x3FFF)
    (up : Upset) : s.dispatch p up = (dispatched s p d).fetch p up := by
  obtain ⟨hidle, hactive, htask, hpending⟩ := hserves
  simp only [State.dispatch, hidle, hactive, htask, hpending, hfind, hentry, dispatched]
  simp

/-- An engine that does not serve, or for which no descriptor is ready, takes none. -/
theorem dispatch_still {s : State} {p : Nat}
    (h : ¬ (s.engState p = esIdle ∧ s.flag (ENG_ID_ACTIVE p) = true ∧ (s.engOf p).task = none ∧
      s.flag (HAND_MAP_PENDING (s.logicalOf p)) = false) ∨
      (s.leafOf (s.logicalOf p)).ring.find? (fun d => !s.heldTask (s.logicalOf p) d) = none)
    (up : Upset) : s.dispatch p up = s := by
  unfold State.dispatch
  simp only
  split
  · rfl
  · next hserves =>
    rcases h with h | h
    · exact absurd (by simpa [not_or] using hserves) h
    · rw [h]

/-- The engine that takes a descriptor is at its entry; no other engine changes. -/
theorem dispatched_engOf (s : State) (p q : Nat) (d : Descriptor) : (dispatched s p d).engOf q =
    if q = p then { (s.engOf p).enter { d with xs := s.fld (ENG_XCNT_XCNT p) } with xstart := s.fld (ENG_XCNT_XCNT p), consec := 0 }
    else s.engOf q := by
  simp [State.engOf, dispatched, State.putMirrorCtl, State.setEng, State.setLeaf]

/-- The descriptor has left its leaf's ring. -/
theorem dispatched_leafOf (s : State) (p k : Nat) (d : Descriptor) : (dispatched s p d).leafOf k =
    if k = s.logicalOf p then
      { s.leafOf (s.logicalOf p) with
        ring := (s.leafOf (s.logicalOf p)).ring.erase d, taken := (s.leafOf (s.logicalOf p)).taken + 1 }
    else s.leafOf k := by
  simp [State.leafOf, dispatched, State.putMirrorCtl, State.setEng, State.setLeaf]

/-- The registers after taking a descriptor. -/
theorem dispatched_regs (s : State) (p : Nat) (d : Descriptor) : (dispatched s p d).regs =
    (((s.setPair (ENG_IN_BASE p) (ofSigned 64 d.inBase)).setFld (ENG_IN_LEN_LEN p) d.inLen).setFld (ENG_STAT_STATE p) esRun).regs := by
  simp [dispatched, State.putMirrorCtl, State.setEng, State.setLeaf, State.setFld, State.setPair, State.setReg, State.reg]

/-- What taking a descriptor leaves. -/
theorem dispatched_parts (s : State) (p : Nat) (d : Descriptor) : ∃ regs eng leaf mirCtl, dispatched s p d =
    { s with regs := regs, hand := { s.hand with eng := eng, leaf := leaf, mirCtl := mirCtl } } := by
  refine ⟨(dispatched s p d).regs, (dispatched s p d).hand.eng, (dispatched s p d).hand.leaf, (dispatched s p d).hand.mirCtl, ?_⟩
  simp [dispatched, State.putMirrorCtl, State.setEng, State.setLeaf, State.setFld, State.setPair, State.setReg]

/-- What taking a descriptor writes in the registers. -/
theorem dispatched_keeps (s : State) (p : Nat) (d : Descriptor) :
    KeepsFields (ENG_STAT_STATE p :: ENG_IN_LEN_LEN p :: pairFields (ENG_IN_BASE p)) s (dispatched s p d) := by
  have hpair := KeepsFields.setPair (w := ENG_STAT_STATE p :: ENG_IN_LEN_LEN p :: pairFields (ENG_IN_BASE p))
    (ENG_IN_BASE p) (ofSigned 64 d.inBase) (.refl _ s) (by simp [pairFields, wholeReg]) (by simp [pairFields, wholeReg])
  exact ((hpair.setFld (ENG_IN_LEN_LEN p) d.inLen (by simp)).setFld (ENG_STAT_STATE p) esRun (by simp)).of_regs
    (dispatched_regs s p d)

/-- The registers of an engine that has taken a descriptor. -/
theorem dispatched_shows (s : State) (p : Nat) (d : Descriptor) :
    (dispatched s p d).fld (ENG_STAT_STATE p) = esRun ∧ (dispatched s p d).pair (ENG_IN_BASE p) = ofSigned 64 d.inBase ∧
      (dispatched s p d).fld (ENG_IN_LEN_LEN p) = d.inLen % 2 ^ 15 := by
  generalize hu : s.setPair (ENG_IN_BASE p) (ofSigned 64 d.inBase) = u
  have hreg : ∀ a : Nat, (dispatched s p d).reg a = ((u.setFld (ENG_IN_LEN_LEN p) d.inLen).setFld (ENG_STAT_STATE p) esRun).reg a :=
    fun a => by simp only [State.reg, dispatched_regs, hu]
  refine ⟨?_, ?_, ?_⟩
  · rw [fld_congr (hreg _), fld_setFld_eq _ _ _ (by simp [ENG_STAT_STATE])]
    rfl
  · have hpair : (dispatched s p d).pair (ENG_IN_BASE p) = u.pair (ENG_IN_BASE p) := by
      rw [State.pair, hreg, hreg, ← State.pair, pair_setFld_ne, pair_setFld_ne] <;>
        simp only [ENG_IN_BASE, ENG_IN_LEN_LEN, ENG_STAT_STATE] <;> omega
    rw [hpair, ← hu, pair_setPair, Nat.mod_eq_of_lt (ofSigned_lt 64 _)]
  · rw [fld_congr (hreg _), fld_setFld_addr _ _ (by simp [ENG_IN_LEN_LEN, ENG_STAT_STATE]),
      fld_setFld_eq _ _ _ (by simp [ENG_IN_LEN_LEN])]
    rfl

/-- The engine that has started a task. -/
def startedEngine (s : State) (p : Nat) (d : Descriptor) : Engine :=
  { atEntry s p (s.engOf p) { d with xs := s.fld (ENG_XCNT_XCNT p) } with xstart := s.fld (ENG_XCNT_XCNT p), consec := 0 }

/-- A task that starts: what the engine, the registers and the leaf show. -/
theorem Runs.dispatchStarts {s : State} {p : Fin 1088} {d : Descriptor}
    (hserves : s.engState p = esIdle ∧ s.flag (ENG_ID_ACTIVE p) = true ∧ (s.engOf p).task = none ∧
      s.flag (HAND_MAP_PENDING (s.logicalOf p)) = false)
    (hfind : (s.leafOf (s.logicalOf p)).ring.find? (fun d => !s.heldTask (s.logicalOf p) d) = some d) (hentry : d.entry ≠ 0x3FFF)
    (hclean : parityGood (s.storeWord (clusterOf p) d.entry) = true ∧ wordIllegal (s.storeWord (clusterOf p) d.entry) = false) :
    let u := dispatched s p d
    Runs (.taskDispatch p .clean) s (ENG_STAT_STATE p :: ENG_IN_LEN_LEN p :: pairFields (ENG_IN_BASE p))
      (fun t => { s with hand := { s.hand with eng := t.hand.eng, leaf := t.hand.leaf, mirCtl := t.hand.mirCtl } })
      (fun t => t.engOf p = startedEngine s p d ∧
        (∀ q : Nat, q ≠ p → t.engOf q = s.engOf q) ∧ (∀ k : Nat, t.leafOf k = u.leafOf k) ∧
        t.fld (ENG_STAT_STATE p) = u.fld (ENG_STAT_STATE p) ∧ t.pair (ENG_IN_BASE p) = u.pair (ENG_IN_BASE p) ∧
        t.fld (ENG_IN_LEN_LEN p) = u.fld (ENG_IN_LEN_LEN p)) := by
  intro u
  have hfetch := fetch_entry (s := s) (u := u) (p := p) (e := s.engOf p) (d := { d with xs := s.fld (ENG_XCNT_XCNT p) }) rfl hclean
    ((dispatched_engOf ..).trans (if_pos rfl)) rfl rfl
  have hexec : exec (.taskDispatch p .clean) s = Machine.done (u.setEng p (startedEngine s p d)) :=
    congrArg Machine.done ((dispatch_starts hserves hfind hentry .clean).trans hfetch)
  refine Runs.done hexec ⟨?_, fun q hq => ?_, fun k => ?_, ?_, ?_, ?_⟩ ((dispatched_keeps s p d).of_regs rfl) ?_ ?_
  · rw [settle_engOf, engOf_setEng, if_pos rfl]
  · rw [settle_engOf, engOf_setEng, if_neg hq, dispatched_engOf, if_neg hq]
  · simp [State.leafOf, State.setEng]
  · rw [settle_fld _ _ (quiet_eng (by simp [ENG_STAT_STATE]; omega))]; rfl
  · have heng : 0x1000000 ≤ (ENG_IN_BASE p).addr := by simp [ENG_IN_BASE]; omega
    rw [State.pair, settle_engReg _ heng, settle_engReg _ (Nat.le_add_right_of_le heng), setEng_reg, setEng_reg, ← State.pair]
  · rw [settle_fld _ _ (quiet_eng (by simp [ENG_IN_LEN_LEN]; omega))]; rfl
  · obtain ⟨regs, eng, leaf, mirCtl, hu⟩ := dispatched_parts s p d
    rw [settle_hand]
    generalize startedEngine s p d = e
    simp only [u, hu, State.setEng]
  · obtain ⟨regs, eng, leaf, mirCtl, hu⟩ := dispatched_parts s p d
    simp [u, hu]

/-! ### An abandoned routine restarts (R173, R179) -/

/-- A state that differs from another in one engine alone, which is `e` there. -/
def OneEngine (s : State) (p : Nat) (e : Engine) (u : State) : Prop :=
  u = { s with hand := { s.hand with eng := u.hand.eng } } ∧ u.engOf p = e ∧ ∀ q : Nat, q ≠ p → u.engOf q = s.engOf q

theorem OneEngine.setEng (s : State) (p : Nat) (e : Engine) : OneEngine s p e (s.setEng p e) :=
  ⟨rfl, by simp, fun q hq => by simp [hq]⟩

/-- The same engine changes again. -/
theorem OneEngine.again {s u : State} {p : Nat} {e' : Engine} (h : OneEngine s p e' u) (e : Engine) :
    OneEngine s p e (u.setEng p e) := by
  obtain ⟨hu, -, hq⟩ := h
  exact ⟨by rw [hu]; rfl, by simp, fun q h => by simp [h, hq q h]⟩

/-- A command that changes one engine alone. -/
theorem Runs.oneEngine {c : Instr} {s u : State} {p : Nat} {e : Engine} (hc : exec c s = Machine.done u) (h : OneEngine s p e u) :
    Runs c s [] (fun t => { s with hand := { s.hand with eng := t.hand.eng } })
      (fun t => t.engOf p = e ∧ ∀ q : Nat, q ≠ p → t.engOf q = s.engOf q) := by
  obtain ⟨hu, he, hq⟩ := h
  refine Runs.done hc ⟨by simp [he], fun q h => by simp [hq q h]⟩ ((KeepsFields.refl _ s).of_regs (by rw [hu])) ?_ (by rw [hu]; simp)
  rw [settle_hand]
  rw [hu]

/-- An abandoned routine whose engine runs, and whose substitute is ready, enters its task again. -/
theorem restart_enters {s : State} {p : Nat} {d : Descriptor} (htask : (s.engOf p).task = some d) (hhalted : (s.engOf p).halted = true)
    (hrun : s.engState p = esRun) (hpending : s.flag (HAND_MAP_PENDING (s.logicalOf p)) = false)
    (hready : ∀ w : Nat, (s.engOf p).await = some w → s.flag (HAND_MAP_PENDING w) = false)
    (hclean : parityGood (s.storeWord (clusterOf p) d.entry) = true ∧ wordIllegal (s.storeWord (clusterOf p) d.entry) = false) :
    OneEngine s p (atEntry s p (s.engOf p) d) (s.restart p [] .clean) := by
  have hfetch := fetch_entry (s := s) (u := s.setEng p ((s.engOf p).enter d)) (p := p) (e := s.engOf p) (d := d) rfl hclean
    ((engOf_setEng ..).trans (if_pos rfl)) rfl rfl
  have henters : s.restart p [] .clean = (s.setEng p ((s.engOf p).enter d)).fetch p .clean := by
    cases hawait : (s.engOf p).await with
    | none => simp [State.restart, htask, hhalted, hrun, hpending, hawait]
    | some w => simp [State.restart, htask, hhalted, hrun, hpending, hawait, hready w hawait]
  rw [henters, hfetch]
  exact (OneEngine.setEng ..).again _

/-! ### A committed entry drains (R174, R175) -/

/-- No mark stands at the front of a FIFO that begins with an entry, or is empty. -/
theorem drainMarks_still {s : State} {p : Nat} (h : ∀ y : FifoItem, (s.engOf p).fifo.head? = some y → ∃ d f o, y = .entry d f o)
    (fuel : Nat) : s.drainMarks p fuel = s := by
  cases fuel with
  | zero => rfl
  | succ fuel =>
    unfold State.drainMarks
    simp only
    cases hfifo : (s.engOf p).fifo with
    | nil => rfl
    | cons y rest =>
      obtain ⟨d, f, o, rfl⟩ := h y (by rw [hfifo]; rfl)
      rfl

/-- The pot takes nothing where no record has left its hand. -/
theorem potTake_none {s : State} (h : s.hand.done = []) : s.potTake = s := by
  simp [State.potTake, h]

/-- An entry with no mark behind it leaves the FIFO, and a PUSH that waited for the room goes on. -/
theorem drainOne_entry {s : State} {p d f : Nat} {o : Bool} {rest : List FifoItem} (hfifo : (s.engOf p).fifo = .entry d f o :: rest)
    (hrest : ∀ y : FifoItem, rest.head? = some y → ∃ d' f' o', y = .entry d' f' o') :
    OneEngine s p { s.engOf p with
      fifo := rest, drain := (s.engOf p).drain.map (fun r => { r with words := r.words ++ [(d, f)], ovf := r.ovf || o }),
      stall := if (s.engOf p).stall = some .push ∧ entryCount rest + entryCount (s.engOf p).cur.fifoW ≤ 2048 then none
        else (s.engOf p).stall } (s.drainOne p) := by
  have hfront : s.drainMarks p 4096 = s := drainMarks_still (fun y hy => by
    rw [hfifo] at hy
    exact ⟨d, f, o, (Option.some.inj hy).symm⟩) _
  have hnext : ∀ e : Engine, e.fifo = rest → (s.setEng p e).drainMarks p 1 = s.setEng p e := fun e he =>
    drainMarks_still (fun y hy => hrest y (by rw [engOf_setEng, if_pos rfl, he] at hy; exact hy)) _
  unfold State.drainOne
  simp only [hfront, hfifo]
  rw [hnext _ rfl]
  simp only [engOf_setEng, if_true]
  split
  · exact (OneEngine.setEng ..).again _
  · exact .setEng ..

/-- Where the FIFO is empty and nothing waits, nothing drains. -/
theorem drainOne_empty {s : State} {p : Nat} (hfifo : (s.engOf p).fifo = []) (hstall : (s.engOf p).stall = none) :
    s.drainOne p = s := by
  have hfront : s.drainMarks p 4096 = s := drainMarks_still (by simp [hfifo]) _
  simp [State.drainOne, hfront, hfifo, hstall]

/-- Settles O25: the three commands, each by what it makes of its engine and by where it changes nothing. -/
theorem tasksStartRestartAndDrain : Obligations.TasksStartRestartAndDrain := by
  intro s p e l x word' clean serves entered
  refine ⟨fun d hserves hfind hentry hclean => ?_, fun h up => Runs.still (congrArg Machine.done (dispatch_still h up)),
    fun d htask hhalted hrun hpending hready hclean => ?_, fun hhalted bad up => ?_,
    fun d f o rest hfifo hdone hrest => ?_, fun hfifo hstall hdone => ?_⟩
  · obtain ⟨hstate, hbase, hlen⟩ := dispatched_shows s p d
    obtain ⟨t, hexec, ⟨heng, hothers, hleaf, hst, hba, hle⟩, hkeeps⟩ := Runs.dispatchStarts hserves hfind hentry hclean
    refine ⟨t, hexec, ⟨heng ▸ ⟨rfl, rfl, rfl, rfl, rfl⟩, heng ▸ rfl, hst.trans hstate, hba.trans hbase, hle.trans hlen, ?_,
      fun k hk => ?_, hothers⟩, hkeeps⟩
    · rw [hleaf, dispatched_leafOf, if_pos rfl]
    · rw [hleaf, dispatched_leafOf, if_neg hk]
  · obtain ⟨t, hexec, ⟨heng, hothers⟩, hkeeps⟩ :=
      Runs.oneEngine (c := .routineRestart p [] .clean) rfl (restart_enters htask hhalted hrun hpending hready hclean)
    exact ⟨t, hexec, ⟨heng ▸ ⟨rfl, rfl, rfl, rfl, rfl⟩, hothers⟩, hkeeps⟩
  · refine Runs.still (congrArg Machine.done ?_)
    simp [State.restart, show (s.engOf p).halted = false from hhalted]
  · have hdrain := drainOne_entry hfifo hrest
    have hnone : (s.drainOne p).hand.done = [] := by
      rw [hdrain.1]
      exact hdone
    exact Runs.oneEngine (congrArg Machine.done (potTake_none hnone)) hdrain
  · refine Runs.still (congrArg Machine.done ?_)
    rw [drainOne_empty hfifo hstall, potTake_none hdone]

end Sys2Proof
end

section
/-! PROOFS. The statement of 06_control_store_microcode.md on permanent faults and takeover (O26). -/

namespace Sys2Proof

open Sys2Proof.Machine

/-! ### The first steps of a takeover (R200) -/

/-- A field holds what its width can. -/
theorem fld_lt (s : State) (f : Field) : s.fld f < 2 ^ f.width := Nat.mod_lt _ (Nat.two_pow_pos _)

/-- A routine that is abandoned changes its engine alone. -/
theorem abandon_eq (s : State) (p : Nat) : ∃ eng, s.abandon p = { s with hand := { s.hand with eng := eng } } := by
  unfold State.abandon
  simp only
  split
  · exact ⟨s.hand.eng, rfl⟩
  · exact ⟨_, rfl⟩

/-- A field that no count and no mark of restarts is part of. -/
def NoRestart (f : Field) : Prop := ∀ q : Nat, apart f (ENG_RESTARTS_PREEMPT q) ∧ apart f (ENG_STAT_RESTART q)

/-- A pre-emption writes of the registers the engine's count and mark of restarts alone, and begins no takeover. -/
theorem preempt_frame (s : State) (p : Nat) :
    (∀ f : Field, NoRestart f → (s.preempt p).fld f = s.fld f) ∧ (s.preempt p).hand.takeover = s.hand.takeover := by
  obtain ⟨eng, habandon⟩ := abandon_eq s p
  unfold State.preempt
  simp only
  split
  · exact ⟨fun _ _ => rfl, rfl⟩
  · rw [habandon]
    exact ⟨fun f hf => by rw [fld_setFld_ne _ _ (hf p).2, addSat_eq, fld_setFld_ne _ _ (hf p).1]; rfl, rfl⟩

/-- So does a hand interrupt. -/
theorem handInterrupt_frame (s : State) (l : Nat) :
    (∀ f : Field, NoRestart f → (s.handInterrupt l).fld f = s.fld f) ∧ (s.handInterrupt l).hand.takeover = s.hand.takeover := by
  unfold State.handInterrupt
  refine List.foldlRecOn (motive := fun u : State => (∀ f : Field, NoRestart f → u.fld f = s.fld f) ∧
    u.hand.takeover = s.hand.takeover) _ _ ⟨fun _ _ => rfl, rfl⟩ fun u hu m _ => ?_
  obtain ⟨hfld, htakeover⟩ := preempt_frame u (u.fld (HAND_MAP_PHYS m))
  simp only
  split
  · exact ⟨fun f hf => (hfld f hf).trans (hu.1 f hf), htakeover.trans hu.2⟩
  · exact hu

/-- An in-field test that is abandoned writes the registers of the tests alone, and begins no takeover. -/
theorem abandonIft_frame (s : State) (p : Nat) :
    (∀ f : Field, 0x100000 ≤ f.addr → (s.abandonIft p).fld f = s.fld f) ∧ (s.abandonIft p).hand = s.hand := by
  have hne : ∀ (f g : Field), 0x100000 ≤ f.addr → g.addr < 0x100000 → f.addr ≠ g.addr := fun f g hf hg => by omega
  have hactive : ∀ (u : State) (q : Nat) (b : Bool) (f : Field), 0x100000 ≤ f.addr →
      (u.putBit TEST_IFT_STAT_ACTIVE q b).fld f = u.fld f := fun u q b f hf =>
    fld_setFld_addr _ _ (hne f _ hf (show TEST_IFT_STAT_ACTIVE.addr < 0x100000 by decide))
  unfold State.abandonIft
  simp only
  split
  · split
    · exact ⟨fun f hf => hactive _ _ _ f hf, rfl⟩
    · refine ⟨fun f hf => ?_, rfl⟩
      rw [fld_setFld_addr _ _ (hne f _ hf (by decide)), fld_setFld_addr _ _ (hne f _ hf (by decide)),
        fld_setFld_addr _ _ (hne f _ hf (by decide)), hactive _ _ _ f hf]
      rfl
  · exact ⟨fun _ _ => rfl, rfl⟩

/-- An engine that retires shows the fault and serves no more. -/
theorem retire_shows (s : State) (p : Nat) :
    (s.retire p).fld (ENG_STAT_STATE p) = esRetired ∧ (s.retire p).flag (ENG_ID_ACTIVE p) = false ∧
      (s.retire p).fld (ENG_FAULT_CODE p) = 0x20 ∧ (s.retire p).hand.takeover = s.hand.takeover := by
  obtain ⟨eng, habandon⟩ := abandon_eq s p
  have hcluster : ∀ (u : State) (f : Field), f.addr = (ENG_ID_ACTIVE p).addr ∨ f.addr = (ENG_STAT_STATE p).addr ∨
      f.addr = (ENG_FAULT_CODE p).addr → (u.addSat (HAND_CLU_RETIRED (clusterOf p)) 1).fld f = u.fld f := fun u f hf =>
    fld_setFld_addr _ _ (by simp only [ENG_ID_ACTIVE, ENG_STAT_STATE, ENG_FAULT_CODE, HAND_CLU_RETIRED, clusterOf] at *; omega)
  unfold State.retire State.putFault
  simp only [habandon]
  refine ⟨?_, ?_, ?_, ?_⟩
  · rw [hcluster _ _ (by simp), fld_setFld_addr, fld_setFld_addr, fld_setFld_addr, fld_setFld_eq _ _ _ (by simp [ENG_STAT_STATE])]
    · rfl
    all_goals simp [ENG_STAT_STATE, ENG_FAULT_CODE, ENG_FAULT_PC, ENG_ID_ACTIVE]
  · rw [flag_congr (hcluster _ _ (by simp)), flag_setFld_ne, flag_setFld_ne, flag_clear _ _ (by simp [ENG_ID_ACTIVE])]
    all_goals simp [ENG_FAULT_CODE, ENG_FAULT_PC, ENG_ID_ACTIVE]
  · rw [hcluster _ _ (by simp), fld_setFld_ne _ _ (.inr (.inl (by simp [ENG_FAULT_CODE, ENG_FAULT_PC]))),
      fld_setFld_eq _ _ _ (by simp [ENG_FAULT_CODE])]
    rfl
  · rfl

/-- The joker of a cluster comes into use for a slot. -/
def jokerInUse (s : State) (c slot : Nat) : State := (s.setFld (HAND_CLU_JSTATE c) 2).setFld (HAND_CLU_JFOR c) slot

/-- What the registers then show. -/
theorem jokerInUse_shows (s : State) (c : Nat) {slot : Nat} (hslot : slot < 32) :
    (jokerInUse s c slot).fld (HAND_CLU_JSTATE c) = 2 ∧ (jokerInUse s c slot).fld (HAND_CLU_JFOR c) = slot ∧
      ∀ f : Field, f.addr ≠ 0x112000 + c * 4 → (jokerInUse s c slot).fld f = s.fld f := by
  refine ⟨?_, ?_, fun f hf => ?_⟩
  · rw [jokerInUse, fld_setFld_ne _ _ (.inr (.inl (by simp [HAND_CLU_JSTATE, HAND_CLU_JFOR]))),
      fld_setFld_eq _ _ _ (by simp [HAND_CLU_JSTATE])]
    rfl
  · rw [jokerInUse, fld_setFld_eq _ _ _ (by simp [HAND_CLU_JFOR])]
    exact Nat.mod_eq_of_lt hslot
  · rw [jokerInUse, fld_setFld_addr _ _ hf, fld_setFld_addr _ _ hf]

/-- The state in which an engine has retired and its joker is in use for it. -/
def jokerTakes (s : State) (p : Nat) : State :=
  jokerInUse ((((s.retire p).setFld (HAND_MAP_PENDING (s.logicalOf p)) 1).handInterrupt (s.logicalOf p)).abandonIft
    (jokerOf (clusterOf p))) (clusterOf p) (p % 17)

/-- A takeover by the joker begins. -/
theorem beginTakeover_eq (s : State) (p cause : Nat) : s.beginTakeover p (jokerOf (clusterOf p)) cause =
    { jokerTakes s p with hand := { (jokerTakes s p).hand with takeover := (jokerTakes s p).hand.takeover ++
      [{ logical := s.logicalOf p, failed := p, taker := jokerOf (clusterOf p), cause := cause }] } } := by
  simp only [State.beginTakeover, jokerTakes, jokerInUse, if_true]

/-- What it has done so far. -/
theorem jokerTakes_shows (s : State) (p : Nat) :
    (jokerTakes s p).fld (ENG_STAT_STATE p) = esRetired ∧ (jokerTakes s p).flag (ENG_ID_ACTIVE p) = false ∧
      (jokerTakes s p).fld (ENG_FAULT_CODE p) = 0x20 ∧ (jokerTakes s p).flag (HAND_MAP_PENDING (s.logicalOf p)) = true ∧
      (jokerTakes s p).fld (HAND_CLU_JSTATE (clusterOf p)) = 2 ∧ (jokerTakes s p).fld (HAND_CLU_JFOR (clusterOf p)) = p % 17 ∧
      (jokerTakes s p).hand.takeover = s.hand.takeover := by
  obtain ⟨hstate, hactive, hcode, htake⟩ := retire_shows s p
  have hlogical : s.logicalOf p < 1024 := fld_lt s (ENG_ID_LOGICAL p)
  unfold jokerTakes
  generalize s.retire p = u at *
  obtain ⟨hhand, hhandTake⟩ := handInterrupt_frame (u.setFld (HAND_MAP_PENDING (s.logicalOf p)) 1) (s.logicalOf p)
  generalize (u.setFld (HAND_MAP_PENDING (s.logicalOf p)) 1).handInterrupt (s.logicalOf p) = v at *
  obtain ⟨hift, hiftHand⟩ := abandonIft_frame v (jokerOf (clusterOf p))
  generalize v.abandonIft (jokerOf (clusterOf p)) = w at *
  obtain ⟨hjoker, hfor, hothers⟩ := jokerInUse_shows w (clusterOf p) (slot := p % 17) (by omega)
  have hhands : (jokerInUse w (clusterOf p) (p % 17)).hand.takeover = s.hand.takeover := by
    rw [jokerInUse, setFld_hand, setFld_hand, hiftHand, hhandTake, setFld_hand, htake]
  generalize jokerInUse w (clusterOf p) (p % 17) = x at *
  have hkept : ∀ f : Field, NoRestart f → 0x100000 ≤ f.addr → f.addr ≠ 0x112000 + clusterOf p * 4 →
      x.fld f = (u.setFld (HAND_MAP_PENDING (s.logicalOf p)) 1).fld f := fun f hf hlow hclu => by
    rw [hothers f hclu, hift f hlow, hhand f hf]
  have hengine : ∀ f : Field, NoRestart f → 0x1000000 + p * 0x2000 ≤ f.addr → x.fld f = u.fld f := fun f hf hlow => by
    rw [hkept f hf (by omega) (by simp only [clusterOf]; omega), fld_setFld_addr _ _ (by simp only [HAND_MAP_PENDING]; omega)]
  have hpending : x.flag (HAND_MAP_PENDING (s.logicalOf p)) = true := by
    refine (flag_congr (hkept _ (fun q => ⟨.inl ?_, .inl ?_⟩) ?_ ?_)).trans (flag_set u _ ?_ ?_)
    all_goals simp only [HAND_MAP_PENDING, ENG_RESTARTS_PREEMPT, ENG_STAT_RESTART]; omega
  refine ⟨(hengine _ (fun q => ?_) ?_).trans hstate, (flag_congr (hengine _ (fun q => ?_) ?_)).trans hactive,
    (hengine _ (fun q => ?_) ?_).trans hcode, hpending, hjoker, hfor, hhands⟩
  all_goals
    simp only [apart, ENG_STAT_STATE, ENG_ID_ACTIVE, ENG_FAULT_CODE, ENG_RESTARTS_PREEMPT, ENG_STAT_RESTART]
    omega

/-- A register of the HAND block is quiet. -/
theorem quiet_hand {f : Field} (h : 0x110000 ≤ f.addr) (h' : f.addr < 0x120000) : quiet f = true :=
  quiet_high (by omega) (by rw [show VREG_STAT_ALERT.addr = 0x120000 from rfl]; omega)

/-- So is that of an engine's cluster, and that of a logical engine. -/
theorem quiet_cluster {f : Field} (p : Fin 1088) (h : f.addr = 0x112000 + clusterOf p * 4) : quiet f = true :=
  quiet_hand (by omega) (by rw [h, clusterOf]; omega)

theorem quiet_map {f : Field} {l : Nat} (hl : l < 1024) (h : f.addr = 0x111000 + l * 4) : quiet f = true :=
  quiet_hand (by omega) (by omega)

/-- An engine that its joker may replace is replaced when it is declared PERMANENT. -/
theorem declarePermanent_joker {s : State} {p : Nat} (cause : Nat) (hwdog : s.flag SUP_STAT_WDOG = false)
    (hactive : s.flag (ENG_ID_ACTIVE p) = true) (hfree : s.fld (HAND_CLU_JSTATE (clusterOf p)) = 0) (hjoker : p % 17 ≠ 16)
    (hserves : s.engState p ≠ esRetired) : s.declarePermanent p cause = s.beginTakeover p (jokerOf (clusterOf p)) cause := by
  have hp : p ≠ jokerOf (clusterOf p) := by simp only [jokerOf, clusterOf]; omega
  simp [State.declarePermanent, hserves, hactive, hwdog, hp, hfree]

/-- The registers do not depend on the hand's parts. -/
theorem withHand_fld (s : State) (h : HandState) (f : Field) : ({ s with hand := h } : State).fld f = s.fld f := rfl

theorem settle_withHand_fld (s : State) (h : HandState) {f : Field} (hq : quiet f = true) :
    ({ s with hand := h } : State).settle.fld f = s.fld f := (settle_fld _ _ hq).trans (withHand_fld s h f)

/-- Nor do the flags. -/
theorem settle_withHand_flag (s : State) (h : HandState) {f : Field} (hq : quiet f = true) :
    ({ s with hand := h } : State).settle.flag f = s.flag f := flag_congr (settle_withHand_fld s h hq)

/-- What the outcome of such a declaration shows. -/
theorem declared_shows {i : Instr} {s u : State} {p : Fin 1088} {cause : Nat} (hexec : exec i s = Machine.done (u.declarePermanent p cause))
    (hregs : ∀ f : Field, f = SUP_STAT_WDOG ∨ f = ENG_ID_ACTIVE p ∨ f = HAND_CLU_JSTATE (clusterOf p) ∨ f = ENG_STAT_STATE p ∨
      f = ENG_ID_LOGICAL p → u.fld f = s.fld f) (htakeover : u.hand.takeover = s.hand.takeover)
    (hserving : s.flag SUP_STAT_WDOG = false ∧ s.flag (ENG_ID_ACTIVE p) = true ∧ s.fld (HAND_CLU_JSTATE (clusterOf p)) = 0 ∧
      p.val % 17 ≠ 16) (hserves : s.engState p ≠ esRetired) :
    ∃ t : State, exec i s = .next t ∧
      t.fld (ENG_STAT_STATE p) = esRetired ∧ t.flag (ENG_ID_ACTIVE p) = false ∧ t.fld (ENG_FAULT_CODE p) = 0x20 ∧
      t.flag (HAND_MAP_PENDING (s.logicalOf p)) = true ∧ t.fld (HAND_CLU_JSTATE (clusterOf p)) = 2 ∧
      t.fld (HAND_CLU_JFOR (clusterOf p)) = p.val % 17 ∧
      t.hand.takeover = s.hand.takeover ++
        [{ logical := s.logicalOf p, failed := p, taker := jokerOf (clusterOf p), cause := cause }] := by
  obtain ⟨hwdog, hactive, hfree, hjoker⟩ := hserving
  have hdeclared := declarePermanent_joker (s := u) (p := p) cause ((flag_congr (hregs _ (by simp))).trans hwdog)
    ((flag_congr (hregs _ (by simp))).trans hactive) ((hregs _ (by simp)).trans hfree) hjoker
    (by rw [State.engState, hregs _ (by simp)]; exact hserves)
  have hlogical : u.logicalOf p = s.logicalOf p := hregs _ (by simp)
  obtain ⟨hstate, hgone, hcode, hpending, hjstate, hjfor, htaken⟩ := jokerTakes_shows u p
  rw [hdeclared, beginTakeover_eq] at hexec
  generalize jokerTakes u p = v at *
  rw [hlogical] at hexec hpending
  refine ⟨_, hexec, ?_, ?_, ?_, ?_, ?_, ?_, ?_⟩
  · exact (settle_withHand_fld _ _ (quiet_eng (by simp only [ENG_STAT_STATE]; omega))).trans hstate
  · exact (settle_withHand_flag _ _ (quiet_eng (by simp only [ENG_ID_ACTIVE]; omega))).trans hgone
  · exact (settle_withHand_fld _ _ (quiet_eng (by simp only [ENG_FAULT_CODE]; omega))).trans hcode
  · exact (settle_withHand_flag _ _ (quiet_map (fld_lt s (ENG_ID_LOGICAL p)) rfl)).trans hpending
  · exact (settle_withHand_fld _ _ (quiet_cluster p rfl)).trans hjstate
  · exact (settle_withHand_fld _ _ (quiet_cluster p rfl)).trans hjfor
  · rw [settle_hand, htaken, htakeover]

/-- A forced takeover that is noted and logged leaves the registers on which it depends. -/
theorem forceNoted_fld (s : State) (x : Nat) {p : Fin 1088} (f : Field) (hf : f = SUP_STAT_WDOG ∨ f = ENG_ID_ACTIVE p ∨
    f = HAND_CLU_JSTATE (clusterOf p) ∨ f = ENG_STAT_STATE p ∨ f = ENG_ID_LOGICAL p) :
    ((s.setFld HAND_FORCE_LOGICAL x).logEvent 0x1107 sevInfo x).fld f = s.fld f := by
  have haddr : f.addr ≠ 0x110004 ∧ f.addr ≠ 0x110008 ∧ f.addr ≠ 0x110030 := by
    rcases hf with rfl | rfl | rfl | rfl | rfl <;>
      simp only [SUP_STAT_WDOG, ENG_ID_ACTIVE, HAND_CLU_JSTATE, ENG_STAT_STATE, ENG_ID_LOGICAL] <;> omega
  obtain ⟨hforce, hstat, hcount⟩ := haddr
  rw [logEvent_fld _ _ _ _ _ hcount hstat, fld_setFld_addr _ _ hforce]

theorem forceNoted_takeover (s : State) (x : Nat) :
    ((s.setFld HAND_FORCE_LOGICAL x).logEvent 0x1107 sevInfo x).hand.takeover = s.hand.takeover := by
  obtain ⟨_, _, _, hlog⟩ := logEvent_eq (s.setFld HAND_FORCE_LOGICAL x) 0x1107 sevInfo x
  rw [hlog]
  rfl

/-! ### A takeover completes (R200 to R202) -/

/-- The words of a section, read as those of an engine. -/
theorem instGet_sectionOf {α : Type} (d : α) (m : List (Nat × α)) (l i : Nat) (hi : i < 8192) :
    instGet d (sectionOf l m) i = instGet d m (8192 * l + i) := by
  unfold instGet sectionOf
  induction m with
  | nil => rfl
  | cons x m ih =>
    obtain ⟨a, v⟩ := x
    by_cases ha : a / 8192 = l
    · have hkey : i = a % 8192 ↔ 8192 * l + i = a := by omega
      simp only [List.filter_cons, ha, decide_true, if_true, List.map_cons, sparseGet, ih, hkey]
    · have hkey : 8192 * l + i ≠ a := by omega
      simp only [List.filter_cons, ha, decide_false, Bool.false_eq_true, if_false, sparseGet, ih, if_neg hkey]

/-- The registers by which an engine serves a logical engine without a task (R200 step 6). -/
def servesIdle (y : State) (taker l xcnt : Nat) : State :=
  let y := ((y.setFld (ENG_ID_LOGICAL taker) l).setFld (ENG_ID_ACTIVE taker) 1).setFld (ENG_XCNT_XCNT taker) xcnt
  let y := y.setFld (ENG_STAT_STATE taker) esIdle
  let y := ((y.setFld (HAND_MAP_PHYS l) taker).setFld (HAND_MAP_VALID l) 1).setFld (HAND_MAP_PENDING l) 0
  y.setFld (HAND_MAP_SUB l) (b2n (decide (taker = jokerOf (clusterOf taker))))

/-- What they show. -/
theorem servesIdle_shows (y : State) {taker l : Nat} (xcnt : Nat) (htaker : taker < 1088) (hl : l < 1024) :
    let t := servesIdle y taker l xcnt
    t.fld (HAND_MAP_PHYS l) = taker ∧ t.flag (HAND_MAP_VALID l) = true ∧ t.flag (HAND_MAP_PENDING l) = false ∧
      t.flag (HAND_MAP_SUB l) = decide (taker = jokerOf (clusterOf taker)) ∧ t.fld (ENG_ID_LOGICAL taker) = l ∧
      t.flag (ENG_ID_ACTIVE taker) = true ∧ t.fld (ENG_STAT_STATE taker) = esIdle ∧ t.fld (ENG_XCNT_XCNT taker) = xcnt % 65536 := by
  intro t
  have hphys : taker % 2 ^ 11 = taker := Nat.mod_eq_of_lt (by omega)
  have hlogical : l % 2 ^ 10 = l := Nat.mod_eq_of_lt (by omega)
  simp (disch := (simp only [ENG_ID_LOGICAL, ENG_ID_ACTIVE, ENG_XCNT_XCNT, ENG_STAT_STATE, HAND_MAP_PHYS, HAND_MAP_VALID, HAND_MAP_PENDING,
    HAND_MAP_SUB]; omega)) only [t, servesIdle, fld_setFld_ne, fld_setFld_eq, flag_setFld_ne, flag_set, flag_clear]
  exact ⟨hphys, trivial, trivial, flag_put _ (HAND_MAP_SUB l) _ (by simp [HAND_MAP_SUB]) rfl, hlogical, trivial, rfl, rfl⟩

/-- The engine that takes over a logical engine which ran no task (R200 steps 3 to 5). -/
def substitute (s : State) (k : Takeover) : Engine :=
  let f := s.engOf k.failed
  let c : EngCore := { EngCore.reset with sram := f.pre.sram, memTag := f.pre.memTag, gang := f.pre.gang }
  { Engine.reset with
    pre := c, cur := c, acc := sectionOf k.logical s.hand.mirror, tag := sectionOf k.logical s.hand.mirTag,
    xstart := (s.mirrorCtl k.logical).xstart, fifo := f.fifo, openC := f.openC, drain := f.drain,
    eccAt := (s.engOf k.taker).eccAt, times := (s.engOf k.taker).times, loads := f.loads }

/-- The state in which the engines, the ring's position and the preloads have been handed over (R200 steps 3 to 5). -/
def handedOver (s : State) (k : Takeover) : State :=
  let u := s.setEng k.failed { s.engOf k.failed with task := none, fifo := [], openC := none, drain := none, halted := false }
  let u := u.setEng k.taker (substitute s k)
  let u := u.setLeaf k.logical { u.leafOf k.logical with taken := (s.mirrorCtl k.logical).ring }
  (List.range 2).foldl (fun s r => s.setReg (ENG_PRELOAD k.taker r).addr (s.reg (ENG_PRELOAD k.failed r).addr)) u

/-- Where the logical engine ran no task, its substitute is idle. -/
theorem takeUp_idle {s : State} {k : Takeover} (htask : (s.mirrorCtl k.logical).task = none) :
    s.takeUp k = servesIdle (handedOver s k) k.taker k.logical (s.mirrorCtl k.logical).xcnt := by
  have hreset : Engine.reset.task = none := rfl
  simp only [State.takeUp, htask, hreset, servesIdle, handedOver, substitute, Option.isSome_none, Bool.false_eq_true, if_false]

/-- What the handing over leaves, and what it makes of the taker. -/
theorem handedOver_shows (s : State) (k : Takeover) : (handedOver s k).engOf k.taker = substitute s k ∧
    (handedOver s k).hand.takeover = s.hand.takeover ∧ ∀ f : Field, f.addr < 0x1000000 → (handedOver s k).fld f = s.fld f := by
  unfold handedOver
  simp only [List.range_succ, List.range_zero, List.nil_append, List.cons_append, List.foldl_cons, List.foldl_nil]
  refine ⟨?_, ?_, fun f hf => ?_⟩
  · simp [State.engOf, State.setEng, State.setLeaf]
  · simp [State.setEng, State.setLeaf]
  · have hne : ∀ r : Nat, f.addr ≠ (ENG_PRELOAD k.taker r).addr := fun r => by simp only [ENG_PRELOAD]; omega
    rw [fld_setReg_ne _ _ _ (hne _), fld_setReg_ne _ _ _ (hne _), setLeaf_fld, setEng_fld, setEng_fld]

/-- What the HAND block records of a completed substitution. -/
theorem noteTakeover_shows (s : State) (k : Takeover) (ns : Nat) :
    (s.noteTakeover k ns).fld HAND_SUB_COUNT_COUNT = min (s.fld HAND_SUB_COUNT_COUNT + 1) 0xFFFF ∧
      (s.noteTakeover k ns).fld HAND_TAKEOVER_MAX_NS = max (s.fld HAND_TAKEOVER_MAX_NS) (min ns 0xFFFFFFFF) ∧
      (s.noteTakeover k ns).flag HAND_STAT_SUB = true ∧ (s.noteTakeover k ns).engOf k.taker = s.engOf k.taker ∧
      (s.noteTakeover k ns).hand.takeover = s.hand.takeover ∧
      ∀ f : Field, 0x111000 ≤ f.addr → (s.noteTakeover k ns).fld f = s.fld f := by
  have hqueue : ∀ u : State, ∃ q, (if k.cause = 5 then u else { u with hand := { u.hand with jmapQ := u.hand.jmapQ ++ [k.failed] } }) =
      { u with hand := { u.hand with jmapQ := q } } := fun u => by
    split
    · exact ⟨u.hand.jmapQ, rfl⟩
    · exact ⟨_, rfl⟩
  have hlogged : ∀ (u : State) (x : Nat) (f : Field), f.addr ≠ HAND_LOG_COUNT_COUNT.addr →
      f.addr ≠ HAND_STAT_LOG_ATTN.addr ∨ f = HAND_STAT_SUB →
      (u.logEvent 0x1101 sevAttention x).fld f = u.fld f := fun u x f hc ha => by
    rcases ha with ha | rfl
    · exact logEvent_fld _ _ _ _ _ hc ha
    · exact (KeepsFields.refl logFields u).logEvent _ _ _ (fun _ h => h) _ (by decide) (by simp [logFields, apart, HAND_LOG_COUNT_COUNT,
        HAND_STAT_LOG_ATTN, HAND_STAT_LOG_FATAL, HAND_STAT_SUB])
  unfold State.noteTakeover
  simp only [addSat_eq, maxFld_eq]
  generalize hu : (((s.setFld HAND_SUB_COUNT_COUNT _).setFld HAND_TAKEOVER_MAX_NS _).setFld HAND_SUB_COUNT_IN_USE _).setFld
    HAND_STAT_SUB 1 = u
  obtain ⟨q, hq⟩ := hqueue u
  rw [hq]
  obtain ⟨_, _, _, hlog⟩ := logEvent_eq { u with hand := { u.hand with jmapQ := q } } 0x1101 sevAttention
    (k.cause <<< 27 + k.taker <<< 16 + k.failed)
  have hkept := fun (f : Field) hc ha => (hlogged { u with hand := { u.hand with jmapQ := q } } (k.cause <<< 27 + k.taker <<< 16 + k.failed)
    f hc ha).trans (withHand_fld u _ f)
  have hmax : s.fld HAND_TAKEOVER_MAX_NS < 2 ^ 32 := fld_lt s HAND_TAKEOVER_MAX_NS
  refine ⟨?_, ?_, (flag_congr (hkept _ (by decide) (.inr rfl))).trans ?_, ?_, ?_, fun f hf => ?_⟩
  · rw [hkept _ (by decide) (.inl (by decide)), ← hu, fld_setFld_ne _ _ (by decide), fld_setFld_ne _ _ (by decide),
      fld_setFld_ne _ _ (by decide), fld_setFld_self _ HAND_SUB_COUNT_COUNT]
    exact Nat.mod_eq_of_lt (by simp only [HAND_SUB_COUNT_COUNT]; omega)
  · rw [hkept _ (by decide) (.inl (by decide)), ← hu, fld_setFld_ne _ _ (by decide), fld_setFld_ne _ _ (by decide),
      fld_setFld_self _ HAND_TAKEOVER_MAX_NS, fld_setFld_ne _ _ (by decide)]
    exact Nat.mod_eq_of_lt (by simp only [HAND_TAKEOVER_MAX_NS] at hmax ⊢; omega)
  · rw [← hu]
    exact flag_setFld_one _ HAND_STAT_SUB
  · rw [hlog, ← hu]
    rfl
  · rw [hlog, ← hu]
    rfl
  · have hne : ∀ g : Field, g.addr < 0x111000 → f.addr ≠ g.addr := fun g hg => by omega
    rw [hkept f (hne _ (by decide)) (.inl (hne _ (by decide))), ← hu, fld_setFld_addr _ _ (hne _ (by decide)),
      fld_setFld_addr _ _ (hne _ (by decide)), fld_setFld_addr _ _ (hne _ (by decide)), fld_setFld_addr _ _ (hne _ (by decide))]

/-- The takeovers of a logical engine have ended. -/
def endedTakeovers (s : State) (l : Nat) : State :=
  { s with hand := { s.hand with takeover := s.hand.takeover.filter (fun x => decide (x.logical ≠ l)) } }

/-- The state in which a takeover has completed, the logical engine having run no task. -/
def tookOver (s : State) (k : Takeover) (ns : Nat) : State :=
  let x := (servesIdle (handedOver (endedTakeovers s k.logical) k) k.taker k.logical (s.mirrorCtl k.logical).xcnt).noteTakeover k ns
  x.setFld HAND_STAT_STANDIN (b2n !x.hand.standin.isEmpty)

/-- The registers of the HAND block's counts, and the engines, do not depend on which engine serves. -/
theorem servesIdle_frame (y : State) (taker l xcnt : Nat) : (servesIdle y taker l xcnt).hand = y.hand ∧
    ∀ f : Field, f.addr < 0x111000 → (servesIdle y taker l xcnt).fld f = y.fld f := by
  refine ⟨rfl, fun f hf => ?_⟩
  have hmap : f.addr ≠ 0x111000 + l * 4 := by omega
  unfold servesIdle
  simp only
  rw [fld_setFld_addr _ _ hmap, fld_setFld_addr _ _ hmap, fld_setFld_addr _ _ hmap, fld_setFld_addr _ _ hmap]
  rw [fld_setFld_addr, fld_setFld_addr, fld_setFld_addr, fld_setFld_addr]
  all_goals
    simp only [ENG_ID_LOGICAL, ENG_ID_ACTIVE, ENG_XCNT_XCNT, ENG_STAT_STATE]
    omega

/-- What it shows. -/
theorem tookOver_shows (s : State) (k : Takeover) (ns : Nat) :
    let t := tookOver s k ns
    (∀ f : Field, 0x111000 ≤ f.addr →
      t.fld f = (servesIdle (handedOver (endedTakeovers s k.logical) k) k.taker k.logical (s.mirrorCtl k.logical).xcnt).fld f) ∧
      t.engOf k.taker = substitute s k ∧
      t.fld HAND_SUB_COUNT_COUNT = min (s.fld HAND_SUB_COUNT_COUNT + 1) 0xFFFF ∧
      t.fld HAND_TAKEOVER_MAX_NS = max (s.fld HAND_TAKEOVER_MAX_NS) (min ns 0xFFFFFFFF) ∧ t.flag HAND_STAT_SUB = true ∧
      t.hand.takeover = s.hand.takeover.filter (fun x => decide (x.logical ≠ k.logical)) := by
  intro t
  obtain ⟨heng, htakes, hfld⟩ := handedOver_shows (endedTakeovers s k.logical) k
  obtain ⟨hhand, hkept⟩ := servesIdle_frame (handedOver (endedTakeovers s k.logical) k) k.taker k.logical (s.mirrorCtl k.logical).xcnt
  simp only [t, tookOver]
  generalize servesIdle (handedOver (endedTakeovers s k.logical) k) k.taker k.logical (s.mirrorCtl k.logical).xcnt = y at *
  obtain ⟨hcount, hmax, hsub, hsame, hlist, hothers⟩ := noteTakeover_shows y k ns
  generalize y.noteTakeover k ns = x at *
  have hcounts : ∀ f : Field, f.addr < 0x111000 → y.fld f = s.fld f := fun f hf =>
    (hkept f hf).trans ((hfld f (by omega)).trans (withHand_fld s _ f))
  refine ⟨fun f hf => ?_, ?_, ?_, ?_, ?_, ?_⟩
  · rw [fld_setFld_addr _ _ (by simp only [HAND_STAT_STANDIN]; omega), hothers f hf]
  · rw [State.engOf, setFld_hand, ← State.engOf, hsame, State.engOf, hhand, ← State.engOf, heng]
    rfl
  · rw [fld_setFld_addr _ _ (by decide), hcount, hcounts _ (by decide)]
  · rw [fld_setFld_addr _ _ (by decide), hmax, hcounts _ (by decide)]
  · rw [flag_setFld_ne _ _ (by decide), hsub]
  · rw [setFld_hand, hlist, hhand, htakes]
    rfl

/-- A takeover of a logical engine that ran no task completes. -/
theorem takeoverDone_idle {s : State} {k : Takeover} {l ns : Nat} (hlogical : k.logical = l)
    (hfind : s.hand.takeover.find? (fun t => decide (t.logical = l)) = some k)
    (hother : s.hand.takeover.any (fun x => decide (x.failed = k.taker)) = false) (hcause : k.cause ≠ 0)
    (htask : (s.mirrorCtl l).task = none) : s.takeoverDone l ns [] [] = tookOver s k ns := by
  have hbad : ∀ u : State, u.takeBad k [] = u := fun u => by simp [State.takeBad]
  subst hlogical
  have hup := takeUp_idle (s := endedTakeovers s k.logical) htask
  have hrest : s.takeoverDone k.logical ns [] [] = let x := ((endedTakeovers s k.logical).takeUp k).noteTakeover k ns
      let y := x.setFld HAND_STAT_STANDIN (b2n !x.hand.standin.isEmpty)
      if (y.engOf k.taker).task.isSome then y.fetch k.taker .clean else y := by
    simp only [State.takeoverDone, hfind, hother, hbad, hcause, List.foldl_nil, Bool.false_eq_true, if_false]
    rfl
  obtain ⟨-, heng, -⟩ := tookOver_shows s k ns
  rw [hrest, hup]
  have hidle : ((tookOver s k ns).engOf k.taker).task.isSome ≠ true := by
    rw [heng]
    simp [substitute, Engine.reset]
  exact if_neg hidle

/-- The accumulator words and tags of the substitute are those of the mirror's section. -/
theorem substitute_words (s : State) (k : Takeover) {i : Nat} (hi : i < 8192) :
    instGet 0 (substitute s k).acc i = instGet 0 s.hand.mirror (8192 * k.logical + i) ∧
      instGet false (substitute s k).tag i = instGet false s.hand.mirTag (8192 * k.logical + i) :=
  ⟨instGet_sectionOf 0 _ _ _ hi, instGet_sectionOf false _ _ _ hi⟩

/-- When the takeover has completed the substitute serves the logical engine, with what the failed engine and the mirror held. -/
theorem tookOver_serves (s : State) {k : Takeover} (ns : Nat) (htaker : k.taker < 1088) (hl : k.logical < 1024) :
    let t := (tookOver s k ns).settle
    let l := k.logical
    t.fld (HAND_MAP_PHYS l) = k.taker ∧ t.flag (HAND_MAP_VALID l) = true ∧ t.flag (HAND_MAP_PENDING l) = false ∧
      t.flag (HAND_MAP_SUB l) = decide (k.taker = jokerOf (clusterOf k.taker)) ∧
      t.fld (ENG_ID_LOGICAL k.taker) = l ∧ t.flag (ENG_ID_ACTIVE k.taker) = true ∧ t.fld (ENG_STAT_STATE k.taker) = esIdle ∧
      t.fld (ENG_XCNT_XCNT k.taker) = (s.mirrorCtl l).xcnt % 65536 ∧
      (∀ i < 8192, instGet 0 (t.engOf k.taker).acc i = instGet 0 s.hand.mirror (8192 * l + i) ∧
        instGet false (t.engOf k.taker).tag i = instGet false s.hand.mirTag (8192 * l + i)) ∧
      (t.engOf k.taker).cur.sram = (s.engOf k.failed).pre.sram ∧ (t.engOf k.taker).fifo = (s.engOf k.failed).fifo ∧
      t.fld HAND_SUB_COUNT_COUNT = min (s.fld HAND_SUB_COUNT_COUNT + 1) 0xFFFF ∧
      t.fld HAND_TAKEOVER_MAX_NS = max (s.fld HAND_TAKEOVER_MAX_NS) (min ns 0xFFFFFFFF) ∧ t.flag HAND_STAT_SUB = true ∧
      (∀ x ∈ t.hand.takeover, x.logical ≠ l) := by
  intro t l
  obtain ⟨hfld, heng, hcount, hmax, hsub, hlist⟩ := tookOver_shows s k ns
  obtain ⟨hphys, hvalid, hpending, hjoker, hid, hactive, hstate, hxcnt⟩ :=
    servesIdle_shows (handedOver (endedTakeovers s k.logical) k) (s.mirrorCtl k.logical).xcnt htaker hl
  have hshown : ∀ f : Field, 0x111000 ≤ f.addr ∧ f.addr ≠ 0x120000 → t.fld f = _ := fun f hf =>
    (settle_fld _ _ (quiet_high (by omega) hf.2)).trans (hfld f hf.1)
  have hmap : ∀ f : Field, f.addr = 0x111000 + l * 4 → 0x111000 ≤ f.addr ∧ f.addr ≠ 0x120000 := fun f hf => by omega
  have hown : ∀ f : Field, 0x1000000 ≤ f.addr → 0x111000 ≤ f.addr ∧ f.addr ≠ 0x120000 := fun f hf => by omega
  have hengine : t.engOf k.taker = substitute s k := (settle_engOf _ _).trans heng
  rw [hengine]
  refine ⟨(hshown _ (hmap _ rfl)).trans hphys, (flag_congr (hshown _ (hmap _ rfl))).trans hvalid,
    (flag_congr (hshown _ (hmap _ rfl))).trans hpending, (flag_congr (hshown _ (hmap _ rfl))).trans hjoker,
    (hshown _ (hown _ (Nat.le_add_right _ _))).trans hid, (flag_congr (hshown _ (hown _ (Nat.le_add_right _ _)))).trans hactive,
    (hshown _ (hown _ ?_)).trans hstate, (hshown _ (hown _ ?_)).trans hxcnt, fun i hi => substitute_words s k hi, rfl, rfl,
    (settle_fld _ _ (by decide)).trans hcount, (settle_fld _ _ (by decide)).trans hmax,
    (flag_congr (settle_fld _ _ (by decide))).trans hsub, fun x hx => ?_⟩
  · simp only [ENG_STAT_STATE]
    omega
  · simp only [ENG_XCNT_XCNT]
    omega
  · rw [settle_hand, hlist] at hx
    simpa using (List.mem_filter.mp hx).2

/-- Settles O26: declaration, force and completion, each by what its steps show. -/
theorem permanentFaultsHandTheWorkToTheJoker : Obligations.PermanentFaultsHandTheWorkToTheJoker := by
  intro s p l v ns k c taken serving
  refine ⟨fun hserving hrun hstall => ?_, fun h => ?_, fun hserving hret hgo hvalid hphys => ?_, fun hgo => ?_, fun hgo hphys hbusy => ?_,
    fun hfind hfailed htaker hcause hfree htask => ?_, fun hnone => ?_⟩
  · have hexec : exec (.issueWatchdog p) s = Machine.done (s.declarePermanent p 4) :=
      congrArg Machine.done (if_pos ⟨hrun, hstall⟩)
    exact declared_shows hexec (fun _ _ => rfl) rfl hserving (by rw [hrun]; decide)
  · exact Runs.still (congrArg Machine.done (if_neg fun hboth => h.elim (· hboth.1) (· hboth.2)))
  · have hexec : exec (.handForce v) s = Machine.done
        (((s.setFld HAND_FORCE_LOGICAL (v.toNat % 1024)).logEvent 0x1107 sevInfo (v.toNat % 1024)).declarePermanent p 5) := by
      obtain ⟨-, -, hfree, -⟩ := hserving
      refine congrArg Machine.done ?_
      unfold State.handForceWrite
      simp only [hphys]
      rw [if_neg (by simp [hgo]), if_neg (not_or.mpr ⟨not_not.mpr hfree, by simp [hvalid]⟩)]
    refine declared_shows hexec (forceNoted_fld s _) (forceNoted_takeover s _) hserving hret
  · have hexec : exec (.handForce v) s = Machine.done (s.setFld HAND_FORCE_LOGICAL (v.toNat % 1024)) :=
      congrArg Machine.done (if_pos hgo)
    refine Runs.done hexec ?_ ((KeepsFields.refl _ s).setFld _ _ (by simp)) rfl (by simp)
    rw [settle_fld _ _ (by decide), fld_setFld_self s HAND_FORCE_LOGICAL]
    exact Nat.mod_eq_of_lt (Nat.mod_lt _ (by decide))
  · refine Runs.ignored (congrArg Machine.done ?_)
    unfold State.handForceWrite
    simp only [hphys]
    rw [if_neg (by simp [hgo]), if_pos hbusy]
  · have hlogical : k.logical = l := by simpa using List.find?_some hfind
    have hother : s.hand.takeover.any (fun x => decide (x.failed = k.taker)) = false := by simpa using hfree
    have hexec : exec (.takeoverComplete l ns [] []) s = Machine.done (tookOver s k ns) :=
      congrArg Machine.done (takeoverDone_idle hlogical hfind hother hcause htask)
    have hshown := tookOver_serves s ns htaker (hlogical ▸ l.isLt)
    rw [hlogical] at hshown
    exact ⟨_, hexec, hshown⟩
  · have hfind : s.hand.takeover.find? (fun t => decide (t.logical = l.val)) = none :=
      List.find?_eq_none.mpr fun x hx => by simpa using hnone x hx
    refine Runs.still (congrArg Machine.done ?_)
    simp only [State.takeoverDone, hfind]

end Sys2Proof
end

section
/-! PROOFS. The elements of an engine's memory (R129 to R131, R134): what a read gives after a write of the same element and of others,
and what a format makes of a value. -/

namespace Sys2Proof

open Sys2Proof.Machine

/-! ### Bits of a word -/

/-- A word with some bits replaced: the bits above, the new ones, the bits below. -/
theorem putBits_eq (x lo w v : Nat) : putBits x lo w v = 2 ^ lo * (2 ^ w * (x / 2 ^ (lo + w)) + v % 2 ^ w) + x % 2 ^ lo := by
  have hsplit : x = 2 ^ lo * (2 ^ w * (x / 2 ^ (lo + w)) + bitsOf x lo w) + x % 2 ^ lo := by
    rw [bitsOf, Nat.shiftRight_eq_div_pow, Nat.pow_add, ← Nat.div_div_eq_div_mul, Nat.div_add_mod, Nat.div_add_mod]
  have hbits : 2 ^ lo * bitsOf x lo w ≤ x := by
    rw [Nat.mul_add] at hsplit
    omega
  rw [putBits, Nat.mul_comm (bitsOf x lo w)]
  rw [Nat.mul_add] at hsplit ⊢
  rw [Nat.mul_comm (v % 2 ^ w)]
  omega

/-- The bits of a word with some replaced. -/
theorem testBit_putBits (x lo w v i : Nat) :
    (putBits x lo w v).testBit i = if lo ≤ i ∧ i < lo + w then v.testBit (i - lo) else x.testBit i := by
  rw [putBits_eq, Nat.testBit_two_pow_mul_add _ (Nat.mod_lt _ (Nat.two_pow_pos _))]
  by_cases hlo : i < lo
  · simp [hlo, Nat.not_le.mpr hlo, Nat.testBit_mod_two_pow]
  · rw [if_neg hlo, Nat.testBit_two_pow_mul_add _ (Nat.mod_lt _ (Nat.two_pow_pos _))]
    by_cases hw : i - lo < w
    · rw [if_pos hw, if_pos (by omega), Nat.testBit_mod_two_pow]
      simp [hw]
    · rw [if_neg hw, if_neg (by omega), Nat.testBit_div_two_pow]
      congr 1
      omega

/-- The bits that were replaced. -/
theorem putBits_same (x lo w v : Nat) : (putBits x lo w v >>> lo) % 2 ^ w = v % 2 ^ w :=
  Nat.eq_of_testBit_eq fun i => by
    simp only [Nat.testBit_mod_two_pow, Nat.testBit_shiftRight, testBit_putBits]
    by_cases h : i < w <;> simp [h]

/-- Bits apart from those that were replaced. -/
theorem putBits_apart (x lo w v : Nat) {lo' w' : Nat} (h : lo' + w' ≤ lo ∨ lo + w ≤ lo') :
    (putBits x lo w v >>> lo') % 2 ^ w' = (x >>> lo') % 2 ^ w' :=
  Nat.eq_of_testBit_eq fun i => by
    simp only [Nat.testBit_mod_two_pow, Nat.testBit_shiftRight, testBit_putBits]
    by_cases hi : i < w'
    · rw [if_neg (by omega)]
    · simp [hi]

/-! ### Bytes -/

/-- What stands at a key after consecutive keys have been written. -/
theorem sparseGet_sparseWrite {α : Type} [DecidableEq α] (d : Nat → α) (vs : List α) (m : List (Nat × α)) (k j : Nat) :
    sparseGet d (sparseWrite d m k vs) j = if k ≤ j then vs.getD (j - k) (sparseGet d m j) else sparseGet d m j := by
  induction vs generalizing m k with
  | nil => simp [sparseWrite]
  | cons v vs ih =>
    rw [sparseWrite, ih, sparseGet_set]
    by_cases hj : j = k
    · subst hj
      simp
    · by_cases hk : k ≤ j
      · obtain ⟨i, hi⟩ : ∃ i, j - k = i + 1 := ⟨j - k - 1, by omega⟩
        rw [if_pos (by omega), if_pos hk, hi, List.getD_cons_succ, if_neg hj, show j - (k + 1) = i by omega]
      · rw [if_neg (by omega), if_neg hk, if_neg hj]

/-- A number's bytes are as many as asked for. -/
theorem length_leBytes (n x : Nat) : (leBytes n x).length = n := by
  induction n generalizing x with
  | zero => rfl
  | succ n ih => simp [leBytes, ih]

/-- The bytes of a number read back. -/
theorem leNat_leBytes (n x : Nat) : leNat (leBytes n x) = x % 2 ^ (8 * n) := by
  induction n generalizing x with
  | zero => simp [leBytes, leNat, Nat.mod_one]
  | succ n ih =>
    rw [leBytes, leNat, ih, Nat.mul_succ, Nat.add_comm (8 * n), Nat.pow_add, Nat.mod_mul]
    rfl

/-- What was written is read. -/
theorem sparseRead_sparseWrite_same {α : Type} [DecidableEq α] (d : Nat → α) (m : List (Nat × α)) (k : Nat) (vs : List α) :
    sparseRead d (sparseWrite d m k vs) k vs.length = vs := by
  refine List.ext_getElem (by simp [sparseRead]) fun i h₁ h₂ => ?_
  simp [sparseRead, sparseGet_sparseWrite, h₂]

/-- Keys apart from those that were written. -/
theorem sparseRead_sparseWrite_apart {α : Type} [DecidableEq α] (d : Nat → α) (m : List (Nat × α)) (k : Nat) (vs : List α) {j n : Nat}
    (h : j + n ≤ k ∨ k + vs.length ≤ j) : sparseRead d (sparseWrite d m k vs) j n = sparseRead d m j n := by
  refine List.map_congr_left fun i hi => ?_
  have hi' : i < n := List.mem_range.mp hi
  rw [sparseGet_sparseWrite]
  split
  · rw [List.getD_eq_default _ _ (by omega)]
  · rfl

/-! ### Formats (R131) -/

/-- A number that fits reads back from its two's complement pattern, in any pattern that agrees with that of its low bits. -/
theorem toSigned_of_pattern {w W x : Nat} {v : Int} (hv : v.natAbs < 2 ^ (w - 1)) (hw : 0 < w) (hW : w ≤ W)
    (h : x % 2 ^ w = ofSigned W v % 2 ^ w) : toSigned w x = v := by
  have hdouble : 2 ^ w = 2 * 2 ^ (w - 1) := by rw [← Nat.pow_succ', Nat.succ_eq_add_one, Nat.sub_add_cancel hw]
  have hpattern : ((ofSigned W v % 2 ^ w : Nat) : Int) = v % ((2 ^ w : Nat) : Int) := by
    have hdvd : ((2 ^ w : Nat) : Int) ∣ ((2 ^ W : Nat) : Int) := Int.natCast_dvd_natCast.mpr (Nat.pow_dvd_pow 2 hW)
    rw [Int.natCast_mod, ofSigned, Int.toNat_of_nonneg (Int.emod_nonneg _ (by positivity)), Int.emod_emod_of_dvd _ hdvd]
  unfold toSigned
  simp only [h]
  generalize ofSigned W v % 2 ^ w = y at *
  generalize 2 ^ (w - 1) = half at *
  rw [hdouble] at hpattern ⊢
  rcases lt_or_ge v 0 with hneg | hpos
  · have hmod : v % ((2 * half : Nat) : Int) = v + ((2 * half : Nat) : Int) := by
      rw [← Int.add_emod_right, Int.emod_eq_of_lt (by omega) (by omega)]
    rw [if_neg (by omega)]
    omega
  · have hmod : v % ((2 * half : Nat) : Int) = v := Int.emod_eq_of_lt hpos (by omega)
    rw [if_pos (by omega)]
    omega

/-- A value within a format's limits. -/
def Fits (f : Fmt) (v : Cx) : Prop :=
  v.re.natAbs < 2 ^ (f.width - 1) ∧ v.im.natAbs < 2 ^ (f.width - 1) ∧ (f.complex = false → v.im = 0)

/-- Two components side by side read back. -/
theorem toSigned_pair {w W : Nat} {re im : Int} (hre : re.natAbs < 2 ^ (w - 1)) (him : im.natAbs < 2 ^ (w - 1)) (hw : 0 < w)
    (hW : w ≤ W) : toSigned w ((ofSigned W re + ofSigned W im <<< W) % 2 ^ (2 * W)) = re ∧
      toSigned w (((ofSigned W re + ofSigned W im <<< W) % 2 ^ (2 * W)) >>> W) = im := by
  have hlow := ofSigned_lt W re
  have hhigh := ofSigned_lt W im
  have hfits : ofSigned W re + 2 ^ W * ofSigned W im < 2 ^ (2 * W) := by
    rw [two_mul, Nat.pow_add]
    nlinarith
  rw [Nat.shiftLeft_eq, Nat.mul_comm (ofSigned W im), Nat.mod_eq_of_lt hfits, Nat.shiftRight_eq_div_pow]
  refine ⟨toSigned_of_pattern hre hw hW ?_, toSigned_of_pattern him hw hW ?_⟩
  · obtain ⟨k, hk⟩ : 2 ^ w ∣ 2 ^ W := Nat.pow_dvd_pow 2 hW
    rw [hk, Nat.mul_assoc, Nat.add_mul_mod_self_left]
  · rw [Nat.add_mul_div_left _ _ (Nat.two_pow_pos W), Nat.div_eq_of_lt hlow, Nat.zero_add]

/-- One component alone reads back. -/
theorem toSigned_one {w W : Nat} {v : Int} (hv : v.natAbs < 2 ^ (w - 1)) (hw : 0 < w) (hW : w ≤ W) :
    toSigned w (ofSigned W v % 2 ^ W) = v := by
  rw [Nat.mod_eq_of_lt (ofSigned_lt W v)]
  exact toSigned_of_pattern hv hw hW rfl

/-- An element that was encoded is decoded. -/
theorem decode_encode {f : Fmt} {v : Cx} (h : Fits f v) : f.decode (f.encode v % 2 ^ (8 * f.size)) = v := by
  obtain ⟨re, im⟩ := v
  obtain ⟨hre, him, hreal⟩ := h
  cases f with
  | c16 =>
    obtain ⟨hr, hi⟩ := toSigned_pair (w := 16) (W := 16) hre him (by decide) (by decide)
    exact congrArg₂ Cx.mk hr hi
  | c18 =>
    obtain ⟨hr, hi⟩ := toSigned_pair (w := 18) (W := 32) hre him (by decide) (by decide)
    exact congrArg₂ Cx.mk hr hi
  | c32 =>
    obtain ⟨hr, hi⟩ := toSigned_pair (w := 32) (W := 32) hre him (by decide) (by decide)
    exact congrArg₂ Cx.mk hr hi
  | i16 => exact congrArg₂ Cx.mk (toSigned_one (w := 16) (W := 16) hre (by decide) (by decide)) (hreal rfl).symm
  | i32 => exact congrArg₂ Cx.mk (toSigned_one (w := 32) (W := 32) hre (by decide) (by decide)) (hreal rfl).symm
  | i48 => exact congrArg₂ Cx.mk (toSigned_one (w := 48) (W := 64) hre (by decide) (by decide)) (hreal rfl).symm

/-! ### Elements of data SRAM and of the accumulator store (R129, R134) -/

/-- An element that a routine can write: in data SRAM or in the accumulator store, within one of its 64-bit words. -/
def Writable (a size : Nat) : Prop := a % 8 + size ≤ 8 ∧ 0x20000 ≤ a ∧ a < 0x70000

/-- What a routine reads depends on its data SRAM and its working words alone. -/
theorem readElem_congr (s : State) (p a size : Nat) {c c' : EngCore} (hsram : c'.sram = c.sram) (hwork : c'.work = c.work) :
    s.readElem p c' a size = s.readElem p c a size := by
  simp only [State.readElem, accRead, hsram, hwork]

theorem readElem_ring (s : State) (p size : Nat) (c c' : EngCore) {a : Nat} (h : a < 0x20000) :
    s.readElem p c' a size = s.readElem p c a size := by
  simp only [State.readElem, if_pos h]

theorem readElem_sram (s : State) (p size : Nat) (c : EngCore) {a : Nat} (h : 0x20000 ≤ a) (h' : a < 0x60000) :
    s.readElem p c a size = leNat (sparseRead (fun _ => (0 : Byte)) c.sram a size) := by
  simp only [State.readElem, if_neg (Nat.not_lt.mpr h), if_pos h']

theorem readElem_store (s : State) (p size : Nat) (c : EngCore) {a : Nat} (h : 0x60000 ≤ a) (h' : a < 0x70000) :
    s.readElem p c a size = (accRead (s.engOf p) c ((a - 0x60000) / 8) >>> (8 * (a % 8))) % 2 ^ (8 * size) := by
  simp only [State.readElem, if_neg (show ¬ a < 0x20000 by omega), if_neg (Nat.not_lt.mpr h), if_pos h']

/-- A word of the accumulator store after an element was written. -/
theorem accRead_writeElem (e : Engine) (c : EngCore) {a : Nat} (size x : Nat) (plain tag : Bool) (h : 0x60000 ≤ a) (i : Nat) :
    accRead e (writeElem e c a size x plain tag) i =
      if i = (a - 0x60000) / 8 then putBits (accRead e c i) (8 * (a % 8)) (8 * size) x else accRead e c i := by
  simp only [accRead, writeElem, if_neg (Nat.not_lt.mpr h), instGet_instSet]
  by_cases hi : i = (a - 0x60000) / 8
  · simp [hi]
  · simp [hi]

/-- An element that was written is read. -/
theorem readElem_writeElem_same (s : State) (p : Nat) (c : EngCore) {a size : Nat} (x : Nat) (plain tag : Bool)
    (h : Writable a size) : s.readElem p (writeElem (s.engOf p) c a size x plain tag) a size = x % 2 ^ (8 * size) := by
  obtain ⟨-, hlow, hhigh⟩ := h
  by_cases ha : a < 0x60000
  · have hread := sparseRead_sparseWrite_same (fun _ => (0 : Byte)) c.sram a (leBytes size x)
    rw [length_leBytes] at hread
    rw [readElem_sram _ _ _ _ hlow ha, writeElem, if_pos ha, hread, leNat_leBytes]
  · rw [readElem_store _ _ _ _ (by omega) hhigh, accRead_writeElem _ _ _ _ _ _ (by omega), if_pos rfl, putBits_same]

/-- Elements apart from the one that was written. -/
theorem readElem_writeElem_apart (s : State) (p : Nat) (c : EngCore) {a size b n : Nat} (x : Nat) (plain tag : Bool)
    (h : Writable a size) (hword : b % 8 + n ≤ 8) (hb : b < 0x70000) (hapart : b + n ≤ a ∨ a + size ≤ b) :
    s.readElem p (writeElem (s.engOf p) c a size x plain tag) b n = s.readElem p c b n := by
  obtain ⟨hfits, hlow, hhigh⟩ := h
  by_cases hring : b < 0x20000
  · exact readElem_ring _ _ _ _ _ hring
  by_cases hsram : b < 0x60000
  · rw [readElem_sram _ _ _ _ (by omega) hsram, readElem_sram _ _ _ _ (by omega) hsram]
    by_cases ha : a < 0x60000
    · rw [writeElem, if_pos ha, sparseRead_sparseWrite_apart _ _ _ _ (by rw [length_leBytes]; exact hapart)]
    · rw [writeElem, if_neg ha]
  · rw [readElem_store _ _ _ _ (by omega) hb, readElem_store _ _ _ _ (by omega) hb]
    by_cases ha : a < 0x60000
    · rw [writeElem, if_pos ha]
      rfl
    · rw [accRead_writeElem _ _ _ _ _ _ (by omega)]
      split
      · rw [putBits_apart _ _ _ _ (by omega)]
      · rfl

end Sys2Proof
end

section
/-! PROOFS. The statement of 05_engine_datapath.md on the memory slots (O20): what four lanes make of the elements that they name. -/

namespace Sys2Proof

open Sys2Proof.Machine

/-! ### Four lanes, one after another (R140, R170) -/

/-- What lane `l` does to a core: the element at its address, of which `val` tells the value, takes the value `F l` of what it was;
`H l` of that raises the OVF latch; and of the elements and bytes apart from it, and of the rest of the core, nothing changes. -/
structure LaneStep {V : Type} (s : State) (p size : Nat) (addr : Nat → Nat) (val : EngCore → Nat → V) (F : Nat → V → V) (H : Nat → V → Bool)
    (step : EngCore → Nat → EngCore) : Prop where
  rest : ∀ c, ∀ l < 4, step c l = { c with
    sram := (step c l).sram, memTag := (step c l).memTag, work := (step c l).work, ovf := (step c l).ovf, sticky := (step c l).sticky }
  here : ∀ c, ∀ l < 4, val (step c l) (addr l) = F l (val c (addr l))
  there : ∀ c, ∀ l < 4, ∀ k < 4, addr k ≠ addr l → val (step c l) (addr k) = val c (addr k)
  bytes : ∀ c, ∀ l < 4, ∀ b < 0x70000, b < addr l ∨ addr l + size ≤ b → s.readElem p (step c l) b 1 = s.readElem p c b 1
  ovf : ∀ c, ∀ l < 4, (step c l).ovf = (H l (val c (addr l)) || c.ovf)

/-- The value that lanes leave, and whether one of them raised the OVF latch. -/
def lanesLeave {V : Type} (F : Nat → V → V) (H : Nat → V → Bool) (ls : List Nat) (u : V × Bool) : V × Bool :=
  ls.foldl (fun u l => (F l u.1, u.2 || H l u.1)) u

theorem lanesLeave_cons {V : Type} (F : Nat → V → V) (H : Nat → V → Bool) (l : Nat) (ls : List Nat) (u : V × Bool) :
    lanesLeave F H (l :: ls) u = lanesLeave F H ls (F l u.1, u.2 || H l u.1) := rfl

/-- A latch that was up before stays up. -/
theorem lanesLeave_latch {V : Type} (F : Nat → V → V) (H : Nat → V → Bool) (ls : List Nat) (x : V) (b : Bool) :
    lanesLeave F H ls (x, b) = ((lanesLeave F H ls (x, false)).1, b || (lanesLeave F H ls (x, false)).2) := by
  induction ls generalizing x b with
  | nil => simp [lanesLeave]
  | cons l ls ih =>
    rw [lanesLeave_cons, lanesLeave_cons, ih, ih (F l x) (false || H l x)]
    simp [Bool.or_assoc]

section
variable {V : Type} {s : State} {p size : Nat} {addr : Nat → Nat} {val : EngCore → Nat → V} {F : Nat → V → V} {H : Nat → V → Bool}
  {step : EngCore → Nat → EngCore} (h : LaneStep s p size addr val F H step)
include h

/-- The rest of the core. -/
theorem LaneStep.fold_rest {ls : List Nat} (hls : ∀ l ∈ ls, l < 4) (c : EngCore) : ls.foldl step c = { c with
    sram := (ls.foldl step c).sram, memTag := (ls.foldl step c).memTag, work := (ls.foldl step c).work,
    ovf := (ls.foldl step c).ovf, sticky := (ls.foldl step c).sticky } := by
  induction ls generalizing c with
  | nil => rfl
  | cons l ls ih =>
    rw [List.foldl_cons, ih (fun k hk => hls k (by simp [hk])) (step c l), h.rest c l (hls l (by simp))]

/-- The bytes that no lane's element holds. -/
theorem LaneStep.fold_bytes {ls : List Nat} (hls : ∀ l ∈ ls, l < 4) (c : EngCore) {b : Nat} (hb : b < 0x70000)
    (hapart : ∀ l < 4, b < addr l ∨ addr l + size ≤ b) : s.readElem p (ls.foldl step c) b 1 = s.readElem p c b 1 := by
  induction ls generalizing c with
  | nil => rfl
  | cons l ls ih =>
    have hl : l < 4 := hls l (by simp)
    rw [List.foldl_cons, ih (fun k hk => hls k (by simp [hk])), h.bytes c l hl b hb (hapart l hl)]

/-- The value of an element is what the lanes that name it leave. -/
theorem LaneStep.fold_val {ls : List Nat} (hls : ∀ l ∈ ls, l < 4) (c : EngCore) {k : Nat} (hk : k < 4) :
    val (ls.foldl step c) (addr k) =
      (lanesLeave F H (ls.filter (fun l => decide (addr l = addr k))) (val c (addr k), false)).1 := by
  induction ls generalizing c with
  | nil => rfl
  | cons l ls ih =>
    have hl : l < 4 := hls l (by simp)
    rw [List.foldl_cons, ih (fun k hk => hls k (by simp [hk]))]
    by_cases hsame : addr l = addr k
    · have hval := h.here c l hl
      rw [hsame] at hval
      rw [List.filter_cons_of_pos (by simpa using hsame), hval, lanesLeave_cons, lanesLeave_latch _ _ _ _ (false || _)]
    · rw [List.filter_cons_of_neg (by simpa using hsame), h.there c l hl k hk (Ne.symm hsame)]

/-- The OVF latch is up where it was, or a lane raised it. -/
theorem LaneStep.fold_ovf {ls : List Nat} (hls : ∀ l ∈ ls, l < 4) (c : EngCore) : (ls.foldl step c).ovf =
    ((List.range 4).any (fun k => (lanesLeave F H (ls.filter (fun l => decide (addr l = addr k))) (val c (addr k), false)).2) || c.ovf) := by
  induction ls generalizing c with
  | nil => simp [lanesLeave]
  | cons l ls ih =>
    have hl : l < 4 := hls l (by simp)
    have hlane : ∀ k < 4, (lanesLeave F H ((l :: ls).filter (fun l => decide (addr l = addr k))) (val c (addr k), false)).2 =
        ((lanesLeave F H (ls.filter (fun l => decide (addr l = addr k))) (val (step c l) (addr k), false)).2 ||
          (decide (addr l = addr k) && H l (val c (addr l)))) := fun k hk => by
      by_cases hsame : addr l = addr k
      · have hval := h.here c l hl
        rw [hsame] at hval
        rw [List.filter_cons_of_pos (by simpa using hsame), hval, hsame, lanesLeave_cons, lanesLeave_latch]
        simp [Bool.or_comm]
      · rw [List.filter_cons_of_neg (by simpa using hsame), h.there c l hl k hk (Ne.symm hsame)]
        simp [hsame]
    rw [List.foldl_cons, ih (fun k hk => hls k (by simp [hk])), h.ovf c l hl, ← Bool.or_assoc]
    congr 1
    rw [Bool.eq_iff_iff, Bool.or_eq_true, List.any_eq_true, List.any_eq_true]
    constructor
    · rintro (⟨k, hk, hlatch⟩ | hlatch)
      · exact ⟨k, hk, by rw [hlane k (List.mem_range.mp hk), hlatch, Bool.true_or]⟩
      · exact ⟨l, List.mem_range.mpr hl, by rw [hlane l hl, hlatch]; simp⟩
    · rintro ⟨k, hk, hlatch⟩
      rw [hlane k (List.mem_range.mp hk), Bool.or_eq_true, Bool.and_eq_true] at hlatch
      exact hlatch.imp (fun hlast => ⟨k, hk, hlast⟩) (fun hfirst => hfirst.2)

end

/-! ### The elements that a store may name (R129, R130) -/

/-- An aligned element of data SRAM or of the accumulator store. -/
def Element (a size : Nat) : Prop := (size = 2 ∨ size = 4 ∨ size = 8) ∧ a % size = 0 ∧ 0x20000 ≤ a ∧ a < 0x70000

theorem Element.writable {a size : Nat} (h : Element a size) : Writable a size := by
  obtain ⟨rfl | rfl | rfl, halign, hlow, hhigh⟩ := h <;> exact ⟨by omega, hlow, hhigh⟩

/-- Two elements of one size are the same or apart. -/
theorem Element.apart {a b size : Nat} (ha : Element a size) (hb : Element b size) (hne : b ≠ a) : b + size ≤ a ∨ a + size ≤ b := by
  obtain ⟨rfl | rfl | rfl, halign, -, -⟩ := ha <;> obtain ⟨-, halign', -, -⟩ := hb <;> omega

/-- The sizes of the formats. -/
theorem size_cases (f : Fmt) : f.size = 2 ∨ f.size = 4 ∨ f.size = 8 := by
  cases f <;> simp [Fmt.size]

/-- Where no address of a list raises a fault, none of its addresses does. -/
theorem accessFault_of_first {k : Acc} {size : Nat} {as : List Nat} (h : firstFault k size as = none) :
    ∀ a ∈ as, accessFault k a size = none := by
  induction as with
  | nil => simp
  | cons a as ih =>
    cases ha : accessFault k a size with
    | none => simpa [ha] using ih (by simpa [firstFault, ha] using h)
    | some code => simp [firstFault, ha] at h

/-- What the access rules allow an access that writes. -/
theorem reached_of_write {k : Acc} {a size : Nat} (hk : k ≠ .load) (h : accessFault k a size = none) :
    a % size = 0 ∧ 0x20000 ≤ a ∧ a < 0x70000 ∧ (k = .addHist → 0x60000 ≤ a) := by
  unfold accessFault at h
  simp only [if_neg hk] at h
  by_cases halign : a % size = 0
  · by_cases hring : a < 0x20000
    · simp [halign, hring] at h
    · by_cases hsram : a < 0x60000
      · simp only [halign, hring, hsram, if_true, if_false, ne_eq, not_true_eq_false] at h
        exact ⟨halign, by omega, by omega, fun hadd => by simp [hadd] at h⟩
      · by_cases hstore : a < 0x70000
        · exact ⟨halign, by omega, hstore, fun _ => by omega⟩
        · simp only [halign, hring, hsram, hstore, ne_eq, not_true_eq_false, if_false] at h
          split_ifs at h
  · simp [halign] at h

/-- What the access rules allow a store. -/
theorem element_of_store {a size : Nat} (hsize : size = 2 ∨ size = 4 ∨ size = 8) (h : accessFault .store a size = none) :
    Element a size := by
  obtain ⟨halign, hlow, hhigh, -⟩ := reached_of_write (by decide) h
  exact ⟨hsize, halign, hlow, hhigh⟩

/-- What they allow an add and a histogram update. -/
theorem element_of_addHist {a size : Nat} (hsize : size = 2 ∨ size = 4 ∨ size = 8) (h : accessFault .addHist a size = none) :
    Element a size ∧ 0x60000 ≤ a := by
  obtain ⟨halign, hlow, hhigh, hstore⟩ := reached_of_write (by decide) h
  exact ⟨⟨hsize, halign, hlow, hhigh⟩, hstore rfl⟩

/-- A write leaves all of the core but data SRAM, with its tags, and the working words. -/
theorem writeElem_rest (e : Engine) (c : EngCore) (a size x : Nat) (plain tag : Bool) : writeElem e c a size x plain tag = { c with
    sram := (writeElem e c a size x plain tag).sram, memTag := (writeElem e c a size x plain tag).memTag,
    work := (writeElem e c a size x plain tag).work } := by
  unfold writeElem
  split <;> rfl

/-- A lane that writes its element, and otherwise the OVF latch and the sticky bits alone. -/
theorem LaneStep.of_write {V : Type} {s : State} {p size : Nat} {addr : Nat → Nat} {val : EngCore → Nat → V} {F : Nat → V → V}
    {H : Nat → V → Bool} {step : EngCore → Nat → EngCore} (g : Nat → V) (x : EngCore → Nat → Nat) (plain tag : Bool)
    (hval : ∀ c a, val c a = g (s.readElem p c a size)) (haddr : ∀ l < 4, Element (addr l) size)
    (hstep : ∀ c, ∀ l < 4, ∃ ovf sticky, step c l =
      { writeElem (s.engOf p) c (addr l) size (x c l) plain tag with ovf := ovf, sticky := sticky })
    (hx : ∀ c, ∀ l < 4, g (x c l % 2 ^ (8 * size)) = F l (val c (addr l)))
    (hovf : ∀ c, ∀ l < 4, (step c l).ovf = (H l (val c (addr l)) || c.ovf)) : LaneStep s p size addr val F H step := by
  have hread : ∀ c, ∀ l < 4, ∀ b n, s.readElem p (step c l) b n =
      s.readElem p (writeElem (s.engOf p) c (addr l) size (x c l) plain tag) b n := fun c l hl b n => by
    obtain ⟨ovf, sticky, hc⟩ := hstep c l hl
    exact readElem_congr s p b n (by rw [hc]) (by rw [hc])
  refine { rest := fun c l hl => ?_, here := fun c l hl => ?_, there := fun c l hl k hk hne => ?_, bytes := fun c l hl b hb hapart => ?_,
           ovf := hovf }
  · obtain ⟨ovf, sticky, hc⟩ := hstep c l hl
    rw [hc, writeElem_rest]
  · rw [hval, hread c l hl, readElem_writeElem_same _ _ _ _ _ _ (haddr l hl).writable, hx c l hl]
  · obtain ⟨hword, -, hhigh⟩ := (haddr k hk).writable
    rw [hval, hval, hread c l hl,
      readElem_writeElem_apart _ _ _ _ _ _ (haddr l hl).writable hword hhigh ((haddr l hl).apart (haddr k hk) hne)]
  · rw [hread c l hl, readElem_writeElem_apart _ _ _ _ _ _ (haddr l hl).writable (by omega) hb (by omega)]

/-! ### The three stores, lane by lane -/

/-- The lane of a plain store. -/
theorem storeLane {s : State} {p : Nat} {f : Fmt} {addr : Nat → Nat} {v : Nat → Cx} (tag : Bool) (haddr : ∀ l < 4, Element (addr l) f.size)
    (hv : ∀ l < 4, Fits f (v l)) : LaneStep s p f.size addr (fun c a => f.decode (s.readElem p c a f.size)) (fun l _ => v l)
      (fun _ _ => false) (fun c l => writeElem (s.engOf p) c (addr l) f.size (f.encode (v l)) true tag) :=
  LaneStep.of_write f.decode (fun _ l => f.encode (v l)) true tag (fun _ _ => rfl) haddr
    (fun c l _ => ⟨_, _, rfl⟩) (fun _ l hl => decode_encode (hv l hl)) (fun c l _ => by rw [writeElem_rest]; rfl)

/-- A sum limited at the width of a format. -/
def limitedSum (f : Fmt) (u v : Cx) : Cx := { re := satSym (addCx u v).re f.width, im := satSym (addCx u v).im f.width }

/-- The symmetric limit of a width. -/
theorem satSym_lt (v : Int) {w : Nat} : (satSym v w).natAbs < 2 ^ (w - 1) := by
  have hpos : 0 < 2 ^ (w - 1) := Nat.two_pow_pos _
  unfold satSym clampInt
  generalize 2 ^ (w - 1) = n at *
  split
  · omega
  · split <;> omega

/-- Nothing is limited at 0. -/
theorem satSym_zero (w : Nat) : satSym 0 w = 0 := by
  have hpos : 0 < 2 ^ (w - 1) := Nat.two_pow_pos _
  unfold satSym clampInt
  generalize 2 ^ (w - 1) = n at *
  rw [if_neg (by omega), if_neg (by omega)]

/-- An element of a real format has no imaginary part. -/
theorem decode_im {f : Fmt} (h : f.complex = false) (x : Nat) : (f.decode x).im = 0 := by
  simp [Fmt.decode, h]

/-- A limited sum of an element and a value that fits fits. -/
theorem fits_limitedSum {f : Fmt} {v : Cx} (h : Fits f v) (x : Nat) : Fits f (limitedSum f (f.decode x) v) := by
  obtain ⟨-, -, hreal⟩ := h
  refine ⟨satSym_lt _, satSym_lt _, fun hf => ?_⟩
  simp [limitedSum, addCx, decode_im hf, hreal hf, satSym_zero]

/-- A sum was limited where one of its components was. -/
theorem limitedSum_ne (f : Fmt) (u v : Cx) :
    decide (limitedSum f u v ≠ addCx u v) = (satSymHit (addCx u v).re f.width || satSymHit (addCx u v).im f.width) := by
  unfold limitedSum satSymHit
  generalize addCx u v = z
  obtain ⟨re, im⟩ := z
  by_cases hre : satSym re f.width = re <;> simp [hre]

/-- An add writes the limited sum, and raises the OVF latch where the limit changed it. -/
theorem addElem_eq (s : State) (p : Nat) (c : EngCore) (f : Fmt) {a : Nat} (v : Cx) (tag : Bool) (h : 0x60000 ≤ a) (h' : a < 0x70000) :
    let u := f.decode (s.readElem p c a f.size)
    let w := writeElem (s.engOf p) c a f.size (f.encode (limitedSum f u v)) false tag
    addElem (s.engOf p) c f a v tag = { w with ovf := decide (limitedSum f u v ≠ addCx u v) || c.ovf } := by
  intro u w
  have hadd : addElem (s.engOf p) c f a v tag =
      if satSymHit (addCx u v).re f.width || satSymHit (addCx u v).im f.width then { w with ovf := true } else w := by
    simp only [w, u, readElem_store s p f.size c h h']
    rfl
  have hovf : w.ovf = c.ovf := by rw [show w = _ from writeElem_rest ..]
  rw [hadd, limitedSum_ne]
  cases satSymHit (addCx u v).re f.width || satSymHit (addCx u v).im f.width with
  | true => rfl
  | false => rw [Bool.false_or, ← hovf, if_neg Bool.false_ne_true]

/-- The lane of an add. -/
theorem addLane {s : State} {p : Nat} {f : Fmt} {addr : Nat → Nat} {v : Nat → Cx} (tag : Bool)
    (haddr : ∀ l < 4, Element (addr l) f.size ∧ 0x60000 ≤ addr l) (hv : ∀ l < 4, Fits f (v l)) :
    LaneStep s p f.size addr (fun c a => f.decode (s.readElem p c a f.size)) (fun l u => limitedSum f u (v l))
      (fun l u => decide (limitedSum f u (v l) ≠ addCx u (v l))) (fun c l => addElem (s.engOf p) c f (addr l) (v l) tag) := by
  refine LaneStep.of_write f.decode (fun c l => f.encode (limitedSum f (f.decode (s.readElem p c (addr l) f.size)) (v l))) false tag
    (fun _ _ => rfl) (fun l hl => (haddr l hl).1) (fun c l hl => ?_) (fun c l hl => ?_) (fun c l hl => ?_)
  · exact ⟨_, _, addElem_eq s p c f (v l) tag (haddr l hl).2 (haddr l hl).1.2.2.2⟩
  · exact decode_encode (fits_limitedSum (hv l hl) _)
  · rw [addElem_eq s p c f (v l) tag (haddr l hl).2 (haddr l hl).1.2.2.2]

/-- A histogram update writes the counter's next value, and raises the OVF latch where the counter was full. -/
theorem histElem_eq (s : State) (p : Nat) (c : EngCore) {a : Nat} (h : 0x60000 ≤ a) (h' : a < 0x70000) :
    let u := s.readElem p c a 2
    let w := writeElem (s.engOf p) c a 2 (min (u + 1) 65535) false false
    histElem (s.engOf p) c a = { w with
      ovf := decide (u = 65535) || c.ovf, sticky := if u = 65535 then w.sticky ||| 2 ^ stHistSat else w.sticky } := by
  intro u w
  have hhist : histElem (s.engOf p) c a = w.satIf (decide (u = 65535)) stHistSat := by
    simp only [w, u, readElem_store s p 2 c h h']
    rfl
  have hovf : w.ovf = c.ovf := by rw [show w = _ from writeElem_rest ..]
  rw [hhist, satIf_eq, hovf]
  simp

/-- The lane of a histogram update. -/
theorem histLane {s : State} {p : Nat} {addr : Nat → Nat} (haddr : ∀ l < 4, Element (addr l) 2 ∧ 0x60000 ≤ addr l) :
    LaneStep s p 2 addr (fun c a => s.readElem p c a 2) (fun _ u => min (u + 1) 65535)
      (fun _ u => decide (u = 65535)) (fun c l => histElem (s.engOf p) c (addr l)) := by
  refine LaneStep.of_write id (fun c l => min (s.readElem p c (addr l) 2 + 1) 65535) false false
    (fun _ _ => rfl) (fun l hl => (haddr l hl).1) (fun c l hl => ?_) (fun c l hl => ?_) (fun c l hl => ?_)
  · exact ⟨_, _, histElem_eq s p c (haddr l hl).2 (haddr l hl).1.2.2.2⟩
  · exact Nat.mod_eq_of_lt (by omega)
  · rw [histElem_eq s p c (haddr l hl).2 (haddr l hl).1.2.2.2]

/-! ### What four lanes leave -/

/-- The core of an access that counts its words, advances its generator and tracks the headroom. -/
theorem access_eq (cur pre : EngCore) (ws : List Nat) (g : Fin 4) (pi on : Bool) (h : Nat) :
    (({ cur with words := ws }.stepAg pre g pi).track on h) = { cur with
      words := ws, ag := if pi then instSet AddrGen.zero cur.ag g { cur.agen g with off := (pre.agen g).advance.off } else cur.ag,
      bexp := if on then min cur.bexp h else cur.bexp } := by
  cases pi <;> cases on <;> rfl

/-- The lanes that name an element. -/
def lanesAt (as : List Nat) (a : Nat) : List Nat := (List.range 4).filter (fun l => decide (as[l]? = some a))

/-- They are those with its address. -/
theorem lanesAt_map (addr : Nat → Nat) (a : Nat) :
    lanesAt ((List.range 4).map addr) a = (List.range 4).filter (fun l => decide (addr l = a)) :=
  List.filter_congr fun l hl => by simp [List.mem_range.mp hl]

/-- The core after four lanes and the flag of a scaler that limited: every element that a lane names has the value that its lanes
leave, and no other byte changes. -/
theorem LaneStep.stored {V : Type} {s : State} {p size : Nat} {addr : Nat → Nat} {val : EngCore → Nat → V} {F : Nat → V → V}
    {H : Nat → V → Bool} {step : EngCore → Nat → EngCore} (h : LaneStep s p size addr val F H step)
    (hval : ∀ c c' a, c'.sram = c.sram → c'.work = c.work → val c' a = val c a) (cur pre : EngCore) (ws : List Nat) (g : Fin 4)
    (pi on : Bool) (head : Nat) (sat : Bool) {ovf : Bool} (hlatch : (sat || ((List.range 4).map addr).any (fun a =>
      (lanesLeave F H (lanesAt ((List.range 4).map addr) a) (val cur a, false)).2) || cur.ovf) = ovf) :
    let as := (List.range 4).map addr
    let leave := fun a => lanesLeave F H (lanesAt as a) (val cur a, false)
    let core := ((List.range 4).foldl step (({ cur with words := ws }.stepAg pre g pi).track on head)).satIf sat stMovSat
    (∀ a ∈ as, val core a = (leave a).1) ∧
      (∀ b < 0x70000, (∀ a ∈ as, b < a ∨ a + size ≤ b) → s.readElem p core b 1 = s.readElem p cur b 1) ∧
      core = { cur with
        sram := core.sram, memTag := core.memTag, work := core.work, sticky := core.sticky, words := core.words,
        ag := if pi then instSet AddrGen.zero cur.ag g { cur.agen g with off := (pre.agen g).advance.off } else cur.ag,
        bexp := if on then min cur.bexp head else cur.bexp, ovf := ovf } := by
  subst hlatch
  intro as leave
  have hc := access_eq cur pre ws g pi on head
  generalize ({ cur with words := ws }.stepAg pre g pi).track on head = c at hc ⊢
  intro core
  have hls : ∀ l ∈ List.range 4, l < 4 := fun l hl => List.mem_range.mp hl
  have hsram : c.sram = cur.sram := by rw [hc]
  have hwork : c.work = cur.work := by rw [hc]
  have hovf : c.ovf = cur.ovf := by rw [hc]
  have hleave : ∀ k ∈ List.range 4, leave (addr k) =
      lanesLeave F H ((List.range 4).filter (fun l => decide (addr l = addr k))) (val c (addr k), false) :=
    fun k _ => by simp only [leave, as, lanesAt_map, hval _ _ _ hsram hwork]
  have hfold := fun (k : Nat) (hk : k ∈ List.range 4) => (h.fold_val hls c (hls k hk)).trans (congrArg Prod.fst (hleave k hk).symm)
  have hbytes := fun (b : Nat) (hb : b < 0x70000) => h.fold_bytes hls c hb
  have hraised : ((List.range 4).foldl step c).ovf = (as.any (fun a => (leave a).2) || c.ovf) := by
    rw [h.fold_ovf hls c, List.any_map]
    congr 1
    rw [Bool.eq_iff_iff, List.any_eq_true, List.any_eq_true]
    exact exists_congr fun k => and_congr_right fun hk => by rw [Function.comp_apply, hleave k hk]
  have hrest := h.fold_rest hls c
  have hcore : core = _ := satIf_eq ((List.range 4).foldl step c) sat stMovSat
  generalize (List.range 4).foldl step c = u at *
  have hcoreSram : core.sram = u.sram := by rw [hcore]
  have hcoreWork : core.work = u.work := by rw [hcore]
  refine ⟨fun a ha => ?_, fun b hb hapart => ?_, ?_⟩
  · obtain ⟨k, hk, rfl⟩ := List.mem_map.mp ha
    rw [hval u core _ hcoreSram hcoreWork, hfold k hk]
  · rw [readElem_congr s p b 1 hcoreSram hcoreWork,
      hbytes b hb fun l hl => hapart _ (List.mem_map.mpr ⟨l, List.mem_range.mpr hl, rfl⟩), readElem_congr s p b 1 hsram hwork]
  · rw [hcore, Bool.or_assoc, ← hovf, ← hraised, hrest, hc]

end Sys2Proof
end

section
/-! PROOFS. The statement of 05_engine_datapath.md on the memory slots (O20): the five slots, and the statement. -/

namespace Sys2Proof

open Sys2Proof.Machine

/-! ### Values for a store (R131, R146) -/

/-- A lane of a vector from its lanes. -/
theorem lane_of (g : Nat → Cx) {l : Nat} (hl : l < 4) : (Quad.of g).lane l = g l := by
  obtain rfl | rfl | rfl | rfl : l = 0 ∨ l = 1 ∨ l = 2 ∨ l = 3 := by omega
  all_goals rfl

/-- The scaler leaves 0. -/
theorem scaleComp_zero (sh : Int) (w : Nat) : scaleComp sh w 0 = 0 := by
  have hround : ∀ k : Nat, roundEven 0 k = 0 := fun k => by simp [roundEven, roundEvenDiv]
  unfold scaleComp scaleRaw
  split
  · rw [hround, satSym_zero]
  · rw [Int.zero_mul, satSym_zero]

/-- What a store writes fits its format. -/
theorem fits_storeValue (pre : EngCore) (x : StSlot) (f : Fmt) {l : Nat} (hl : l < 4) : Fits f ((storeValue pre x f).1.lane l) := by
  simp only [storeValue, scaleQuad, lane_of _ hl]
  refine ⟨satSym_lt _, satSym_lt _, fun hf => ?_⟩
  simp only [hf, Bool.false_eq_true, if_false, realQuad, lane_of _ hl, scaleComp_zero]

/-! ### The slots -/

/-- Lane addresses, by lane. -/
theorem laneAddrs_getD (g : AddrGen) (size : Nat) {l : Nat} (hl : l ∈ List.range 4) : (laneAddrs g size).getD l 0 = g.addr size l := by
  simp [laneAddrs, List.getD, List.mem_range.mp hl]

/-- A format that its code names. -/
theorem needFmt_ok {code : Nat} {f : Fmt} (h : fmtOf code = some f) : needFmt code = .ok f := by
  rw [needFmt, h]

/-- Addresses that raise no fault. -/
theorem checkAddrs_ok {k : Acc} {size : Nat} {as : List Nat} (h : firstFault k size as = none) : checkAddrs k size as = .ok () := by
  rw [checkAddrs, h]

/-- The ST slot. -/
theorem storeSlot_ok {s : State} {x : StSlot} {e : Engine} {pre cur : EngCore} {f : Fmt} (hf : fmtOf x.fmt = some f)
    (hfault : firstFault .store f.size (laneAddrs (pre.agen x.ag) f.size) = none) :
    s.storeSlot x e pre cur = .ok (((List.range 4).foldl (fun c l => writeElem e c ((pre.agen x.ag).addr f.size l) f.size
        (f.encode ((storeValue pre x f).1.lane l)) true (storeOvf pre x))
      (({ cur with words := addWords cur.words (laneAddrs (pre.agen x.ag) f.size) }.stepAg pre x.ag x.pi).track (x.bx && x.fromA)
        (storeValue pre x f).2.2)).satIf (storeValue pre x f).2.1 stMovSat) := by
  have hlanes := fun (c : EngCore) => List.foldl_ext
    (fun c l => writeElem e c ((laneAddrs (pre.agen x.ag) f.size).getD l 0) f.size (f.encode ((storeValue pre x f).1.lane l)) true (storeOvf pre x))
    (fun c l => writeElem e c ((pre.agen x.ag).addr f.size l) f.size (f.encode ((storeValue pre x f).1.lane l)) true (storeOvf pre x))
    c (l := List.range 4) fun u l hl => by rw [laneAddrs_getD _ _ hl]
  rw [← hlanes]
  simp only [State.storeSlot, needFmt_ok hf, checkAddrs_ok hfault, bind, Except.bind]
  rfl

/-- The ST slot with ST.ADD. -/
theorem addSlot_ok {s : State} {x : StSlot} {e : Engine} {pre cur : EngCore} {f : Fmt} (hf : fmtOf x.fmt = some f)
    (hfault : firstFault .addHist f.size (laneAddrs (pre.agen x.ag) f.size) = none) :
    s.addSlot x e pre cur = .ok (((List.range 4).foldl (fun c l => addElem e c f ((pre.agen x.ag).addr f.size l)
        ((storeValue pre x f).1.lane l) (storeOvf pre x))
      (({ cur with words := addWords cur.words (laneAddrs (pre.agen x.ag) f.size) }.stepAg pre x.ag x.pi).track (x.bx && x.fromA)
        (storeValue pre x f).2.2)).satIf (storeValue pre x f).2.1 stMovSat) := by
  have hlanes := fun (c : EngCore) => List.foldl_ext
    (fun c l => addElem e c f ((laneAddrs (pre.agen x.ag) f.size).getD l 0) ((storeValue pre x f).1.lane l) (storeOvf pre x))
    (fun c l => addElem e c f ((pre.agen x.ag).addr f.size l) ((storeValue pre x f).1.lane l) (storeOvf pre x))
    c (l := List.range 4) fun u l hl => by rw [laneAddrs_getD _ _ hl]
  rw [← hlanes]
  simp only [State.addSlot, needFmt_ok hf, checkAddrs_ok hfault, bind, Except.bind]
  rfl

/-- The ST slot with ST.HIST. -/
theorem histSlot_ok {s : State} {x : StSlot} {e : Engine} {pre cur : EngCore} {addr : Nat → Nat}
    (haddr : ∀ l, addr l = (pre.agen x.ag).addr 2 l + 2 * histLevel pre ((pre.vreg x.vs).lane l).re)
    (hfault : firstFault .addHist 2 ((List.range 4).map addr) = none) :
    s.histSlot x e pre cur = .ok (((List.range 4).foldl (fun c l => histElem e c (addr l))
      (({ cur with words := addWords cur.words ((List.range 4).map addr) }.stepAg pre x.ag x.pi).track false 0)).satIf false stMovSat) := by
  obtain rfl : addr = fun l => (pre.agen x.ag).addr 2 l + 2 * histLevel pre ((pre.vreg x.vs).lane l).re := funext haddr
  simp only [State.histSlot, checkAddrs_ok hfault, bind, Except.bind, List.foldl_map]
  rfl

/-- A generator that post-increments (R155). -/
theorem stepAg_eq (c pre : EngCore) (g : Nat) (on : Bool) : c.stepAg pre g on = { c with
    ag := if on then instSet AddrGen.zero c.ag g { c.agen g with off := (pre.agen g).advance.off } else c.ag } := by
  cases on <;> rfl

/-- The LD slot. -/
theorem loadSlot_ok {s : State} {p : Nat} {x : LdSlot} {e : Engine} {pre cur : EngCore} {f : Fmt} (hf : fmtOf x.fmt = some f)
    (hfault : firstFault .load f.size (laneAddrs (pre.agen x.ag) f.size) = none)
    (hsigma : s.badSigma p (laneAddrs (pre.agen x.ag) f.size) = false) :
    let as := laneAddrs (pre.agen x.ag) f.size
    let win := as.any (fun a => decide (0x80000 ≤ a))
    let c := { cur with
      words := if win then cur.words else addWords cur.words as, window := cur.window || win,
      reads := cur.reads ++ s.windowReads p as,
      ag := if x.pi then instSet AddrGen.zero cur.ag x.ag { cur.agen x.ag with off := (pre.agen x.ag).advance.off } else cur.ag }
    let vals := Quad.of (fun l => f.decode (s.readElem p pre ((pre.agen x.ag).addr f.size l) f.size))
    let tag := as.any (fun a => s.elemOvf p pre a f.size)
    s.loadSlot p x e pre cur = .ok (if x.toA then c.putA vals tag else
      (c.putV x.vd (Quad.of (fun l => (f.toV (vals.lane l)).1)) tag).satIf (vals.list.any (fun v => (f.toV v).2)) stMovSat) := by
  intro as win c vals tag
  have hvals : Quad.of (fun l => f.decode (s.readElem p pre (as.getD l 0) f.size)) = vals := Quad.of_congr fun l hl => by
    rw [laneAddrs_getD _ _ (List.mem_range.mpr hl)]
  simp only [State.loadSlot, needFmt_ok hf, checkAddrs_ok hfault, hsigma, bind, Except.bind, Bool.false_eq_true, if_false]
  rw [stepAg_eq, ← hvals]
  cases x.toA <;> rfl

/-- A V register carries the mark with which it was written. -/
theorem vOvf_putV (c : EngCore) (i : Nat) (q : Quad) (tag : Bool) : (c.putV i q tag).vOvf i = tag := by
  cases tag <;> simp [EngCore.putV, EngCore.vOvf, markIn]

/-- The PUSH slot. -/
theorem pushSlot_ok {s : State} {x : StSlot} {e : Engine} {pre cur : EngCore} {f : Fmt} {prod n : Nat} (hf : fmtOf x.fmt = some f)
    (hrec : cur.orec = some (prod, n)) :
    let v := storeValue pre x f
    let items := pushEntries f x.fmt (storeOvf pre x) v.1
    n + items.length ≤ 8192 → entryCount cur.fifoW + items.length ≤ 2048 →
    s.pushSlot x e pre cur = .ok { cur with
      fifoW := cur.fifoW ++ items, orec := some (prod, n + items.length),
      bexp := if x.bx && x.fromA then min cur.bexp v.2.2 else cur.bexp, ovf := v.2.1 || cur.ovf,
      sticky := if v.2.1 then cur.sticky ||| 2 ^ stMovSat else cur.sticky } := by
  intro v items hroom hcommit
  have hlegal : illegalIf (decide (8192 < n + items.length)) = .ok () := if_neg (by simpa using hroom)
  have hpush : s.pushSlot x e pre cur = .ok (({ cur with fifoW := cur.fifoW ++ items, orec := some (prod, n + items.length) }.track
      (x.bx && x.fromA) v.2.2).satIf v.2.1 stMovSat) := by
    simp only [items, v] at hlegal hcommit
    simp only [State.pushSlot, needFmt_ok hf, hrec, bind, Except.bind, hlegal, if_neg (Nat.not_lt.mpr hcommit)]
    rfl
  rw [hpush, satIf_eq, track_eq]

/-- Entries packed for the FIFO are entries. -/
theorem entryCount_pushEntries (f : Fmt) (code : Nat) (ovf : Bool) (q : Quad) (items : List FifoItem) :
    entryCount (items ++ pushEntries f code ovf q) = entryCount items + (pushEntries f code ovf q).length := by
  refine (List.countP_append ..).trans (congrArg (entryCount items + ·) (List.countP_eq_length.mpr fun y hy => ?_))
  obtain ⟨i, -, rfl⟩ := List.mem_map.mp hy
  rfl

/-- An engine stalls where its FIFO holds too many entries (R175). -/
theorem stallPush_one {s : State} {p : Nat} {e : Engine} {full : Bool} (hstall : e.stall = none)
    (hfull : 2048 < entryCount e.fifo + entryCount e.cur.fifoW ↔ full = true) :
    OneEngine s p { e with stall := if full then some .push else none } ((s.setEng p e).stallPush p) := by
  unfold State.stallPush
  simp only [engOf_setEng, if_true, hfull]
  cases full with
  | true => exact (OneEngine.setEng ..).again _
  | false =>
    have hsame : ({ e with stall := none } : Engine) = e := by rw [← hstall]
    rw [if_neg Bool.false_ne_true, if_neg Bool.false_ne_true, hsame]
    exact .setEng ..

/-! ### What lanes leave of an element -/

/-- The lanes that name an element are some. -/
theorem lanesAt_ne_nil {addr : Nat → Nat} {a : Nat} (h : a ∈ (List.range 4).map addr) : lanesAt ((List.range 4).map addr) a ≠ [] := by
  obtain ⟨k, hk, rfl⟩ := List.mem_map.mp h
  rw [lanesAt_map]
  exact List.ne_nil_of_mem (List.mem_filter.mpr ⟨hk, by simp⟩)

/-- Stores leave the last value, and raise no latch. -/
theorem lanesLeave_store {V : Type} (v : Nat → V) (ls : List Nat) (u : V) :
    lanesLeave (fun l _ => v l) (fun _ _ => false) ls (u, false) = ((ls.getLast?.map v).getD u, false) := by
  induction ls generalizing u with
  | nil => rfl
  | cons l ls ih =>
    rw [lanesLeave_cons, Bool.or_false, ih, List.getLast?_cons]
    cases ls.getLast? <;> rfl

theorem lanesLeave_store_last {V : Type} (v : Nat → V) {ls : List Nat} (h : ls ≠ []) (u : V) :
    some (lanesLeave (fun l _ => v l) (fun _ _ => false) ls (u, false)).1 = ls.getLast?.map v := by
  rw [lanesLeave_store, List.getLast?_eq_some_getLast h]
  rfl

theorem lanesLeave_store_latch {V : Type} (v : Nat → V) (as : List Nat) (ls : Nat → List Nat) (u : Nat → V) :
    as.any (fun a => (lanesLeave (fun l _ => v l) (fun _ _ => false) (ls a) (u a, false)).2) = false := by
  simp only [lanesLeave_store]
  exact List.any_eq_false.mpr fun _ _ => Bool.false_ne_true

/-- Histogram updates leave the count, limited, and raise the latch where it is. -/
theorem lanesLeave_hist (ls : List Nat) {u : Nat} (hu : u ≤ 65535) :
    lanesLeave (fun _ u => min (u + 1) 65535) (fun _ u => decide (u = 65535)) ls (u, false) =
      (min (u + ls.length) 65535, decide (65535 < u + ls.length)) := by
  induction ls generalizing u with
  | nil =>
    have hfits : ¬ 65535 < u := by omega
    simp [lanesLeave, hfits, hu]
  | cons l ls ih =>
    rw [lanesLeave_cons, lanesLeave_latch, ih (by omega), List.length_cons, Bool.false_or]
    refine congrArg₂ Prod.mk (by omega) ?_
    rw [Bool.eq_iff_iff, Bool.or_eq_true, decide_eq_true_eq, decide_eq_true_eq, decide_eq_true_eq]
    omega

/-- A counter of 16 bits. -/
theorem readElem_le (s : State) (p : Nat) (c : EngCore) {a : Nat} (h : Element a 2 ∧ 0x60000 ≤ a) : s.readElem p c a 2 ≤ 65535 := by
  obtain ⟨⟨-, -, -, hhigh⟩, hlow⟩ := h
  rw [readElem_store s p 2 c hlow hhigh]
  exact Nat.le_of_lt_succ (Nat.mod_lt _ (by decide))

/-! ### The statement -/

/-- Whether some element of a list meets a condition depends on the condition at its elements. -/
theorem any_congr_mem {α : Type} {as : List α} {f g : α → Bool} (h : ∀ a ∈ as, f a = g a) : as.any f = as.any g := by
  rw [Bool.eq_iff_iff, List.any_eq_true, List.any_eq_true]
  exact exists_congr fun a => and_congr_right fun ha => by rw [h a ha]

/-- Settles O20: the load, the three stores by what four lanes leave of the elements that they name, and the push. -/
theorem memorySlotsReachTheirElements : Obligations.MemorySlotsReachTheirElements := by
  intro s p e pre cur next stepped addrs lanesAt' others stored limited
  refine ⟨fun x f hi hf hfault hsigma hstalls => ?_, fun x f hf => ⟨fun hi hfault => ?_, fun hi hfault => ?_⟩, fun x hi => ?_,
    fun x f prod n hi hf hrec => ?_⟩
  · have hexec : exec (.load p x .clean) s = Machine.done (s.slot p (.load x) (s.loadSlot p x)) :=
      congrArg Machine.done ((if_neg (by simp [hstalls])).trans (if_pos hi))
    refine ⟨_, SlotGives.of_ok hexec hi (loadSlot_ok hf hfault hsigma), ?_⟩
    cases hA : x.toA with
    | true =>
      exact ⟨rfl, fun _ => ⟨rfl, rfl, rfl, rfl, rfl⟩, fun hV => absurd hV (by decide)⟩
    | false =>
      rw [if_neg Bool.false_ne_true, satIf_eq]
      exact ⟨rfl, fun hV => absurd hV (by decide), fun _ => ⟨rfl, rfl, vOvf_putV cur x.vd Quad.zero _, rfl, rfl⟩⟩
  · have haddr : ∀ l < 4, Element ((pre.agen x.ag).addr f.size l) f.size := fun l hl =>
      element_of_store (size_cases f) (accessFault_of_first hfault _ (List.mem_map.mpr ⟨l, List.mem_range.mpr hl, rfl⟩))
    obtain ⟨hval, hothers, hrest⟩ := (storeLane (s := s) (p := p) (storeOvf pre x) haddr fun l hl => fits_storeValue pre x f hl).stored
      (fun c c' a hs hw => by simp only [readElem_congr s p a f.size hs hw]) cur pre (addWords cur.words (addrs x.ag f)) x.ag x.pi
      (x.bx && x.fromA) (storeValue pre x f).2.2 (storeValue pre x f).2.1 (ovf := (storeValue pre x f).2.1 || cur.ovf)
      (by rw [lanesLeave_store_latch, Bool.or_false])
    refine ⟨_, SlotGives.of_ok rfl hi (storeSlot_ok hf hfault), fun a ha => ?_, hothers, hrest⟩
    exact (congrArg some (hval a ha)).trans (lanesLeave_store_last _ (lanesAt_ne_nil ha) _)
  · have haddr : ∀ l < 4, Element ((pre.agen x.ag).addr f.size l) f.size ∧ 0x60000 ≤ (pre.agen x.ag).addr f.size l := fun l hl =>
      element_of_addHist (size_cases f) (accessFault_of_first hfault _ (List.mem_map.mpr ⟨l, List.mem_range.mpr hl, rfl⟩))
    obtain ⟨hval, hothers, hrest⟩ := (addLane (s := s) (p := p) (storeOvf pre x) haddr fun l hl => fits_storeValue pre x f hl).stored
      (fun c c' a hs hw => by simp only [readElem_congr s p a f.size hs hw]) cur pre (addWords cur.words (addrs x.ag f)) x.ag x.pi
      (x.bx && x.fromA) (storeValue pre x f).2.2 (storeValue pre x f).2.1 rfl
    exact ⟨_, SlotGives.of_ok (congrArg Machine.done (if_pos hi)) hi (addSlot_ok hf hfault), hval, hothers, hrest⟩
  · intro as hits hfault
    have haddr : ∀ l < 4, _ := fun l hl =>
      element_of_addHist (.inl rfl) (accessFault_of_first hfault _ (List.mem_map.mpr ⟨l, List.mem_range.mpr hl, rfl⟩))
    have hcounts : ∀ a ∈ as, lanesLeave (fun _ u => min (u + 1) 65535) (fun _ u => decide (u = 65535)) (lanesAt as a)
        (s.readElem p cur a 2, false) = (min (hits a) 65535, decide (65535 < hits a)) := fun a ha => by
      obtain ⟨k, hk, rfl⟩ := List.mem_map.mp ha
      exact lanesLeave_hist _ (readElem_le s p cur (haddr k (List.mem_range.mp hk)))
    obtain ⟨hval, hothers, hrest⟩ := (histLane (s := s) (p := p) haddr).stored
      (fun c c' a hs hw => readElem_congr s p a 2 hs hw) cur pre (addWords cur.words as) x.ag x.pi false 0 false
      (ovf := as.any (fun a => decide (65535 < hits a)) || cur.ovf)
      (congrArg (· || cur.ovf) (any_congr_mem fun a ha => congrArg Prod.snd (hcounts a ha)))
    exact ⟨_, SlotGives.of_ok rfl hi (histSlot_ok (fun _ => rfl) hfault), fun a ha => (hval a ha).trans (congrArg Prod.fst (hcounts a ha)),
      hothers, hrest⟩
  · intro v items hroom hcommit full
    have hslot := slot_ok hi (pushSlot_ok (s := s) (e := e) (pre := pre) hf hrec hroom hcommit)
    have hexec : exec (.push p x) s = Machine.done ((s.slot p (.store 4 x) (s.pushSlot x)).stallPush p) := congrArg Machine.done (if_pos hi)
    have hstall : e.stall = none := stall_of_issuesOp hi
    rw [hslot] at hexec
    have hcount : 2048 < entryCount e.fifo + entryCount (cur.fifoW ++ items) ↔ full = true := by
      rw [entryCount_pushEntries, ← Nat.add_assoc, decide_eq_true_eq]
    obtain ⟨t, hnext, ⟨heng, hothers⟩, hkeeps⟩ := Runs.oneEngine hexec (stallPush_one hstall hcount)
    exact ⟨t, hnext, ⟨hothers, heng⟩, hkeeps⟩

end Sys2Proof
end

section
/-! PROOFS. The statements on the derived signals (O2, O3) and on the log under the watchdog (O4): every command that completes
settles them last, and a settled state has them as R212, R425 and R537 say. -/

namespace Sys2Proof

open Sys2Proof.Machine

/-! ### A settled state has the signals (R212, R425, R537) -/

/-- Settling keeps the bits of VREG_STAT that VREG_ALERT_CFG selects: SMB_EN selects none above bit 5, and ALERT is bit 8. -/
theorem settle_selectedAlerts (s : State) :
    (s.settle.reg VREG_STAT.addr).toNat &&& s.settle.fld VREG_ALERT_CFG_SMB_EN =
      (s.reg VREG_STAT.addr).toNat &&& s.fld VREG_ALERT_CFG_SMB_EN := by
  rw [settle_fld s _ (by decide)]
  refine Nat.eq_of_testBit_eq fun i => ?_
  rw [Nat.testBit_and, Nat.testBit_and, State.fld, testBit_wordBits]
  by_cases hi : i < 6
  · have hquiet : ∀ j < 6, quiet { addr := VREG_STAT.addr, lo := j, width := 1 } = true := by decide
    have hbit : (s.settle.reg VREG_STAT.addr).toNat.testBit i = (s.reg VREG_STAT.addr).toNat.testBit i :=
      reg_bit_congr (settle_fld s _ (hquiet i hi))
    rw [hbit]
  · simp [VREG_ALERT_CFG_SMB_EN, hi]

/-- Settling brings every derived signal to what its conditions say. -/
theorem signals_settle (s : State) : Signals s.settle := by
  refine ⟨?_, settle_supFault s, settle_hostFault s, settle_alert s, fun halert => ?_, fun v hv => settle_req s hv⟩
  · rw [settle_pins_fault, settle_faultCond]
  · rw [settle_selectedAlerts]
    exact settle_smbAlert s halert

/-! ### Every command settles -/

/-- An outcome whose next state, where it has one, is a settled state. -/
def Settles (o : Host.Outcome State Fault Refusal) : Prop := ∀ t, o = .next t → ∃ u : State, t = u.settle

/-- An outcome that `done` gives settles. -/
theorem settles_done (u : State) : Settles (Machine.done u) := fun _ h => ⟨u, (Host.Outcome.next.inj h).symm⟩

/-- A retraining window settles at its begin and at its end. -/
theorem settles_retrainWindow (sub : Fin 16) (ends : Option Eye) (s : State) : Settles (execRetrainWindow sub ends s) := by
  cases ends with
  | none => exact settles_done _
  | some found => exact settles_done _

/-- An overvoltage stop settles, or the machine stops above the absolute maximum of VIN. -/
theorem settles_overvoltageStop (mv : Nat) (s : State) : Settles (execOvervoltageStop mv s) := by
  unfold execOvervoltageStop
  split
  · exact fun _ h => nomatch h
  · exact settles_done _

/-- A TAP instruction settles, or is refused where the spec does not give its effect. -/
theorem settles_tapInstruction (i : TapInstr) (s : State) : Settles (execTapInstruction i s) := by
  unfold execTapInstruction
  split
  · exact settles_done _
  · split
    · split
      · exact fun _ h => nomatch h
      · exact settles_done _
    · exact settles_done _
    · exact settles_done _

/-- Every command settles: all but three are `done` of a state by definition. -/
theorem settles_exec (c : Instr) (s : State) : Settles (exec c s) := by
  cases c with
  | retrainWindow sub ends => exact settles_retrainWindow sub ends s
  | overvoltageStop mv => exact settles_overvoltageStop mv s
  | tapInstruction i => exact settles_tapInstruction i s
  | _ => exact settles_done _

/-- A command that completes leaves the derived signals as their conditions are, whatever they were before. -/
theorem signals_of_exec {c : Instr} {s t : State} (h : exec c s = .next t) : Signals t := by
  obtain ⟨u, rfl⟩ := settles_exec c s t h
  exact signals_settle u

/-- Settles O2: a step idles, or runs a command, which settles. -/
theorem everyStepKeepsTheDerivedSignals : Obligations.EveryStepKeepsTheDerivedSignals := by
  intro s t hs hstep
  unfold Machine.step at hstep
  split at hstep
  · exact Host.Outcome.next.inj hstep ▸ hs
  · exact signals_of_exec hstep

/-! ### Reset -/

/-- After reset no vector is active: DMA_DONE and every enable of an interrupt source read 0. -/
theorem reset_vectorActive (v : Nat) : State.reset.vectorActive v = false := by
  have hdone : State.reset.reg HOST_DMA_DONE_DONE.addr = 0 := by decide
  have henable : ∀ x ∈ intSources, State.reset.reg x.2.2 = 0 := by decide
  unfold State.vectorActive
  split
  · simp [State.bitSet, State.fld, Field.bit, hdone, wordBits]
  · rw [List.any_eq_false]
    intro x hx
    simp [henable x hx]

/-- Settles O3: after reset no condition of FAULT_N holds, nothing is asserted, and no vector is active. -/
theorem resetHasTheDerivedSignals : Obligations.ResetHasTheDerivedSignals := by
  have hreq : State.reset.reg HOST_INT_REQ_REQ.addr = 0 := by decide
  refine ⟨by decide, by decide, by decide, by decide, fun h => absurd h (by decide), fun v _ => ?_⟩
  rw [reset_vectorActive]
  simp [State.bitSet, State.fld, Field.bit, hreq, wordBits]

/-! ### The watchdog and the log (R212, R466) -/

/-- While SUP_STAT.WDOG is set, logging changes nothing. -/
theorem logEvent_of_wdog {s : State} (h : s.flag SUP_STAT_WDOG = true) (code sev arg : Nat) : s.logEvent code sev arg = s :=
  if_pos h

/-- SUP_STAT.WDOG is one of the conditions of FAULT_N. -/
theorem faultCond_of_wdog {s : State} (h : s.flag SUP_STAT_WDOG = true) : s.faultCond = true := by
  simp [State.faultCond, h]

/-- Settles O4: logging is guarded by WDOG, and the signals of a completed command show WDOG as a condition of FAULT_N. -/
theorem watchdogSilencesTheLog : Obligations.WatchdogSilencesTheLog := by
  refine ⟨fun s code sev arg h => logEvent_of_wdog h code sev arg, fun c s t hexec hdog => ?_⟩
  obtain ⟨hfault, hsup, hhost, -⟩ := signals_of_exec hexec
  have hpin : t.pins.fault = true := hfault.trans (faultCond_of_wdog hdog)
  exact ⟨hpin, hsup.trans hpin, hhost.trans hpin⟩

end Sys2Proof
end

section
/-! PROOFS. The statement on the event log (O6): which events merge into the newest entry, and the slot, the count and the status
bit that every other event takes. -/

namespace Sys2Proof

open Sys2Proof.Machine

/-! ### The oldest entry that a test admits (R211) -/

/-- What the search for a slot has found in `log`: the position and age of an entry of the largest age among those that `ok` admits,
or that `ok` admits none. -/
def IsOldest (count : Nat) (ok : LogEntry → Bool) (log : List LogEntry) : Option (Nat × Nat) → Prop
  | none => ∀ e ∈ log, ok e = false
  | some (i, age) =>
    (∃ e, log[i]? = some e ∧ ok e = true ∧ age = logAge count e) ∧ ∀ e ∈ log, ok e = true → logAge count e ≤ age

section
variable {count : Nat} {ok : LogEntry → Bool} {pre : List LogEntry} {e : LogEntry}

/-- An admitted entry as old as every admitted one before it is the oldest so far. -/
theorem IsOldest.take (he : ok e = true) (hle : ∀ x ∈ pre, ok x = true → logAge count x ≤ logAge count e) :
    IsOldest count ok (pre ++ [e]) (some (pre.length, logAge count e)) := by
  refine ⟨⟨e, by simp, he, rfl⟩, fun x hx hok => ?_⟩
  rcases List.mem_append.mp hx with hx | hx
  · exact hle x hx hok
  · rw [List.mem_singleton.mp hx]

/-- The oldest so far stays it beside an entry that is not admitted or no older. -/
theorem IsOldest.keep {i age : Nat} (h : IsOldest count ok pre (some (i, age))) (he : ok e = true → logAge count e ≤ age) :
    IsOldest count ok (pre ++ [e]) (some (i, age)) := by
  obtain ⟨⟨x, hx, hok, hage⟩, hle⟩ := h
  refine ⟨⟨x, ?_, hok, hage⟩, fun y hy hy' => ?_⟩
  · rw [List.getElem?_append_left (List.getElem?_eq_some_iff.mp hx).1, hx]
  · rcases List.mem_append.mp hy with hy | hy
    · exact hle y hy hy'
    · rw [List.mem_singleton.mp hy] at hy' ⊢
      exact he hy'

/-- The search finds the oldest entry: `best` is the oldest of the entries passed, `pre`. -/
theorem isOldest_oldestOf (log : List LogEntry) {best : Option (Nat × Nat)} (h : IsOldest count ok pre best) :
    IsOldest count ok (pre ++ log) (oldestOf count ok log pre.length best) := by
  induction log generalizing pre best with
  | nil => simpa [oldestOf] using h
  | cons e t ih =>
    have hsplit : pre ++ e :: t = (pre ++ [e]) ++ t := by simp
    have hlength : pre.length + 1 = (pre ++ [e]).length := by simp
    unfold oldestOf
    rw [hsplit, hlength]
    apply ih
    cases best with
    | none =>
      by_cases he : ok e = true
      · simpa [he] using IsOldest.take he fun x hx hok => by simp [h x hx] at hok
      · simpa [he, IsOldest, or_imp, forall_and] using h
    | some b =>
      obtain ⟨i, age⟩ := b
      have hle : ∀ x ∈ pre, ok x = true → logAge count x ≤ age := h.2
      by_cases he : ok e = true ∧ age < logAge count e
      · simpa [he.1, he.2] using IsOldest.take he.1 fun x hx hok => (hle x hx hok).trans he.2.le
      · have hage : ok e = true → logAge count e ≤ age := fun hok => not_lt.mp fun hlt => he ⟨hok, hlt⟩
        simpa [he] using h.keep hage

end

/-! ### The slot (R211) -/

/-- A log with an unwritten slot takes an entry there. -/
theorem logInsert_room (count : Nat) {log : List LogEntry} (e : LogEntry) (h : log.length < 256) :
    logInsert count log e = log ++ [e] := if_pos h

/-- A full log gives an entry the slot of the oldest one that it may replace: an INFO entry replaces INFO entries alone, and goes
unwritten where there is none. -/
theorem logInsert_full (count : Nat) {log : List LogEntry} (e : LogEntry) (h : log.length = 256) :
    (∃ (i : Nat) (old : LogEntry), log[i]? = some old ∧ (e.sev = sevInfo → old.sev = sevInfo) ∧
      (∀ x ∈ log, (e.sev = sevInfo → x.sev = sevInfo) → logAge count x ≤ logAge count old) ∧
      logInsert count log e = log.set i e) ∨
    (e.sev = sevInfo ∧ (∀ x ∈ log, x.sev ≠ sevInfo) ∧ logInsert count log e = log) := by
  have hok : ∀ x : LogEntry, (decide (e.sev ≠ sevInfo) || decide (x.sev = sevInfo)) = true ↔ (e.sev = sevInfo → x.sev = sevInfo) :=
    fun x => by simp [Decidable.imp_iff_not_or]
  have hfound := isOldest_oldestOf (count := count) (pre := []) (best := none)
    (ok := fun x => decide (e.sev ≠ sevInfo) || decide (x.sev = sevInfo)) log (fun _ hx => nomatch hx)
  rw [List.nil_append, List.length_nil] at hfound
  unfold logInsert
  rw [if_neg (by omega)]
  split
  · next i age hsome =>
    rw [hsome] at hfound
    obtain ⟨⟨old, hold, hmay, rfl⟩, hle⟩ := hfound
    exact .inl ⟨i, old, hold, (hok old).mp hmay, fun x hx hx' => hle x hx ((hok x).mpr hx'), rfl⟩
  · next hnone =>
    rw [hnone] at hfound
    have hneither : ∀ x ∈ log, ¬(e.sev = sevInfo → x.sev = sevInfo) := fun x hx hx' =>
      Bool.false_ne_true ((hfound x hx).symm.trans ((hok x).mpr hx'))
    obtain ⟨x, hx⟩ := List.exists_mem_of_length_pos (l := log) (by omega)
    exact .inr ⟨(Classical.not_imp.mp (hneither x hx)).1, fun y hy hinfo => hneither y hy fun _ => hinfo, rfl⟩

/-! ### What logging does outside WDOG (R210 to R212) -/

/-- Whether an event of a code and argument repeats an entry, the newest one (R210). -/
def repeats (count code arg : Nat) (e : LogEntry) : Bool :=
  decide (logAge count e = 0) && decide (e.code = code) && decide (e.arg = arg % 2 ^ 32)

theorem repeats_iff {count code arg : Nat} {e : LogEntry} :
    repeats count code arg e = true ↔ logAge count e = 0 ∧ e.code = code ∧ e.arg = arg % 2 ^ 32 := by
  simp [repeats, and_assoc]

/-- The entry with REPEAT raised by one, up to 255, where an event repeats it. -/
def raiseRepeat (count code arg : Nat) (e : LogEntry) : LogEntry :=
  if repeats count code arg e then { e with merged := min (e.merged + 1) 255 } else e

/-- The count after `count` (R211): 0 is passed over. -/
def countAfter (count : Nat) : Nat := if count = 2 ^ 32 - 1 then 1 else count + 1

/-- The entry that an event makes (R211). -/
def eventEntry (s : State) (code sev arg : Nat) : LogEntry :=
  { seq := countAfter (s.fld HAND_LOG_COUNT_COUNT), code := code, sev := sev, merged := 0, deal := s.pair DEAL_NUM % 2 ^ 32,
    arg := arg % 2 ^ 32 }

/-- The state with a count and an entry of that count written into the log. -/
def withEntry (s : State) (count : Nat) (e : LogEntry) : State :=
  { s.setFld HAND_LOG_COUNT_COUNT count with hand := { s.hand with log := logInsert count s.hand.log e } }

/-- The state with the bit of a severity set: LOG_ATTN for ATTENTION, LOG_FATAL for FATAL, with what SUP_LAST_FATAL shows (R212). -/
def withSeverity (s : State) (code sev arg : Nat) : State :=
  if sev = sevAttention then s.setFld HAND_STAT_LOG_ATTN 1
  else if sev = sevFatal then { s.setFld HAND_STAT_LOG_FATAL 1 with lastFatal := (code, arg % 2 ^ 32) }
  else s

section
variable {s : State} {code sev arg : Nat}

/-- An INFO event that repeats the newest entry raises that entry's REPEAT. -/
theorem logEvent_of_repeats (hw : s.flag SUP_STAT_WDOG = false) (hinfo : sev = sevInfo)
    (hrep : s.hand.log.any (repeats (s.fld HAND_LOG_COUNT_COUNT) code arg) = true) :
    s.logEvent code sev arg =
      { s with hand := { s.hand with log := s.hand.log.map (raiseRepeat (s.fld HAND_LOG_COUNT_COUNT) code arg) } } :=
  (if_neg (by simp [hw])).trans (if_pos ⟨hinfo, hrep⟩)

/-- Any other event writes its entry, and the bit of its severity. -/
theorem logEvent_of_not_repeats (hw : s.flag SUP_STAT_WDOG = false)
    (hnew : ¬(sev = sevInfo ∧ s.hand.log.any (repeats (s.fld HAND_LOG_COUNT_COUNT) code arg) = true)) :
    s.logEvent code sev arg =
      withSeverity (withEntry s (countAfter (s.fld HAND_LOG_COUNT_COUNT)) (eventEntry s code sev arg)) code sev arg :=
  (if_neg (by simp [hw])).trans (if_neg hnew)

end

/-- A count fits its register. -/
theorem countAfter_lt (s : State) : countAfter (s.fld HAND_LOG_COUNT_COUNT) < 2 ^ 32 := by
  have hlt : s.fld HAND_LOG_COUNT_COUNT < 2 ^ 32 := Nat.mod_lt _ (by decide)
  unfold countAfter
  split <;> omega

/-- The bit of a severity leaves the log. -/
@[simp] theorem withSeverity_log (s : State) (code sev arg : Nat) : (withSeverity s code sev arg).hand.log = s.hand.log := by
  unfold withSeverity
  split
  · rfl
  · split <;> rfl

/-- The bit of a severity leaves every field outside HAND_STAT. -/
theorem withSeverity_fld (s : State) (code sev arg : Nat) {f : Field} (h : f.addr ≠ HAND_STAT_LOG_ATTN.addr) :
    (withSeverity s code sev arg).fld f = s.fld f := by
  unfold withSeverity
  split
  · exact fld_setFld_addr s 1 h
  · split
    · exact fld_setFld_addr s 1 h
    · rfl

/-- LOG_ATTN sets with an ATTENTION event and stays as it is otherwise. -/
theorem withSeverity_attention (s : State) (code sev arg : Nat) :
    (withSeverity s code sev arg).flag HAND_STAT_LOG_ATTN = (decide (sev = sevAttention) || s.flag HAND_STAT_LOG_ATTN) := by
  unfold withSeverity
  split
  · next h =>
    rw [decide_eq_true h, Bool.true_or]
    exact flag_setFld_one s HAND_STAT_LOG_ATTN
  · next h =>
    rw [decide_eq_false h, Bool.false_or]
    split
    · exact flag_setFld_ne s 1 (by decide)
    · rfl

/-- LOG_FATAL sets with a FATAL event and stays as it is otherwise. -/
theorem withSeverity_fatal (s : State) (code sev arg : Nat) :
    (withSeverity s code sev arg).flag HAND_STAT_LOG_FATAL = (decide (sev = sevFatal) || s.flag HAND_STAT_LOG_FATAL) := by
  unfold withSeverity
  split
  · next h =>
    rw [h, decide_eq_false (by decide), Bool.false_or]
    exact flag_setFld_ne s 1 (by decide)
  · split
    · next h =>
      rw [decide_eq_true h, Bool.true_or]
      exact flag_setFld_one s HAND_STAT_LOG_FATAL
    · next h => rw [decide_eq_false h, Bool.false_or]

/-- Settles O6: the two outcomes of logging, then the slot by whether the log is full. -/
theorem eventLogTakesTheSlotAndCount : Obligations.EventLogTakesTheSlotAndCount := by
  intro s code sev arg hw _ count same t
  have hany : s.hand.log.any (repeats count code arg) = true ↔ ∃ e ∈ s.hand.log, same e := by
    simp only [List.any_eq_true, repeats_iff, same]
  rw [← hany]
  refine ⟨fun ⟨hinfo, hrep⟩ => ?_, ?_⟩
  · have ht : t = { s with hand := { s.hand with log := s.hand.log.map (raiseRepeat count code arg) } } :=
      logEvent_of_repeats hw hinfo hrep
    refine ⟨by rw [ht], by simp [ht], fun i e he => ?_⟩
    have hi : t.hand.log[i]? = some (raiseRepeat count code arg e) := by simp [ht, he]
    exact ⟨fun hsame => by rw [hi, raiseRepeat, if_pos (repeats_iff.mpr hsame)],
      fun hother => by rw [hi, raiseRepeat, if_neg fun h => hother (repeats_iff.mp h)]⟩
  · intro hnew count' entry
    have ht : t = withSeverity (withEntry s count' entry) code sev arg := logEvent_of_not_repeats hw hnew
    have hlog : t.hand.log = logInsert count' s.hand.log entry := by rw [ht, withSeverity_log]; rfl
    have hstat : ∀ f : Field, f.addr ≠ HAND_LOG_COUNT_COUNT.addr → (withEntry s count' entry).flag f = s.flag f :=
      fun f hf => flag_setFld_ne s count' (.inl hf)
    refine ⟨?_, ?_, ?_, fun hroom => hlog.trans (logInsert_room _ _ hroom), fun hfull => ?_⟩
    · rw [ht, withSeverity_fld _ _ _ _ (by decide)]
      exact (fld_setFld_self s HAND_LOG_COUNT_COUNT count').trans (Nat.mod_eq_of_lt (countAfter_lt s))
    · rw [ht, withSeverity_attention, hstat _ (by decide)]
    · rw [ht, withSeverity_fatal, hstat _ (by decide)]
    · rw [hlog]
      exact logInsert_full count' entry hfull

end Sys2Proof
end

section
/-! PROOFS. Counters and sticky bits as a command leaves them, and what the fire of a trigger leaves of the pot and of the FMT
arbiter's registers (R244, R282 to R288). -/

namespace Sys2Proof

open Sys2Proof.Machine

/-! ### Counters and sticky bits -/

/-- A counter that saturates reads its new count. -/
theorem fld_addSat_self (s : State) (f : Field) (n : Nat) (h : f.lo + f.width ≤ 32) :
    (s.addSat f n).fld f = min (s.fld f + n) (2 ^ f.width - 1) := by
  have hpos : 0 < 2 ^ f.width := Nat.two_pow_pos _
  rw [addSat_eq, fld_setFld_eq _ _ _ h, Nat.mod_eq_of_lt (by omega)]

/-- Counting leaves every field apart. -/
theorem fld_addSat_ne (s : State) {f g : Field} (n : Nat)
    (h : g.addr ≠ f.addr ∨ f.lo + f.width ≤ g.lo ∨ g.lo + g.width ≤ f.lo) : (s.addSat f n).fld g = s.fld g := fld_setFld_ne s _ h

/-- Counting leaves every flag apart. -/
theorem flag_addSat_ne (s : State) {f g : Field} (n : Nat)
    (h : g.addr ≠ f.addr ∨ f.lo + f.width ≤ g.lo ∨ g.lo + g.width ≤ f.lo) : (s.addSat f n).flag g = s.flag g :=
  flag_setFld_ne s _ h

/-- A flag that is set where a condition holds. -/
theorem flag_setIf_self (s : State) (b : Bool) (f : Field) (h : f.lo + f.width ≤ 32) (hw : 0 < f.width) :
    (s.setIf b f).flag f = (b || s.flag f) := by
  cases b with
  | true => exact flag_set s f h hw
  | false => rfl

/-- Setting one flag leaves every field apart. -/
theorem fld_setIf_ne (s : State) (b : Bool) {f g : Field}
    (h : g.addr ≠ f.addr ∨ f.lo + f.width ≤ g.lo ∨ g.lo + g.width ≤ f.lo) : (s.setIf b f).fld g = s.fld g := by
  cases b with
  | true => exact fld_setFld_ne s 1 h
  | false => rfl

/-- Setting one flag leaves every flag apart. -/
theorem flag_setIf_ne (s : State) (b : Bool) {f g : Field}
    (h : g.addr ≠ f.addr ∨ f.lo + f.width ≤ g.lo ∨ g.lo + g.width ≤ f.lo) : (s.setIf b f).flag g = s.flag g :=
  flag_congr (fld_setIf_ne s b h)

/-- Setting a flag changes registers alone. -/
theorem RegsOnly.setIf {s u : State} (b : Bool) (f : Field) (h : RegsOnly s u) : RegsOnly s (u.setIf b f) := by
  cases b with
  | true => exact h.setFld f 1
  | false => exact h

/-- Setting a flag writes no other field. -/
theorem KeepsFields.setIf {w : List Field} {s u : State} (b : Bool) (f : Field) (h : KeepsFields w s u) (hf : f ∈ w) :
    KeepsFields w s (u.setIf b f) := by
  cases b with
  | true => exact h.setFld f 1 hf
  | false => exact h

/-- The pot does not lie in the registers. -/
@[simp] theorem setIf_pot (s : State) (b : Bool) (f : Field) : (s.setIf b f).pot = s.pot := by
  cases b <;> rfl

/-! ### The frame of the pot -/

/-- The registers at some addresses, the records that wait and the windows of the arbiter stay as they were. -/
structure KeepsPot (as : List Nat) (s t : State) : Prop where
  reg : ∀ a ∈ as, t.reg a = s.reg a
  wait : t.pot.wait = s.pot.wait
  windows : t.pot.windows = s.pot.windows

section
variable {as : List Nat} {s t u v : State}

theorem KeepsPot.refl (as : List Nat) (s : State) : KeepsPot as s s := ⟨fun _ _ => rfl, rfl, rfl⟩

theorem KeepsPot.trans (h : KeepsPot as s t) (h' : KeepsPot as t u) : KeepsPot as s u :=
  ⟨fun a ha => (h'.reg a ha).trans (h.reg a ha), h'.wait.trans h.wait, h'.windows.trans h.windows⟩

/-- The registers, the waiting records and the windows are another state's. -/
theorem KeepsPot.of_same (h : KeepsPot as s u) (hr : v.regs = u.regs := by rfl) (hw : v.pot.wait = u.pot.wait := by rfl)
    (hx : v.pot.windows = u.pot.windows := by rfl) : KeepsPot as s v :=
  h.trans ⟨fun a _ => by rw [State.reg, hr, State.reg], hw, hx⟩

/-- A register outside the frame is given a value. -/
theorem KeepsPot.setReg (h : KeepsPot as s u) {a : Nat} (w : Word) (ha : a ∉ as) : KeepsPot as s (u.setReg a w) :=
  h.trans ⟨fun b hb => by rw [reg_setReg, if_neg (ne_of_mem_of_not_mem hb ha)], rfl, rfl⟩

/-- A field outside the frame is given a value. -/
theorem KeepsPot.setFld (h : KeepsPot as s u) {f : Field} (x : Nat) (hf : f.addr ∉ as) : KeepsPot as s (u.setFld f x) :=
  h.setReg _ hf

/-- A pair outside the frame is given a value. -/
theorem KeepsPot.setPair (h : KeepsPot as s u) {p : Pair} (x : Nat) (hlo : p.addr ∉ as) (hhi : p.addr + 4 ∉ as) :
    KeepsPot as s (u.setPair p x) := (h.setReg _ hlo).setReg _ hhi

/-- An event is logged. -/
theorem KeepsPot.logEvent (h : KeepsPot as s u) (c sev arg : Nat) (hcount : HAND_LOG_COUNT_COUNT.addr ∉ as)
    (hstat : HAND_STAT_LOG_ATTN.addr ∉ as) : KeepsPot as s (u.logEvent c sev arg) :=
  h.trans ⟨fun _ ha => logEvent_reg _ _ _ _ (ne_of_mem_of_not_mem ha hcount) (ne_of_mem_of_not_mem ha hstat),
    by rw [logEvent_pot], by rw [logEvent_pot]⟩

/-- A sequence of updates. -/
theorem KeepsPot.foldl {α : Type} {f : State → α → State} {l : List α} (h : KeepsPot as s u)
    (hf : ∀ t, ∀ x ∈ l, KeepsPot as t (f t x)) : KeepsPot as s (l.foldl f u) :=
  l.foldlRecOn f (motive := KeepsPot as s) h fun t ht x hx => ht.trans (hf t x hx)

/-- Of two updates one is done. -/
theorem KeepsPot.ite {c : Prop} [Decidable c] (hu : KeepsPot as s u) (hv : KeepsPot as s v) : KeepsPot as s (if c then u else v) := by
  split
  · exact hu
  · exact hv

/-- A field of the frame. -/
theorem KeepsPot.fld (h : KeepsPot as s t) {f : Field} (hf : f.addr ∈ as) : t.fld f = s.fld f := fld_congr (h.reg _ hf)

/-- A flag of the frame. -/
theorem KeepsPot.flag (h : KeepsPot as s t) {f : Field} (hf : f.addr ∈ as) : t.flag f = s.flag f := flag_congr (h.fld hf)

/-- A pair of the frame. -/
theorem KeepsPot.pair (h : KeepsPot as s t) {p : Pair} (hlo : p.addr ∈ as) (hhi : p.addr + 4 ∈ as) : t.pair p = s.pair p := by
  rw [State.pair, h.reg _ hlo, h.reg _ hhi, State.pair]

end

/-! ### Fires (R284 to R288) -/

/-- The registers that count the arbiter's events. -/
def fmtRegs : List Nat := [POT_STAT_FMT_EVENT.addr, POT_FMT_EVENTS_COUNT.addr, POT_FMT_LOST_COUNT.addr]

/-- Below the pot's registers lies none of them. -/
theorem notMem_fmtRegs {a : Nat} (h : a < 0x100000) : a ∉ fmtRegs := by
  have hall : ∀ b ∈ fmtRegs, 0x100000 ≤ b := by decide
  exact fun ha => absurd (hall a ha) (by omega)

/-- A register of one of the eight slots, `b` in slot 0, is none of them. -/
theorem notMem_slotReg {n b : Nat} (hn : n < 8) (hb : b < 0x72000 := by decide) : b + n * 0x100 ∉ fmtRegs :=
  notMem_fmtRegs (by omega)

section
variable {s u : State} {n : Nat}

/-- A trigger output asserts. -/
theorem KeepsPot.assertOut {as : List Nat} (o : Nat) (a : Int) (h : KeepsPot as s u) : KeepsPot as s (u.assertOut o a) :=
  h.of_same

/-- A fire reaches the outputs. -/
theorem KeepsPot.fireOut {as : List Nat} (n o : Nat) (t : Int) (h : KeepsPot as s u) : KeepsPot as s (u.fireOut n o t) :=
  .ite (.ite h.of_same (h.assertOut _ _)) h

/-- A slot fires. -/
theorem KeepsPot.fire (hn : n < 8) (ev : TrigEvent) (h : KeepsPot fmtRegs s u) : KeepsPot fmtRegs s (u.fire n ev) :=
  have houts := (h.foldl fun t _ _ => .ite (KeepsPot.refl _ t).of_same (.refl _ t)).foldl fun t _ _ => (KeepsPot.refl _ t).fireOut ..
  (((houts.setPair _ (notMem_slotReg hn) (notMem_fmtRegs (by dsimp only; omega))).setReg _ (notMem_slotReg hn)).setFld _
    (notMem_slotReg hn)).setFld _ (notMem_fmtRegs (a := TRG_STAT_FIRED.addr) (by decide))

/-- A combined event is held. -/
theorem KeepsPot.hold (hn : n < 8) (h : KeepsPot fmtRegs s u) : KeepsPot fmtRegs s (u.hold n) :=
  (h.setFld _ (notMem_slotReg hn)).setFld _ (notMem_fmtRegs (a := TRG_STAT_HELD.addr) (by decide))

/-- A slot's pending events are shown. -/
theorem KeepsPot.showPending (hn : n < 8) (h : KeepsPot fmtRegs s u) : KeepsPot fmtRegs s (u.showPending n) :=
  (h.setFld _ (notMem_slotReg hn)).setFld _ (notMem_slotReg hn)

/-- A slot changes. -/
theorem KeepsPot.setSlot {as : List Nat} (n : Nat) (x : Slot) (h : KeepsPot as s u) : KeepsPot as s (u.setSlot n x) := h.of_same

/-- A combined event reaches its slot. -/
theorem KeepsPot.combined (hn : n < 8) (old : Bool) (ev : TrigEvent) (h : KeepsPot fmtRegs s u) :
    KeepsPot fmtRegs s (u.combined n old ev) :=
  .ite ((h.setSlot _ _).hold hn) (.ite (h.hold hn) ((h.setSlot _ _).fire hn _))

/-- A condition's event reaches its slot. -/
theorem KeepsPot.slotEvent (hn : n < 8) (old : Bool) (ev : TrigEvent) (h : KeepsPot fmtRegs s u) :
    KeepsPot fmtRegs s (u.slotEvent n old ev) := by
  refine KeepsPot.showPending hn ?_
  generalize (if old = true then (u.slotOf n).cfg0 else (u.slotOf n).cfg) = c
  generalize (if old = true then (u.slotOf n).run0 else (u.slotOf n).run) = r
  split
  · exact .ite h (h.combined hn _ _)
  · simp only
    split
    · exact (h.setSlot _ _).combined hn _ _
    · exact h.setSlot _ _
  · exact h.combined hn _ _
  · refine .ite ?_ (h.setSlot _ _)
    split
    · exact .ite h (.ite ((h.setSlot _ _).combined hn _ _) (h.setSlot _ _))
    · exact h

/-- A condition meets something that happened. -/
theorem KeepsPot.giveCond (hn : n < 8) (old isB : Bool) (t : Int) (f : CondCfg → CondRun → CondRun × Option (Int × Bool))
    (h : KeepsPot fmtRegs s u) : KeepsPot fmtRegs s (u.giveCond n old isB t f) := by
  refine .ite h ?_
  generalize f _ _ = y
  obtain ⟨r, ev⟩ := y
  cases ev with
  | some e => exact (h.setSlot _ _).slotEvent hn _ _
  | none => exact h.setSlot _ _

/-- A slot meets something that happened. -/
theorem KeepsPot.giveSlot (hn : n < 8) (t : Int) (f : CondCfg → CondRun → CondRun × Option (Int × Bool))
    (h : KeepsPot fmtRegs s u) : KeepsPot fmtRegs s (u.giveSlot n t f) :=
  (h.giveCond hn ..).giveCond hn ..

/-- Every slot meets the winner of a window. -/
theorem KeepsPot.trigMask (input side : Nat) (y : Int) (h : KeepsPot fmtRegs s u) :
    KeepsPot fmtRegs s (u.trigMask input side y) :=
  h.foldl fun t _ hn => (KeepsPot.refl _ t).giveSlot (List.mem_range.mp hn) ..

end

end Sys2Proof
end

section
/-! PROOFS. The statement of 08_analysis_programs.md on the arbiter of FMT events and the top merge (O29). -/

namespace Sys2Proof

open Sys2Proof.Machine

/-! ### Arrival at the arbiter (R244) -/

/-- The pot after event `e`, the `i`-th on its way, has joined the window of its scope. -/
def joined (s : State) (i : Nat) (e : FmtEvent) : PotState :=
  { s.pot with
    events := s.pot.events.eraseIdx i,
    windows := instSet [] s.pot.windows (s.fmtScope e) (instGet [] s.pot.windows (s.fmtScope e) ++ [e]) }

/-- An event that reaches the arbiter joins its window. -/
theorem fmtArrive_some {s : State} {i : Nat} {e : FmtEvent} (h : s.pot.events[i]? = some e) :
    s.fmtArrive i = { s with pot := joined s i e } := by
  simp [State.fmtArrive, h, joined]

/-- Without such an event nothing arrives. -/
theorem fmtArrive_none {s : State} {i : Nat} (h : s.pot.events.length ≤ i) : s.fmtArrive i = s := by
  simp [State.fmtArrive, h]

/-- What the arrival of an event shows. -/
theorem Runs.fmtArrival {s : State} {i : Nat} {e : FmtEvent} (h : s.pot.events[i]? = some e) :
    Runs (.fmtEventArrival i) s []
      (fun t => { s with pot := { s.pot with events := s.pot.events.eraseIdx i, windows := t.pot.windows } })
      (fun t => instGet [] t.pot.windows (s.fmtScope e) = instGet [] s.pot.windows (s.fmtScope e) ++ [e] ∧
        ∀ j : Nat, j ≠ s.fmtScope e → instGet [] t.pot.windows j = instGet [] s.pot.windows j) := by
  refine Runs.done (congrArg Machine.done (fmtArrive_some h)) ⟨?_, fun j hj => ?_⟩ ((KeepsFields.refl _ s).of_regs rfl) ?_ (by simp)
  · simp [joined]
  · simp [joined, hj]
  · simp [joined]

/-! ### The winner of a window (R244) -/

/-- A window that holds events has a winner: its trigger time is the earliest, and of the events with that time it came first. -/
theorem fmtWinner_splits {es : List FmtEvent} (hes : es ≠ []) :
    ∃ w a b, fmtWinner es = some w ∧ es = a ++ w :: b ∧ (∀ e ∈ a, w.pos < e.pos) ∧ ∀ e ∈ b, w.pos ≤ e.pos := by
  induction es with
  | nil => exact absurd rfl hes
  | cons e es ih =>
    by_cases hlast : es = []
    · exact ⟨e, [], [], by simp [hlast, fmtWinner], by simp [hlast], by simp, by simp⟩
    · obtain ⟨w, a, b, hwin, hsplit, hbefore, hafter⟩ := ih hlast
      by_cases hlt : w.pos < e.pos
      · exact ⟨w, e :: a, b, by simp [fmtWinner, hwin, hlt], by simp [hsplit], by simpa [hlt] using hbefore, hafter⟩
      · have hleast : ∀ x ∈ es, w.pos ≤ x.pos := by
          simp only [hsplit, List.forall_mem_append, List.forall_mem_cons]
          exact ⟨fun x hx => (hbefore x hx).le, le_rfl, hafter⟩
        refine ⟨e, [], es, by simp [fmtWinner, hwin, hlt], rfl, by simp, fun x hx => ?_⟩
        exact (not_lt.mp hlt).trans (hleast x hx)

/-! ### A window closes (R244) -/

/-- An empty window closes without effect. -/
theorem fmtClose_empty {s : State} {k : Nat} (h : instGet [] s.pot.windows k = []) : s.fmtClose k = s := by
  simp [State.fmtClose, h, fmtWinner]

/-- The window is emptied, its winner counted, and `lost` other events. -/
def windowClosed (s : State) (k lost : Nat) : State :=
  ((({ s with pot := { s.pot with windows := instSet [] s.pot.windows k [] } }.addSat POT_FMT_EVENTS_COUNT 1).setFld
    POT_STAT_FMT_EVENT 1).addSat POT_FMT_LOST_COUNT lost).setIf (decide (0 < lost)) POT_STAT_FMT_LOST

/-- A window with a winner closes, and the winner goes to TRG. -/
theorem fmtClose_some {s : State} {k : Nat} {w : FmtEvent} (h : fmtWinner (instGet [] s.pot.windows k) = some w) :
    s.fmtClose k = (windowClosed s k ((instGet [] s.pot.windows k).length - 1)).trigMask w.input w.side w.pos := by
  simp [State.fmtClose, h, windowClosed]

/-- A window that has closed is empty. -/
theorem windowClosed_window (s : State) (k lost : Nat) : instGet [] (windowClosed s k lost).pot.windows k = [] := by
  simp [windowClosed, addSat_eq]

/-- The counts after a window has closed. -/
theorem windowClosed_counts (s : State) (k lost : Nat) :
    (windowClosed s k lost).flag POT_STAT_FMT_EVENT = true ∧
    (windowClosed s k lost).fld POT_FMT_EVENTS_COUNT = min (s.fld POT_FMT_EVENTS_COUNT + 1) 0xFFFFFFFF ∧
    (windowClosed s k lost).fld POT_FMT_LOST_COUNT = min (s.fld POT_FMT_LOST_COUNT + lost) 0xFFFFFFFF := by
  unfold windowClosed
  refine ⟨?_, ?_, ?_⟩
  · simp (disch := decide) only [flag_setIf_ne, flag_addSat_ne, flag_set]
  · simp (disch := decide) only [fld_setIf_ne, fld_addSat_ne, fld_setFld_ne, fld_addSat_self, fld_mk]
    rfl
  · simp (disch := decide) only [fld_setIf_ne, fld_addSat_ne, fld_setFld_ne, fld_addSat_self, fld_mk]
    rfl

/-- What the close of a window that holds events shows. -/
theorem windowClose_shows {s : State} (k : Fin 5) (h : instGet [] s.pot.windows k ≠ []) :
    ∃ (t : State) (w : FmtEvent) (a b : List FmtEvent), exec (.arbitrationWindowClose k) s = .next t ∧
      instGet [] s.pot.windows k = a ++ w :: b ∧ (∀ e ∈ a, w.pos < e.pos) ∧ (∀ e ∈ b, w.pos ≤ e.pos) ∧
      instGet [] t.pot.windows k = [] ∧
      t.flag POT_STAT_FMT_EVENT = true ∧ t.fld POT_FMT_EVENTS_COUNT = min (s.fld POT_FMT_EVENTS_COUNT + 1) 0xFFFFFFFF ∧
      t.fld POT_FMT_LOST_COUNT = min (s.fld POT_FMT_LOST_COUNT + ((instGet [] s.pot.windows k).length - 1)) 0xFFFFFFFF := by
  obtain ⟨w, a, b, hwin, hsplit, hbefore, hafter⟩ := fmtWinner_splits h
  obtain ⟨hevent, hcount, hlost⟩ := windowClosed_counts s k ((instGet [] s.pot.windows k).length - 1)
  have hkeeps := (KeepsPot.refl fmtRegs (windowClosed s k ((instGet [] s.pot.windows k).length - 1))).trigMask w.input w.side w.pos
  refine ⟨_, w, a, b, congrArg Machine.done (fmtClose_some hwin), hsplit, hbefore, hafter, ?_, ?_, ?_, ?_⟩
  · rw [settle_pot, hkeeps.windows, windowClosed_window]
  · rw [settle_flag _ _ (by decide), hkeeps.flag (by decide), hevent]
  · rw [settle_fld _ _ (by decide), hkeeps.fld (by decide), hcount]
  · rw [settle_fld _ _ (by decide), hkeeps.fld (by decide), hlost]

/-! ### The top merge (R239) -/

/-- The lists in the top merge that a product's merged list for a deal and scope takes. -/
def mergeTakes (s : State) (product deal k : Nat) : List PksList :=
  s.pot.lists.filter (fun p => decide (p.product = product) && decide (p.deal = deal) && (decide (k = 4) || decide (k = p.input)))

/-- When the merged list of a product, deal and scope is to be built. -/
def mergeDue (s : State) (x : Product) (product deal k : Nat) : Prop :=
  x.merge = true ∧ k ∈ s.mergeScopes x ∧ (product, deal, k) ∉ s.pot.merged ∧ s.prodOn product deal = true ∧
    s.deal.first ≤ deal ∧ (s.missingLists x deal k = [] ∨ deal + 3 ≤ s.pair DEAL_NUM)

/-- The model's test for a merged list that is not to be built. -/
def mergeHeld (s : State) (x : Product) (product deal k : Nat) : Bool :=
  !x.merge || decide (k ∉ s.mergeScopes x) || decide ((product, deal, k) ∈ s.pot.merged) || !s.prodOn product deal ||
    decide (deal < s.deal.first) || (!(s.missingLists x deal k).isEmpty && decide (s.pair DEAL_NUM < deal + 3))

/-- The test holds exactly where the list is not due. -/
theorem mergeHeld_iff {s : State} {x : Product} {product deal k : Nat} :
    mergeHeld s x product deal k = true ↔ ¬mergeDue s x product deal k := by
  simp only [mergeHeld, mergeDue, Bool.or_eq_true, Bool.and_eq_true, Bool.not_eq_true', decide_eq_true_eq, List.isEmpty_eq_false_iff,
    not_and_or, not_or, not_le, not_not, Bool.not_eq_true, or_assoc, ne_eq]

/-- The merged list of a product, deal and scope, from the lists taken. -/
def mergedRec (s : State) (x : Product) (g : Program) (product deal k : Nat) (taken : List PksList) : PotRec :=
  let ntop := s.fld POT_CFG_PKS_NTOP
  let es := choosePeaks ntop (taken.flatMap s.peaksOf)
  { deal := deal, product := product, channel := 256, input := k, member := 0, part := 0, logical := 0, kind := 8, rtype := x.rtype,
    payload := s.mergePreamble g es.length ++ es.flatMap (fun e => e.bytes) ++ zeros (16 * (ntop - es.length)),
    ovf := taken.any (fun p => p.ovf), late := taken.any (fun p => p.late),
    degr := !(s.missingLists x deal k).isEmpty || taken.any (fun p => p.degr), classW := true, merged := true,
    pos := s.dealPos ((s.scopeInputs x k).headD 0) g g.wlen deal, sent := [] }

/-- The pot after merged list `q` of scope `k` has been built of the lists taken. -/
def withMerged (p : PotState) (q : PotRec) (k : Nat) (taken : List PksList) : PotState :=
  { p with
    wait := p.wait ++ [q], merged := ((q.product, q.deal, k) :: p.merged).take 65536,
    lists := p.lists.filter (fun l => !(l ∈ taken)) }

/-- The state after merged list `q` of scope `k` has been built of the lists taken. -/
def mergeBuilt (s : State) (q : PotRec) (k : Nat) (taken : List PksList) : State :=
  { s.setIf q.degr POT_STAT_MERGE_DEG with pot := withMerged s.pot q k taken }

/-- The lists taken leave the top merge, the others stay. -/
theorem withMerged_lists (p : PotState) (q : PotRec) (k : Nat) (taken : List PksList) :
    (withMerged p q k taken).lists = p.lists.filter (fun l => decide (l ∉ taken)) := by
  simp only [withMerged, decide_not]

/-- A merged list carries DEGRADED when a list is missing or carries it. -/
theorem mergedRec_degr (s : State) (x : Product) (g : Program) (product deal k : Nat) (taken : List PksList) :
    (mergedRec s x g product deal k taken).degr = (!(s.missingLists x deal k).isEmpty || taken.any (fun p => p.degr)) := by
  simp only [mergedRec]

section
variable {s : State} {product deal k : Nat} {x : Product} {g : Program}

/-- A merged list that is not due is not built. -/
theorem pksMerge_still (hx : s.productNo product = some x) (hg : s.programNo x.prog = some g)
    (h : ¬mergeDue s x product deal k) : s.pksMerge product deal k = s := by
  simp only [State.pksMerge, hx, hg]
  exact if_pos (mergeHeld_iff.mpr h)

/-- A merged list that is due joins the pot, and its lists are taken. -/
theorem pksMerge_due (hx : s.productNo product = some x) (hg : s.programNo x.prog = some g) (h : mergeDue s x product deal k) :
    s.pksMerge product deal k =
      mergeBuilt s (mergedRec s x g product deal k (mergeTakes s product deal k)) k (mergeTakes s product deal k) := by
  simp only [State.pksMerge, hx, hg]
  refine (if_neg fun hheld => mergeHeld_iff.mp hheld h).trans ?_
  simp only [setIf_pot, mergeBuilt, mergedRec, withMerged, mergeTakes]
  congr 1

end

/-- What a command shows that builds merged list `q`. -/
theorem Runs.merged {c : Instr} {s : State} {q : PotRec} {k : Nat} {taken : List PksList}
    (hc : exec c s = Machine.done (mergeBuilt s q k taken)) :
    Runs c s [POT_STAT_MERGE_DEG]
      (fun t => { s with pot := { s.pot with wait := t.pot.wait, merged := t.pot.merged, lists := t.pot.lists } })
      (fun t => t.pot = withMerged s.pot q k taken ∧ t.flag POT_STAT_MERGE_DEG = (q.degr || s.flag POT_STAT_MERGE_DEG)) := by
  have hkeeps : KeepsFields [POT_STAT_MERGE_DEG] s (s.setIf q.degr POT_STAT_MERGE_DEG) := (KeepsFields.refl _ s).setIf _ _ (by simp)
  obtain ⟨r, hregs⟩ := (RegsOnly.refl s).setIf q.degr POT_STAT_MERGE_DEG
  refine Runs.done hc ⟨settle_pot _, ?_⟩ (hkeeps.of_regs rfl) ?_ ?_
  · rw [settle_flag _ _ (by decide)]
    exact flag_setIf_self s _ _ (by decide) (by decide)
  · simp only [settle_pot, mergeBuilt, hregs, withMerged]
  · simp [mergeBuilt, hregs]

/-- Settles O29: an arrival and the close of a window by whether there is an event, a merged list by whether it is due. -/
theorem arbiterAndTopMergeFollowTheirRules : Obligations.ArbiterAndTopMergeFollowTheirRules := by
  intro s i k product deal x g
  refine ⟨fun e he => Runs.fmtArrival he, fun hi => Runs.still (congrArg Machine.done (fmtArrive_none hi)),
    ⟨fun hes => Runs.still (congrArg Machine.done (fmtClose_empty hes)), windowClose_shows k⟩,
    fun hx hg => ⟨fun h => ?_, fun h => ?_⟩⟩
  · exact Runs.still (congrArg Machine.done (pksMerge_still hx hg h))
  · obtain ⟨t, hexec, ⟨hpot, hdegr⟩, hrest⟩ :=
      Runs.merged (c := .pksMerge product deal k) (congrArg Machine.done (pksMerge_due hx hg h))
    refine ⟨t, hexec, ⟨mergedRec s x g product deal k (mergeTakes s product deal k), ?_⟩, hrest⟩
    rw [mergedRec_degr] at hdegr
    rw [hpot]
    exact ⟨rfl, rfl, rfl, rfl, rfl, mergedRec_degr .., rfl, rfl, hdegr, by simp [withMerged, mergedRec], withMerged_lists ..⟩

end Sys2Proof
end

section
/-! PROOFS. What the delivery of a record leaves of the pot and of its counters (R247, R249): streams, the kitty queue behind them,
the product ring, the render helper and the top merge. -/

namespace Sys2Proof

open Sys2Proof.Machine

/-! ### The counters of released records -/

/-- The registers that count released records. -/
def countRegs : List Nat := [POT_REC_COUNT.addr, POT_REC_COUNT.addr + 4, POT_LATE_COUNT_COUNT.addr]

/-- They lie at offsets 0x20 to 0x28 of their 64 bytes. -/
theorem notMem_countRegs {a : Nat} (h : a % 64 < 0x20 ∨ 0x28 < a % 64) : a ∉ countRegs := by
  have hall : ∀ b ∈ countRegs, 0x20 ≤ b % 64 ∧ b % 64 ≤ 0x28 := by decide
  exact fun ha => absurd (hall a ha) (by omega)

/-- A register of a streaming port, `b` for port 0, is none of them, whatever the port. -/
theorem notMem_portReg {p b : Nat} (hb : b % 64 < 0x20 ∨ 0x28 < b % 64 := by decide) : b + p * 0x100 ∉ countRegs :=
  notMem_countRegs (by omega)

/-- A register of a stream, `b` for stream 0 of port 0, is none of them, whatever the port and the stream. -/
theorem notMem_streamReg {p st b : Nat} (hb : b % 64 < 0x20 ∨ 0x28 < b % 64 := by decide) : b + p * 0x1000 + st * 0x40 ∉ countRegs :=
  notMem_countRegs (by omega)

section
variable {s t u : State}

/-! ### The kitty queue (R405 to R410) -/

theorem KeepsPot.kitShow (h : KeepsPot countRegs s u) : KeepsPot countRegs s u.kitShow := by
  have hshown : ∀ x, KeepsPot countRegs s
      (((u.setFld KIT_LEVEL_CUR u.kitLevel).maxFld KIT_LEVEL_MAX u.kitLevel).setFld KIT_STAT_HOLD x) := fun x =>
    ((h.setFld _ (by decide)).setFld _ (by decide)).setFld _ (by decide)
  exact (hshown _).of_same

theorem KeepsPot.kitCountDrop (h : KeepsPot countRegs s u) : KeepsPot countRegs s u.kitCountDrop :=
  (h.setFld _ (by decide)).setFld _ (by decide)

theorem KeepsPot.setDrop (p : Option Nat) (h : KeepsPot countRegs s u) : KeepsPot countRegs s (u.setDrop p) :=
  h.of_same.setFld _ (by decide)

/-- An entry is written to the queue. -/
theorem KeepsPot.kitWrite (e : KitEntry) (h : KeepsPot countRegs s u) : KeepsPot countRegs s (u.kitWrite e) := by
  have hput : KeepsPot countRegs s ({ u with kit := { u.kit with queue := u.kit.queue ++ [e] } }.setFld KIT_PTR_WR
      ((u.fld KIT_PTR_WR + 1) % 4096)) := h.of_same.setFld _ (by decide)
  exact .ite (.ite h.kitCountDrop (h.kitCountDrop.setDrop _)) (KeepsPot.kitShow (.ite
    ((hput.setFld _ (by decide)).logEvent _ _ _ (by decide) (by decide)) hput))

/-- A held entry is released. -/
theorem KeepsPot.kitRelease (h : KeepsPot countRegs s u) : KeepsPot countRegs s u.kitRelease := by
  unfold State.kitRelease
  split
  · exact .ite h (KeepsPot.kitWrite _ h.of_same)
  · exact h

/-- The oldest entry leaves. -/
theorem KeepsPot.kitTake (h : KeepsPot countRegs s u) : KeepsPot countRegs s u.kitTake :=
  (h.of_same.setFld _ (by decide)).kitShow

/-- Queued entries are discarded. -/
theorem KeepsPot.kitPurge (p : Nat) (l : List KitEntry) (h : KeepsPot countRegs s u) : KeepsPot countRegs s (u.kitPurge p l).1 := by
  induction l generalizing u with
  | nil => exact h
  | cons e l ih =>
    unfold State.kitPurge
    split
    · simp only
      split
      · exact ih h.kitTake.kitCountDrop
      · exact h.kitTake.kitCountDrop
    · exact h

/-- The rest of a packet is discarded. -/
theorem KeepsPot.kitDiscard (p : Nat) (h : KeepsPot countRegs s u) : KeepsPot countRegs s (u.kitDiscard p) :=
  KeepsPot.kitRelease (KeepsPot.setDrop _ (h.kitPurge p u.kit.queue).of_same)

/-! ### Streams (R400 to R402) -/

theorem KeepsPot.setStream (p st : Nat) (x : Stream) (h : KeepsPot countRegs s u) : KeepsPot countRegs s (u.setStream p st x) :=
  h.of_same

theorem KeepsPot.showStore (p : Nat) (h : KeepsPot countRegs s u) : KeepsPot countRegs s (u.showStore p) :=
  (h.setFld _ notMem_portReg).setFld _ notMem_portReg

/-- A dropped record is counted. -/
theorem KeepsPot.countDrop (p st cause size deal rseq : Nat) (vdif : Bool) (h : KeepsPot countRegs s u) :
    KeepsPot countRegs s (u.countDrop p st cause size deal rseq vdif) :=
  ((((h.setStream p st _).setFld (f := ETH_S_DROPPED_COUNT p st) _ notMem_streamReg).setFld (f := ETHP_DROPPED_COUNT p) _
    notMem_portReg).setFld (f := ETH_STAT_DROP.bit p) _ (show ETH_STAT_DROP.addr ∉ countRegs by decide)).logEvent _ _ _
      (by decide) (by decide)

/-- The rest of a kitty packet is dropped. -/
theorem KeepsPot.dropKitty (p st : Nat) (k : Option (Nat × Bool)) (h : KeepsPot countRegs s u) :
    KeepsPot countRegs s (u.dropKitty p st k) := by
  unfold State.dropKitty
  split
  · exact .ite (KeepsPot.kitDiscard _ h.of_same) h.of_same
  · exact h

/-- A queued record is dropped. -/
theorem KeepsPot.dropQueued (p st : Nat) (q : QRec) (cause : Nat) (h : KeepsPot countRegs s u) :
    KeepsPot countRegs s (u.dropQueued p st q cause) := by
  unfold State.dropQueued
  cases q.gap with
  | some g =>
    refine (KeepsPot.setStream p g.1 _ ?_).showStore p
    cases q.spill <;> exact h.of_same
  | none =>
    refine ((KeepsPot.countDrop p st cause _ _ _ _ ?_).dropKitty p st _).showStore p
    cases q.spill <;> exact h.of_same

/-- The age test of a queue's head. -/
theorem KeepsPot.ageHead (p st n : Nat) (h : KeepsPot countRegs s u) : KeepsPot countRegs s (u.ageHead p st n) := by
  induction n generalizing u with
  | zero => exact h
  | succ n ih =>
    unfold State.ageHead
    split
    · exact .ite (ih (h.dropQueued p st _ 2)) h
    · exact h

/-- Bytes are written to capture memory. -/
theorem KeepsPot.sdWrite {as : List Nat} (a : Nat) (bs : List Byte) (h : KeepsPot as s u) : KeepsPot as s (u.sdWrite a bs) := by
  obtain ⟨m, hwrite⟩ := sdWrite_eq u a bs
  rw [hwrite]
  exact h.of_same

/-- A record enters a queue. -/
theorem KeepsPot.enter? {p st : Nat} {q : QRec} (h : KeepsPot countRegs s u) (ht : u.enter? p st q = some t) :
    KeepsPot countRegs s t := by
  unfold State.enter? at ht
  simp only at ht
  split at ht
  · exact Option.some.inj ht ▸ (h.setStream p st _).showStore p
  · split at ht
    · exact Option.some.inj ht ▸ ((h.sdWrite _ _).of_same.setStream p st _).showStore p
    · cases ht

/-- A record is offered to a stream. -/
theorem KeepsPot.offer (p st : Nat) (bytes : List Byte) (deal : Nat) (dest : Dest) (vdif : Bool) (kpkt : Option (Nat × Bool))
    (h : KeepsPot countRegs s u) : KeepsPot countRegs s (u.offer p st bytes deal dest vdif kpkt) := by
  unfold State.offer
  simp only
  split
  · next ht => exact ((h.setStream p st _).enter? ht).ageHead p st _
  · exact ((h.setStream p st _).countDrop ..).dropKitty ..

/-- A record of a deal is offered to a stream. -/
theorem KeepsPot.offerDeal (p st n : Nat) (bytes : List Byte) (vdif : Bool) (h : KeepsPot countRegs s u) :
    KeepsPot countRegs s (u.offerDeal p st n bytes vdif) := .ite (h.offer ..) h

/-! ### Destinations (R249) -/

theorem KeepsPot.ringWrap (h : KeepsPot countRegs s u) : KeepsPot countRegs s u.ringWrap :=
  (h.setFld _ (by decide)).setFld _ (by decide)

/-- A record is written to the product ring. -/
theorem KeepsPot.ringPut (bytes : List Byte) (h : KeepsPot countRegs s u) : KeepsPot countRegs s (u.ringPut bytes) :=
  have hcross := KeepsPot.ite ((h.sdWrite _ _).ringWrap) h
  .ite h ((KeepsPot.ite (hcross.sdWrite _ _).ringWrap (hcross.sdWrite _ _)).setPair _ (by decide) (by decide))

/-- A record goes to one of its destinations. -/
theorem KeepsPot.deliverRec (q : PotRec) (x : Product) (dest : Nat) (h : KeepsPot countRegs s u) :
    KeepsPot countRegs s (u.deliverRec q x dest) := by
  unfold State.deliverRec
  simp only
  split
  · exact h.ringPut _
  · exact h.of_same
  · exact h.of_same
  · exact h.offerDeal ..

end

end Sys2Proof
end

section
/-! PROOFS. RECORD_RELEASE (R247 to R249), for O28: the order in which records go, and what a release does to the pot, its counters
and the product ring. -/

namespace Sys2Proof

open Sys2Proof.Machine

/-! ### The order of keys (R247) -/

/-- On keys of one length the model's order is the lexicographic order of lists. -/
theorem keyLt_iff {a b : List Nat} (h : a.length = b.length) : keyLt a b = true ↔ a < b := by
  induction a generalizing b with
  | nil =>
    obtain rfl := List.length_eq_zero_iff.mp h.symm
    simp [keyLt]
  | cons x a ih =>
    cases b with
    | nil => simp at h
    | cons y b =>
      have hrest : keyLt a b = true ↔ a < b := ih (by simpa using h)
      simp [keyLt, List.cons_lt_cons_iff, hrest]

/-- A record's place in the order of release: its key, then PART. -/
def place (q : PotRec) : List Nat ×ₗ Nat := toLex (q.key, q.part)

/-- The model's comparison of two records is that of their places. -/
theorem place_lt_iff (q r : PotRec) :
    (keyLt q.key r.key || (decide (q.key = r.key) && decide (q.part < r.part))) = true ↔ place q < place r := by
  have hkey : keyLt q.key r.key = true ↔ q.key < r.key := keyLt_iff rfl
  simp [place, Prod.Lex.toLex_lt_toLex, hkey]

/-- Of the records given one is chosen, and none of them has a lower place. -/
theorem leastRec_least {l : List PotRec} (hl : l ≠ []) : ∃ q, leastRec l = some q ∧ q ∈ l ∧ ∀ r ∈ l, place q ≤ place r := by
  induction l with
  | nil => exact absurd rfl hl
  | cons p l ih =>
    by_cases hlast : l = []
    · exact ⟨p, by simp [hlast, leastRec], by simp, by simp [hlast]⟩
    · obtain ⟨w, hw, hmem, hleast⟩ := ih hlast
      by_cases hlt : place w < place p
      · exact ⟨w, by simp [leastRec, hw, (place_lt_iff w p).mpr hlt], .tail _ hmem, List.forall_mem_cons.mpr ⟨hlt.le, hleast⟩⟩
      · have hstay := mt (place_lt_iff w p).mp hlt
        refine ⟨p, by simp only [leastRec, hw, if_neg hstay], .head _, List.forall_mem_cons.mpr ⟨le_rfl, fun r hr => ?_⟩⟩
        exact (not_lt.mp hlt).trans (hleast r hr)

/-- A record of no lower place has no lower key, and at the same key no lower PART. -/
theorem place_le_shows {q r : PotRec} (h : place q ≤ place r) :
    keyLt r.key q.key = false ∧ (r.key = q.key → q.part ≤ r.part) := by
  have hnot := mt (place_lt_iff r q).mp (not_lt.mpr h)
  simpa using hnot

/-! ### The release of a record (R247, R248) -/

/-- The test for a record that may be released. -/
def readyRec (s : State) (q : PotRec) : Bool :=
  s.emitted q.deal && (match s.productNo q.product with
    | some x => (q.awaits x).isEmpty || !(s.openDests q x).isEmpty
    | none => true)

/-- The records that may be released. -/
def readyRecs (s : State) : List PotRec := s.pot.wait.filter (readyRec s)

/-- Without such a record nothing is released. -/
theorem release_none {s : State} (h : readyRecs s = []) : s.release = s := by
  have hleast : leastRec (readyRecs s) = none := by rw [h]; rfl
  unfold State.release
  change (match leastRec (readyRecs s) with | some q => _ | none => _) = _
  rw [hleast]

/-- The first of them goes to the destinations open to it. -/
theorem release_some {s : State} {q : PotRec} {x : Product} (h : leastRec (readyRecs s) = some q)
    (hx : s.productNo q.product = some x) : s.release = s.releaseRec q x (s.openDests q x) := by
  unfold State.release
  change (match leastRec (readyRecs s) with | some q => _ | none => _) = _
  rw [h]
  simp only [hx]

/-- A record that may be released and still awaits a destination has one open to it. -/
theorem openDests_ne_nil {s : State} {q : PotRec} {x : Product} (h : q ∈ readyRecs s) (hx : s.productNo q.product = some x)
    (hawaits : q.awaits x ≠ []) : s.openDests q x ≠ [] := by
  have hready : readyRec s q = true := (List.mem_filter.mp h).2
  simp only [readyRec, hx, Bool.and_eq_true, Bool.or_eq_true, List.isEmpty_iff, Bool.not_eq_true', List.isEmpty_eq_false_iff] at hready
  exact hready.2.resolve_left hawaits

/-- The state after a record has gone to some destinations. -/
def delivered (s : State) (q : PotRec) (x : Product) (ds : List Nat) : State := ds.foldl (fun s d => s.deliverRec q x d) s

/-- A delivery leaves the waiting records and the counts. -/
theorem delivered_keeps (s : State) (q : PotRec) (x : Product) (ds : List Nat) : KeepsPot countRegs s (delivered s q x ds) :=
  (KeepsPot.refl _ s).foldl fun t d _ => (KeepsPot.refl _ t).deliverRec q x d

/-- The record after it has gone to some destinations. -/
def sentTo (q : PotRec) (ds : List Nat) : PotRec := { q with sent := q.sent ++ ds }

/-- A released record is counted, and counted again where it is late. -/
def countedRec (s : State) (late : Bool) : State :=
  let s := s.setPair POT_REC_COUNT (s.pair POT_REC_COUNT + 1)
  if late then (s.addSat POT_LATE_COUNT_COUNT 1).setFld POT_STAT_LATE 1 else s

/-- Whether a record carries LATE as it is released. -/
def carriesLate (s : State) (q : PotRec) : Bool := decide (s.potFlags q &&& flLate ≠ 0)

/-- The state with other records waiting. -/
def withWait (s : State) (w : List PotRec) : State := { s with pot := { s.pot with wait := w } }

section
variable {s : State} {q : PotRec} {x : Product} {ds : List Nat}

/-- A record that has had all its destinations leaves the pot. -/
theorem releaseRec_last (h : (sentTo q ds).awaits x = []) :
    s.releaseRec q x ds = (withWait (countedRec (delivered s q x ds) (carriesLate s q)) (s.pot.wait.erase q)).showPot := by
  have hwait : (countedRec (delivered s q x ds) (carriesLate s q)).pot.wait = s.pot.wait := by
    rw [← (delivered_keeps s q x ds).wait]
    unfold countedRec
    split <;> rfl
  rw [← hwait]
  exact if_pos (List.isEmpty_iff.mpr h)

/-- A record that still awaits a destination stays, with those it has had. -/
theorem releaseRec_more (h : (sentTo q ds).awaits x ≠ []) :
    s.releaseRec q x ds = withWait (delivered s q x ds) (s.pot.wait.map fun r => if r = q then sentTo q ds else r) := by
  rw [← (delivered_keeps s q x ds).wait]
  exact if_neg (mt List.isEmpty_iff.mp h)

end

/-! ### What counting shows -/

/-- The counts after a record has been counted. -/
theorem countedRec_counts (s : State) (late : Bool) :
    (countedRec s late).pair POT_REC_COUNT = (s.pair POT_REC_COUNT + 1) % 2 ^ 64 ∧
    (late = true → (countedRec s late).flag POT_STAT_LATE = true ∧
      (countedRec s late).fld POT_LATE_COUNT_COUNT = min (s.fld POT_LATE_COUNT_COUNT + 1) 0xFFFFFFFF) := by
  cases late with
  | false => exact ⟨pair_setPair .., nofun⟩
  | true =>
    refine ⟨?_, fun _ => ⟨flag_set _ _ (by decide) (by decide), ?_⟩⟩
    · change (((s.setPair POT_REC_COUNT _).addSat POT_LATE_COUNT_COUNT 1).setFld POT_STAT_LATE 1).pair POT_REC_COUNT = _
      rw [pair_setFld_ne _ _ _ (by decide) (by decide), addSat_eq, pair_setFld_ne _ _ _ (by decide) (by decide), pair_setPair]
    · change (((s.setPair POT_REC_COUNT _).addSat POT_LATE_COUNT_COUNT 1).setFld POT_STAT_LATE 1).fld POT_LATE_COUNT_COUNT = _
      rw [fld_setFld_ne _ _ (by decide), fld_addSat_self _ _ _ (by decide), fld_setPair_ne _ _ _ (by decide) (by decide)]
      rfl

/-- Counting changes registers alone. -/
theorem RegsOnly.countedRec (s : State) (late : Bool) : RegsOnly s (countedRec s late) := by
  have hcount := (RegsOnly.refl s).setPair POT_REC_COUNT (s.pair POT_REC_COUNT + 1)
  cases late with
  | false => exact hcount
  | true => exact (hcount.setFld _ _).setFld _ _

/-- Counting leaves the other registers. -/
theorem countedRec_reg (s : State) (late : Bool) {a : Nat} (h : a ∉ POT_STAT_LATE.addr :: countRegs) :
    (Sys2Proof.countedRec s late).reg a = s.reg a := by
  simp only [countRegs, List.mem_cons, List.not_mem_nil, or_false, not_or] at h
  obtain ⟨hstat, hlo, hhi, hlate⟩ := h
  have hcount : (s.setPair POT_REC_COUNT (s.pair POT_REC_COUNT + 1)).reg a = s.reg a := reg_setPair_ne _ _ _ hlo hhi
  cases late with
  | false => exact hcount
  | true => exact (reg_setFld_ne _ _ _ hstat).trans ((reg_setFld_ne _ _ _ hlate).trans hcount)

/-! ### What showing the stores leaves (R251) -/

/-- The occupancy of four quadrants' stores is shown, as `mark` finds it in the state before each. -/
def showQuads (s : State) (mark : Nat → Nat) : State :=
  (List.range 4).foldl (fun s q => (s.setFld (POT_Q_STORE_CUR q) (mark q)).maxFld (POT_Q_STORE_MAX q) (mark q)) s

/-- The occupancies, then STORE_HIGH. -/
theorem showPot_eq (s : State) : ∃ mark high, s.showPot = (showQuads s mark).setIf high POT_STAT_STORE_HIGH := ⟨_, _, rfl⟩

/-- Showing the occupancies changes registers alone. -/
theorem RegsOnly.showQuads (s : State) (mark : Nat → Nat) : RegsOnly s (showQuads s mark) :=
  List.foldlRecOn _ _ (RegsOnly.refl s) fun _ ht _ _ => (ht.setFld _ _).setFld _ _

/-- Showing the occupancies writes their four registers. -/
theorem showQuads_reg (s : State) (mark : Nat → Nat) {a : Nat} (h : a < 0x100040 ∨ 0x100050 ≤ a) :
    (Sys2Proof.showQuads s mark).reg a = s.reg a := by
  refine List.foldlRecOn (motive := fun t : State => t.reg a = s.reg a) _ _ rfl fun t ht q hq => ?_
  have hq := List.mem_range.mp hq
  rw [maxFld_eq, reg_setFld_ne _ _ _ (by simp only [POT_Q_STORE_MAX]; omega),
    reg_setFld_ne _ _ _ (by simp only [POT_Q_STORE_CUR]; omega), ht]

/-- Showing the stores changes registers alone. -/
theorem RegsOnly.showPot (s : State) : RegsOnly s s.showPot := by
  obtain ⟨mark, high, hshow⟩ := showPot_eq s
  rw [hshow]
  exact (RegsOnly.showQuads s mark).setIf _ _

/-- Showing the stores leaves every other register. -/
theorem showPot_reg (s : State) {a : Nat} (h : a < 0x100040 ∨ 0x100050 ≤ a) (hstat : a ≠ POT_STAT_STORE_HIGH.addr) :
    s.showPot.reg a = s.reg a := by
  obtain ⟨mark, high, hshow⟩ := showPot_eq s
  rw [hshow, ← showQuads_reg s mark h]
  cases high with
  | true => exact reg_setFld_ne _ _ _ hstat
  | false => rfl

/-- Showing the stores leaves LATE. -/
theorem showPot_late (s : State) : s.showPot.flag POT_STAT_LATE = s.flag POT_STAT_LATE := by
  obtain ⟨mark, high, hshow⟩ := showPot_eq s
  rw [hshow, flag_setIf_ne _ _ (by decide)]
  exact flag_congr (fld_congr (showQuads_reg s mark (by decide)))

/-- The pot does not lie in the registers. -/
@[simp] theorem showPot_pot (s : State) : s.showPot.pot = s.pot := by
  obtain ⟨r, hregs⟩ := RegsOnly.showPot s
  rw [hregs]

/-! ### The product ring (R249) -/

/-- A record that fits before the ring's end stands at the write offset, which moves on by its length. -/
theorem ringPut_fits {s : State} {bytes : List Byte} (h : s.pair POT_RING_WR + bytes.length < s.ringRegion.2) :
    s.ringPut bytes =
      (s.sdWrite (s.ringRegion.1 + s.pair POT_RING_WR) bytes).setPair POT_RING_WR (s.pair POT_RING_WR + bytes.length) := by
  have hcross : decide (s.ringRegion.2 < s.pair POT_RING_WR + bytes.length) = false := decide_eq_false (by omega)
  have hend : s.pair POT_RING_WR + bytes.length ≠ s.ringRegion.2 := by omega
  unfold State.ringPut
  simp only
  rw [if_neg (by omega), hcross]
  simp only [Bool.false_eq_true, if_false, if_neg hend]

/-- The bytes of a record that was written, and those beside it, where memory and capacity are as the write left them. -/
theorem sdWrite_shows {s t : State} {a : Nat} {bytes : List Byte} (ha : sdramBase ≤ a) (hm : t.sdram = (s.sdWrite a bytes).sdram)
    (hc : t.capacity = s.capacity) :
    (∀ (i : Nat) (b : Byte), bytes[i]? = some b → a - sdramBase + i < s.capacity → t.sdByte (a - sdramBase + i) = b) ∧
    ∀ o : Nat, o < a - sdramBase ∨ a - sdramBase + bytes.length ≤ o → t.sdByte o = s.sdByte o := by
  have hread : ∀ o, t.sdByte o = (s.sdWrite a bytes).sdByte o := sdByte_congr (hc.trans (sdWrite_capacity ..).symm) hm
  refine ⟨fun i b hb hi => ?_, fun o ho => ?_⟩
  · have hlen : i < bytes.length := (List.getElem?_eq_some_iff.mp hb).1
    rw [hread, ← Nat.sub_add_comm ha, sdByte_sdWrite_in s a bytes i ha hlen (by omega), List.getD_eq_getElem?_getD, hb]
    rfl
  · rw [hread]
    exact sdByte_sdWrite_out s a bytes o (by omega)

/-! ### RECORD_RELEASE (R247 to R249) -/

/-- The state after a record has had all its destinations. -/
def released (s : State) (q : PotRec) (x : Product) (ds : List Nat) : State :=
  (withWait (countedRec (delivered s q x ds) (carriesLate s q)) (s.pot.wait.erase q)).showPot

/-- Its counts, and the records that still wait. -/
theorem released_counts (s : State) (q : PotRec) (x : Product) (ds : List Nat) :
    (released s q x ds).pot.wait = s.pot.wait.erase q ∧
    (released s q x ds).pair POT_REC_COUNT = (s.pair POT_REC_COUNT + 1) % 2 ^ 64 ∧
    (carriesLate s q = true → (released s q x ds).flag POT_STAT_LATE = true ∧
      (released s q x ds).fld POT_LATE_COUNT_COUNT = min (s.fld POT_LATE_COUNT_COUNT + 1) 0xFFFFFFFF) := by
  have hkeeps := delivered_keeps s q x ds
  obtain ⟨hcount, hlate⟩ := countedRec_counts (delivered s q x ds) (carriesLate s q)
  rw [hkeeps.pair (by decide) (by decide)] at hcount
  rw [hkeeps.fld (by decide)] at hlate
  have hpair : ∀ v : State, v.showPot.pair POT_REC_COUNT = v.pair POT_REC_COUNT := fun v => by
    rw [State.pair, showPot_reg v (by decide) (by decide), showPot_reg v (by decide) (by decide), State.pair]
  refine ⟨by simp [released, withWait], (hpair _).trans hcount, fun hl => ⟨(showPot_late _).trans (hlate hl).1, ?_⟩⟩
  exact (fld_congr (showPot_reg _ (by decide) (by decide))).trans (hlate hl).2

/-- The other registers are as the delivery left them. -/
theorem released_reg (s : State) (q : PotRec) (x : Product) (ds : List Nat) {a : Nat} (h : a < 0x100040 ∨ 0x100050 ≤ a)
    (hcounts : a ∉ POT_STAT_LATE.addr :: countRegs) : (released s q x ds).reg a = (delivered s q x ds).reg a :=
  (showPot_reg _ h (List.ne_of_not_mem_cons hcounts)).trans (countedRec_reg _ _ hcounts)

/-- Capture memory is as the delivery left it. -/
theorem released_sdram (s : State) (q : PotRec) (x : Product) (ds : List Nat) :
    (released s q x ds).sdram = (delivered s q x ds).sdram := by
  obtain ⟨r, hcounted⟩ := RegsOnly.countedRec (delivered s q x ds) (carriesLate s q)
  obtain ⟨r', hshown⟩ := RegsOnly.showPot (withWait (countedRec (delivered s q x ds) (carriesLate s q)) (s.pot.wait.erase q))
  rw [released, hshown, hcounted]
  rfl

/-- A delivery to the product ring alone writes the record there. -/
theorem delivered_ring (s : State) (q : PotRec) (x : Product) : delivered s q x [2] = s.ringPut (s.potBytes q) := by
  simp only [delivered, List.foldl_cons, List.foldl_nil, State.deliverRec]

/-- A record whose bytes the delivery has written into the ring stands there once it is released. -/
theorem released_ring {s : State} {q : PotRec} {x : Product} {bytes : List Byte} (hbase : sdramBase ≤ s.ringRegion.1)
    (hput : delivered s q x [2] =
      (s.sdWrite (s.ringRegion.1 + s.pair POT_RING_WR) bytes).setPair POT_RING_WR (s.pair POT_RING_WR + bytes.length)) :
    let at' := s.ringRegion.1 + s.pair POT_RING_WR - sdramBase
    let t := (released s q x [2]).settle
    t.pair POT_RING_WR = (s.pair POT_RING_WR + bytes.length) % 2 ^ 64 ∧
      (∀ (i : Nat) (b : Byte), bytes[i]? = some b → at' + i < s.capacity → t.sdByte (at' + i) = b) ∧
      ∀ o : Nat, o < at' ∨ at' + bytes.length ≤ o → t.sdByte o = s.sdByte o := by
  intro at' t
  have hreg : ∀ a, a < 0x100040 ∨ 0x100050 ≤ a → a ∉ POT_STAT_LATE.addr :: countRegs →
      (released s q x [2]).reg a = (delivered s q x [2]).reg a := fun a => released_reg s q x [2]
  have hring : t.pair POT_RING_WR = (delivered s q x [2]).pair POT_RING_WR := by
    rw [settle_pair _ (by decide) (by decide), State.pair, hreg _ (by decide) (by decide), hreg _ (by decide) (by decide), State.pair]
  have hcapacity : t.capacity = s.capacity := by
    have hdelivered : (delivered s q x [2]).capacity = s.capacity := by
      rw [hput, State.capacity, pair_setPair_ne _ _ _ _ (by decide)]
      exact sdWrite_capacity ..
    rw [← hdelivered, State.capacity, settle_pair _ (by decide) (by decide), State.pair, hreg _ (by decide) (by decide),
      hreg _ (by decide) (by decide), State.capacity, State.pair]
  have hsdram : t.sdram = (s.sdWrite (s.ringRegion.1 + s.pair POT_RING_WR) bytes).sdram := by
    rw [settle_sdram, released_sdram, hput, setPair_sdram]
  exact ⟨by rw [hring, hput, pair_setPair], sdWrite_shows (by omega) hsdram hcapacity⟩

section
variable {s : State} {q : PotRec} {x : Product} {d : Nat}

/-- The record chosen may be released, and none that may has a lower key, or at the same key a lower PART. -/
theorem first_of_ready (h : leastRec (readyRecs s) = some q) :
    q ∈ readyRecs s ∧ ∀ r ∈ readyRecs s, keyLt r.key q.key = false ∧ (r.key = q.key → q.part ≤ r.part) := by
  have hready : readyRecs s ≠ [] := fun hnone => by
    rw [hnone] at h
    cases h
  obtain ⟨w, hw, hmem, hleast⟩ := leastRec_least hready
  obtain rfl := Option.some.inj (hw.symm.trans h)
  exact ⟨hmem, fun r hr => place_le_shows (hleast r hr)⟩

/-- A release after which the record has had all its destinations. -/
theorem release_last (h : leastRec (readyRecs s) = some q) (hx : s.productNo q.product = some x)
    (hlast : (sentTo q (s.openDests q x)).awaits x = []) : s.release = released s q x (s.openDests q x) :=
  (release_some h hx).trans (releaseRec_last hlast)

/-- A release after which the record still awaits a destination. -/
theorem release_more (h : leastRec (readyRecs s) = some q) (hx : s.productNo q.product = some x)
    (hmore : (sentTo q (s.openDests q x)).awaits x ≠ []) :
    s.release = withWait (delivered s q x (s.openDests q x))
      (s.pot.wait.map fun r => if r = q then sentTo q (s.openDests q x) else r) :=
  (release_some h hx).trans (releaseRec_more hmore)

/-- The one destination that a record to be released has left is open to it. -/
theorem openDests_single (h : q ∈ readyRecs s) (hx : s.productNo q.product = some x) (hd : q.awaits x = [d]) :
    s.openDests q x = [d] := by
  have hopen := openDests_ne_nil h hx (by simp [hd])
  rw [State.openDests, hd] at hopen ⊢
  exact List.filter_eq_self.mpr (by simpa using hopen)

/-- After its one destination left a record awaits none. -/
theorem awaits_sentTo (hd : q.awaits x = [d]) : (sentTo q [d]).awaits x = [] := by
  refine List.filter_eq_nil_iff.mpr fun e he hstill => ?_
  simp only [sentTo, List.mem_append, List.mem_singleton, not_or, Bool.and_eq_true, decide_eq_true_eq] at hstill
  obtain ⟨⟨hsent, hne⟩, hmerge⟩ := hstill
  have hleft : e ∈ q.awaits x := List.mem_filter.mpr ⟨he, by rw [decide_eq_true hsent, hmerge]; rfl⟩
  rw [hd, List.mem_singleton] at hleft
  exact hne hleft

end

end Sys2Proof
end

section
/-! PROOFS. The statement of 08_analysis_programs.md on records that become absent (O28): counting what a leaf owes changes nothing of
what the other leaves owe. -/

namespace Sys2Proof

open Sys2Proof.Machine

/-! ### The hand tree and the programs are the image's (R187, R188) -/

section
variable {s t : State} (h : t.img = s.img)
include h

theorem node?_of_img (i : Nat) : t.node? i = s.node? i := by
  rw [State.node?, State.node?, h]

theorem leafNode?_of_img (l : Nat) : t.leafNode? l = s.leafNode? l := by
  rw [State.leafNode?, State.leafNode?, h]

theorem members_of_img (i : Nat) : t.members i = s.members i := by
  simp only [State.members, State.nodeCount, node?_of_img h, h]

theorem chain_of_img (fuel i : Nat) : t.chain fuel i = s.chain fuel i := by
  induction fuel generalizing i with
  | zero => rfl
  | succ fuel ih => simp only [State.chain, node?_of_img h, ih]

theorem leavesIn_of_img (fuel i : Nat) : t.leavesIn fuel i = s.leavesIn fuel i := by
  induction fuel generalizing i with
  | zero => rfl
  | succ fuel ih =>
    have hbelow : t.leavesIn fuel = s.leavesIn fuel := funext ih
    simp only [State.leavesIn, node?_of_img h, members_of_img h, hbelow]

theorem leaderOf_of_img (fuel i : Nat) : t.leaderOf fuel i = s.leaderOf fuel i := by
  induction fuel generalizing i with
  | zero => rfl
  | succ fuel ih =>
    have hbelow : t.leaderOf fuel = s.leaderOf fuel := funext ih
    simp only [State.leaderOf, node?_of_img h, members_of_img h, hbelow]

theorem programNo_of_img (n : Nat) : t.programNo n = s.programNo n := by
  rw [State.programNo, State.programNo, h]

theorem programsOf_of_img (l : Nat) : t.programsOf l = s.programsOf l := by
  simp only [State.programsOf, leafNode?_of_img h, chain_of_img h, node?_of_img h, h]

/-- Which leaves form records of a product is the image's too (R192). -/
theorem forms_of_img (l : Nat) (x : Product) : t.forms l x = s.forms l x := by
  have hcombiners : t.combiners x.number = s.combiners x.number := by rw [State.combiners, State.combiners, h]
  have hmembers : t.combineMembers = s.combineMembers := funext fun i => by
    rw [State.combineMembers, State.combineMembers, State.leavesOf, State.leavesOf, leavesIn_of_img h, leaderOf_of_img h]
  rw [State.forms, State.forms, State.runsProduct, State.runsProduct, programsOf_of_img h, hcombiners, hmembers]

theorem recordsPerDeal_of_img (x : Product) : t.recordsPerDeal x = s.recordsPerDeal x := by
  simp only [State.recordsPerDeal, programNo_of_img h]

end

/-! ### Work that marks do not change (R193) -/

/-- A leaf without the deals whose records carry DEGRADED. -/
def unmarked (x : Leaf) : Leaf := { x with degr := [] }

/-- Marking an engine's records twice is marking them once. -/
theorem degrade_degrade (e : Engine) : e.degrade.degrade = e.degrade := by
  have hitem : FifoItem.degrade ∘ FifoItem.degrade = FifoItem.degrade := by
    funext x
    cases x <;> rfl
  simp [Engine.degrade, hitem, Function.comp_def]

/-- A deal of one leaf is marked, and the records of the engine that serves it. -/
def markLeaf (d : Nat) (s : State) (x : Nat) : State :=
  let s := s.setEng (s.fld (HAND_MAP_PHYS x)) (s.engOf (s.fld (HAND_MAP_PHYS x))).degrade
  s.setLeaf x { s.leafOf x with degr := if d ∈ (s.leafOf x).degr then (s.leafOf x).degr else (s.leafOf x).degr ++ [d] }

/-- A hand is marked leaf by leaf, and the combinations of its leaders with it. -/
theorem degradeHand_eq (s : State) (l d : Nat) :
    ∃ c, s.degradeHand l d =
      { (s.handLeaves l).foldl (markLeaf d) s with hand := { ((s.handLeaves l).foldl (markLeaf d) s).hand with combine := c } } :=
  ⟨_, rfl⟩

/-- Two states owe the same work: they differ in marks, in what has become absent, and in the two registers that show it. -/
structure SameWork (s t : State) : Prop where
  parts : ∃ r e l c a, t = { s with
    regs := r, hand := { s.hand with eng := e, leaf := l, combine := c }, pot := { s.pot with absent := a } }
  reg : ∀ a, a ≠ POT_STAT_ABSENT.addr → a ≠ POT_ABSENT_COUNT_COUNT.addr → t.reg a = s.reg a
  fields : KeepsFields [POT_ABSENT_COUNT_COUNT, POT_STAT_ABSENT] s t
  leaf : ∀ l, unmarked (t.leafOf l) = unmarked (s.leafOf l)
  eng : ∀ p, (t.engOf p).degrade = (s.engOf p).degrade

section
variable {s t u : State}

theorem SameWork.refl (s : State) : SameWork s s :=
  ⟨⟨s.regs, s.hand.eng, s.hand.leaf, s.hand.combine, s.pot.absent, rfl⟩, fun _ _ _ => rfl, .refl _ s, fun _ => rfl, fun _ => rfl⟩

theorem SameWork.trans (h : SameWork s t) (h' : SameWork t u) : SameWork s u := by
  refine ⟨?_, fun a hs hc => (h'.reg a hs hc).trans (h.reg a hs hc), h.fields.trans h'.fields,
    fun l => (h'.leaf l).trans (h.leaf l), fun p => (h'.eng p).trans (h.eng p)⟩
  obtain ⟨r, e, l, c, a, rfl⟩ := h.parts
  obtain ⟨r', e', l', c', a', rfl⟩ := h'.parts
  exact ⟨r', e', l', c', a', rfl⟩

/-- An engine's records are marked. -/
theorem SameWork.setEng (h : SameWork s t) (p : Nat) : SameWork s (t.setEng p (t.engOf p).degrade) := by
  refine h.trans ⟨⟨_, _, _, _, _, rfl⟩, fun _ _ _ => rfl, (KeepsFields.refl _ t).of_regs rfl, fun _ => rfl, fun q => ?_⟩
  rw [engOf_setEng]
  split
  · next hq => rw [degrade_degrade, hq]
  · rfl

/-- A deal of a leaf is marked. -/
theorem SameWork.setLeaf (h : SameWork s t) (l : Nat) (ds : List Nat) : SameWork s (t.setLeaf l { t.leafOf l with degr := ds }) := by
  refine h.trans ⟨⟨_, _, _, _, _, rfl⟩, fun _ _ _ => rfl, (KeepsFields.refl _ t).of_regs rfl, fun m => ?_, fun _ => rfl⟩
  rw [leafOf_setLeaf]
  split
  · next hm => rw [hm, unmarked, unmarked]
  · rfl

/-- One leaf of a hand is marked, with the engine that serves it. -/
theorem SameWork.markLeaf (h : SameWork s t) (d x : Nat) : SameWork s (markLeaf d t x) := (h.setEng _).setLeaf x _

/-- A hand's records are marked. -/
theorem SameWork.degradeHand (h : SameWork s t) (l d : Nat) : SameWork s (t.degradeHand l d) := by
  have hmarked : SameWork s ((t.handLeaves l).foldl (Sys2Proof.markLeaf d) t) :=
    List.foldlRecOn (motive := SameWork s) _ _ h fun _ hv x _ => hv.markLeaf d x
  obtain ⟨c, hmark⟩ := degradeHand_eq t l d
  rw [hmark]
  exact hmarked.trans ⟨⟨_, _, _, _, _, rfl⟩, fun _ _ _ => rfl, (KeepsFields.refl _ _).of_regs rfl, fun _ => rfl, fun _ => rfl⟩

end

/-! ### What a leaf owes depends on the work alone -/

/-- A committed record of a product and deal. -/
def opensFor (prog loc deal : Nat) (y : FifoItem) : Bool :=
  match y with
  | .opens g p d _ _ => decide (g = prog) && decide (p = loc) && decide (d = deal)
  | _ => false

/-- A mark does not change which record it is. -/
theorem opensFor_degrade (prog loc deal : Nat) (y : FifoItem) : opensFor prog loc deal y.degrade = opensFor prog loc deal y := by
  cases y <;> rfl

/-- The records of a product and deal that an engine has committed and not delivered. -/
def heldRecords (e : Engine) (x : Product) (deal : Nat) : Nat :=
  e.fifo.countP (opensFor x.prog x.loc deal) +
  (match e.drain with
    | some r => b2n (decide (r.prog = x.prog) && decide (r.loc = x.loc) && decide (r.deal = deal))
    | none => 0)

/-- Marks do not change their number. -/
theorem heldRecords_degrade (e : Engine) (x : Product) (deal : Nat) : heldRecords e.degrade x deal = heldRecords e x deal := by
  have hitems : e.degrade.fifo.countP (opensFor x.prog x.loc deal) = e.fifo.countP (opensFor x.prog x.loc deal) := by
    simp only [Engine.degrade, List.countP_map, Function.comp_def, opensFor_degrade]
  rw [heldRecords, hitems, heldRecords]
  cases hdrain : e.drain <;> simp [Engine.degrade, hdrain]

/-- Records made are those delivered and those committed. -/
theorem recordsMade_eq (s : State) (l : Nat) (x : Product) (deal : Nat) :
    s.recordsMade l x deal =
      ((s.pot.parts.find? (fun y => decide (y.1 = l) && decide (y.2.1 = x.number) && decide (y.2.2.1 = deal))).map
        (fun y => y.2.2.2)).getD 0 + heldRecords (s.engOf (s.fld (HAND_MAP_PHYS l))) x deal :=
  Nat.add_assoc ..

section
variable {s t : State} (h : SameWork s t)
include h

theorem SameWork.img : t.img = s.img := by
  obtain ⟨r, e, l, c, a, rfl⟩ := h.parts
  rfl

theorem SameWork.deal : t.deal = s.deal := by
  obtain ⟨r, e, l, c, a, rfl⟩ := h.parts
  rfl

theorem SameWork.fld {f : Field} (hs : f.addr ≠ POT_STAT_ABSENT.addr) (hc : f.addr ≠ POT_ABSENT_COUNT_COUNT.addr) :
    t.fld f = s.fld f := fld_congr (h.reg _ hs hc)

/-- A leaf's physical engine. -/
theorem SameWork.phys (l : Nat) : t.fld (HAND_MAP_PHYS l) = s.fld (HAND_MAP_PHYS l) :=
  h.fld (by simp only [HAND_MAP_PHYS, POT_STAT_ABSENT]; omega) (by simp only [HAND_MAP_PHYS, POT_ABSENT_COUNT_COUNT]; omega)

theorem SameWork.framesPerDeal (g : Program) : t.framesPerDeal g = s.framesPerDeal g := by
  rw [State.framesPerDeal, State.framesPerDeal, State.dealLen, State.dealLen, State.k, State.k, h.fld (by decide) (by decide)]

theorem SameWork.endedOf (l prog deal : Nat) : (t.leafOf l).endedOf prog deal = (s.leafOf l).endedOf prog deal :=
  (congrArg (fun x => Leaf.endedOf x prog deal) (h.leaf l) :)

theorem SameWork.dealEnd (l : Nat) : (t.leafOf l).dealEnd = (s.leafOf l).dealEnd := (congrArg Leaf.dealEnd (h.leaf l) :)

theorem SameWork.prodOn (product deal : Nat) : t.prodOn product deal = s.prodOn product deal := by
  have hen : t.pot.en = s.pot.en := by
    obtain ⟨r, e, l, c, a, rfl⟩ := h.parts
    rfl
  have hbit : t.bitSet (POT_PROD_EN_EN (product / 32)) (product % 32) = s.bitSet (POT_PROD_EN_EN (product / 32)) (product % 32) :=
    bitSet_congr (h.fld (by simp only [Field.bit, POT_PROD_EN_EN, POT_STAT_ABSENT]; omega)
      (by simp only [Field.bit, POT_PROD_EN_EN, POT_ABSENT_COUNT_COUNT]; omega))
  rw [State.prodOn, State.prodOn, hen, hbit]

theorem SameWork.tasksOver (l : Nat) (x : Product) (g : Program) (deal : Nat) : t.tasksOver l x g deal = s.tasksOver l x g deal := by
  simp only [State.tasksOver, h.framesPerDeal, h.endedOf, h.dealEnd]

theorem SameWork.recordsMade (l : Nat) (x : Product) (deal : Nat) : t.recordsMade l x deal = s.recordsMade l x deal := by
  have hparts : t.pot.parts = s.pot.parts := by
    obtain ⟨r, e, l, c, a, rfl⟩ := h.parts
    rfl
  rw [recordsMade_eq, recordsMade_eq, hparts, h.phys, ← heldRecords_degrade, h.eng, heldRecords_degrade]

/-- The records that a leaf owes. -/
theorem SameWork.owedRecords (l deal : Nat) : t.owedRecords l deal = s.owedRecords l deal := by
  simp only [State.owedRecords, h.img, forms_of_img h.img, programNo_of_img h.img, recordsPerDeal_of_img h.img, h.prodOn, h.tasksOver,
    h.recordsMade]

/-- Whether a leaf owes work. -/
theorem SameWork.leafOwes (l deal : Nat) : t.leafOwes l deal = s.leafOwes l deal := by
  have htask : ∀ p, (t.engOf p).task = (s.engOf p).task := fun p => (congrArg Engine.task (h.eng p) :)
  have hring : (t.leafOf l).ring = (s.leafOf l).ring := (congrArg Leaf.ring (h.leaf l) :)
  have hgone : (t.leafOf l).gone = (s.leafOf l).gone := (congrArg Leaf.gone (h.leaf l) :)
  have hvalid : t.flag (HAND_MAP_VALID l) = s.flag (HAND_MAP_VALID l) :=
    flag_congr (h.fld (by simp only [HAND_MAP_VALID, POT_STAT_ABSENT]; omega)
      (by simp only [HAND_MAP_VALID, POT_ABSENT_COUNT_COUNT]; omega))
  simp only [State.leafOwes, htask, hring, hgone, hvalid, h.phys, h.deal, programsOf_of_img h.img, h.framesPerDeal, h.endedOf, h.dealEnd]

end

/-! ### A leaf's records become absent (R248) -/

section
variable {s t u : State}

/-- One of the two registers that show absent records is written. -/
theorem SameWork.setFld (h : SameWork s t) {f : Field} (x : Nat) (hf : f ∈ [POT_ABSENT_COUNT_COUNT, POT_STAT_ABSENT]) :
    SameWork s (t.setFld f x) := by
  refine h.trans ⟨⟨_, _, _, _, _, rfl⟩, fun a hs hc => reg_setFld_ne _ _ _ ?_, (KeepsFields.refl _ t).setFld _ _ hf, fun _ => rfl,
    fun _ => rfl⟩
  simp only [List.mem_cons, List.not_mem_nil, or_false] at hf
  obtain rfl | rfl := hf
  · exact hc
  · exact hs

/-- A leaf and deal join those whose records are absent. -/
theorem SameWork.withAbsent (h : SameWork s t) (a : List (Nat × Nat)) : SameWork s { t with pot := { t.pot with absent := a } } :=
  h.trans ⟨⟨_, _, _, _, _, rfl⟩, fun _ _ _ => rfl, (KeepsFields.refl _ _).of_regs rfl, fun _ => rfl, fun _ => rfl⟩

/-- Marking a hand's records leaves the pot. -/
@[simp] theorem degradeHand_pot (s : State) (l d : Nat) : (s.degradeHand l d).pot = s.pot := by
  obtain ⟨c, hmark⟩ := degradeHand_eq s l d
  rw [hmark]
  exact foldl_keeps (get := State.pot) (f := markLeaf d) (fun _ _ => rfl) _ _

/-- Marking a hand's records leaves the registers. -/
theorem degradeHand_regs (s : State) (l d : Nat) : (s.degradeHand l d).regs = s.regs := by
  obtain ⟨c, hmark⟩ := degradeHand_eq s l d
  rw [hmark]
  exact foldl_keeps (get := State.regs) (f := markLeaf d) (fun _ _ => rfl) _ _

/-- Marking a hand's records leaves every field. -/
theorem degradeHand_fld (s : State) (l d : Nat) (f : Field) : (s.degradeHand l d).fld f = s.fld f := by
  rw [State.fld, State.reg, degradeHand_regs, State.fld, State.reg]

/-- The records that some leaves owe of a deal. -/
def owedBy (s : State) (deal : Nat) (late : List Nat) : Nat := (late.map (fun l => s.owedRecords l deal)).sum

/-- What some leaves owe of a deal has become absent. -/
structure Absents (deal : Nat) (late : List Nat) (s t : State) : Prop where
  work : SameWork s t
  count : t.fld POT_ABSENT_COUNT_COUNT = min (s.fld POT_ABSENT_COUNT_COUNT + owedBy s deal late) 0xFFFFFFFF
  flag : t.flag POT_STAT_ABSENT = (decide (0 < owedBy s deal late) || s.flag POT_STAT_ABSENT)
  absent : t.pot.absent = late.reverse.map (fun l => (l, deal)) ++ s.pot.absent

/-- Nothing has become absent. -/
theorem Absents.nil (deal : Nat) (s : State) : Absents deal [] s s := by
  have hfits : s.fld POT_ABSENT_COUNT_COUNT < 2 ^ 32 := Nat.mod_lt _ (by decide)
  exact ⟨.refl s, by simp only [owedBy, List.map_nil, List.sum_nil]; omega, by simp [owedBy], rfl⟩

/-- More leaves' records become absent. -/
theorem Absents.append {deal : Nat} {late late' : List Nat} (h : Absents deal late s t) (h' : Absents deal late' t u) :
    Absents deal (late ++ late') s u := by
  have howed : owedBy t deal late' = owedBy s deal late' := by simp only [owedBy, h.work.owedRecords]
  have hsum : owedBy s deal (late ++ late') = owedBy s deal late + owedBy s deal late' := by simp [owedBy]
  refine ⟨h.work.trans h'.work, ?_, ?_, ?_⟩
  · rw [h'.count, h.count, howed, hsum]
    omega
  · rw [h'.flag, h.flag, howed, hsum, ← Bool.or_assoc, ← Bool.decide_or]
    exact congrArg (· || _) (decide_eq_decide.mpr (by omega))
  · rw [h'.absent, h.absent, List.reverse_append, List.map_append, List.append_assoc]

/-- Whether a leaf owes records of a deal that have not been counted. -/
def newlyAbsent (s : State) (deal l : Nat) : Bool := decide ((l, deal) ∉ s.pot.absent) && s.leafOwes l deal

/-- What is counted of a leaf's records. -/
def absentCounted (s : State) (l deal : Nat) : State :=
  ((s.degradeHand l deal).addSat POT_ABSENT_COUNT_COUNT (s.owedRecords l deal)).setIf (decide (0 < s.owedRecords l deal)) POT_STAT_ABSENT

/-- A leaf that owes nothing new changes nothing. -/
theorem absentLeaf_still {l deal : Nat} (h : newlyAbsent s deal l = false) : s.absentLeaf l deal = s := by
  refine if_pos ?_
  simpa [newlyAbsent, or_iff_not_imp_left] using h

/-- A leaf that owes something new is counted and noted. -/
theorem absentLeaf_new {l deal : Nat} (h : newlyAbsent s deal l = true) (hroom : s.pot.absent.length < 65536) :
    s.absentLeaf l deal =
      { absentCounted s l deal with pot := { (absentCounted s l deal).pot with absent := (l, deal) :: s.pot.absent } } := by
  have hpot : (absentCounted s l deal).pot = s.pot := by
    rw [absentCounted, setIf_pot, addSat_eq, setFld_pot, degradeHand_pot]
  have htake : ((l, deal) :: s.pot.absent).take 65536 = (l, deal) :: s.pot.absent := List.take_of_length_le hroom
  obtain ⟨hfresh, howes⟩ := Bool.and_eq_true_iff.mp h
  unfold State.absentLeaf
  rw [if_neg (by simp [of_decide_eq_true hfresh, howes])]
  change ({ absentCounted s l deal with pot := { (absentCounted s l deal).pot with
    absent := ((l, deal) :: (absentCounted s l deal).pot.absent).take 65536 } } : State) = _
  rw [hpot, htake]

/-- Such a leaf's records become absent. -/
theorem absentLeaf_absents {l deal : Nat} (h : newlyAbsent s deal l = true) (hroom : s.pot.absent.length < 65536) :
    Absents deal [l] s (s.absentLeaf l deal) := by
  have howed : owedBy s deal [l] = s.owedRecords l deal := by simp [owedBy]
  have hcounted : SameWork s ((s.degradeHand l deal).addSat POT_ABSENT_COUNT_COUNT (s.owedRecords l deal)) :=
    ((SameWork.refl s).degradeHand l deal).setFld _ (by simp)
  have hwork : SameWork s (absentCounted s l deal) := by
    unfold absentCounted State.setIf
    split
    · exact hcounted.setFld 1 (by simp)
    · exact hcounted
  rw [absentLeaf_new h hroom]
  refine ⟨hwork.withAbsent _, ?_, ?_, rfl⟩
  · change (absentCounted s l deal).fld POT_ABSENT_COUNT_COUNT = _
    rw [absentCounted, fld_setIf_ne _ _ (by decide), fld_addSat_self _ _ _ (by decide), degradeHand_fld, howed]
    rfl
  · change (absentCounted s l deal).flag POT_STAT_ABSENT = _
    rw [absentCounted, flag_setIf_self _ _ _ (by decide) (by decide), flag_addSat_ne _ _ (by decide),
      flag_congr (degradeHand_fld s l deal _), howed]

/-- One leaf after another, the records that each owes become absent. -/
theorem absentLeaves_absents (deal : Nat) {ls : List Nat} (hls : ls.Nodup) (hroom : s.pot.absent.length + ls.length ≤ 65536) :
    Absents deal (ls.filter (newlyAbsent s deal)) s (ls.foldl (fun s l => s.absentLeaf l deal) s) := by
  induction ls generalizing s with
  | nil => exact .nil deal s
  | cons l ls ih =>
    obtain ⟨hl, hls⟩ := List.nodup_cons.mp hls
    rw [List.length_cons] at hroom
    rw [List.foldl_cons]
    cases hnew : newlyAbsent s deal l with
    | false =>
      rw [absentLeaf_still hnew, List.filter_cons_of_neg (by simp [hnew])]
      exact ih hls (by omega)
    | true =>
      have hstep := absentLeaf_absents hnew (by omega)
      have hothers : ls.filter (newlyAbsent (s.absentLeaf l deal) deal) = ls.filter (newlyAbsent s deal) :=
        List.filter_congr fun m hm => by
          have hne : m ≠ l := ne_of_mem_of_not_mem hm hl
          simp [newlyAbsent, hstep.work.leafOwes, hstep.absent, hne]
      rw [List.filter_cons_of_pos hnew, ← hothers]
      exact hstep.append (ih hls (by rw [hstep.absent]; simp; omega))

end

/-- What a command shows that makes absent what some leaves owe of a deal. -/
theorem Absents.runs {c : Instr} {s u : State} {deal : Nat} {late : List Nat} (hc : exec c s = Machine.done u)
    (h : Absents deal late s u) :
    Runs c s [POT_ABSENT_COUNT_COUNT, POT_STAT_ABSENT]
      (fun t => { s with
        hand := { s.hand with eng := t.hand.eng, leaf := t.hand.leaf, combine := t.hand.combine },
        pot := { s.pot with absent := t.pot.absent } })
      (fun t => t.fld POT_ABSENT_COUNT_COUNT = min (s.fld POT_ABSENT_COUNT_COUNT + owedBy s deal late) 0xFFFFFFFF ∧
        t.flag POT_STAT_ABSENT = (decide (0 < owedBy s deal late) || s.flag POT_STAT_ABSENT) ∧
        ∀ l ∈ late, (l, deal) ∈ t.pot.absent) := by
  obtain ⟨r, e, l, b, a, hu⟩ := h.work.parts
  refine Runs.done hc ⟨?_, ?_, fun l hl => ?_⟩ h.work.fields ?_ ?_
  · rw [settle_fld _ _ (by decide), h.count]
  · rw [settle_flag _ _ (by decide), h.flag]
  · rw [settle_pot, h.absent]
    exact List.mem_append_left _ (List.mem_map_of_mem (List.mem_reverse.mpr hl))
  · simp only [settle_hand, settle_pot, hu]
  · simp [hu]

/-- Settles O28: a release by its record's place and by whether the record has had all its destinations, an absence leaf by leaf. -/
theorem recordsLeaveInKeyOrderOrBecomeAbsent : Obligations.RecordsLeaveInKeyOrderOrBecomeAbsent := by
  intro s deal ready
  refine ⟨fun hnone => Runs.still (congrArg Machine.done (release_none hnone)), fun q x hq hx => ?_, fun hearly => ?_,
    fun hdue hroom => ?_⟩
  · refine ⟨s.release.settle, rfl, (first_of_ready hq).1, (first_of_ready hq).2, ⟨fun hlast => ?_, fun hmore => ?_⟩,
      fun hbase hring hfits => ?_⟩
    · obtain ⟨hwait, hcount, hlate⟩ := released_counts s q x (s.openDests q x)
      rw [release_last hq hx hlast]
      refine ⟨by rw [settle_pot, hwait], by rw [settle_pair _ (by decide) (by decide), hcount], fun hl => ?_⟩
      obtain ⟨hflag, hlates⟩ := hlate (decide_eq_true hl)
      exact ⟨by rw [settle_flag _ _ (by decide), hflag], by rw [settle_fld _ _ (by decide), hlates]⟩
    · rw [release_more hq hx hmore, settle_pot, settle_pair _ (by decide) (by decide)]
      exact ⟨rfl, (delivered_keeps s q x (s.openDests q x)).pair (by decide) (by decide)⟩
    · have hopen : s.openDests q x = [2] := openDests_single (first_of_ready hq).1 hx hring
      have hreleased : s.release = released s q x [2] := by
        rw [release_last hq hx (by rw [hopen]; exact awaits_sentTo hring), hopen]
      rw [hreleased]
      exact released_ring hbase ((delivered_ring s q x).trans (ringPut_fits hfits))
  · exact Runs.still (congrArg Machine.done (if_pos hearly))
  · exact (absentLeaves_absents deal List.nodup_range (by simpa using hroom)).runs (congrArg Machine.done (if_neg (not_lt.mpr hdue)))

end Sys2Proof
end

section
/-! PROOFS. What the records that a stream is offered can change: registers, the event log, capture memory, the streams, the kitty
queue behind them and KITTY_HOLD, and nothing of the zoom chains (R263, R390, R396, R400 to R410). -/

namespace Sys2Proof

open Sys2Proof.Machine

/-- A state is another but for what streams change. -/
def StreamWork (s t : State) : Prop := ∃ r l f m e k p, t = { s with
  regs := r, hand := { s.hand with log := l }, lastFatal := f, sdram := m, eth := e, kit := k, pins := p }

section
variable {s t u : State}

theorem StreamWork.refl (s : State) : StreamWork s s :=
  ⟨s.regs, s.hand.log, s.lastFatal, s.sdram, s.eth, s.kit, s.pins, rfl⟩

theorem StreamWork.trans (h : StreamWork s t) (h' : StreamWork t u) : StreamWork s u := by
  obtain ⟨r, l, f, m, e, k, p, rfl⟩ := h
  obtain ⟨r', l', f', m', e', k', p', rfl⟩ := h'
  exact ⟨r', l', f', m', e', k', p', rfl⟩

/-- A zoom chain is no part of it. -/
theorem StreamWork.zoom (h : StreamWork s t) : t.zoom = s.zoom := by
  obtain ⟨r, l, f, m, e, k, p, rfl⟩ := h
  rfl

/-- A field of a register is given a value. -/
theorem StreamWork.setFld (h : StreamWork s u) (f : Field) (x : Nat) : StreamWork s (u.setFld f x) :=
  h.trans ⟨(u.setFld f x).regs, u.hand.log, u.lastFatal, u.sdram, u.eth, u.kit, u.pins, rfl⟩

/-- The streams change. -/
theorem StreamWork.withEth (h : StreamWork s u) (e : EthState) : StreamWork s { u with eth := e } :=
  h.trans ⟨u.regs, u.hand.log, u.lastFatal, u.sdram, e, u.kit, u.pins, rfl⟩

/-- The kitty queue changes. -/
theorem StreamWork.withKit (h : StreamWork s u) (k : KitState) : StreamWork s { u with kit := k } :=
  h.trans ⟨u.regs, u.hand.log, u.lastFatal, u.sdram, u.eth, k, u.pins, rfl⟩

/-- The pins change. -/
theorem StreamWork.withPins (h : StreamWork s u) (p : Pins) : StreamWork s { u with pins := p } :=
  h.trans ⟨u.regs, u.hand.log, u.lastFatal, u.sdram, u.eth, u.kit, p, rfl⟩

/-- An event is logged. -/
theorem StreamWork.logEvent (c sev arg : Nat) (h : StreamWork s u) : StreamWork s (u.logEvent c sev arg) := by
  obtain ⟨r, l, f, hlog⟩ := logEvent_eq u c sev arg
  exact h.trans ⟨r, l, f, u.sdram, u.eth, u.kit, u.pins, hlog⟩

/-- Bytes are written to capture memory. -/
theorem StreamWork.sdWrite (a : Nat) (bs : List Byte) (h : StreamWork s u) : StreamWork s (u.sdWrite a bs) := by
  obtain ⟨m, hwrite⟩ := sdWrite_eq u a bs
  exact h.trans ⟨u.regs, u.hand.log, u.lastFatal, m, u.eth, u.kit, u.pins, hwrite⟩

/-- Of two updates one is done. -/
theorem StreamWork.ite {c : Prop} [Decidable c] (hu : StreamWork s u) (hv : StreamWork s v) :
    StreamWork s (if c then u else v) := by
  split
  · exact hu
  · exact hv

/-- A sequence of updates. -/
theorem StreamWork.foldl {α : Type} {f : State → α → State} (hf : ∀ t x, StreamWork t (f t x)) (l : List α) (h : StreamWork s u) :
    StreamWork s (l.foldl f u) :=
  l.foldlRecOn f (motive := StreamWork s) h fun t ht x _ => ht.trans (hf t x)

/-! ### The kitty queue (R405 to R410) -/

/-- The occupancy of the queue is shown. -/
theorem StreamWork.kitShow (h : StreamWork s u) : StreamWork s u.kitShow :=
  (((h.setFld KIT_LEVEL_CUR _).setFld KIT_LEVEL_MAX _).setFld KIT_STAT_HOLD _).withPins _

theorem StreamWork.kitCountDrop (h : StreamWork s u) : StreamWork s u.kitCountDrop := (h.setFld _ _).setFld _ _

theorem StreamWork.setDrop (p : Option Nat) (h : StreamWork s u) : StreamWork s (u.setDrop p) := (h.withKit _).setFld _ _

/-- An entry is written to the queue. -/
theorem StreamWork.kitWrite (e : KitEntry) (h : StreamWork s u) : StreamWork s (u.kitWrite e) := by
  have hput := (h.withKit { u.kit with queue := u.kit.queue ++ [e] }).setFld KIT_PTR_WR ((u.fld KIT_PTR_WR + 1) % 4096)
  exact .ite (.ite h.kitCountDrop (h.kitCountDrop.setDrop _))
    (StreamWork.ite ((hput.setFld _ _).logEvent _ _ _) hput).kitShow

/-- A held entry is released. -/
theorem StreamWork.kitRelease (h : StreamWork s u) : StreamWork s u.kitRelease := by
  unfold State.kitRelease
  split
  · exact .ite h ((h.withKit _).kitWrite _)
  · exact h

/-- The oldest entry leaves. -/
theorem StreamWork.kitTake (h : StreamWork s u) : StreamWork s u.kitTake := ((h.withKit _).setFld _ _).kitShow

/-- Queued entries are discarded. -/
theorem StreamWork.kitPurge (p : Nat) (l : List KitEntry) (h : StreamWork s u) : StreamWork s (u.kitPurge p l).1 := by
  induction l generalizing u with
  | nil => exact h
  | cons e l ih =>
    unfold State.kitPurge
    split
    · simp only
      split
      · exact ih h.kitTake.kitCountDrop
      · exact h.kitTake.kitCountDrop
    · exact h

/-- The rest of a packet is discarded. -/
theorem StreamWork.kitDiscard (p : Nat) (h : StreamWork s u) : StreamWork s (u.kitDiscard p) :=
  (((h.kitPurge p u.kit.queue).withKit _).setDrop _).kitRelease

/-! ### Streams (R396, R400 to R402) -/

/-- A stream changes. -/
theorem StreamWork.setStream (p st : Nat) (x : Stream) (h : StreamWork s u) : StreamWork s (u.setStream p st x) := h.withEth _

theorem StreamWork.showStore (p : Nat) (h : StreamWork s u) : StreamWork s (u.showStore p) := (h.setFld _ _).setFld _ _

/-- A dropped record is counted. -/
theorem StreamWork.countDrop (p st cause size deal rseq : Nat) (vdif : Bool) (h : StreamWork s u) :
    StreamWork s (u.countDrop p st cause size deal rseq vdif) :=
  ((((h.setStream p st _).setFld _ _).setFld _ _).setFld _ _).logEvent _ _ _

/-- The rest of a kitty packet is dropped. -/
theorem StreamWork.dropKitty (p st : Nat) (k : Option (Nat × Bool)) (h : StreamWork s u) : StreamWork s (u.dropKitty p st k) := by
  unfold State.dropKitty
  split
  · exact .ite ((((h.setStream p st _).withEth _).withKit _).kitDiscard _) ((h.setStream p st _).withEth _)
  · exact h

/-- A queued record is dropped. -/
theorem StreamWork.dropQueued (p st : Nat) (q : QRec) (cause : Nat) (h : StreamWork s u) :
    StreamWork s (u.dropQueued p st q cause) := by
  unfold State.dropQueued
  have hgone := h.setStream p st { u.streamAt p st with queue := (u.streamAt p st).queue.erase q }
  cases q.gap with
  | some g =>
    refine (StreamWork.setStream p g.1 _ ?_).showStore p
    cases q.spill with
    | none => exact hgone
    | some o => exact hgone.withEth _
  | none =>
    refine ((StreamWork.countDrop p st cause _ _ _ _ ?_).dropKitty p st _).showStore p
    cases q.spill with
    | none => exact hgone
    | some o => exact hgone.withEth _

/-- The age test of a queue's head. -/
theorem StreamWork.ageHead (p st n : Nat) (h : StreamWork s u) : StreamWork s (u.ageHead p st n) := by
  induction n generalizing u with
  | zero => exact h
  | succ n ih =>
    unfold State.ageHead
    split
    · exact .ite (ih (h.dropQueued p st _ 2)) h
    · exact h

/-- A record enters a queue. -/
theorem StreamWork.enter? {p st : Nat} {q : QRec} (h : StreamWork s u) (ht : u.enter? p st q = some t) : StreamWork s t := by
  unfold State.enter? at ht
  simp only at ht
  split at ht
  · exact Option.some.inj ht ▸ (h.setStream p st _).showStore p
  · split at ht
    · exact Option.some.inj ht ▸ (((h.sdWrite _ _).withEth _).setStream p st _).showStore p
    · cases ht

/-- A record of a deal is offered to a stream. -/
theorem StreamWork.offerDeal (p st n : Nat) (bytes : List Byte) (vdif : Bool) (h : StreamWork s u) :
    StreamWork s (u.offerDeal p st n bytes vdif) := by
  refine .ite ?_ h
  unfold State.offer
  simp only
  split
  · next ht => exact ((h.setStream p st _).enter? ht).ageHead p st _
  · exact ((h.setStream p st _).countDrop ..).dropKitty ..

/-- A sample joins a VDIF stream. -/
theorem StreamWork.vdifTake (p st n : Nat) (y : Int) (r c code : Nat) (invalid : Bool) (h : StreamWork s u) :
    StreamWork s (u.vdifTake p st n y r c code invalid) := .ite h (h.setStream p st _)

/-- A segment of a zoom chain goes to the chain's streams. -/
theorem StreamWork.zoomStream (k : Nat) (g : ZoomSeg) (h : StreamWork s u) : StreamWork s (u.zoomStream k g) :=
  h.foldl (fun t _ => .ite ((StreamWork.refl t).foldl (fun t _ => (StreamWork.refl t).vdifTake ..) _)
    ((StreamWork.refl t).offerDeal ..)) _

end

end Sys2Proof
end

section
/-! PROOFS. What happens in one trigger slot leaves the other slots, their counts of fires and the zoom chains; and what a slot makes
of something that gives it no event (R269, R282 to R288). -/

namespace Sys2Proof

open Sys2Proof.Machine

/-- Slot `n` may have changed and fired; the other slots, their counts of fires and the zoom chains stay as they were. -/
structure SlotOnly (n : Nat) (s t : State) : Prop where
  slot : ∀ m, m ≠ n → t.slotOf m = s.slotOf m
  count : ∀ m, m ≠ n → t.reg (TRGS_COUNT_COUNT m).addr = s.reg (TRGS_COUNT_COUNT m).addr
  zoom : t.zoom = s.zoom

section
variable {n : Nat} {s t u v : State}

theorem SlotOnly.refl (n : Nat) (s : State) : SlotOnly n s s := ⟨fun _ _ => rfl, fun _ _ => rfl, rfl⟩

theorem SlotOnly.trans (h : SlotOnly n s t) (h' : SlotOnly n t u) : SlotOnly n s u :=
  ⟨fun m hm => (h'.slot m hm).trans (h.slot m hm), fun m hm => (h'.count m hm).trans (h.count m hm), h'.zoom.trans h.zoom⟩

/-- The slots, the registers and the zoom chains are another state's. -/
theorem SlotOnly.of_same (h : SlotOnly n s u) (ht : v.trig.slots = u.trig.slots := by rfl) (hr : v.regs = u.regs := by rfl)
    (hz : v.zoom = u.zoom := by rfl) : SlotOnly n s v :=
  h.trans ⟨fun _ _ => by rw [State.slotOf, ht, State.slotOf], fun _ _ => by rw [State.reg, hr, State.reg], hz⟩

/-- The slot changes. -/
theorem SlotOnly.setSlot (h : SlotOnly n s u) (x : Slot) : SlotOnly n s (u.setSlot n x) :=
  h.trans ⟨fun _ hm => by rw [slotOf_setSlot, if_neg hm], fun _ _ => rfl, rfl⟩

/-- A register that counts no other slot's fires is given a value. -/
theorem SlotOnly.setReg (h : SlotOnly n s u) {a : Nat} (w : Word) (ha : ∀ m, m ≠ n → (TRGS_COUNT_COUNT m).addr ≠ a) :
    SlotOnly n s (u.setReg a w) :=
  h.trans ⟨fun _ _ => rfl, fun m hm => by rw [reg_setReg, if_neg (ha m hm)], rfl⟩

/-- A field of such a register is given a value. -/
theorem SlotOnly.setFld (h : SlotOnly n s u) {f : Field} (x : Nat) (hf : ∀ m, m ≠ n → (TRGS_COUNT_COUNT m).addr ≠ f.addr) :
    SlotOnly n s (u.setFld f x) := h.setReg _ hf

/-- A pair of such registers is given a value. -/
theorem SlotOnly.setPair (h : SlotOnly n s u) {p : Pair} (x : Nat) (hlo : ∀ m, m ≠ n → (TRGS_COUNT_COUNT m).addr ≠ p.addr)
    (hhi : ∀ m, m ≠ n → (TRGS_COUNT_COUNT m).addr ≠ p.addr + 4) : SlotOnly n s (u.setPair p x) := (h.setReg _ hlo).setReg _ hhi

/-- Of two updates one is done. -/
theorem SlotOnly.ite {c : Prop} [Decidable c] (hu : SlotOnly n s u) (hv : SlotOnly n s v) : SlotOnly n s (if c then u else v) := by
  split
  · exact hu
  · exact hv

/-- A sequence of updates. -/
theorem SlotOnly.foldl {α : Type} {f : State → α → State} (hf : ∀ t x, SlotOnly n t (f t x)) (l : List α) (h : SlotOnly n s u) :
    SlotOnly n s (l.foldl f u) :=
  l.foldlRecOn f (motive := SlotOnly n s) h fun t ht x _ => ht.trans (hf t x)

/-- The slot's own register `b`, as slot 0 has it, counts no other slot's fires. -/
theorem count_ne_ownReg {b : Nat} (hb : 0x71000 ≤ b ∧ b < 0x71100 := by decide) :
    ∀ m, m ≠ n → (TRGS_COUNT_COUNT m).addr ≠ b + n * 0x100 := fun m hm => by
  simp only [TRGS_COUNT_COUNT]
  omega

/-- A register below those of the slots counts no fires. -/
theorem count_ne_sharedReg {a : Nat} (ha : a < 0x71000) : ∀ m, m ≠ n → (TRGS_COUNT_COUNT m).addr ≠ a := fun m _ => by
  simp only [TRGS_COUNT_COUNT]
  omega

/-! ### Events and fires (R284 to R288) -/

/-- A fire reaches the outputs. -/
theorem SlotOnly.fireOut (m o : Nat) (t : Int) (h : SlotOnly n s u) : SlotOnly n s (u.fireOut m o t) :=
  .ite (.ite h.of_same h.of_same) h

/-- The slot fires. -/
theorem SlotOnly.fire (ev : TrigEvent) (h : SlotOnly n s u) : SlotOnly n s (u.fire n ev) :=
  have hhigh : ∀ m, m ≠ n → (TRGS_COUNT_COUNT m).addr ≠ (TRGS_LAST_IDX n).addr + 4 := fun m hm => by
    simp only [TRGS_COUNT_COUNT, TRGS_LAST_IDX]
    omega
  have houts := (h.foldl (fun t _ => .ite (SlotOnly.refl n t).of_same (.refl n t)) (List.range 8)).foldl
    (fun t o => (SlotOnly.refl n t).fireOut n o ev.time) (List.range 2)
  (((houts.setPair _ count_ne_ownReg hhigh).setReg _ count_ne_ownReg).setFld _ count_ne_ownReg).setFld _
    (count_ne_sharedReg (a := TRG_STAT_FIRED.addr) (by decide))

/-- A combined event of the slot is held. -/
theorem SlotOnly.hold (h : SlotOnly n s u) : SlotOnly n s (u.hold n) :=
  (h.setFld _ count_ne_ownReg).setFld _ (count_ne_sharedReg (a := TRG_STAT_HELD.addr) (by decide))

/-- The slot's pending events are shown. -/
theorem SlotOnly.showPending (h : SlotOnly n s u) : SlotOnly n s (u.showPending n) :=
  (h.setFld _ count_ne_ownReg).setFld _ count_ne_ownReg

/-- A combined event reaches the slot. -/
theorem SlotOnly.combined (old : Bool) (ev : TrigEvent) (h : SlotOnly n s u) : SlotOnly n s (u.combined n old ev) :=
  .ite (h.setSlot _).hold (.ite h.hold ((h.setSlot _).fire _))

/-- A condition's event reaches the slot. -/
theorem SlotOnly.slotEvent (old : Bool) (ev : TrigEvent) (h : SlotOnly n s u) : SlotOnly n s (u.slotEvent n old ev) := by
  refine SlotOnly.showPending ?_
  generalize (if old = true then (u.slotOf n).cfg0 else (u.slotOf n).cfg) = c
  generalize (if old = true then (u.slotOf n).run0 else (u.slotOf n).run) = r
  split
  · exact .ite h (h.combined _ _)
  · simp only
    split
    · exact (h.setSlot _).combined _ _
    · exact h.setSlot _
  · exact h.combined _ _
  · refine .ite ?_ (h.setSlot _)
    split
    · exact .ite h (.ite ((h.setSlot _).combined _ _) (h.setSlot _))
    · exact h

/-- A condition of the slot meets something that happened. -/
theorem SlotOnly.giveCond (old isB : Bool) (t : Int) (f : CondCfg → CondRun → CondRun × Option (Int × Bool)) (h : SlotOnly n s u) :
    SlotOnly n s (u.giveCond n old isB t f) := by
  refine .ite h ?_
  generalize f _ _ = y
  obtain ⟨r, ev⟩ := y
  cases ev with
  | some e => exact (h.setSlot _).slotEvent _ _
  | none => exact h.setSlot _

/-- The slot meets something that happened. -/
theorem SlotOnly.giveSlot (t : Int) (f : CondCfg → CondRun → CondRun × Option (Int × Bool)) (h : SlotOnly n s u) :
    SlotOnly n s (u.giveSlot n t f) := (h.giveCond ..).giveCond ..

/-! ### All the slots -/

/-- Something that happened leaves the zoom chains. -/
@[simp] theorem giveSlots_zoom (s : State) (t : Int) (f : CondCfg → CondRun → CondRun × Option (Int × Bool)) :
    (s.giveSlots t f).zoom = s.zoom :=
  foldl_keeps (get := State.zoom) (fun u m => ((SlotOnly.refl m u).giveSlot t f).zoom) _ s

/-- What a slot becomes, and its count of fires. -/
def slotShown (n : Nat) (s : State) : Slot × Nat := (s.slotOf n, s.fld (TRGS_COUNT_COUNT n))

theorem slotShown_setSlot (s : State) (x : Slot) : slotShown n (s.setSlot n x) = (x, s.fld (TRGS_COUNT_COUNT n)) := by
  rw [slotShown, slotOf_setSlot, if_pos rfl, setSlot_fld]

/-- What happens in the slots of a list leaves a slot that is not among them. -/
theorem foldl_giveSlot_slotShown {l : List Nat} (hn : n ∉ l) (s : State) (t : Int)
    (f : CondCfg → CondRun → CondRun × Option (Int × Bool)) :
    slotShown n (l.foldl (fun u m => u.giveSlot m t f) s) = slotShown n s :=
  l.foldlRecOn _ (motive := fun u => slotShown n u = slotShown n s) rfl fun u hu m hm => by
    have honly := (SlotOnly.refl m u).giveSlot t f
    have hne : n ≠ m := fun h => hn (h ▸ hm)
    rw [← hu, slotShown, slotShown, honly.slot n hne, fld_congr (honly.count n hne)]

/-- Every slot meets by itself what happened. -/
theorem giveSlots_slotShown (hn : n < 8) (s : State) (t : Int) (f : CondCfg → CondRun → CondRun × Option (Int × Bool)) :
    ∃ u, slotShown n u = slotShown n s ∧ slotShown n (s.giveSlots t f) = slotShown n (u.giveSlot n t f) := by
  obtain ⟨l, r, hsplit⟩ := List.append_of_mem (List.mem_range.mpr hn)
  have hnodup : (l ++ n :: r).Nodup := hsplit ▸ List.nodup_range
  obtain ⟨-, hr, hdisj⟩ := List.nodup_append.mp hnodup
  have hl : n ∉ l := fun h => hdisj n h n (by simp) rfl
  refine ⟨l.foldl (fun u m => u.giveSlot m t f) s, foldl_giveSlot_slotShown hl s t f, ?_⟩
  rw [State.giveSlots, hsplit, List.foldl_append, List.foldl_cons]
  exact foldl_giveSlot_slotShown (List.nodup_cons.mp hr).1 _ t f

/-! ### A slot that something gives no event -/

variable {old : Bool} {x : Slot} {r : CondRun} {time : Int} {f : CondCfg → CondRun → CondRun × Option (Int × Bool)}

/-- Condition A of the settings in force, on and given no event, remembers what happened. -/
theorem giveCond_a_silent (hx : s.slotOf n = x) (hen : x.cfg.en = true) (hon : x.off.1 = false) (hat : x.offAt ≤ time)
    (hf : f x.cfg.a x.run.a = (r, none)) :
    s.giveCond n false false time f = s.setSlot n { x with run := { x.run with a := r } } := by
  simp [State.giveCond, hx, hen, hon, hf, not_lt.mpr hat]

/-- Condition B of the settings in force, which what happened does not concern, stays as it was. -/
theorem giveCond_b_silent (hf : f (s.slotOf n).cfg.b (s.slotOf n).run.b = ((s.slotOf n).run.b, none)) :
    slotShown n (s.giveCond n false true time f) = slotShown n s := by
  unfold State.giveCond
  simp only [Bool.false_eq_true, if_false, if_true, hf]
  rw [apply_ite (slotShown n), slotShown_setSlot]
  exact ite_self (slotShown n s)

/-- A slot whose condition A is on, and of which what happened makes no event: its condition A remembers it. -/
theorem giveSlot_a_silent (hx : s.slotOf n = x) (hen : x.cfg.en = true) (hon : x.off.1 = false) (hat : x.offAt ≤ time)
    (hsince : x.since ≤ time) (ha : f x.cfg.a x.run.a = (r, none)) (hb : f x.cfg.b x.run.b = (x.run.b, none)) :
    slotShown n (s.giveSlot n time f) = ({ x with run := { x.run with a := r } }, s.fld (TRGS_COUNT_COUNT n)) := by
  have hnew : decide (time < (s.slotOf n).since) = false := by simpa [hx] using hsince
  simp only [State.giveSlot, hnew]
  rw [giveCond_a_silent hx hen hon hat ha, giveCond_b_silent (by simpa using hb), slotShown_setSlot]

end

end Sys2Proof
end

section
/-! PROOFS. The statement of 09_zoom_chains.md on what a chain hands on and on the end of its settling (O30). -/

namespace Sys2Proof

open Sys2Proof.Machine

/-! ### Registers and slots that settling the derived signals leaves -/

/-- No signal is derived in a field of the zoom chains' and the trigger engine's registers. -/
theorem quiet_zoomTrig {f : Field} (h : 0x60000 ≤ f.addr) (h' : f.addr < 0x80000) : quiet f = true := by
  have hne : ∀ a : Nat, a < 0x60000 ∨ 0x80000 ≤ a → f.addr ≠ a := fun a ha => by omega
  simp [quiet, hne HOST_INT_REQ_REQ.addr (by decide), hne HOST_INT_PEND_PEND.addr (by decide), hne SUP_STAT_FAULT.addr (by decide),
    hne HOST_STAT_FAULT.addr (by decide), hne VREG_STAT_ALERT.addr (by decide)]

/-- A change of a zoom chain leaves every slot. -/
@[simp] theorem setChain_slotOf (s : State) (k : Nat) (x : ZoomChain) (n : Nat) : (s.setChain k x).slotOf n = s.slotOf n := rfl

/-- Settling leaves every slot. -/
@[simp] theorem settle_slotOf (s : State) (n : Nat) : s.settle.slotOf n = s.slotOf n := by
  rw [State.slotOf, settle_trig, State.slotOf]

/-! ### What leaves a chain -/

/-- A chain whose own state another state has as it was given to it, and all the others as they were. -/
theorem settle_setChain_shown {s u : State} {k : Nat} {x : ZoomChain} (h : u.zoom = (s.setChain k x).zoom) :
    u.settle.chainOf k = x ∧ ∀ j : Nat, j ≠ k → u.settle.chainOf j = s.chainOf j := by
  have hchain : ∀ j, u.settle.chainOf j = if j = k then x else s.chainOf j := fun j => by
    rw [← chainOf_setChain, State.chainOf, settle_zoom, h, State.chainOf]
  exact ⟨by rw [hchain, if_pos rfl], fun j hj => by rw [hchain, if_neg hj]⟩

/-- The chain after its oldest closed segment has left. -/
def segmentTaken (x : ZoomChain) (g : ZoomSeg) (rest : List ZoomSeg) : ZoomChain :=
  { x with ready := rest, given := (g.data.reverse ++ x.given).take 8192 }

/-- A closed segment is handed on (R263). -/
theorem zoomSegment_cons {s : State} {k : Nat} {g : ZoomSeg} {rest : List ZoomSeg} (h : (s.chainOf k).ready = g :: rest) :
    s.zoomSegment k = (s.setChain k (segmentTaken (s.chainOf k) g rest)).zoomStream k g := by
  simp only [State.zoomSegment, h, segmentTaken]

/-- Where nothing is closed, nothing is handed on. -/
theorem zoomSegment_nil {s : State} {k : Nat} (h : (s.chainOf k).ready = []) : s.zoomSegment k = s := by
  simp only [State.zoomSegment, h]

/-- A chain that no stream selects reaches none. -/
theorem zoomStream_unselected {s : State} {k : Nat} (g : ZoomSeg)
    (h : ∀ p < 2, ∀ st < 64, s.fld (ETH_S_CFG_KIND p st) = kindZoom → s.fld (ETH_S_SRC_SEL p st) ≠ k) : s.zoomStream k g = s := by
  have hnone : s.streamsOf kindZoom (fun p st => decide (s.fld (ETH_S_SRC_SEL p st) = k)) = [] := by
    refine List.filter_eq_nil_iff.mpr fun x hx => ?_
    obtain ⟨i, hi, rfl⟩ := List.mem_map.mp hx
    have hlt := List.mem_range.mp hi
    have hsel := h (i / 64) (by omega) (i % 64) (by omega)
    simpa using fun _ => hsel
  rw [State.zoomStream, hnone, List.foldl_nil]

/-- A power value goes to the trigger engine (R269). -/
theorem zoomPower_cons {s : State} {k v : Nat} {y : Int} {rest : List (Nat × Int)} (h : (s.chainOf k).values = (v, y) :: rest) :
    s.zoomPower k = (s.setChain k { s.chainOf k with values := rest }).trigLevel k v y := by
  simp only [State.zoomPower, h]

/-- Where no value waits, nothing goes to it. -/
theorem zoomPower_nil {s : State} {k : Nat} (h : (s.chainOf k).values = []) : s.zoomPower k = s := by
  simp only [State.zoomPower, h]

/-! ### LEVEL conditions (R282) -/

/-- What a condition makes of a power value of a chain at an instant. -/
def levelGiven (chain : Nat) (v time : Int) (c : CondCfg) (r : CondRun) : CondRun × Option (Int × Bool) :=
  if c.ty = 7 ∧ c.src = chain then ((r.level c v).1, if (r.level c v).2 then some (time, false) else none) else (r, none)

/-- Every slot is given a power value. -/
theorem trigLevel_eq (s : State) (chain : Nat) (v y : Int) :
    s.trigLevel chain v y = s.giveSlots (timeOfPos y) (levelGiven chain v (timeOfPos y)) := rfl

/-- The state that a LEVEL condition without one takes. -/
def firstLevel (c : CondCfg) (v : Int) : Option Bool :=
  if (c.t1 : Int) < v then some true else if v ≤ (c.t1 : Int) - c.t2 then some false else none

/-- Its first state is no event. -/
theorem levelGiven_first {chain : Nat} {v time : Int} {c : CondCfg} {r : CondRun} (hty : c.ty = 7) (hsrc : c.src = chain)
    (hr : r.high = none) : levelGiven chain v time c r = ({ r with high := firstLevel c v }, none) := by
  simp [levelGiven, hty, hsrc, CondRun.level, hr, firstLevel]

/-- A condition of another type sees no power value. -/
theorem levelGiven_other {chain : Nat} {v time : Int} {c : CondCfg} {r : CondRun} (hty : c.ty ≠ 7) :
    levelGiven chain v time c r = (r, none) := if_neg fun h => hty h.1

/-- A slot whose settings and sources hold at an instant, whose condition A is a LEVEL condition on a chain with no state yet, and
whose condition B is none. -/
structure AwaitsLevel (x : Slot) (chain : Nat) (time : Int) : Prop where
  en : x.cfg.en = true
  ty : x.cfg.a.ty = 7
  src : x.cfg.a.src = chain
  on : x.off.1 = false
  offAt : x.offAt ≤ time
  since : x.since ≤ time
  other : x.cfg.b.ty ≠ 7
  high : x.run.a.high = none

/-- Such a slot's condition takes its first state, and the slot does not fire. -/
theorem trigLevel_first {s : State} {n chain : Nat} {x : Slot} {v y : Int} (hn : n < 8) (hx : s.slotOf n = x)
    (h : AwaitsLevel x chain (timeOfPos y)) :
    ((s.trigLevel chain v y).slotOf n).run.a.high = firstLevel x.cfg.a v ∧
      (s.trigLevel chain v y).fld (TRGS_COUNT_COUNT n) = s.fld (TRGS_COUNT_COUNT n) := by
  obtain ⟨u, hu, hgiven⟩ := giveSlots_slotShown hn s (timeOfPos y) (levelGiven chain v (timeOfPos y))
  obtain ⟨hslot, hcount⟩ := Prod.mk.inj hu
  rw [giveSlot_a_silent (hslot.trans hx) h.en h.on h.offAt h.since (levelGiven_first h.ty h.src h.high) (levelGiven_other h.other),
    ← trigLevel_eq] at hgiven
  obtain ⟨hslot', hcount'⟩ := Prod.mk.inj hgiven
  exact ⟨by rw [hslot'], hcount'.trans hcount⟩

/-- So it does at a chain's oldest power value. -/
theorem zoomPower_first {s : State} {n chain v : Nat} {y : Int} {rest : List (Nat × Int)}
    (hv : (s.chainOf chain).values = (v, y) :: rest) (hn : n < 8) (h : AwaitsLevel (s.slotOf n) chain (timeOfPos y)) :
    ((s.zoomPower chain).settle.slotOf n).run.a.high = firstLevel (s.slotOf n).cfg.a v ∧
      (s.zoomPower chain).settle.fld (TRGS_COUNT_COUNT n) = s.fld (TRGS_COUNT_COUNT n) := by
  have hquiet : quiet (TRGS_COUNT_COUNT n) = true :=
    quiet_zoomTrig (by simp only [TRGS_COUNT_COUNT]; omega) (by simp only [TRGS_COUNT_COUNT]; omega)
  rw [settle_slotOf, settle_fld _ _ hquiet, zoomPower_cons hv]
  exact trigLevel_first hn (setChain_slotOf ..) h

/-- The chain's value leaves it, and no other chain changes. -/
theorem zoomPower_shown {s : State} {k v : Nat} {y : Int} {rest : List (Nat × Int)}
    (hv : (s.chainOf k).values = (v, y) :: rest) :
    (s.zoomPower k).settle.chainOf k = { s.chainOf k with values := rest } ∧
      ∀ j : Nat, j ≠ k → (s.zoomPower k).settle.chainOf j = s.chainOf j :=
  settle_setChain_shown (by rw [zoomPower_cons hv, trigLevel_eq, giveSlots_zoom])

/-! ### The end of settling (R266, R268, R270) -/

/-- The fields that the end of a chain's settling writes. -/
def settledFields (k : Nat) : List Field :=
  ZCN_STAT_STATE k :: ZC_RUN_RUN.bit k :: ZCN_SETTLE_LEFT k :: ZCN_DC_EST_I k :: ZCN_DC_EST_Q k :: pairFields (ZCN_OUT_IDX k)

section
variable {s u : State} {k : Nat}

/-- A chain's state is shown. -/
theorem KeepsFields.setZoomState (st : Nat) (h : KeepsFields (settledFields k) s u) :
    KeepsFields (settledFields k) s (u.setZoomState k st) :=
  (h.setFld _ _ (by simp [settledFields])).setFld _ _ (by simp [settledFields])

theorem RegsOnly.setZoomState (st : Nat) (h : RegsOnly s u) : RegsOnly s (u.setZoomState k st) := (h.setFld _ _).setFld _ _

/-- What follows a chain is shown. -/
theorem KeepsFields.zoomShow (h : KeepsFields (settledFields k) s u) : KeepsFields (settledFields k) s (u.zoomShow k) :=
  (((h.setFld (ZCN_SETTLE_LEFT k) _ (by simp [settledFields])).setPair (ZCN_OUT_IDX k) _ (by simp [settledFields, pairFields, wholeReg])
    (by simp [settledFields, pairFields, wholeReg])).setFld (ZCN_DC_EST_I k) _ (by simp [settledFields])).setFld (ZCN_DC_EST_Q k) _
      (by simp [settledFields])

theorem RegsOnly.zoomShow (h : RegsOnly s u) : RegsOnly s (u.zoomShow k) :=
  (((h.setFld _ _).setPair _ _).setFld _ _).setFld _ _

/-- The registers below those shown stay as they were. -/
theorem zoomShow_fld (s : State) {f : Field} (h : f.addr < 0x61028 + k * 0x800) : (s.zoomShow k).fld f = s.fld f := by
  have hshown : ∀ a : Nat, 0x61028 + k * 0x800 ≤ a → f.addr ≠ a := fun a ha => by omega
  simp only [State.zoomShow]
  rw [fld_setFld_addr _ _ (hshown _ (by simp only [ZCN_DC_EST_Q]; omega)),
    fld_setFld_addr _ _ (hshown _ (by simp only [ZCN_DC_EST_I]; omega)),
    fld_setPair_ne _ _ _ (hshown _ (by simp only [ZCN_OUT_IDX]; omega)) (hshown _ (by simp only [ZCN_OUT_IDX]; omega)),
    fld_setFld_addr _ _ (hshown _ (by simp only [ZCN_SETTLE_LEFT]; omega))]

/-- ZCn_OUT_IDX shows the next output. -/
theorem zoomShow_outIdx (s : State) (k : Nat) : (s.zoomShow k).pair (ZCN_OUT_IDX k) = ofSigned 64 (s.chainOf k).uNext := by
  simp only [State.zoomShow]
  rw [pair_setFld_ne, pair_setFld_ne, pair_setPair, Nat.mod_eq_of_lt (ofSigned_lt 64 _)]
  all_goals
    simp only [ZCN_OUT_IDX, ZCN_DC_EST_I, ZCN_DC_EST_Q]
    omega

/-- ZCn_SETTLE shows 0 where the chain does not settle. -/
theorem zoomShow_settle {s : State} {k : Nat} (h : s.fld (ZCN_STAT_STATE k) ≠ 1) : (s.zoomShow k).fld (ZCN_SETTLE_LEFT k) = 0 := by
  simp only [State.zoomShow, if_neg h]
  rw [fld_setFld_addr, fld_setFld_addr, fld_setPair_ne, fld_setFld_eq, Nat.zero_mod]
  all_goals
    simp only [ZCN_SETTLE_LEFT, ZCN_OUT_IDX, ZCN_DC_EST_I, ZCN_DC_EST_Q]
    omega

/-- ZCn_STAT shows the state it was given. -/
theorem setZoomState_state (s : State) (k : Nat) {st : Nat} (h : st < 4) : (s.setZoomState k st).fld (ZCN_STAT_STATE k) = st := by
  rw [State.setZoomState, putBit_eq, fld_setFld_addr _ _ (by simp only [ZCN_STAT_STATE, Field.bit, ZC_RUN_RUN]; omega),
    fld_setFld_eq _ _ _ (by simp only [ZCN_STAT_STATE]; omega)]
  exact Nat.mod_eq_of_lt h

/-- ZC_RUN shows whether that is RUN. -/
theorem setZoomState_run (s : State) {k : Nat} (hk : k < 16) (st : Nat) :
    (s.setZoomState k st).bitSet ZC_RUN_RUN k = decide (st = 2) :=
  bitSet_putBit _ _ _ _ (by simp only [ZC_RUN_RUN]; omega)

/-- A chain's settling ends at u_first. -/
theorem zoomSettled_runs (h : s.fld (ZCN_STAT_STATE k) = 1) (hu : (s.chainOf k).uFirst ≤ (s.chainOf k).uNext) :
    s.zoomSettled k = (s.setZoomState k 2).zoomShow k := if_pos ⟨h, hu⟩

/-- A chain that does not settle, or has not reached u_first, stays as it was. -/
theorem zoomSettled_still (h : s.fld (ZCN_STAT_STATE k) ≠ 1 ∨ (s.chainOf k).uNext < (s.chainOf k).uFirst) : s.zoomSettled k = s :=
  if_neg fun hboth => h.elim (absurd hboth.1) (not_lt.mpr hboth.2)

end

/-- What the end of a chain's settling shows. -/
theorem Runs.settleEnd {s : State} {k : Fin 16} (h : s.fld (ZCN_STAT_STATE k) = 1)
    (hu : (s.chainOf k).uFirst ≤ (s.chainOf k).uNext) :
    Runs (.zcSettleEnd k) s (settledFields k) (fun _ => s)
      (fun t => t.fld (ZCN_STAT_STATE k) = 2 ∧ t.bitSet ZC_RUN_RUN k = true ∧ t.fld (ZCN_SETTLE_LEFT k) = 0 ∧
        t.pair (ZCN_OUT_IDX k) = ofSigned 64 (s.chainOf k).uNext) := by
  have hstate := setZoomState_state s k (show 2 < 4 by decide)
  have hpair : ∀ a : Nat, 0x60000 ≤ a ∧ a < 0x80000 → a ≠ HOST_INT_REQ_REQ.addr ∧ a ≠ HOST_INT_PEND_PEND.addr ∧
      a ≠ SUP_STAT_FAULT.addr ∧ a ≠ HOST_STAT_FAULT.addr ∧ a ≠ VREG_STAT_ALERT.addr := fun a ha => by
    simp only [HOST_INT_REQ_REQ, HOST_INT_PEND_PEND, SUP_STAT_FAULT, HOST_STAT_FAULT, VREG_STAT_ALERT]
    omega
  refine Runs.regsOnly (congrArg Machine.done (zoomSettled_runs h hu)) ⟨?_, ?_, ?_, ?_⟩
    ((KeepsFields.refl _ s).setZoomState 2).zoomShow ((RegsOnly.refl s).setZoomState 2).zoomShow rfl
  · rw [settle_fld _ _ (quiet_zoomTrig (by simp only [ZCN_STAT_STATE]; omega) (by simp only [ZCN_STAT_STATE]; omega)),
      zoomShow_fld _ (by simp only [ZCN_STAT_STATE]; omega), hstate]
  · rw [settle_bitSet _ _ _ (quiet_zoomTrig (by simp [Field.bit, ZC_RUN_RUN]) (by simp [Field.bit, ZC_RUN_RUN])),
      bitSet_congr (zoomShow_fld _ (by simp only [Field.bit, ZC_RUN_RUN]; omega)), setZoomState_run _ k.isLt]
    rfl
  · rw [settle_fld _ _ (quiet_zoomTrig (by simp only [ZCN_SETTLE_LEFT]; omega) (by simp only [ZCN_SETTLE_LEFT]; omega)),
      zoomShow_settle (by rw [hstate]; decide)]
  · rw [settle_pair _ (hpair _ (by simp only [ZCN_OUT_IDX]; omega)) (hpair _ (by simp only [ZCN_OUT_IDX]; omega)), zoomShow_outIdx]
    rfl

/-- What a chain's segment leaves where no stream selects the chain. -/
theorem Runs.segmentUnselected {s : State} {k : Fin 16} {g : ZoomSeg} {rest : List ZoomSeg} (hg : (s.chainOf k).ready = g :: rest)
    (h : ∀ p < 2, ∀ st < 64, s.fld (ETH_S_CFG_KIND p st) = kindZoom → s.fld (ETH_S_SRC_SEL p st) ≠ k) :
    Runs (.zoomSegment k) s [] (fun t => { s with zoom := t.zoom })
      (fun t => t.chainOf k = segmentTaken (s.chainOf k) g rest ∧ ∀ j : Nat, j ≠ k → t.chainOf j = s.chainOf j) := by
  have hexec : exec (.zoomSegment k) s = Machine.done (s.setChain k (segmentTaken (s.chainOf k) g rest)) :=
    congrArg Machine.done ((zoomSegment_cons hg).trans (zoomStream_unselected g h))
  refine Runs.done hexec (settle_setChain_shown rfl) ((KeepsFields.refl _ s).of_regs rfl) ?_ (List.append_nil _).symm
  rw [settle_zoom]
  rfl

/-- Settles O30: segments and power values leave their chain's own lists, streams and trigger slots change no chain, and a first
LEVEL state is no event. -/
theorem zoomChainsHandOnAndSettle : Obligations.ZoomChainsHandOnAndSettle := by
  intro s k x others
  refine ⟨fun g rest hg => ⟨⟨_, congrArg Machine.done (zoomSegment_cons hg), ?_⟩, Runs.segmentUnselected hg⟩,
    fun hnone => Runs.still (congrArg Machine.done (zoomSegment_nil hnone)), Runs.settleEnd,
    fun hstill => Runs.still (congrArg Machine.done (zoomSettled_still hstill)), fun v y rest hv => ?_,
    fun hnone => Runs.still (congrArg Machine.done (zoomPower_nil hnone))⟩
  · exact settle_setChain_shown ((StreamWork.refl _).zoomStream k g).zoom
  · obtain ⟨hchain, hothers⟩ := zoomPower_shown hv
    refine ⟨_, rfl, hchain, hothers, ?_⟩
    intro n c hen hty hsrc hon hat hsince hother hhigh
    exact zoomPower_first hv n.isLt ⟨hen, hty, hsrc, hon, hat, hsince, hother, hhigh⟩

end Sys2Proof
end

section
/-! PROOFS. The statement of 10_triggers_capture.md on the trigger outputs (O32): what an output shows when it asserts and when its
pulse has run (R288, R305). -/

namespace Sys2Proof

open Sys2Proof.Machine

/-! ### What an output shows -/

/-- An output's pin, and the instant at which its pulse ends. -/
def outShown (s : State) (o : Nat) : Bool × Option Int :=
  (if o = 0 then s.pins.trigOut0 else s.pins.trigOut1, instGet none s.trig.pulse o)

/-- The instant at which a pulse ends that an assertion begins or extends. -/
def pulseEnd (s : State) (o : Nat) (at' : Int) : Int :=
  match instGet none s.trig.pulse o with
  | some e => max e (at' + (((s.trig.cfg.outReg o).1 % 256 : Nat) : Int) * s.unitCore)
  | none => at' + (((s.trig.cfg.outReg o).1 % 256 : Nat) : Int) * s.unitCore

/-- An output whose pin is brought up to date shows whether a pulse runs, in its polarity, and the other stays as it was. -/
theorem outShown_showOut (s : State) {o j : Nat} (ho : o < 2) (hj : j < 2) :
    outShown (s.showOut o) j =
      if j = o then ((instGet none s.trig.pulse o).isSome != bitOf (s.trig.cfg.outReg o).1 30, instGet none s.trig.pulse o)
      else outShown s j := by
  obtain rfl | rfl : o = 0 ∨ o = 1 := by omega
  all_goals
    obtain rfl | rfl : j = 0 ∨ j = 1 := by omega
    all_goals rfl

/-- An output's pulse is given an end, or none, and its pin follows. -/
theorem outShown_pulse (s : State) {o j : Nat} (ho : o < 2) (hj : j < 2) (e : Option Int) :
    outShown (({ s with trig := { s.trig with pulse := instSet none s.trig.pulse o e } } : State).showOut o) j =
      if j = o then (e.isSome != bitOf (s.trig.cfg.outReg o).1 30, e) else outShown s j := by
  rw [outShown_showOut _ ho hj]
  by_cases h : j = o
  · simp [h]
  · simp [h, outShown]

/-- An output that asserts is asserted in its polarity until its pulse ends; the other stays as it was. -/
theorem outShown_assertOut (s : State) {o j : Nat} (ho : o < 2) (hj : j < 2) (at' : Int) :
    outShown (s.assertOut o at') j =
      if j = o then (!bitOf (s.trig.cfg.outReg o).1 30, some (pulseEnd s o at')) else outShown s j := by
  have hpulse := outShown_pulse s ho hj (some (pulseEnd s o at'))
  rw [Option.isSome_some, Bool.true_bne] at hpulse
  exact hpulse

/-- Settling the derived signals leaves what the outputs show. -/
@[simp] theorem outShown_settle (s : State) (o : Nat) : outShown s.settle o = outShown s o := by
  rw [outShown, settle_pins_trigOut0, settle_pins_trigOut1, settle_trig, outShown]

/-! ### What the outputs' work can change -/

/-- A state is another but for its registers, the queues and pulses of the outputs, and their pins. -/
def OutsOnly (s t : State) : Prop := ∃ r q p a b, t =
  { s with regs := r, trig := { s.trig with outQ := q, pulse := p }, pins := { s.pins with trigOut0 := a, trigOut1 := b } }

theorem OutsOnly.refl (s : State) : OutsOnly s s := ⟨_, _, _, _, _, rfl⟩

/-- An output's queue is given a value. -/
theorem OutsOnly.setQueue {s u : State} (q : List (Nat × List Int)) (h : OutsOnly s u) :
    OutsOnly s { u with trig := { u.trig with outQ := q } } := by
  obtain ⟨_, _, _, _, _, rfl⟩ := h
  exact ⟨_, _, _, _, _, rfl⟩

/-- An output's pulse is given an end, or none, and its pin follows. -/
theorem OutsOnly.setPulse {s u : State} (p : List (Nat × Option Int)) (o : Nat) (h : OutsOnly s u) :
    OutsOnly s (({ u with trig := { u.trig with pulse := p } } : State).showOut o) := by
  obtain ⟨_, _, _, _, _, rfl⟩ := h
  unfold State.showOut
  by_cases ho : o = 0
  · simp only [ho, if_true]
    exact ⟨_, _, _, _, _, rfl⟩
  · simp only [ho, if_false]
    exact ⟨_, _, _, _, _, rfl⟩

/-- An output asserts. -/
theorem OutsOnly.assertOut {s u : State} (o : Nat) (at' : Int) (h : OutsOnly s u) : OutsOnly s (u.assertOut o at') :=
  h.setPulse _ o

/-- A field is given a value. -/
theorem OutsOnly.setFld {s u : State} (f : Field) (x : Nat) (h : OutsOnly s u) : OutsOnly s (u.setFld f x) := by
  obtain ⟨_, _, _, _, _, rfl⟩ := h
  exact ⟨_, _, _, _, _, rfl⟩

/-- What the work of the outputs leaves as it was, before settling. -/
theorem OutsOnly.parts {s u : State} (h : OutsOnly s u) :
    u = { s with trig := { s.trig with outQ := u.settle.trig.outQ, pulse := u.settle.trig.pulse },
                 pins := { s.pins with trigOut0 := u.settle.pins.trigOut0, trigOut1 := u.settle.pins.trigOut1 },
                 regs := u.regs, out := u.out } ∧ u.out = s.out := by
  rw [settle_trig, settle_pins_trigOut0, settle_pins_trigOut1]
  obtain ⟨_, _, _, _, _, rfl⟩ := h
  exact ⟨rfl, rfl⟩

/-! ### The assertion of a fixed-delay output (R288) -/

/-- The counter of an output's late assertions. -/
def lateCount (o : Nat) : Field := if o = 0 then TRG_OUT_LATE_OUT0 else TRG_OUT_LATE_OUT1

/-- It has sixteen bits of a register of the trigger engine. -/
theorem lateCount_shape (o : Nat) : (lateCount o).addr = 0x70030 ∧ (lateCount o).width = 16 ∧ (lateCount o).lo + 16 ≤ 32 := by
  unfold lateCount
  split <;> decide

section
variable {s : State} {o : Nat} {e : Int} {rest : List Int}

/-- The state in which an output has asserted for its oldest waiting edge, at that edge or, when late, now. -/
def edgeTaken (s : State) (o : Nat) (rest : List Int) (at' : Int) : State :=
  ({ s with trig := { s.trig with outQ := instSet [] s.trig.outQ o rest } } : State).assertOut o at'

/-- The outputs after an edge is taken. -/
theorem outShown_edgeTaken {j : Nat} (ho : o < 2) (hj : j < 2) (at' : Int) :
    outShown (edgeTaken s o rest at') j =
      if j = o then (!bitOf (s.trig.cfg.outReg o).1 30, some (pulseEnd s o at')) else outShown s j :=
  outShown_assertOut _ ho hj at'

/-- An assertion leaves the queues. -/
@[simp] theorem assertOut_outQ (s : State) (o : Nat) (at' : Int) : (s.assertOut o at').trig.outQ = s.trig.outQ := by
  obtain ho | ho := eq_or_ne o 0 <;> simp [State.assertOut, State.showOut, ho]

/-- The queues after an edge is taken. -/
theorem edgeTaken_queue (at' : Int) (j : Nat) :
    instGet [] (edgeTaken s o rest at').trig.outQ j = if j = o then rest else instGet [] s.trig.outQ j := by
  rw [edgeTaken, assertOut_outQ, instGet_instSet]

/-- An assertion leaves another output's pulse. -/
theorem assertOut_pulse_ne {j : Nat} (hj : j ≠ o) (at' : Int) :
    instGet none (s.assertOut o at').trig.pulse j = instGet none s.trig.pulse j := by
  have hpulse : (s.assertOut o at').trig.pulse = instSet none s.trig.pulse o (some (pulseEnd s o at')) := by
    obtain ho | ho := eq_or_ne o 0 <;> simp only [State.assertOut, State.showOut, ho, if_true, if_false] <;> rfl
  rw [hpulse, instGet_instSet, if_neg hj]

/-- The same with the assertion counted where it is late. -/
def edgeAsserted (s : State) (o : Nat) (rest : List Int) (at' : Int) (late : Bool) : State :=
  if late then ((edgeTaken s o rest at').addSat (lateCount o) 1).stick TRG_STAT_OUT_LATE o else edgeTaken s o rest at'

/-- The instant from which a pulse runs whose edge has come: that edge, or now when late. -/
def assertedFrom (s : State) (e : Int) (late : Bool) : Int := if late then s.rawNow * unitSample else e

/-- An edge that has come is taken. -/
theorem outAssert_come (late : Bool) (h : instGet [] s.trig.outQ o = e :: rest) (hcome : e < s.trigNow) :
    s.outAssert o late = edgeAsserted s o rest (assertedFrom s e late) late := by
  simp only [State.outAssert, h, if_neg (not_le.mpr hcome)]
  rfl

/-- With no edge due nothing asserts. -/
theorem outAssert_still (late : Bool) (h : ∀ x ∈ (instGet [] s.trig.outQ o).head?, s.trigNow ≤ x) : s.outAssert o late = s := by
  unfold State.outAssert
  cases hq : instGet [] s.trig.outQ o with
  | nil => rfl
  | cons x t => exact if_pos (h x (by rw [hq]; rfl))

/-- Counting changes neither the trigger engine's own state nor a pin. -/
theorem edgeAsserted_same (at' : Int) (late : Bool) :
    (edgeAsserted s o rest at' late).trig = (edgeTaken s o rest at').trig ∧
      ∀ j, outShown (edgeAsserted s o rest at' late) j = outShown (edgeTaken s o rest at') j := by
  cases late <;> exact ⟨rfl, fun _ => rfl⟩

/-- What an assertion can change. -/
theorem OutsOnly.edgeAsserted (at' : Int) (late : Bool) : OutsOnly s (edgeAsserted s o rest at' late) := by
  have htaken : OutsOnly s (edgeTaken s o rest at') := ((OutsOnly.refl s).setQueue _).assertOut o at'
  cases late with
  | false => exact htaken
  | true => exact (htaken.setFld _ _).setFld _ _

/-- The fields that an assertion can write. -/
def assertFields (o : Nat) (late : Bool) : List Field := if late then [lateCount o, TRG_STAT_OUT_LATE.bit o] else []

/-- An assertion writes no others. -/
theorem KeepsFields.edgeAsserted (at' : Int) (late : Bool) :
    KeepsFields (assertFields o late) s (edgeAsserted s o rest at' late) := by
  have htaken : KeepsFields (assertFields o late) s (edgeTaken s o rest at') := (KeepsFields.refl _ s).of_regs rfl
  cases late with
  | false => exact htaken
  | true => exact (htaken.setFld _ _ (by simp [assertFields])).setFld _ _ (by simp [assertFields])

/-- A late assertion is counted, and marked. -/
theorem edgeAsserted_counted (ho : o < 2) (at' : Int) (late : Bool) :
    (edgeAsserted s o rest at' late).fld (lateCount o) =
        (if late then min (s.fld (lateCount o) + 1) 0xFFFF else s.fld (lateCount o)) ∧
      (edgeAsserted s o rest at' late).bitSet TRG_STAT_OUT_LATE o = (late || s.bitSet TRG_STAT_OUT_LATE o) := by
  obtain ⟨haddr, hwidth, hlo⟩ := lateCount_shape o
  cases late with
  | false => exact ⟨rfl, rfl⟩
  | true =>
    refine ⟨?_, bitSet_stick _ _ _ (by simp only [TRG_STAT_OUT_LATE]; omega)⟩
    have hcount := fld_addSat_self (edgeTaken s o rest at') (lateCount o) 1 (by omega)
    rw [hwidth] at hcount
    exact (fld_setFld_addr _ _ (by rw [haddr]; simp [Field.bit, TRG_STAT_OUT_LATE])).trans hcount

end

/-! ### The statement -/

section
variable {s t : State} {o : Fin 2}

/-- The pin of an output. -/
theorem pin_eq_outShown (t : State) (o : Fin 2) : (if o = 0 then t.pins.trigOut0 else t.pins.trigOut1) = (outShown t o).1 := by
  simp only [outShown, Fin.val_eq_zero_iff]

/-- The pin of the other output. -/
theorem otherPin_eq_outShown (t : State) (o : Fin 2) :
    (if o = 0 then t.pins.trigOut1 else t.pins.trigOut0) = (outShown t (1 - o.val)).1 := by
  obtain rfl | rfl : o = 0 ∨ o = 1 := by omega
  all_goals rfl

/-- What an output that asserts shows, and what stays as it was. -/
theorem Runs.outAsserts {e : Int} {rest : List Int} (late : Bool) (h : instGet [] s.trig.outQ o = e :: rest) (hcome : e < s.trigNow) :
    Runs (.trigOutAssert o late) s (assertFields o late)
      (fun t => { s with trig := { s.trig with outQ := t.trig.outQ, pulse := t.trig.pulse },
                         pins := { s.pins with trigOut0 := t.pins.trigOut0, trigOut1 := t.pins.trigOut1 } })
      (fun t => outShown t o = (!bitOf (s.trig.cfg.outReg o).1 30, some (pulseEnd s o (assertedFrom s e late))) ∧
        outShown t (1 - o.val) = outShown s (1 - o.val) ∧
        (∀ j : Nat, j ≠ o → instGet none t.trig.pulse j = instGet none s.trig.pulse j) ∧
        (∀ j : Nat, instGet [] t.trig.outQ j = if j = o then rest else instGet [] s.trig.outQ j) ∧
        t.fld (lateCount o) = (if late then min (s.fld (lateCount o) + 1) 0xFFFF else s.fld (lateCount o)) ∧
        t.bitSet TRG_STAT_OUT_LATE o = (late || s.bitSet TRG_STAT_OUT_LATE o)) := by
  have hparts := OutsOnly.edgeAsserted (s := s) (o := o) (rest := rest) (assertedFrom s e late) late
  obtain ⟨htrig, hshown⟩ := edgeAsserted_same (s := s) (o := o) (rest := rest) (assertedFrom s e late) late
  obtain ⟨hcount, hmark⟩ := edgeAsserted_counted (s := s) (rest := rest) o.isLt (assertedFrom s e late) late
  obtain ⟨haddr, -, -⟩ := lateCount_shape o
  refine Runs.done (congrArg Machine.done (outAssert_come late h hcome)) ⟨?_, ?_, ?_, ?_, ?_, ?_⟩ (.edgeAsserted _ late)
    hparts.parts.1 (by rw [hparts.parts.2, List.append_nil])
  · rw [outShown_settle, hshown, outShown_edgeTaken o.isLt o.isLt, if_pos rfl]
  · rw [outShown_settle, hshown, outShown_edgeTaken o.isLt (by omega), if_neg (by omega)]
  · intro j hj
    rw [settle_trig, htrig, edgeTaken, assertOut_pulse_ne hj]
  · intro j
    rw [settle_trig, htrig, edgeTaken_queue]
  · rw [settle_fld _ _ (quiet_zoomTrig (by omega) (by omega)), hcount]
  · rw [settle_bitSet _ _ _ (quiet_zoomTrig (by simp [Field.bit, TRG_STAT_OUT_LATE]) (by simp [Field.bit, TRG_STAT_OUT_LATE])), hmark]

/-- A pulse that has run releases its output, which shows it, and nothing else changes. -/
theorem Runs.outReleases {e : Int} (h : instGet none s.trig.pulse o = some e) (hrun : e < s.trigNow) :
    Runs (.trigOutRelease o) s []
      (fun t => { s with trig := { s.trig with pulse := t.trig.pulse },
                         pins := { s.pins with trigOut0 := t.pins.trigOut0, trigOut1 := t.pins.trigOut1 } })
      (fun t => outShown t o = (bitOf (s.trig.cfg.outReg o).1 30, none) ∧ outShown t (1 - o.val) = outShown s (1 - o.val) ∧
        ∀ j : Nat, j ≠ o → instGet none t.trig.pulse j = instGet none s.trig.pulse j) := by
  have hexec : s.outRelease o =
      ({ s with trig := { s.trig with pulse := instSet none s.trig.pulse o none } } : State).showOut o := by
    simp only [State.outRelease, h, if_pos hrun]
  have hshown := fun j hj => outShown_pulse s (j := j) o.isLt hj none
  refine Runs.done (congrArg Machine.done hexec) ⟨?_, ?_, ?_⟩ ((KeepsFields.refl _ s).of_regs rfl) ?_ (by simp [State.showOut])
  · rw [outShown_settle, hshown _ o.isLt, if_pos rfl, Option.isSome_none, Bool.false_bne]
  · rw [outShown_settle, hshown _ (by omega), if_neg (by omega)]
  · intro j hj
    rw [settle_trig]
    exact (instGet_instSet none s.trig.pulse o none j).trans (if_neg hj)
  · rw [settle_trig, settle_pins_trigOut0, settle_pins_trigOut1]
    obtain rfl | rfl : o = 0 ∨ o = 1 := by omega
    all_goals rfl

/-- A pulse that has not run, or none, releases nothing. -/
theorem outRelease_still (h : ∀ e ∈ instGet none s.trig.pulse o, s.trigNow ≤ e) : s.outRelease o = s := by
  unfold State.outRelease
  cases hp : instGet none s.trig.pulse o with
  | none => rfl
  | some e => exact if_neg (not_lt.mpr (h e hp))

end

/-- Settles O32: what both outputs show before and after one of them takes its oldest edge, or its pulse has run. -/
theorem triggerOutputsAssertAndRelease : Obligations.TriggerOutputsAssertAndRelease := by
  intro s o late pin other count parts now pulse same
  refine ⟨fun e rest hq hcome => ?_, fun h => Runs.still (congrArg Machine.done (outAssert_still late h)),
    fun e hp hrun => ?_, fun h => Runs.still (congrArg Machine.done (outRelease_still h))⟩
  · intro ends
    have hcount : count = lateCount o := by simp only [count, lateCount, Fin.val_eq_zero_iff]
    rw [hcount]
    obtain ⟨t, hexec, ⟨hshown, hother, hpulse, hqueue, hlate⟩, hframe⟩ := Runs.outAsserts late hq hcome
    refine ⟨t, hexec, ⟨?_, ⟨?_, hpulse⟩, ?_, ?_, fun j hj => ?_, hlate⟩, hframe⟩
    · exact (pin_eq_outShown t o).trans (congrArg Prod.fst hshown)
    · exact (otherPin_eq_outShown t o).trans ((congrArg Prod.fst hother).trans (otherPin_eq_outShown s o).symm)
    · rw [hqueue, if_pos rfl]
    · exact congrArg Prod.snd hshown
    · rw [hqueue, if_neg hj]
  · obtain ⟨t, hexec, ⟨hshown, hother, hpulse⟩, hframe⟩ := Runs.outReleases hp hrun
    refine ⟨t, hexec, ⟨?_, ⟨?_, hpulse⟩, ?_⟩, hframe⟩
    · exact (pin_eq_outShown t o).trans (congrArg Prod.fst hshown)
    · exact (otherPin_eq_outShown t o).trans ((congrArg Prod.fst hother).trans (otherPin_eq_outShown s o).symm)
    · exact congrArg Prod.snd hshown

end Sys2Proof
end

section
/-! PROOFS. The fire of a trigger slot (R284 to R288): the updates that events are made of, what a fire shows in the registers, the
capture units and the outputs, and that what happens in the other slots leaves it. -/

namespace Sys2Proof

open Sys2Proof.Machine

/-! ### The updates that events are made of -/

/-- A property that the four updates of slot `n` keep: a change of what it remembers, a held event, a fire, and the showing of its
pending events. -/
structure KeptBySlot (n : Nat) (P : State → Prop) : Prop where
  setSlot : ∀ u x, P u → P (u.setSlot n x)
  hold : ∀ u, P u → P (u.hold n)
  fire : ∀ u ev, P u → P (u.fire n ev)
  showPending : ∀ u, P u → P (u.showPending n)

section
variable {n : Nat} {P : State → Prop} {u : State}

theorem KeptBySlot.combined (h : KeptBySlot n P) (old : Bool) (ev : TrigEvent) (hu : P u) : P (u.combined n old ev) :=
  iteInduction (motive := P) (fun _ => h.hold _ (h.setSlot _ _ hu)) fun _ =>
    iteInduction (motive := P) (fun _ => h.hold _ hu) fun _ => h.fire _ _ (h.setSlot _ _ hu)

theorem KeptBySlot.slotEvent (h : KeptBySlot n P) (old : Bool) (ev : TrigEvent) (hu : P u) : P (u.slotEvent n old ev) := by
  refine h.showPending _ ?_
  generalize (if old = true then (u.slotOf n).cfg0 else (u.slotOf n).cfg) = c
  generalize (if old = true then (u.slotOf n).run0 else (u.slotOf n).run) = r
  split
  · exact iteInduction (motive := P) (fun _ => hu) fun _ => h.combined _ _ hu
  · simp only
    split
    · exact h.combined _ _ (h.setSlot _ _ hu)
    · exact h.setSlot _ _ hu
  · exact h.combined _ _ hu
  · refine iteInduction (motive := P) (fun _ => ?_) fun _ => h.setSlot _ _ hu
    split
    · exact iteInduction (motive := P) (fun _ => hu) fun _ => iteInduction (motive := P)
        (fun _ => h.combined _ _ (h.setSlot _ _ hu)) fun _ => h.setSlot _ _ hu
    · exact hu

theorem KeptBySlot.giveCond (h : KeptBySlot n P) (old isB : Bool) (t : Int)
    (f : CondCfg → CondRun → CondRun × Option (Int × Bool)) (hu : P u) : P (u.giveCond n old isB t f) := by
  refine iteInduction (motive := P) (fun _ => hu) fun _ => ?_
  generalize f _ _ = y
  obtain ⟨r, ev⟩ := y
  cases ev with
  | some e => exact h.slotEvent _ _ (h.setSlot _ _ hu)
  | none => exact h.setSlot _ _ hu

/-- What the four updates of a slot keep, anything that happens in the slot keeps. -/
theorem KeptBySlot.giveSlot (h : KeptBySlot n P) (t : Int) (f : CondCfg → CondRun → CondRun × Option (Int × Bool)) (hu : P u) :
    P (u.giveSlot n t f) := h.giveCond _ _ _ _ (h.giveCond _ _ _ _ hu)

/-- What the updates of every slot of a list keep, anything that happens in those slots keeps. -/
theorem foldl_giveSlot_keeps {l : List Nat} (h : ∀ m ∈ l, KeptBySlot m P) (t : Int)
    (f : CondCfg → CondRun → CondRun × Option (Int × Bool)) (hu : P u) : P (l.foldl (fun v m => v.giveSlot m t f) u) :=
  l.foldlRecOn _ (motive := P) hu fun _ hv m hm => (h m hm).giveSlot t f hv

end

/-! ### A fire reaches the capture units (R286) -/

/-- A capture unit that names a slot receives its decision. -/
def reachUnit (n : Nat) (ev : TrigEvent) (s : State) (v : Nat) : State :=
  if s.fld (CAPU_CTL_TRIG v) = n then s.setUnit v { s.unitOf v with queue := (s.unitOf v).queue ++ [{ slot := n, ev := ev }] } else s

/-- The units of a list are reached: only the units' own state changes. -/
theorem reachUnits_eq (n : Nat) (ev : TrigEvent) (l : List Nat) (s : State) :
    ∃ c, l.foldl (reachUnit n ev) s = { s with cap := c } := by
  refine l.foldlRecOn (reachUnit n ev) (motive := fun t => ∃ c, t = { s with cap := c }) ⟨s.cap, rfl⟩ fun t ⟨c, ht⟩ v _ => ?_
  subst ht
  unfold reachUnit
  split
  · exact ⟨_, rfl⟩
  · exact ⟨c, rfl⟩

/-- Reaching one unit writes no register. -/
@[simp] theorem reachUnit_fld (n : Nat) (ev : TrigEvent) (s : State) (v : Nat) (f : Field) :
    (reachUnit n ev s v).fld f = s.fld f := by
  unfold reachUnit
  split <;> rfl

/-- What the units then have on their way. -/
theorem reachUnits_queue (n : Nat) (ev : TrigEvent) {l : List Nat} (hl : l.Nodup) (s : State) (v : Nat) :
    ((l.foldl (reachUnit n ev) s).unitOf v).queue =
      if v ∈ l ∧ s.fld (CAPU_CTL_TRIG v) = n then (s.unitOf v).queue ++ [{ slot := n, ev := ev }] else (s.unitOf v).queue := by
  induction l generalizing s with
  | nil => simp
  | cons w l ih =>
    obtain ⟨hw, hl⟩ := List.nodup_cons.mp hl
    rw [List.foldl_cons, ih hl, reachUnit_fld]
    by_cases hv : v = w
    · subst hv
      by_cases hn : s.fld (CAPU_CTL_TRIG v) = n
      · simp [hw, hn, reachUnit]
      · simp [hn, reachUnit]
    · have hsame : (reachUnit n ev s w).unitOf v = s.unitOf v := by
        unfold reachUnit
        split
        · rw [unitOf_setUnit, if_neg hv]
        · rfl
      simp [hv, hsame]

/-! ### A fire reaches the outputs (R288) -/

/-- Whether a fire of slot `n` at a time asserts an output at once. -/
def atOnce (s : State) (n o : Nat) (t : Int) : Bool :=
  bitOf ((s.trigCfgAt t).outReg o).1 31 && decide (bitsOf ((s.trigCfgAt t).outReg o).1 24 3 = n) &&
    !bitOf ((s.trigCfgAt t).outReg o).1 29

/-- What an output shows that asserts now. -/
def outAsserted (s : State) (o : Nat) : Bool × Option Int :=
  (!bitOf (s.trig.cfg.outReg o).1 30, some (pulseEnd s o (s.rawNow * unitSample)))

/-- The outputs after a fire has reached one of them. -/
theorem outShown_fireOut (s : State) (n : Nat) {o j : Nat} (t : Int) (ho : o < 2) (hj : j < 2) :
    outShown (s.fireOut n o t) j = if j = o ∧ atOnce s n o t = true then outAsserted s o else outShown s j := by
  unfold State.fireOut atOnce
  by_cases hnames : (bitOf ((s.trigCfgAt t).outReg o).1 31 && decide (bitsOf ((s.trigCfgAt t).outReg o).1 24 3 = n)) = true
  · cases hfix : bitOf ((s.trigCfgAt t).outReg o).1 29 with
    | true => simp only [hnames, hfix, if_true, Bool.not_true, Bool.and_false, Bool.false_eq_true, and_false, if_false]; rfl
    | false =>
      simp only [hnames, hfix, if_true, Bool.not_false, Bool.and_true, Bool.false_eq_true, if_false, and_true]
      exact outShown_assertOut s ho hj _
  · simp only [hnames, Bool.false_and, Bool.false_eq_true, and_false, if_false]

/-- The settings, the clock and the rate stay; an output shows what it did, or that it has asserted now. -/
structure OutWork (s t : State) : Prop where
  nsps : t.nsps = s.nsps
  dealer : t.dealer = s.dealer
  cfg : t.trig.cfg = s.trig.cfg
  cfg0 : t.trig.cfg0 = s.trig.cfg0
  since : t.trig.since = s.trig.since
  outs : ∀ o < 2, outShown t o = outShown s o ∨ outShown t o = outAsserted s o

section
variable {s t u : State} {n o : Nat}

theorem OutWork.refl (s : State) : OutWork s s := ⟨rfl, rfl, rfl, rfl, rfl, fun _ _ => .inl rfl⟩

/-- What a further assertion at the same moment would show is no other: a pulse is extended to where it ends. -/
theorem OutWork.asserted (h : OutWork s t) (ho : o < 2) : outAsserted t o = outAsserted s o := by
  have hcore : t.unitCore = s.unitCore := by rw [State.unitCore, h.nsps, State.unitCore]
  have hnow : t.rawNow = s.rawNow := by rw [State.rawNow, State.now, State.dealerOf, h.dealer]; rfl
  have hpulse : pulseEnd t o (s.rawNow * unitSample) = pulseEnd s o (s.rawNow * unitSample) := by
    unfold pulseEnd
    rw [h.cfg, hcore]
    rcases h.outs o ho with hkept | hdone
    · rw [show instGet none t.trig.pulse o = instGet none s.trig.pulse o from congrArg Prod.snd hkept]
    · rw [show instGet none t.trig.pulse o = some (pulseEnd s o (s.rawNow * unitSample)) from congrArg Prod.snd hdone]
      unfold pulseEnd
      cases instGet none s.trig.pulse o <;> simp
  rw [outAsserted, h.cfg, hnow, hpulse, outAsserted]

theorem OutWork.trans (h : OutWork s t) (h' : OutWork t u) : OutWork s u where
  nsps := h'.nsps.trans h.nsps
  dealer := h'.dealer.trans h.dealer
  cfg := h'.cfg.trans h.cfg
  cfg0 := h'.cfg0.trans h.cfg0
  since := h'.since.trans h.since
  outs o ho := by
    rcases h'.outs o ho with hkept | hdone
    · rw [hkept]
      exact h.outs o ho
    · exact .inr (hdone.trans (h.asserted ho))

/-- The settings that hold at a time stay. -/
theorem OutWork.cfgAt (h : OutWork s t) (at' : Int) : t.trigCfgAt at' = s.trigCfgAt at' := by
  rw [State.trigCfgAt, h.cfg, h.cfg0, h.since, State.trigCfgAt]

/-- So does whether a fire asserts an output at once. -/
theorem OutWork.atOnce (h : OutWork s t) (n o : Nat) (at' : Int) : atOnce t n o at' = atOnce s n o at' := by
  rw [Sys2Proof.atOnce, h.cfgAt, Sys2Proof.atOnce]

/-- A register other than TIME_NSPS is given a value. -/
theorem OutWork.setReg (h : OutWork s u) {a : Nat} (v : Word) (ha : TIME_NSPS.addr ≠ a) (ha' : TIME_NSPS.addr + 4 ≠ a) :
    OutWork s (u.setReg a v) :=
  h.trans ⟨pair_setReg_ne u a v TIME_NSPS ha ha', rfl, rfl, rfl, rfl, fun _ _ => .inl rfl⟩

/-- Where the rate and the settings stay, and the outputs show what they did or that they have asserted. -/
theorem OutWork.fireOut (h : OutWork s u) (n : Nat) (t : Int) (ho : o < 2) : OutWork s (u.fireOut n o t) := by
  have hsame : ∀ v : State, OutsOnly u v → v.regs = u.regs → v.nsps = u.nsps ∧ v.dealer = u.dealer ∧ v.trig.cfg = u.trig.cfg ∧
      v.trig.cfg0 = u.trig.cfg0 ∧ v.trig.since = u.trig.since := by
    rintro v ⟨r, q, p, a, b, rfl⟩ (rfl : r = _)
    exact ⟨rfl, rfl, rfl, rfl, rfl⟩
  have hregs : (u.fireOut n o t).regs = u.regs :=
    iteInduction (motive := fun v => State.regs v = u.regs) (fun _ => iteInduction (motive := fun v => State.regs v = u.regs)
      (fun _ => rfl) fun _ => rfl) fun _ => rfl
  have hwork : OutsOnly u (u.fireOut n o t) := iteInduction (motive := OutsOnly u) (fun _ => iteInduction (motive := OutsOnly u)
    (fun _ => (OutsOnly.refl u).setQueue _) fun _ => (OutsOnly.refl u).assertOut o _) fun _ => OutsOnly.refl u
  obtain ⟨hnsps, hdealer, hcfg, hcfg0, hsince⟩ := hsame _ hwork hregs
  refine h.trans ⟨hnsps, hdealer, hcfg, hcfg0, hsince, fun j hj => ?_⟩
  rw [outShown_fireOut u n t ho hj]
  split
  · next hj => exact .inr (by rw [hj.1])
  · exact .inl rfl

end

/-! ### What a fire shows -/

/-- What the fire of slot `n` shows of an event: TRGn_LAST_IDX and LAST_INFO, TRGn_COUNT, FIRED, the units that name the slot, and
the outputs that assert with it. -/
structure FireShown (s : State) (n : Nat) (ev : TrigEvent) (t : State) : Prop where
  idx : t.pair (TRGS_LAST_IDX n) = ofSigned 64 (trigIndex ev.time).1
  info : t.reg (TRGS_LAST_INFO n).addr =
    BitVec.ofNat 32 ((trigIndex ev.time).2 <<< 16 + b2n ev.ref <<< 8 + b2n ev.isB <<< 4 + ev.ty)
  count : t.fld (TRGS_COUNT_COUNT n) = min (s.fld (TRGS_COUNT_COUNT n) + 1) 0xFFFFFFFF
  mark : t.bitSet TRG_STAT_FIRED n = true
  units : ∀ v < 8, s.fld (CAPU_CTL_TRIG v) = n → (t.unitOf v).queue = (s.unitOf v).queue ++ [{ slot := n, ev := ev }]
  names : ∀ v < 8, t.fld (CAPU_CTL_TRIG v) = s.fld (CAPU_CTL_TRIG v)
  work : OutWork s t
  outs : ∀ o < 2, atOnce s n o ev.time = true → outShown t o = outAsserted s o

/-- The state in which a fire has reached the units and the outputs. -/
def fireReached (s : State) (n : Nat) (ev : TrigEvent) : State :=
  (List.range 2).foldl (fun t o => t.fireOut n o ev.time) ((List.range 8).foldl (reachUnit n ev) s)

/-- A fire reaches the units and the outputs, then fills the slot's registers. -/
theorem fire_eq (s : State) (n : Nat) (ev : TrigEvent) :
    s.fire n ev = ((((fireReached s n ev).setPair (TRGS_LAST_IDX n) (ofSigned 64 (trigIndex ev.time).1)).setReg
      (TRGS_LAST_INFO n).addr (BitVec.ofNat 32 ((trigIndex ev.time).2 <<< 16 + b2n ev.ref <<< 8 + b2n ev.isB <<< 4 + ev.ty))).addSat
      (TRGS_COUNT_COUNT n) 1).stick TRG_STAT_FIRED n := rfl

section
variable {s t u : State} {n : Nat} {ev : TrigEvent}

/-- Reaching the units is no work of the outputs. -/
theorem OutWork.reachUnits (s : State) (n : Nat) (ev : TrigEvent) : OutWork s ((List.range 8).foldl (reachUnit n ev) s) := by
  obtain ⟨c, hc⟩ := reachUnits_eq n ev (List.range 8) s
  rw [hc]
  exact ⟨rfl, rfl, rfl, rfl, rfl, fun _ _ => .inl rfl⟩

/-- The outputs' work when a fire reaches them. -/
theorem OutWork.fireReached (s : State) (n : Nat) (ev : TrigEvent) : OutWork s (fireReached s n ev) :=
  ((OutWork.reachUnits s n ev).fireOut n ev.time (by decide : 0 < 2)).fireOut n ev.time (by decide : 1 < 2)

/-- Each output that follows the slot without delay asserts. -/
theorem outShown_fireReached (s : State) (n : Nat) (ev : TrigEvent) {o : Nat} (ho : o < 2) (h : atOnce s n o ev.time = true) :
    outShown (fireReached s n ev) o = outAsserted s o := by
  have hunits := OutWork.reachUnits s n ev
  have hfirst := hunits.fireOut n ev.time (by decide : 0 < 2)
  rw [fireReached, show List.range 2 = [0, 1] from rfl]
  generalize (List.range 8).foldl (reachUnit n ev) s = v at *
  rw [List.foldl_cons, List.foldl_cons, List.foldl_nil, outShown_fireOut _ n _ (by decide) ho]
  obtain rfl | rfl : o = 0 ∨ o = 1 := by omega
  · rw [if_neg (by simp), outShown_fireOut _ n _ (by decide) ho, if_pos ⟨rfl, (hunits.atOnce ..).trans h⟩, hunits.asserted ho]
  · rw [if_pos ⟨rfl, (hfirst.atOnce ..).trans h⟩, hfirst.asserted ho]

/-- Reaching the outputs writes no register and changes no unit and no slot. -/
theorem fireOut_same (s : State) (n o : Nat) (at' : Int) :
    (s.fireOut n o at').regs = s.regs ∧ (s.fireOut n o at').cap = s.cap ∧ (s.fireOut n o at').trig.slots = s.trig.slots := by
  have hassert : ∀ at'', (s.assertOut o at'').trig.slots = s.trig.slots := fun at'' => by
    obtain ⟨r, q, p, a, b, h⟩ := (OutsOnly.refl s).assertOut o at''
    rw [h]
  unfold State.fireOut
  simp only
  split
  · split
    · exact ⟨rfl, rfl, rfl⟩
    · exact ⟨rfl, rfl, hassert _⟩
  · exact ⟨rfl, rfl, rfl⟩

/-- A fire that reaches the units and the outputs writes no register, and changes no slot. -/
theorem fireReached_same (s : State) (n : Nat) (ev : TrigEvent) :
    (fireReached s n ev).regs = s.regs ∧ (fireReached s n ev).trig.slots = s.trig.slots ∧
      (fireReached s n ev).cap = ((List.range 8).foldl (reachUnit n ev) s).cap := by
  obtain ⟨c, hc⟩ := reachUnits_eq n ev (List.range 8) s
  rw [fireReached, hc]
  refine (List.range 2).foldlRecOn _ (motive := fun t => State.regs t = s.regs ∧ t.trig.slots = s.trig.slots ∧ t.cap = c)
    ⟨rfl, rfl, rfl⟩ fun t ht o _ => ?_
  obtain ⟨hregs, hslots, hcap⟩ := ht
  obtain ⟨hregs', hcap', hslots'⟩ := fireOut_same t n o ev.time
  exact ⟨hregs'.trans hregs, hslots'.trans hslots, hcap'.trans hcap⟩

/-- The registers of one of the eight slots are not TIME_NSPS. -/
theorem nsps_ne_slotReg {n b : Nat} (hb : 0x71000 ≤ b := by decide) :
    TIME_NSPS.addr ≠ b + n * 0x100 ∧ TIME_NSPS.addr + 4 ≠ b + n * 0x100 := by
  simp only [TIME_NSPS]
  omega

/-- The outputs' work in a fire. -/
theorem OutWork.fire (s : State) (n : Nat) (ev : TrigEvent) : OutWork s (s.fire n ev) := by
  have hslot := fun b (hb : 0x71000 ≤ b) => nsps_ne_slotReg (n := n) hb
  rw [fire_eq]
  exact (((((OutWork.fireReached s n ev).setReg _ (hslot _ (by decide)).1 (hslot _ (by decide)).2).setReg _
    (by simp only [TIME_NSPS, TRGS_LAST_IDX]; omega) (by simp only [TIME_NSPS, TRGS_LAST_IDX]; omega)).setReg _
    (hslot _ (by decide)).1 (hslot _ (by decide)).2).setReg _ (hslot _ (by decide)).1 (hslot _ (by decide)).2).setReg _
    (show TIME_NSPS.addr ≠ 0x70000 by decide) (show TIME_NSPS.addr + 4 ≠ 0x70000 by decide)

/-- A fire shows its event. -/
theorem FireShown.fire (s : State) {n : Nat} (hn : n < 8) (ev : TrigEvent) : FireShown s n ev (s.fire n ev) := by
  obtain ⟨hregs, -, hcap⟩ := fireReached_same s n ev
  have hreg : ∀ a, (fireReached s n ev).reg a = s.reg a := fun a => by rw [State.reg, hregs, State.reg]
  refine ⟨?_, ?_, ?_, ?_, ?_, fun v _ => ?_, OutWork.fire s n ev, fun o ho h => ?_⟩
  · rw [fire_eq, stick_eq, pair_setFld_ne, addSat_eq, pair_setFld_ne, pair_setReg_ne, pair_setPair, Nat.mod_eq_of_lt (ofSigned_lt 64 _)]
    all_goals simp only [TRGS_LAST_IDX, TRGS_COUNT_COUNT, TRGS_LAST_INFO, Field.bit, TRG_STAT_FIRED]; omega
  · rw [fire_eq, stick_eq, reg_setFld_ne, addSat_eq, reg_setFld_ne, reg_setReg, if_pos rfl]
    all_goals simp only [TRGS_COUNT_COUNT, TRGS_LAST_INFO, Field.bit, TRG_STAT_FIRED]; omega
  · rw [fire_eq, stick_eq, fld_setFld_addr, fld_addSat_self _ _ _ (by simp [TRGS_COUNT_COUNT]), fld_setReg_ne, fld_setPair_ne,
      fld_congr (hreg _)]
    · rfl
    all_goals simp only [TRGS_LAST_IDX, TRGS_COUNT_COUNT, TRGS_LAST_INFO, Field.bit, TRG_STAT_FIRED]; omega
  · exact bitSet_stick _ _ _ (by simp only [TRG_STAT_FIRED]; omega)
  · intro v hv hname
    have hunit : (s.fire n ev).unitOf v = ((List.range 8).foldl (reachUnit n ev) s).unitOf v := by
      rw [State.unitOf, State.unitOf, ← hcap]
      rfl
    rw [hunit, reachUnits_queue n ev List.nodup_range, if_pos ⟨List.mem_range.mpr hv, hname⟩]
  · rw [fire_eq, stick_eq, fld_setFld_addr, addSat_eq, fld_setFld_addr, fld_setReg_ne, fld_setPair_ne, fld_congr (hreg _)]
    all_goals simp only [TRGS_LAST_IDX, TRGS_COUNT_COUNT, TRGS_LAST_INFO, CAPU_CTL_TRIG, Field.bit, TRG_STAT_FIRED]; omega
  · exact (show outShown (s.fire n ev) o = outShown (fireReached s n ev) o from rfl).trans (outShown_fireReached s n ev ho h)

/-! ### What happens elsewhere leaves it -/

/-- The registers that the fire of slot `n` is shown in and those that it reads. -/
def fireRegs (n : Nat) : List Nat :=
  [(TRGS_LAST_IDX n).addr, (TRGS_LAST_IDX n).addr + 4, (TRGS_LAST_INFO n).addr, (TRGS_COUNT_COUNT n).addr, TIME_NSPS.addr,
    TIME_NSPS.addr + 4] ++ (List.range 8).map fun v => (CAPU_CTL_TRIG v).addr

/-- A register of the trigger engine is among them only as the slot's own. -/
theorem notMem_fireRegs {a : Nat} (hlow : 0x70000 ≤ a) (hhigh : a < 0x80000)
    (hown : ∀ b ∈ [0x71034, 0x71040, 0x71044, 0x71048], a ≠ b + n * 0x100) : a ∉ fireRegs n := by
  intro ha
  simp only [fireRegs, List.mem_append, List.mem_cons, List.not_mem_nil, or_false, List.mem_map, List.mem_range, TRGS_LAST_IDX,
    TRGS_LAST_INFO, TRGS_COUNT_COUNT, TIME_NSPS, CAPU_CTL_TRIG] at ha
  simp only [List.forall_mem_cons, List.not_mem_nil] at hown
  obtain ⟨h1, h2, h3, h4, -⟩ := hown
  rcases ha with (h | h | h | h | h | h) | ⟨v, -, h⟩ <;> omega

/-- What a fire of slot `n` shows, and what it depends on, stays; further assertions of the outputs may be shown. -/
structure KeepsFire (n : Nat) (s t : State) : Prop where
  reg : ∀ a ∈ fireRegs n, t.reg a = s.reg a
  mark : s.bitSet TRG_STAT_FIRED n = true → t.bitSet TRG_STAT_FIRED n = true
  units : ∀ v < 8, s.fld (CAPU_CTL_TRIG v) = n → (t.unitOf v).queue = (s.unitOf v).queue
  work : OutWork s t

/-- The setting by which a unit names its slot stays. -/
theorem KeepsFire.names (h : KeepsFire n s t) {v : Nat} (hv : v < 8) : t.fld (CAPU_CTL_TRIG v) = s.fld (CAPU_CTL_TRIG v) :=
  fld_congr (h.reg _ (List.mem_append_right _ (List.mem_map.mpr ⟨v, List.mem_range.mpr hv, rfl⟩)))

/-- So does the slot's count. -/
theorem KeepsFire.count (h : KeepsFire n s t) : t.fld (TRGS_COUNT_COUNT n) = s.fld (TRGS_COUNT_COUNT n) :=
  fld_congr (h.reg _ (by simp [fireRegs]))

theorem KeepsFire.refl (n : Nat) (s : State) : KeepsFire n s s := ⟨fun _ _ => rfl, id, fun _ _ _ => rfl, .refl s⟩

theorem KeepsFire.trans (h : KeepsFire n s t) (h' : KeepsFire n t u) : KeepsFire n s u where
  reg a ha := (h'.reg a ha).trans (h.reg a ha)
  mark hm := h'.mark (h.mark hm)
  units v hv hname := (h'.units v hv ((h.names hv).trans hname)).trans (h.units v hv hname)
  work := h.work.trans h'.work

/-- A fire shown stays shown. -/
theorem FireShown.keeps (h : FireShown s n ev t) (h' : KeepsFire n t u) : FireShown s n ev u where
  idx := by rw [State.pair, h'.reg _ (by simp [fireRegs]), h'.reg _ (by simp [fireRegs]), ← h.idx, State.pair]
  info := (h'.reg _ (by simp [fireRegs])).trans h.info
  count := h'.count.trans h.count
  mark := h'.mark h.mark
  units v hv hname := (h'.units v hv ((h.names v hv).trans hname)).trans (h.units v hv hname)
  names v hv := (h'.names hv).trans (h.names v hv)
  work := h.work.trans h'.work
  outs o ho hnow := by
    rcases h'.work.outs o ho with hkept | hdone
    · exact hkept.trans (h.outs o ho hnow)
    · exact hdone.trans (h.work.asserted ho)

/-- What other slots did before a fire does not matter for what it shows. -/
theorem FireShown.after (h : KeepsFire n s t) (h' : FireShown t n ev u) : FireShown s n ev u where
  idx := h'.idx
  info := h'.info
  count := by rw [h'.count, h.count]
  mark := h'.mark
  units v hv hname := by rw [h'.units v hv ((h.names hv).trans hname), h.units v hv hname]
  names v hv := (h'.names v hv).trans (h.names hv)
  work := h.work.trans h'.work
  outs o ho hnow := (h'.outs o ho ((h.work.atOnce ..).trans hnow)).trans (h.work.asserted ho)

/-- A change of what a slot remembers. -/
theorem KeepsFire.setSlot (n : Nat) (s : State) (m : Nat) (x : Slot) : KeepsFire n s (s.setSlot m x) :=
  ⟨fun _ _ => rfl, id, fun _ _ _ => rfl, rfl, rfl, rfl, rfl, rfl, fun _ _ => .inl rfl⟩

/-- A change of a generator. -/
theorem KeepsFire.setTod (n : Nat) (s : State) (g : Nat) (x : TodGen) : KeepsFire n s (s.setTod g x) :=
  ⟨fun _ _ => rfl, id, fun _ _ _ => rfl, rfl, rfl, rfl, rfl, rfl, fun _ _ => .inl rfl⟩

/-- A register that the fire does not show is given a value. -/
theorem KeepsFire.setReg {a : Nat} (s : State) (v : Word) (ha : a ∉ fireRegs n) (hstat : (TRG_STAT_FIRED.bit n).addr ≠ a) :
    KeepsFire n s (s.setReg a v) := by
  have hne : ∀ b ∈ fireRegs n, b ≠ a := fun b hb h => ha (h ▸ hb)
  refine ⟨fun b hb => by rw [reg_setReg, if_neg (hne b hb)], fun hm => ?_, fun _ _ _ => rfl, (OutWork.refl s).setReg v
    (hne _ (by simp [fireRegs])) (hne _ (by simp [fireRegs]))⟩
  rw [bitSet_congr (fld_setReg_ne s a v hstat), hm]

/-- A bit of TRG_STAT other than the slot's FIRED is given a value. -/
theorem KeepsFire.setStat {f : Field} (s : State) (x : Nat) (ha : f.addr = TRG_STAT_FIRED.addr)
    (h : f.lo + f.width ≤ TRG_STAT_FIRED.lo + n ∨ TRG_STAT_FIRED.lo + n + 1 ≤ f.lo) : KeepsFire n s (s.setFld f x) := by
  have hfree : f.addr ∉ fireRegs n := by
    rw [ha]
    exact notMem_fireRegs (by decide) (by decide) fun b hb => by
      have hhigh : ∀ c ∈ [0x71034, 0x71040, 0x71044, 0x71048], TRG_STAT_FIRED.addr < c := by decide
      have := hhigh b hb
      omega
  have hne : ∀ b ∈ fireRegs n, b ≠ f.addr := fun b hb h => hfree (h ▸ hb)
  refine ⟨fun b hb => reg_setFld_ne s f x (hne b hb), fun hm => ?_, fun _ _ _ => rfl, (OutWork.refl s).setReg _
    (hne _ (by simp [fireRegs])) (hne _ (by simp [fireRegs]))⟩
  rw [bitSet_congr (fld_setFld_ne s x (.inr h)), hm]

/-- A register `b` of a slot, as slot 0 has it, is given a value: one that shows no fire, or another slot's. -/
theorem KeepsFire.setSlotReg {m b : Nat} (s : State) (v : Word) (hm : m < 8) (hb : 0x71000 ≤ b ∧ b < 0x71100)
    (hown : m ≠ n ∨ b ∉ [0x71034, 0x71040, 0x71044, 0x71048]) : KeepsFire n s (s.setReg (b + m * 0x100) v) := by
  refine .setReg s v (notMem_fireRegs (by omega) (by omega) fun c hc => ?_) (by simp only [Field.bit, TRG_STAT_FIRED]; omega)
  have hrange : ∀ d ∈ [0x71034, 0x71040, 0x71044, 0x71048], 0x71000 ≤ d ∧ d < 0x71100 := by decide
  have hc' := hrange c hc
  rcases hown with hne | hne
  · omega
  · have : b ≠ c := fun h => hne (h ▸ hc)
    omega

/-- A slot's pending events are shown. -/
theorem KeepsFire.showPending {m : Nat} (hm : m < 8) (s : State) : KeepsFire n s (s.showPending m) :=
  (KeepsFire.setSlotReg (b := 0x71030) s _ hm (by decide) (.inr (by decide))).trans
    (.setSlotReg (b := 0x71030) _ _ hm (by decide) (.inr (by decide)))

/-- An event of another slot is held. -/
theorem KeepsFire.hold {m : Nat} (hn : n < 8) (hm : m < 8) (hne : m ≠ n) (s : State) : KeepsFire n s (s.hold m) :=
  (KeepsFire.setSlotReg (b := 0x71038) s _ hm (by decide) (.inl hne)).trans
    (.setStat (f := TRG_STAT_HELD.bit m) _ 1 rfl (by simp only [Field.bit, TRG_STAT_HELD, TRG_STAT_FIRED]; omega))

/-- A fire of another slot reaches the units and the outputs. -/
theorem KeepsFire.fireReached {m : Nat} (hne : m ≠ n) (s : State) (ev : TrigEvent) : KeepsFire n s (fireReached s m ev) := by
  obtain ⟨hregs, -, hcap⟩ := fireReached_same s m ev
  have hreg : ∀ a, (Sys2Proof.fireReached s m ev).reg a = s.reg a := fun a => by rw [State.reg, hregs, State.reg]
  refine ⟨fun a _ => hreg a, fun hm => by rw [bitSet_congr (fld_congr (hreg _)), hm], fun v _ hname => ?_, .fireReached s m ev⟩
  rw [State.unitOf, hcap, ← State.unitOf, reachUnits_queue m ev List.nodup_range, if_neg fun h => hne (h.2.symm.trans hname)]

/-- Another slot fires. -/
theorem KeepsFire.fire {m : Nat} (hm : m < 8) (hne : m ≠ n) (s : State) (ev : TrigEvent) :
    KeepsFire n s (s.fire m ev) := by
  have hown := fun b (hb : 0x71000 ≤ b ∧ b < 0x71100) (u : State) (v : Word) =>
    KeepsFire.setSlotReg (n := n) (b := b) u v hm hb (.inl hne)
  have hidx : ∀ (u : State) (x : Nat), KeepsFire n u (u.setPair (TRGS_LAST_IDX m) x) := fun u x => by
    have hhigh : (TRGS_LAST_IDX m).addr + 4 = 0x71044 + m * 0x100 := by simp only [TRGS_LAST_IDX]; omega
    rw [State.setPair, hhigh]
    exact (hown 0x71040 (by decide) _ _).trans (hown 0x71044 (by decide) _ _)
  rw [fire_eq]
  exact ((((KeepsFire.fireReached hne s ev).trans (hidx _ _)).trans (hown 0x71048 (by decide) _ _)).trans
    (hown 0x71034 (by decide) _ _)).trans
    (.setStat (f := TRG_STAT_FIRED.bit m) _ 1 rfl (by simp only [Field.bit, TRG_STAT_FIRED]; omega))

/-- Anything that happens in another slot keeps what a fire shows. -/
theorem keptBySlot_keepsFire {m : Nat} (hn : n < 8) (hm : m < 8) (hne : m ≠ n) (s : State) : KeptBySlot m (KeepsFire n s) where
  setSlot u x h := h.trans (.setSlot n u m x)
  hold u h := h.trans (.hold hn hm hne u)
  fire u ev h := h.trans (.fire hm hne u ev)
  showPending u h := h.trans (.showPending hm u)

/-- So does settling the derived signals. -/
theorem KeepsFire.settle (n : Nat) (s : State) : KeepsFire n s s.settle := by
  have hreg : ∀ a ∈ fireRegs n, s.settle.reg a = s.reg a := fun a ha => settle_reg s (by
    simp only [fireRegs, List.mem_append, List.mem_cons, List.not_mem_nil, or_false, List.mem_map, List.mem_range, TRGS_LAST_IDX,
      TRGS_LAST_INFO, TRGS_COUNT_COUNT, TIME_NSPS, CAPU_CTL_TRIG] at ha
    simp only [HOST_INT_REQ_REQ, HOST_INT_PEND_PEND, SUP_STAT_FAULT, HOST_STAT_FAULT, VREG_STAT_ALERT]
    rcases ha with (h | h | h | h | h | h) | ⟨v, hv, h⟩ <;> omega)
  refine ⟨hreg, fun hm => ?_, fun v _ _ => by rw [State.unitOf, settle_cap, State.unitOf], ?_, ?_, ?_, ?_, ?_, fun o _ => .inl (outShown_settle s o)⟩
  · rw [settle_bitSet _ _ _ (quiet_zoomTrig (by simp [Field.bit, TRG_STAT_FIRED]) (by simp [Field.bit, TRG_STAT_FIRED])), hm]
  · rw [State.nsps, State.pair, hreg _ (by simp [fireRegs]), hreg _ (by simp [fireRegs])]
    rfl
  · exact settle_dealer s
  all_goals rw [settle_trig]

end

end Sys2Proof
end

section
/-! PROOFS. What a trigger slot that combines nothing makes of an event of its condition, for O31 (R281, R282, R284, R285). -/

namespace Sys2Proof

open Sys2Proof.Machine

/-! ### A slot that combines nothing -/

/-- A slot of mode A without hold-off whose condition A is on at an instant. -/
structure FiresAlone (x : Slot) (at' : Int) : Prop where
  en : x.cfg.en = true
  on : (if at' < x.offAt then x.off0 else x.off).1 = false
  mode : x.cfg.mode = 0
  holdMode : x.cfg.holdMode = 0

/-- The slot once its condition A remembers `r`. -/
def metA (x : Slot) (r : CondRun) : Slot := { x with run := { x.run with a := r } }

/-- The slot once it has fired at an instant. -/
def firedAt (x : Slot) (at' : Int) : Slot := { x with run := { x.run with held := some at', left := 0 }, fired := some at' }

/-- The event of its condition A, of a time and a mark of REF_LOST. -/
def eventA (x : Slot) (e : Int × Bool) : TrigEvent := { time := e.1, ref := e.2, isB := false, ty := x.cfg.a.ty, src := x.cfg.a.src }

section
variable {s : State} {n : Nat} {x : Slot} {r : CondRun} {at' : Int} {e : Int × Bool} {ev : TrigEvent}
  {f : CondCfg → CondRun → CondRun × Option (Int × Bool)}

/-- A fire changes no slot. -/
theorem fire_slotOf (s : State) (n : Nat) (ev : TrigEvent) (m : Nat) : (s.fire n ev).slotOf m = s.slotOf m := by
  have hslots : (s.fire n ev).trig.slots = s.trig.slots := (fireReached_same s n ev).2.1
  rw [State.slotOf, hslots, State.slotOf]

/-- Showing the pending events changes no slot. -/
theorem showPending_slotOf (s : State) (n m : Nat) : (s.showPending n).slotOf m = s.slotOf m := rfl

/-- Without hold-off, and not fired before, a combined event fires. -/
theorem combined_fires (hx : s.slotOf n = x) (hhold : x.cfg.holdMode = 0) (hfired : x.fired = none) :
    s.combined n false ev = (s.setSlot n (firedAt x ev.time)).fire n ev := by
  simp [State.combined, hx, hhold, hfired, firedAt]

/-- Less than 10 ns from the last fire it is held. -/
theorem combined_held {t1 : Int} (hx : s.slotOf n = x) (hhold : x.cfg.holdMode = 0) (hfired : x.fired = some t1)
    (hnear : (ev.time - t1).natAbs < (10 * s.unitNs).toNat) : s.combined n false ev = s.hold n := by
  simp [State.combined, hx, hhold, hfired, hnear]

/-- An event of condition A is a combined event. -/
theorem giveCond_a_event (hx : s.slotOf n = x) (h : FiresAlone x at') (hf : f x.cfg.a x.run.a = (r, some e)) :
    s.giveCond n false false at' f = ((s.setSlot n (metA x r)).combined n false (eventA x e)).showPending n := by
  simp [State.giveCond, State.slotEvent, hx, h.en, h.on, h.mode, hf, metA, eventA]

/-- So a slot that has not fired fires. -/
theorem giveCond_a_fires (hx : s.slotOf n = x) (h : FiresAlone x at') (hf : f x.cfg.a x.run.a = (r, some e)) (hfired : x.fired = none) :
    s.giveCond n false false at' f =
      (((s.setSlot n (metA x r)).setSlot n (firedAt (metA x r) e.1)).fire n (eventA x e)).showPending n := by
  rw [giveCond_a_event hx h hf, combined_fires (x := metA x r) (by simp) h.holdMode hfired]
  rfl

/-- A slot that fires shows the event, and remembers its time. -/
theorem FireShown.giveCond_a (hn : n < 8) (hx : s.slotOf n = x) (h : FiresAlone x at') (hf : f x.cfg.a x.run.a = (r, some e))
    (hfired : x.fired = none) : FireShown s n (eventA x e) (s.giveCond n false false at' f) ∧
      (s.giveCond n false false at' f).slotOf n = firedAt (metA x r) e.1 := by
  rw [giveCond_a_fires hx h hf hfired]
  exact ⟨((FireShown.fire _ hn _).keeps (.showPending hn _)).after ((KeepsFire.setSlot n s n _).trans (.setSlot n _ n _)),
    by rw [showPending_slotOf, fire_slotOf, slotOf_setSlot, if_pos rfl]⟩

/-- An event of condition B is none of a slot of mode A. -/
theorem slotEvent_b_modeA (hx : s.slotOf n = x) (hmode : x.cfg.mode = 0) (hb : ev.isB = true) :
    s.slotEvent n false ev = s.showPending n := by
  simp [State.slotEvent, hx, hmode, hb]

/-- What happens in its condition B leaves what its fire shows. -/
theorem giveCond_b_modeA (hn : n < 8) (hmode : (s.slotOf n).cfg.mode = 0) :
    KeepsFire n s (s.giveCond n false true at' f) ∧ ((s.giveCond n false true at' f).slotOf n).fired = (s.slotOf n).fired := by
  refine iteInduction (motive := fun t => KeepsFire n s t ∧ (t.slotOf n).fired = (s.slotOf n).fired) (fun _ => ⟨.refl n s, rfl⟩)
    fun _ => ?_
  generalize f _ _ = y
  obtain ⟨r, ev⟩ := y
  cases ev with
  | none => exact ⟨.setSlot n s n _, by rw [slotOf_setSlot, if_pos rfl]; rfl⟩
  | some e =>
    simp only [Bool.false_eq_true, if_false, if_true]
    rw [slotEvent_b_modeA (x := { s.slotOf n with run := { (s.slotOf n).run with b := r } }) (by rw [slotOf_setSlot, if_pos rfl]) hmode rfl]
    exact ⟨(KeepsFire.setSlot n s n _).trans (.showPending hn _), by rw [showPending_slotOf, slotOf_setSlot, if_pos rfl]⟩

/-- A slot of mode A that has not fired fires on its condition A, whatever its condition B makes of what happened. -/
theorem FireShown.giveSlot (hn : n < 8) (hx : s.slotOf n = x) (h : FiresAlone x at') (hsince : x.since ≤ at')
    (hf : f x.cfg.a x.run.a = (r, some e)) (hfired : x.fired = none) :
    FireShown s n (eventA x e) (s.giveSlot n at' f) ∧ ((s.giveSlot n at' f).slotOf n).fired = some e.1 := by
  have hnew : decide (at' < (s.slotOf n).since) = false := by simpa [hx] using hsince
  obtain ⟨hshown, hslot⟩ := FireShown.giveCond_a hn hx h hf hfired
  obtain ⟨hkeeps, hlast⟩ := giveCond_b_modeA (f := f) (at' := at') hn (by rw [hslot]; exact h.mode)
  simp only [State.giveSlot, hnew]
  exact ⟨hshown.keeps hkeeps, hlast.trans (by rw [hslot]; rfl)⟩

/-- Where every slot of a list meets what happened, so does one of them that fires. -/
theorem FireShown.foldl_giveSlot {l : List Nat} (hl : l.Nodup) (hlt : ∀ m ∈ l, m < 8) (hmem : n ∈ l) (hx : s.slotOf n = x)
    (h : FiresAlone x at') (hsince : x.since ≤ at') (hf : f x.cfg.a x.run.a = (r, some e)) (hfired : x.fired = none) :
    FireShown s n (eventA x e) (l.foldl (fun u m => u.giveSlot m at' f) s) ∧
      ((l.foldl (fun u m => u.giveSlot m at' f) s).slotOf n).fired = some e.1 := by
  have hn := hlt n hmem
  obtain ⟨l₁, l₂, rfl⟩ := List.append_of_mem hmem
  obtain ⟨-, hnd, hdisj⟩ := List.nodup_append.mp hl
  have hbefore : n ∉ l₁ := fun hn => hdisj n hn n (by simp) rfl
  have hafter : n ∉ l₂ := (List.nodup_cons.mp hnd).1
  have hkept : ∀ (l' : List Nat) (u : State), (∀ m ∈ l', m < 8) → n ∉ l' →
      KeepsFire n u (l'.foldl (fun u m => u.giveSlot m at' f) u) ∧
        (l'.foldl (fun u m => u.giveSlot m at' f) u).slotOf n = u.slotOf n := fun l' u hlt' hnot =>
    ⟨foldl_giveSlot_keeps (fun m hm => keptBySlot_keepsFire hn (hlt' m hm) (fun he => hnot (he ▸ hm)) u) at' f (.refl n u),
      congrArg Prod.fst (foldl_giveSlot_slotShown hnot u at' f)⟩
  obtain ⟨hpre, hslot⟩ := hkept l₁ s (fun m hm => hlt m (by simp [hm])) hbefore
  rw [List.foldl_append, List.foldl_cons]
  obtain ⟨hshown, hlast⟩ := FireShown.giveSlot hn (hslot.trans hx) h hsince hf hfired
  obtain ⟨hpost, hslot'⟩ := hkept l₂ _ (fun m hm => hlt m (by simp [hm])) hafter
  exact ⟨(hshown.keeps hpost).after hpre, by rw [hslot', hlast]⟩

end

end Sys2Proof
end

section
/-! PROOFS. The statement of 10_triggers_capture.md on the events TIMEOUT, TOD and FORCE (O31): when each is due (R281, R282, R305), and
the statement. -/

namespace Sys2Proof

open Sys2Proof.Machine

/-! ### What a slot that fires can change -/

/-- A state is another but for its registers, the trigger engine, the capture units and the outputs' pins. -/
def TrigOnly (s t : State) : Prop := ∃ r g c a b, t =
  { s with regs := r, trig := g, cap := c, pins := { s.pins with trigOut0 := a, trigOut1 := b } }

/-- The fields that a fire of slot `n` and the showing of its pending events write. -/
def fireFields (n : Nat) : List Field :=
  wholeReg (TRGS_LAST_INFO n).addr :: TRGS_COUNT_COUNT n :: TRG_STAT_FIRED.bit n ::
    (pairFields (TRGS_LAST_IDX n) ++ [TRGS_STAT_A_PENDING n, TRGS_STAT_B_PENDING n])

/-- Those that a held event writes instead. -/
def heldFields (n : Nat) : List Field :=
  [TRGS_HELD_COUNT n, TRG_STAT_HELD.bit n, TRGS_STAT_A_PENDING n, TRGS_STAT_B_PENDING n]

section
variable {s t u : State} {n : Nat} {w : List Field}

theorem TrigOnly.refl (s : State) : TrigOnly s s := ⟨_, _, _, _, _, rfl⟩

theorem TrigOnly.setReg (h : TrigOnly s u) (a : Nat) (v : Word) : TrigOnly s (u.setReg a v) := by
  obtain ⟨_, _, _, _, _, rfl⟩ := h
  exact ⟨_, _, _, _, _, rfl⟩

theorem TrigOnly.setSlot (h : TrigOnly s u) (n : Nat) (x : Slot) : TrigOnly s (u.setSlot n x) := by
  obtain ⟨_, _, _, _, _, rfl⟩ := h
  exact ⟨_, _, _, _, _, rfl⟩

/-- The outputs do their work. -/
theorem TrigOnly.outs (h : TrigOnly s t) (h' : OutsOnly t u) : TrigOnly s u := by
  obtain ⟨_, _, _, _, _, rfl⟩ := h
  obtain ⟨_, _, _, _, _, rfl⟩ := h'
  exact ⟨_, _, _, _, _, rfl⟩

/-- A fire reaches an output. -/
theorem OutsOnly.fireOut (s : State) (n o : Nat) (at' : Int) : OutsOnly s (s.fireOut n o at') :=
  iteInduction (motive := OutsOnly s) (fun _ => iteInduction (motive := OutsOnly s) (fun _ => (OutsOnly.refl s).setQueue _)
    fun _ => (OutsOnly.refl s).assertOut o _) fun _ => .refl s

/-- A slot fires. -/
theorem TrigOnly.fire (h : TrigOnly s u) (n : Nat) (ev : TrigEvent) : TrigOnly s (u.fire n ev) := by
  have hunits : TrigOnly s ((List.range 8).foldl (reachUnit n ev) u) := by
    obtain ⟨c, hc⟩ := reachUnits_eq n ev (List.range 8) u
    rw [hc]
    obtain ⟨_, _, _, _, _, rfl⟩ := h
    exact ⟨_, _, _, _, _, rfl⟩
  have hreached : TrigOnly s (fireReached u n ev) :=
    (List.range 2).foldlRecOn _ (motive := TrigOnly s) hunits fun t ht o _ => ht.outs (.fireOut t n o ev.time)
  rw [fire_eq]
  exact ((((hreached.setReg _ _).setReg _ _).setReg _ _).setReg _ _).setReg _ _

/-- A command whose outcome, before settling, is such a state. -/
theorem Runs.trigOnly {c : Instr} {result : State → Prop} (hc : exec c s = Machine.done u) (hr : result u.settle)
    (hw : KeepsFields w s u) (h : TrigOnly s u) :
    Runs c s w (fun t => { s with trig := t.trig, cap := t.cap,
                                  pins := { s.pins with trigOut0 := t.pins.trigOut0, trigOut1 := t.pins.trigOut1 } }) result := by
  obtain ⟨r, g, p, a, b, rfl⟩ := h
  refine Runs.done hc hr hw ?_ (List.append_nil _).symm
  rw [settle_trig, settle_cap, settle_pins_trigOut0, settle_pins_trigOut1]

/-- What a slot remembers is no register. -/
theorem KeepsFields.setSlot (h : KeepsFields w s u) (n : Nat) (x : Slot) : KeepsFields w s (u.setSlot n x) := h.of_regs rfl

/-- The fields of a fire are written. -/
theorem KeepsFields.fire (ev : TrigEvent) (h : KeepsFields (fireFields n) s u) : KeepsFields (fireFields n) s (u.fire n ev) := by
  rw [fire_eq]
  exact ((((h.of_regs (fireReached_same u n ev).1).setPair _ _ (by simp [fireFields, pairFields, wholeReg])
    (by simp [fireFields, pairFields, wholeReg])).setReg _ _ (by simp [fireFields])).setFld _ _ (by simp [fireFields])).setFld _ _
    (by simp [fireFields])

/-- The pending events are shown. -/
theorem KeepsFields.showPending (h : KeepsFields w s u) (ha : TRGS_STAT_A_PENDING n ∈ w) (hb : TRGS_STAT_B_PENDING n ∈ w) :
    KeepsFields w s (u.showPending n) := (h.setFld _ _ ha).setFld _ _ hb

/-! ### TIMEOUT (R281) -/

/-- A TIMEOUT condition that forgets t_last. -/
def forgets (r : CondRun) : CondRun := { r with last := none }

/-- What a TIMEOUT condition makes of its instant. -/
def timedOut (e : Int × Bool) (_ : CondCfg) (r : CondRun) : CondRun × Option (Int × Bool) := (forgets r, some e)

/-- A TIMEOUT condition with a t_last is due T1 after it. -/
theorem timeoutDue_of_last {lsb t0 : Int} {ref : Bool} {c : CondCfg} {r : CondRun} (hty : c.ty = 4) (hlast : r.last = some (t0, ref)) :
    timeoutDue lsb c r = some (t0 + (c.t1 : Int) * lsb, ref) := by
  simp [timeoutDue, hty, hlast]

/-- Without a t_last none is. -/
theorem timeoutDue_none {lsb : Int} {c : CondCfg} {r : CondRun} (hlast : r.last = none) : timeoutDue lsb c r = none := by
  simp [timeoutDue, hlast]

/-- TIMEOUT_FIRE where the settings in force govern: condition A meets its instant, once it has come. -/
theorem trigTimeout_a {e : Int × Bool} (hdue : timeoutDue s.unitLsb (s.slotOf n).cfg.a (s.slotOf n).run.a = some e)
    (hbefore : ∀ f, timeoutDue s.unitLsb (s.slotOf n).cfg0.a (s.slotOf n).run0.a = some f → (s.slotOf n).since ≤ f.1) :
    s.trigTimeout n false = if e.1 < s.trigNow then s.giveCond n false false e.1 (timedOut e) else s := by
  simp only [State.trigTimeout, Bool.false_eq_true, if_false, hdue]
  cases hold : timeoutDue s.unitLsb (s.slotOf n).cfg0.a (s.slotOf n).run0.a with
  | none => rfl
  | some f => simp only [if_neg (not_lt.mpr (hbefore f hold))]; rfl

/-- With no t_last TIMEOUT_FIRE does nothing. -/
theorem trigTimeout_none (isB : Bool) (ha : (s.slotOf n).run.a.last = none) (hb : (s.slotOf n).run.b.last = none)
    (ha0 : (s.slotOf n).run0.a.last = none) (hb0 : (s.slotOf n).run0.b.last = none) : s.trigTimeout n isB = s := by
  have hnow : (if isB then (s.slotOf n).run.b else (s.slotOf n).run.a).last = none := by cases isB <;> assumption
  have hold : (if isB then (s.slotOf n).run0.b else (s.slotOf n).run0.a).last = none := by cases isB <;> assumption
  simp only [State.trigTimeout, timeoutDue_none hnow, timeoutDue_none hold]

end

section
variable {s : State} {n : Fin 8} {e : Int × Bool}

/-- A slot that has not fired fires on TIMEOUT. -/
theorem Runs.timeoutFires (hexec : s.trigTimeout n false = s.giveCond n false false e.1 (timedOut e))
    (h : FiresAlone (s.slotOf n) e.1) (hfired : (s.slotOf n).fired = none) :
    Runs (.timeoutFire n false) s (fireFields n)
      (fun t => { s with trig := t.trig, cap := t.cap,
                         pins := { s.pins with trigOut0 := t.pins.trigOut0, trigOut1 := t.pins.trigOut1 } })
      (fun t => (FireShown s n (eventA (s.slotOf n) e) t ∧ (t.slotOf n).fired = some e.1) ∧ (t.slotOf n).run.a.last = none ∧
        ∀ k : Nat, k ≠ n → t.slotOf k = s.slotOf k) := by
  have hf : timedOut e (s.slotOf n).cfg.a (s.slotOf n).run.a = (forgets (s.slotOf n).run.a, some e) := rfl
  obtain ⟨hshown, hslot⟩ := FireShown.giveCond_a n.isLt rfl h hf hfired
  have heq := giveCond_a_fires rfl h hf hfired
  have hparts : TrigOnly s (s.giveCond n false false e.1 (timedOut e)) := by
    rw [heq]
    exact (((((TrigOnly.refl s).setSlot _ _).setSlot _ _).fire _ _).setReg _ _).setReg _ _
  have hfields : KeepsFields (fireFields n) s (s.giveCond n false false e.1 (timedOut e)) := by
    rw [heq]
    exact (KeepsFields.fire _ (((KeepsFields.refl _ s).setSlot _ _).setSlot _ _)).showPending (by simp [fireFields])
      (by simp [fireFields])
  have hothers := ((SlotOnly.refl n s).giveCond false false e.1 (timedOut e)).slot
  generalize s.giveCond n false false e.1 (timedOut e) = u at *
  refine Runs.trigOnly (congrArg Machine.done hexec) ⟨⟨hshown.keeps (.settle n u), ?_⟩, ?_, fun k hk => ?_⟩ hfields hparts
  · rw [settle_slotOf, hslot, firedAt]
  · rw [settle_slotOf, hslot, firedAt, metA, forgets]
  · rw [settle_slotOf, hothers k hk]

/-- Holding an event and showing what is pending changes registers alone. -/
theorem RegsOnly.holdShown {s u : State} {n : Nat} (h : RegsOnly s u) : RegsOnly s ((u.hold n).showPending n) :=
  (((h.setFld _ _).setFld _ _).setFld _ _).setFld _ _

/-- A held event is counted. -/
theorem holdShown_counted (s : State) {n : Nat} (hn : n < 8) :
    ((s.hold n).showPending n).fld (TRGS_HELD_COUNT n) = min (s.fld (TRGS_HELD_COUNT n) + 1) 0xFFFFFFFF := by
  rw [State.showPending, State.hold, fld_setFld_addr, fld_setFld_addr, stick_eq, fld_setFld_addr, fld_addSat_self]
  · rfl
  all_goals simp only [TRGS_HELD_COUNT, TRGS_STAT_A_PENDING, TRGS_STAT_B_PENDING, Field.bit, TRG_STAT_HELD]; omega

/-- And marked. -/
theorem holdShown_marked (s : State) {n : Nat} (hn : n < 8) : ((s.hold n).showPending n).bitSet TRG_STAT_HELD n = true := by
  rw [State.showPending, bitSet_congr (fld_setFld_addr _ _ ?_), bitSet_congr (fld_setFld_addr _ _ ?_), State.hold, bitSet_stick]
  all_goals simp only [TRGS_STAT_A_PENDING, TRGS_STAT_B_PENDING, Field.bit, TRG_STAT_HELD]; omega

/-- A slot that has fired less than 10 ns before counts the event. -/
theorem Runs.timeoutHeld {t1 : Int} (hexec : s.trigTimeout n false = s.giveCond n false false e.1 (timedOut e))
    (h : FiresAlone (s.slotOf n) e.1) (hfired : (s.slotOf n).fired = some t1)
    (hnear : (e.1 - t1).natAbs < (10 * s.unitNs).toNat) :
    Runs (.timeoutFire n false) s (heldFields n)
      (fun t => { s with trig := t.trig, cap := t.cap,
                         pins := { s.pins with trigOut0 := t.pins.trigOut0, trigOut1 := t.pins.trigOut1 } })
      (fun t => t.fld (TRGS_HELD_COUNT n) = min (s.fld (TRGS_HELD_COUNT n) + 1) 0xFFFFFFFF ∧
        t.bitSet TRG_STAT_HELD n = true ∧ t.pins.trigOut0 = s.pins.trigOut0 ∧ ∀ v : Nat, t.unitOf v = s.unitOf v) := by
  have hf : timedOut e (s.slotOf n).cfg.a (s.slotOf n).run.a = (forgets (s.slotOf n).run.a, some e) := rfl
  have hheld : (s.setSlot n (metA (s.slotOf n) (forgets (s.slotOf n).run.a))).combined n false (eventA (s.slotOf n) e) =
      (s.setSlot n (metA (s.slotOf n) (forgets (s.slotOf n).run.a))).hold n :=
    combined_held (x := metA (s.slotOf n) (forgets (s.slotOf n).run.a)) (by rw [slotOf_setSlot, if_pos rfl]) h.holdMode hfired hnear
  rw [giveCond_a_event rfl h hf, hheld] at hexec
  generalize hv : s.setSlot n (metA (s.slotOf n) (forgets (s.slotOf n).run.a)) = v at hexec
  have hv' : TrigOnly s v ∧ v.regs = s.regs ∧ v.cap = s.cap ∧ v.pins = s.pins := by
    subst hv
    exact ⟨(TrigOnly.refl s).setSlot _ _, rfl, rfl, rfl⟩
  obtain ⟨hparts, hregs, hcap, hpins⟩ := hv'
  obtain ⟨r, hr⟩ := (RegsOnly.refl v).holdShown (n := n)
  have hquiet := quiet_zoomTrig (f := TRG_STAT_HELD.bit n) (by simp [Field.bit, TRG_STAT_HELD]) (by simp [Field.bit, TRG_STAT_HELD])
  refine Runs.trigOnly (congrArg Machine.done hexec) ⟨?_, ?_, ?_, fun k => ?_⟩ ?_
    ((((hparts.setReg _ _).setReg _ _).setReg _ _).setReg _ _)
  · rw [settle_fld _ _ (quiet_zoomTrig (by simp only [TRGS_HELD_COUNT]; omega) (by simp only [TRGS_HELD_COUNT]; omega)),
      holdShown_counted v n.isLt, State.fld, State.reg, hregs]
    rfl
  · rw [settle_bitSet _ _ _ hquiet, holdShown_marked v n.isLt]
  · rw [settle_pins_trigOut0, hr, ← hpins]
  · rw [State.unitOf, settle_cap, hr, hcap, State.unitOf]
  · exact ((((KeepsFields.refl _ s).of_regs hregs).setFld _ _ (by simp [heldFields])).setFld _ _ (by simp [heldFields])).showPending
      (by simp [heldFields]) (by simp [heldFields])

end

/-! ### TOD and FORCE (R282, R305) -/

/-- The generators stay as they were, whatever happens in a slot. -/
theorem keptBySlot_tod (s : State) (m : Nat) : KeptBySlot m (fun t => t.trig.tod = s.trig.tod) where
  setSlot _ _ h := h
  hold _ h := h
  showPending _ h := h
  fire u ev h := by
    have hreached : (fireReached u m ev).trig.tod = u.trig.tod := by
      obtain ⟨c, hc⟩ := reachUnits_eq m ev (List.range 8) u
      rw [fireReached, hc]
      refine (List.range 2).foldlRecOn _ (motive := fun t => (State.trig t).tod = u.trig.tod) rfl fun t ht o _ => ?_
      obtain ⟨_, _, _, _, _, hout⟩ := OutsOnly.fireOut t m o ev.time
      rw [hout]
      exact ht
    exact hreached.trans h

section
variable {s : State} {n : Nat} {g : Nat} {sec : Nat} {raw : Int}

/-- What a condition makes of a generator's instant. -/
def todMet (g : Nat) (t : Int) (c : CondCfg) (r : CondRun) : CondRun × Option (Int × Bool) :=
  (r, if c.ty = 8 ∧ c.src = g then some (t, false) else none)

/-- What a condition makes of a forced event. -/
def forceMet (t : Int) (c : CondCfg) (r : CondRun) : CondRun × Option (Int × Bool) := (r, if c.ty = 9 then some (t, false) else none)

/-- The generator after its instant. -/
def todNextGen (x : TodGen) : TodGen :=
  { x with waiting := if x.cfg.2.2 / 2 = 0 then none else x.waiting.map (fun w => w + x.cfg.2.2 / 2) }

/-- A generator whose instant has come waits for its next one, and every slot meets the instant. -/
theorem todFire_come (hw : (s.todOf g).waiting = some sec) (hset : s.epoch.isSet = true)
    (hraw : s.rawOfStamp sec (s.todOf g).cfg.2.1 = raw) (hcome : raw < s.rawNow + 400) :
    s.todFire g = (s.setTod g (todNextGen (s.todOf g))).giveSlots (raw * unitSample) (todMet g (raw * unitSample)) := by
  subst hraw
  simp only [State.todFire, hw]
  rw [if_pos ⟨hset, hcome⟩]
  rfl

/-- One whose instant has not come, or that waits for none, does nothing; so does any while no epoch is set. -/
theorem todFire_still (h : ∀ sec, (s.todOf g).waiting = some sec → s.epoch.isSet = true →
    s.rawNow + 400 ≤ s.rawOfStamp sec (s.todOf g).cfg.2.1) : s.todFire g = s := by
  unfold State.todFire
  cases hw : (s.todOf g).waiting with
  | none => rfl
  | some sec => exact if_neg fun hcome => absurd hcome.2 (not_lt.mpr (h sec hw hcome.1))

/-- The slots that meet what happened leave the generators. -/
theorem giveSlots_todOf (s : State) (t : Int) (f : CondCfg → CondRun → CondRun × Option (Int × Bool)) (g : Nat) :
    (s.giveSlots t f).todOf g = s.todOf g := by
  have htod : (s.giveSlots t f).trig.tod = s.trig.tod := by
    rw [State.giveSlots]
    exact foldl_giveSlot_keeps (P := fun u => u.trig.tod = s.trig.tod) (u := s) (fun m _ => keptBySlot_tod s m) t f rfl
  rw [State.todOf, htod, State.todOf]

/-- The slots that a mask names meet a forced event, and the mask is cleared. -/
theorem trigForce_eq (s : State) (mask : Nat) (idx : Int) :
    s.trigForce mask idx = (((List.range 8).filter (fun n => bitOf mask n)).foldl
      (fun u m => u.giveSlot m (idx * unitSample) (forceMet (idx * unitSample))) s).setFld TRG_FORCE_SLOT 0 := rfl

/-- Clearing the mask leaves what a fire shows. -/
theorem KeepsFire.clearForce (n : Nat) (s : State) : KeepsFire n s (s.setFld TRG_FORCE_SLOT 0) := by
  refine .setReg s _ (notMem_fireRegs (by decide) (by decide) fun b hb => ?_) (by simp [Field.bit, TRG_STAT_FIRED, TRG_FORCE_SLOT])
  have hhigh : ∀ c ∈ [0x71034, 0x71040, 0x71044, 0x71048], TRG_FORCE_SLOT.addr < c := by decide
  have := hhigh b hb
  omega

/-- An event at a generator's instant, or a forced one, carries no REF_LOST, and its condition remembers nothing new. -/
theorem todMet_event {c : CondCfg} {r : CondRun} {t : Int} (hty : c.ty = 8) (hsrc : c.src = g) :
    todMet g t c r = (r, some (t, false)) := by
  simp [todMet, hty, hsrc]

theorem forceMet_event {c : CondCfg} {r : CondRun} {t : Int} (hty : c.ty = 9) : forceMet t c r = (r, some (t, false)) := by
  simp [forceMet, hty]

/-- A slot with a TOD condition on the generator fires at its instant. -/
theorem FireShown.todFire (hn : n < 8) (hw : (s.todOf g).waiting = some sec) (hset : s.epoch.isSet = true)
    (hraw : s.rawOfStamp sec (s.todOf g).cfg.2.1 = raw) (hcome : raw < s.rawNow + 400)
    (h : FiresAlone (s.slotOf n) (raw * unitSample)) (hty : (s.slotOf n).cfg.a.ty = 8) (hsrc : (s.slotOf n).cfg.a.src = g)
    (hsince : (s.slotOf n).since ≤ raw * unitSample) (hfired : (s.slotOf n).fired = none) :
    FireShown s n (eventA (s.slotOf n) (raw * unitSample, false)) (s.todFire g).settle ∧
      ((s.todFire g).settle.slotOf n).fired = some (raw * unitSample) := by
  rw [todFire_come hw hset hraw hcome, settle_slotOf, State.giveSlots]
  obtain ⟨hshown, hlast⟩ := FireShown.foldl_giveSlot (s := s.setTod g (todNextGen (s.todOf g))) List.nodup_range
    (fun m hm => List.mem_range.mp hm) (List.mem_range.mpr hn) rfl h hsince (todMet_event hty hsrc) hfired
  exact ⟨(hshown.keeps (.settle n _)).after (.setTod n s g _), hlast⟩

/-- A slot with a FORCE condition that the mask names fires at the sample named. -/
theorem FireShown.trigForce {mask : Nat} {idx : Int} (hn : n < 8) (hname : bitOf mask n = true)
    (h : FiresAlone (s.slotOf n) (idx * unitSample)) (hty : (s.slotOf n).cfg.a.ty = 9)
    (hsince : (s.slotOf n).since ≤ idx * unitSample) (hfired : (s.slotOf n).fired = none) :
    FireShown s n (eventA (s.slotOf n) (idx * unitSample, false)) (s.trigForce mask idx).settle ∧
      ((s.trigForce mask idx).settle.slotOf n).fired = some (idx * unitSample) := by
  rw [trigForce_eq, settle_slotOf]
  obtain ⟨hshown, hlast⟩ := FireShown.foldl_giveSlot (s := s) (l := (List.range 8).filter (fun n => bitOf mask n))
    (List.nodup_range.filter _) (fun m hm => List.mem_range.mp (List.mem_filter.mp hm).1)
    (List.mem_filter.mpr ⟨List.mem_range.mpr hn, hname⟩) rfl h hsince (forceMet_event hty) hfired
  exact ⟨(hshown.keeps (.clearForce n _)).keeps (.settle n _), hlast⟩

end

/-- TRGn_LAST_INFO of an event of condition A. -/
theorem info_conditionA (frac ty : Nat) (ref : Bool) :
    frac <<< 16 + b2n ref <<< 8 + b2n false <<< 4 + ty = frac * 2 ^ 16 + b2n ref * 2 ^ 8 + ty := by
  simp [Nat.shiftLeft_eq, b2n]

/-- Settles O31: TIMEOUT, TOD and FORCE events reach condition A of a slot of mode A, whose fire stays shown whatever the other slots
make of the same instant. -/
theorem triggerEventsFireTheirSlots : Obligations.TriggerEventsFireTheirSlots := by
  intro s n g x c able event fires parts shown marks before
  have hfires : ∀ (t : State) (time : Int) (ref : Bool), FireShown s n (eventA x (time, ref)) t ∧ (t.slotOf n).fired = some time →
      fires t time ref := by
    rintro t time ref ⟨h, hfired⟩
    refine ⟨h.idx, h.info.trans (congrArg (BitVec.ofNat 32) (info_conditionA ..)), h.count, h.mark, hfired, h.units, ?_⟩
    intro o ho at0 now hen hslot hfix ends
    have hnow := h.outs o ho (by simp only [atOnce, Bool.and_eq_true, decide_eq_true_eq, Bool.not_eq_true']; exact ⟨⟨hen, hslot⟩, hfix⟩)
    exact ⟨congrArg Prod.fst hnow, congrArg Prod.snd hnow⟩
  have hable : ∀ time, able time → FiresAlone x time := fun time ⟨hen, hon, hmode, hhold⟩ => ⟨hen, hon, hmode, hhold⟩
  refine ⟨fun t0 ref hty hlast hbefore => ?_, fun ha hb ha0 hb0 isB =>
    Runs.still (congrArg Machine.done (trigTimeout_none isB ha hb ha0 hb0)), fun sec hw hset => ⟨fun hearly => ?_,
    fun hcome => ?_⟩, fun hnone => ?_, fun mask idx => ?_⟩
  · intro at'
    have hexec := trigTimeout_a (timeoutDue_of_last hty hlast) hbefore
    refine ⟨fun hearly => Runs.still (congrArg Machine.done (hexec.trans (if_neg (not_lt.mpr hearly)))), fun hcome hon => ?_⟩
    rw [if_pos hcome] at hexec
    refine ⟨fun hfired => ?_, fun t1 hfired hnear => Runs.timeoutHeld hexec (hable _ hon) hfired hnear⟩
    obtain ⟨t, hrun, ⟨hshown, hrest⟩, hframe⟩ := Runs.timeoutFires hexec (hable _ hon) hfired
    exact ⟨t, hrun, ⟨hfires t at' ref hshown, hrest⟩, hframe⟩
  · refine Runs.still (congrArg Machine.done (todFire_still fun sec' hw' _ => ?_))
    obtain rfl : sec = sec' := Option.some.inj (hw.symm.trans hw')
    exact hearly
  · refine ⟨_, rfl, ?_, fun hon hty hsrc hsince hfired => hfires _ _ _
      (FireShown.todFire n.isLt hw hset rfl hcome (hable _ hon) hty hsrc hsince hfired)⟩
    rw [todFire_come hw hset rfl hcome, State.todOf, settle_trig, ← State.todOf, giveSlots_todOf, todOf_setTod, if_pos rfl, todNextGen, hw]
    rfl
  · refine Runs.still (congrArg Machine.done (todFire_still fun sec hw hset => ?_))
    rcases hnone with hnone | hunset
    · exact absurd (hnone.symm.trans hw) (by simp)
    · exact absurd (hunset.symm.trans hset) (by simp)
  · refine ⟨_, rfl, ?_, fun hmask => ?_, fun hname hon hty hsince hfired => hfires _ _ _
      (FireShown.trigForce n.isLt hname (hable _ hon) hty hsince hfired)⟩
    · rw [settle_fld _ _ (by decide), trigForce_eq, fld_setFld_eq _ _ _ (by decide), Nat.zero_mod]
    · have hnobody : (List.range 8).filter (fun n => bitOf mask.toNat n) = [] := by subst hmask; decide
      rw [settle_trig, settle_cap, trigForce_eq, hnobody]
      exact ⟨rfl, rfl⟩

end Sys2Proof
end

section
/-! PROOFS. Capture memory and the registers of the capture units: what a list of writes leaves in memory, the blocks of a row, and what
a unit's work can change (R290 to R292, R295, R301). -/

namespace Sys2Proof

open Sys2Proof.Machine

/-! ### Lists of writes -/

/-- Bytes written to capture memory, each from its device address on, one write after another. -/
def writeAll (s : State) (ws : List (Nat × List Byte)) : State := ws.foldl (fun t w => t.sdWrite w.1 w.2) s

/-- Two writes share no byte. -/
def WritesApart (v w : Nat × List Byte) : Prop := v.1 + v.2.length ≤ w.1 ∨ w.1 + w.2.length ≤ v.1

/-- Only memory changes. -/
theorem writeAll_eq (s : State) (ws : List (Nat × List Byte)) : ∃ m, writeAll s ws = { s with sdram := m } := by
  refine ws.foldlRecOn _ (motive := fun t : State => ∃ m, t = { s with sdram := m }) ⟨s.sdram, rfl⟩ fun t ⟨m, ht⟩ w _ => ?_
  obtain ⟨m', h⟩ := sdWrite_eq t w.1 w.2
  exact ⟨m', by rw [h, ht]⟩

/-- A byte outside every write. -/
theorem sdByte_writeAll_out (s : State) {ws : List (Nat × List Byte)} {o : Nat}
    (h : ∀ w ∈ ws, o + sdramBase < w.1 ∨ w.1 + w.2.length ≤ o + sdramBase) : (writeAll s ws).sdByte o = s.sdByte o :=
  ws.foldlRecOn _ (motive := fun t => State.sdByte t o = s.sdByte o) rfl fun t ht w hw =>
    (sdByte_sdWrite_out t w.1 w.2 o (h w hw)).trans ht

/-- A byte of a write that shares none with the others. -/
theorem sdByte_writeAll_in (s : State) {ws : List (Nat × List Byte)} (hapart : ws.Pairwise WritesApart) {w : Nat × List Byte}
    (hw : w ∈ ws) {i : Nat} (hbase : sdramBase ≤ w.1) (hi : i < w.2.length) (hc : w.1 + i < sdramBase + s.capacity) :
    (writeAll s ws).sdByte (w.1 + i - sdramBase) = w.2.getD i 0 := by
  induction ws generalizing s with
  | nil => cases hw
  | cons v ws ih =>
    obtain ⟨hv, hws⟩ := List.pairwise_cons.mp hapart
    rw [writeAll, List.foldl_cons, ← writeAll]
    rcases List.mem_cons.mp hw with rfl | hw
    · rw [sdByte_writeAll_out _ fun x hx => ?_, sdByte_sdWrite_in _ _ _ _ hbase hi hc]
      rcases hv x hx with h | h <;> omega
    · exact ih _ hws hw (by rwa [sdWrite_capacity])

/-- What is read of such a write, from its byte `k` on. -/
theorem sdRead_writeAll (s : State) {ws : List (Nat × List Byte)} (hapart : ws.Pairwise WritesApart) {w : Nat × List Byte}
    (hw : w ∈ ws) {k len : Nat} (hbase : sdramBase ≤ w.1) (hlen : k + len ≤ w.2.length)
    (hc : w.1 + w.2.length ≤ sdramBase + s.capacity) : (writeAll s ws).sdRead (w.1 + k) len = (w.2.drop k).take len := by
  refine List.ext_getElem (by simp [State.sdRead]; omega) fun i h₁ h₂ => ?_
  have hi : i < len := by simpa [State.sdRead] using h₁
  have hbyte := sdByte_writeAll_in s hapart hw (i := k + i) hbase (by omega) (by omega)
  rw [List.getD_eq_getElem _ _ (by omega)] at hbyte
  simpa [State.sdRead, Nat.add_assoc] using hbyte

/-- Reading depends on the contents of memory and the installed capacity alone. -/
theorem sdRead_congr {s t : State} (hcapacity : t.capacity = s.capacity) (hsdram : t.sdram = s.sdram) (a n : Nat) :
    t.sdRead a n = s.sdRead a n :=
  List.map_congr_left fun _ _ => sdByte_congr hcapacity hsdram _

/-! ### Blocks of a row (R290, R292) -/

/-- Numbers of `k` bytes each, one after another. -/
theorem length_flatMap_leBytes (k : Nat) (es : List Nat) : (es.flatMap (leBytes k)).length = es.length * k := by
  induction es with
  | nil => simp
  | cons e es ih => rw [List.flatMap_cons, List.length_append, length_leBytes, ih, List.length_cons]; ring

/-- A block of no more samples than it can hold is 4,096 bytes long. -/
theorem blockBytes_length (c : CapSource) {xs : List CapSample} (h : xs.length ≤ c.spb) : (c.blockBytes xs).length = 4096 := by
  have hpad : ∀ bytes : List Byte, bytes.length ≤ 4096 → (bytes ++ zeros (4096 - bytes.length)).length = 4096 := fun bytes hb => by
    rw [List.length_append, zeros, List.length_replicate]
    omega
  refine hpad _ ?_
  unfold CapSource.spb at h
  split at h
  · by_cases hp : c.pack = true
    · rw [if_pos hp] at h ⊢
      have hlen : ∀ l : List Nat, (l.flatMap fun i => leBytes 3 (packBits 12 (((xs.map (fun x => x.elem)).drop (2 * i)).take 2))).length
          = l.length * 3 := fun l => by
        induction l with
        | nil => simp
        | cons i l ih => rw [List.flatMap_cons, List.length_append, length_leBytes, ih, List.length_cons]; ring
      rw [hlen, List.length_range, List.length_map]
      omega
    · rw [if_neg hp] at h ⊢
      rw [length_flatMap_leBytes, List.length_map]
      omega
  · rw [length_flatMap_leBytes, List.length_map]
    omega
  · by_cases hw : c.wide8 = true
    · rw [if_pos hw] at h
      simp only [hw, if_true, length_flatMap_leBytes, List.length_map]
      omega
    · rw [if_neg hw] at h
      simp only [hw, if_false, length_flatMap_leBytes, List.length_map, Bool.false_eq_true]
      omega

/-- No more samples are present than were looked for. -/
theorem length_presentRun (l : List (Option CapSample)) : (presentRun l).length ≤ l.length := by
  induction l with
  | nil => simp [presentRun]
  | cons x l ih =>
    cases x with
    | none => simp [presentRun]
    | some x => simpa [presentRun] using ih

/-- A unit has as many streams as its source says (R289). -/
theorem length_capStreams (s : State) (c : CapSource) (first : Int) (n : Nat) : (s.capStreams c first n).length = c.count := by
  unfold State.capStreams CapSource.count
  split <;> simp

/-- Each has a sample, or none, for every index of a range. -/
theorem length_of_mem_capStreams {s : State} {c : CapSource} {first : Int} {n : Nat} {l : List (Option CapSample)}
    (h : l ∈ s.capStreams c first n) : l.length = n := by
  unfold State.capStreams at h
  split at h
  · obtain ⟨i, -, rfl⟩ := List.mem_map.mp h
    simp [State.rawSamples]
  · obtain ⟨i, -, rfl⟩ := List.mem_map.mp h
    simp [State.coarseSamples]
  · rw [List.mem_singleton.mp h]
    simp [State.zoomSamples]

/-- A map entry is 16 bytes long. -/
theorem length_mapEntry (first : Int) (lost count : Nat) (trig tick ovr degr trunc : Bool) (stream armseq : Nat) :
    (mapEntry first lost count trig tick ovr degr trunc stream armseq).length = 16 := by
  simp [mapEntry, length_leBytes]

/-- It begins with the row's first index. -/
theorem mapEntry_first (first : Int) (lost count : Nat) (trig tick ovr degr trunc : Bool) (stream armseq : Nat) :
    leNat (((mapEntry first lost count trig tick ovr degr trunc stream armseq).drop 0).take 8) = ofSigned 64 first := by
  simp only [mapEntry, List.drop_zero, List.append_assoc]
  rw [List.take_left' (length_leBytes 8 _), leNat_leBytes]
  exact Nat.mod_eq_of_lt (ofSigned_lt 64 first)

/-- The samples lost before the row follow. -/
theorem mapEntry_lost (first : Int) (lost count : Nat) (trig tick ovr degr trunc : Bool) (stream armseq : Nat) :
    leNat (((mapEntry first lost count trig tick ovr degr trunc stream armseq).drop 8).take 4) = min lost (2 ^ 32 - 1) := by
  simp only [mapEntry, List.append_assoc]
  rw [List.drop_left' (length_leBytes 8 _), List.take_left' (length_leBytes 4 _), leNat_leBytes]
  exact Nat.mod_eq_of_lt (by omega)

/-! ### What a unit's work can change -/

/-- A state is another but for its registers, the capture units, the raw taps and capture memory. -/
def CapOnly (s t : State) : Prop := ∃ r c m d, t = { s with regs := r, cap := c, conv := { s.conv with tap := m }, sdram := d }

section
variable {s t u : State} {w : List Field}

theorem CapOnly.refl (s : State) : CapOnly s s := ⟨_, _, _, _, rfl⟩

theorem CapOnly.setFld (h : CapOnly s u) (f : Field) (x : Nat) : CapOnly s (u.setFld f x) := by
  obtain ⟨_, _, _, _, rfl⟩ := h
  exact ⟨_, _, _, _, rfl⟩

theorem CapOnly.setUnit (h : CapOnly s u) (v : Nat) (x : CapUnit) : CapOnly s (u.setUnit v x) := by
  obtain ⟨_, _, _, _, rfl⟩ := h
  exact ⟨_, _, _, _, rfl⟩

theorem CapOnly.setTap (h : CapOnly s u) (i : Nat) (q : TapQueue) : CapOnly s (u.setTap i q) := by
  obtain ⟨_, _, _, _, rfl⟩ := h
  exact ⟨_, _, _, _, rfl⟩

theorem CapOnly.setMem (h : CapOnly s u) (m : List (Nat × Byte)) : CapOnly s { u with sdram := m } := by
  obtain ⟨_, _, _, _, rfl⟩ := h
  exact ⟨_, _, _, _, rfl⟩

/-- A command whose outcome, before settling, is such a state; `parts` names those of the parts that it changes. -/
theorem Runs.capOnly {c : Instr} {parts : State → State} {result : State → Prop} (hc : exec c s = Machine.done u)
    (hr : result u.settle) (hw : KeepsFields w s u) (h : CapOnly s u)
    (hparts : parts u.settle = { s with cap := u.cap, conv := { s.conv with tap := u.conv.tap }, sdram := u.sdram }) :
    Runs c s w parts result := by
  obtain ⟨r, p, m, d, rfl⟩ := h
  exact Runs.done hc hr hw (by rw [hparts]) (List.append_nil _).symm

/-- What a unit remembers is no register. -/
theorem KeepsFields.setUnit (h : KeepsFields w s u) (v : Nat) (x : CapUnit) : KeepsFields w s (u.setUnit v x) := h.of_regs rfl

/-! ### Registers of the capture units -/

/-- No signal is derived in them. -/
theorem quiet_capture {f : Field} (h : 0x80000 ≤ f.addr) (h' : f.addr < 0xC0000) : quiet f = true := by
  have hne : ∀ a : Nat, a < 0x80000 ∨ 0xC0000 ≤ a → f.addr ≠ a := fun a ha => by omega
  simp [quiet, hne HOST_INT_REQ_REQ.addr (by decide), hne HOST_INT_PEND_PEND.addr (by decide), hne SUP_STAT_FAULT.addr (by decide),
    hne HOST_STAT_FAULT.addr (by decide), hne VREG_STAT_ALERT.addr (by decide)]

/-- A whole register as a field. -/
theorem fld_wholeReg (s : State) (a : Nat) : s.fld (wholeReg a) = (s.reg a).toNat := by
  rw [State.fld, wordBits_eq, wholeReg, Nat.pow_zero, Nat.div_one, Nat.mod_eq_of_lt (s.reg a).isLt]

/-- What writes only below the memory controller's registers leaves the installed capacity. -/
theorem KeepsFields.capacity (h : KeepsFields w s t) (hw : ∀ g ∈ w, g.addr < 0x90000) : t.capacity = s.capacity := by
  have hreg : ∀ a, 0x90000 ≤ a → a < 0xC0000 → (t.reg a).toNat = (s.reg a).toNat := fun a hlow hhigh => by
    rw [← fld_wholeReg, ← fld_wholeReg]
    exact h (wholeReg a) (quiet_capture (by simpa [wholeReg] using by omega) hhigh) fun g hg => .inl (by
      have := hw g hg
      simp only [wholeReg]
      omega)
  rw [State.capacity, State.pair, hreg _ (by decide) (by decide), hreg _ (by decide) (by decide)]
  rfl

end

end Sys2Proof
end

section
/-! PROOFS. A trigger decision at its capture unit, for O33: counted as missed, or accepted (R296 to R298). -/

namespace Sys2Proof

open Sys2Proof.Machine

/-! ### A unit's state, as CAPu_STAT and CAP_RUN show it (R295) -/

/-- The fields that show it. -/
def stateFields (v : Nat) : List Field := [CAPU_STAT_STATE v, CAP_RUN_ARMED.bit v, CAP_RUN_TRIGGERED.bit v]

/-- They show a unit in state `z`. -/
def StateShown (t : State) (v z : Nat) : Prop :=
  t.fld (CAPU_STAT_STATE v) = z ∧ t.bitSet CAP_RUN_ARMED v = decide (z ≠ capIdle) ∧
    t.bitSet CAP_RUN_TRIGGERED v = decide (z = capTriggered)

section
variable {s t u : State} {v z : Nat} {w : List Field}

/-- A unit takes a state. -/
theorem StateShown.setCapState (s : State) (hv : v < 8) (hz : z < 4) : StateShown (s.setCapState v z) v z := by
  refine ⟨?_, ?_, bitSet_putBit _ _ _ _ (by simp only [CAP_RUN_TRIGGERED]; omega)⟩
  · rw [State.setCapState, putBit_eq, putBit_eq, fld_setFld_addr, fld_setFld_addr, fld_setFld_eq _ _ _ (by simp [CAPU_STAT_STATE])]
    · exact Nat.mod_eq_of_lt hz
    all_goals simp only [CAPU_STAT_STATE, Field.bit, CAP_RUN_ARMED, CAP_RUN_TRIGGERED]; omega
  · rw [State.setCapState, putBit_eq _ CAP_RUN_TRIGGERED, bitSet_congr (fld_setFld_ne _ _ (.inr ?_)), bitSet_putBit]
    all_goals simp only [CAP_RUN_ARMED, Field.bit, CAP_RUN_TRIGGERED]; omega

/-- Other fields of the capture units leave it shown. -/
theorem StateShown.setFld (h : StateShown t v z) {f : Field} (x : Nat) (ha : f.addr ≠ CAP_RUN_ARMED.addr)
    (hs : f.addr ≠ (CAPU_STAT_STATE v).addr ∨ f.lo + f.width ≤ 30) : StateShown (t.setFld f x) v z := by
  obtain ⟨hstate, harmed, htrig⟩ := h
  refine ⟨?_, ?_, ?_⟩
  · rw [fld_setFld_ne t x ?_, hstate]
    rcases hs with h | h
    · exact .inl h.symm
    · exact .inr (.inl h)
  · rw [bitSet_congr (fld_setFld_addr _ _ (by exact ha.symm)), harmed]
  · rw [bitSet_congr (fld_setFld_addr _ _ (by exact ha.symm)), htrig]

/-- Only registers show it. -/
theorem StateShown.of_regs (h : StateShown t v z) (hr : u.regs = t.regs) : StateShown u v z := by
  have hfld : ∀ f, u.fld f = t.fld f := fun f => fld_congr (by rw [State.reg, hr, State.reg])
  obtain ⟨hstate, harmed, htrig⟩ := h
  exact ⟨(hfld _).trans hstate, (bitSet_congr (hfld _)).trans harmed, (bitSet_congr (hfld _)).trans htrig⟩

/-- Settling leaves it shown. -/
theorem StateShown.settle (h : StateShown t v z) (hv : v < 8) : StateShown t.settle v z := by
  obtain ⟨hstate, harmed, htrig⟩ := h
  refine ⟨?_, ?_, ?_⟩
  · rw [settle_fld _ _ (quiet_capture (by simp only [CAPU_STAT_STATE]; omega) (by simp only [CAPU_STAT_STATE]; omega)), hstate]
  · rw [settle_bitSet _ _ _ (quiet_capture (by simp [Field.bit, CAP_RUN_ARMED]) (by simp [Field.bit, CAP_RUN_ARMED])), harmed]
  · rw [settle_bitSet _ _ _ (quiet_capture (by simp [Field.bit, CAP_RUN_TRIGGERED]) (by simp [Field.bit, CAP_RUN_TRIGGERED])), htrig]

/-- A state is given to a unit. -/
theorem KeepsFields.setCapState (h : KeepsFields w s u) (hw : ∀ f ∈ stateFields v, f ∈ w) (z : Nat) :
    KeepsFields w s (u.setCapState v z) :=
  ((h.setFld _ _ (hw _ (by simp [stateFields]))).setFld _ _ (hw _ (by simp [stateFields]))).setFld _ _
    (hw _ (by simp [stateFields]))

theorem CapOnly.setCapState (h : CapOnly s u) (v z : Nat) : CapOnly s (u.setCapState v z) :=
  ((h.setFld _ _).setFld _ _).setFld _ _

/-- A unit's segment lies where it did. -/
theorem setCapState_segBase (s : State) (hv : v < 8) (z : Nat) : (s.setCapState v z).segBase v = s.segBase v := by
  have hlow : ∀ b, 0x81000 ≤ b → b + v * 0x100 ≠ 0x80008 := fun b hb => by omega
  have hseg : (s.setCapState v z).fld (CAPU_STAT_SEG v) = s.fld (CAPU_STAT_SEG v) := by
    rw [State.setCapState, putBit_eq, putBit_eq, fld_setFld_addr _ _ (hlow _ (by decide)), fld_setFld_addr _ _ (hlow _ (by decide)),
      fld_setFld_ne _ _ (.inr (.inr (by simp [CAPU_STAT_SEG, CAPU_STAT_STATE])))]
  have hlen : (s.setCapState v z).fld (CAPU_LEN_ACT_LEN v) = s.fld (CAPU_LEN_ACT_LEN v) := by
    rw [State.setCapState, putBit_eq, putBit_eq, fld_setFld_addr _ _ (hlow _ (by decide)), fld_setFld_addr _ _ (hlow _ (by decide)),
      fld_setFld_addr _ _ (by simp [CAPU_LEN_ACT_LEN, CAPU_STAT_STATE])]
  have hbase : (s.setCapState v z).pair (CAPU_BASE v) = s.pair (CAPU_BASE v) := by
    rw [State.setCapState, putBit_eq, putBit_eq, pair_setFld_ne, pair_setFld_ne, pair_setFld_ne]
    all_goals simp only [CAPU_BASE, CAPU_STAT_STATE, Field.bit, CAP_RUN_ARMED, CAP_RUN_TRIGGERED]; omega
  rw [State.segBase, hbase, hseg, State.capLen, hlen]
  rfl

end

/-! ### Decisions (R297, R298) -/

section
variable {s : State} {v : Nat} {d : Decision} {rest : List Decision}

/-- The position of a decision's instant in its unit's source, in 1/65,536 sample (R296). -/
def decisionPos (d : Decision) : Int := 65536 * (trigIndex d.ev.time).1 + ((trigIndex d.ev.time).2 : Int)

/-- A decision is too old for a unit (R297). -/
def TooOld (s : State) (v : Nat) (d : Decision) : Prop :=
  s.capTrig (s.unitOf v).src (decisionPos d) < (s.unitOf v).start ∨
    s.capTrig (s.unitOf v).src (decisionPos d) < (s.unitOf v).row - (s.capC v : Int)

/-- The first index of the row that holds the last post-trigger sample. -/
def stopRow (s : State) (v : Nat) (d : Decision) : Int :=
  (s.unitOf v).start + (s.capTrig (s.unitOf v).src (decisionPos d) + (s.capPost v : Int) - 1 - (s.unitOf v).start) /
    ((s.unitOf v).src.spb : Int) * ((s.unitOf v).src.spb : Int)

/-- The unit that has accepted a decision. -/
def acceptedUnit (s : State) (v : Nat) (d : Decision) (rest : List Decision) (ns : Nat) : CapUnit :=
  { s.unitOf v with
    queue := rest, trig := some (d, s.capTrig (s.unitOf v).src (decisionPos d), ns),
    stop := max (stopRow s v d) (s.unitOf v).row, short := decide (stopRow s v d < (s.unitOf v).row) }

/-- The unit without its oldest decision. -/
def decisionTaken (s : State) (v : Nat) (rest : List Decision) : State := s.setUnit v { s.unitOf v with queue := rest }

/-- A decision that finds its unit not armed is missed. -/
theorem trigArrive_busy (ns : Nat) (h : (s.unitOf v).queue = d :: rest) (hst : s.fld (CAPU_STAT_STATE v) ≠ capArmed) :
    s.trigArrive v ns = (decisionTaken s v rest).missTrigger v false := by
  simp only [State.trigArrive, h]
  exact if_pos hst

/-- So is one that is too old. -/
theorem trigArrive_stale (ns : Nat) (h : (s.unitOf v).queue = d :: rest) (hst : s.fld (CAPU_STAT_STATE v) = capArmed)
    (hold : TooOld s v d) : s.trigArrive v ns = (decisionTaken s v rest).missTrigger v true := by
  have hold' : (decisionTaken s v rest).capTrig (s.unitOf v).src (decisionPos d) < (s.unitOf v).start ∨
      (decisionTaken s v rest).capTrig (s.unitOf v).src (decisionPos d) < (s.unitOf v).row - ((decisionTaken s v rest).capC v : Int) := by
    rw [show (decisionTaken s v rest).capC v = s.capC v by simp [State.capC, decisionTaken, State.capLen]]
    exact hold
  simp only [State.trigArrive, h]
  exact (if_neg (not_not.mpr hst)).trans (if_pos hold')

/-- Another is accepted. -/
theorem trigArrive_accepted (ns : Nat) (h : (s.unitOf v).queue = d :: rest) (hst : s.fld (CAPU_STAT_STATE v) = capArmed)
    (hold : ¬TooOld s v d) : s.trigArrive v ns =
      (((decisionTaken s v rest).setUnit v (acceptedUnit s v d rest ns)).setCapState v capTriggered).markTrig v := by
  have hC : (decisionTaken s v rest).capC v = s.capC v := by simp [State.capC, decisionTaken, State.capLen]
  have hold' : ¬((decisionTaken s v rest).capTrig (s.unitOf v).src (decisionPos d) < (s.unitOf v).start ∨
      (decisionTaken s v rest).capTrig (s.unitOf v).src (decisionPos d) < (s.unitOf v).row - ((decisionTaken s v rest).capC v : Int)) := by
    rw [hC]
    exact hold
  have hstop : (if decide (stopRow s v d < (s.unitOf v).row) = true then (s.unitOf v).row else stopRow s v d) =
      max (stopRow s v d) (s.unitOf v).row := by
    by_cases hlt : stopRow s v d < (s.unitOf v).row
    · rw [if_pos (by simpa using hlt), max_eq_right hlt.le]
    · rw [if_neg (by simpa using hlt), max_eq_left (not_lt.mp hlt)]
  simp only [State.trigArrive, h, acceptedUnit, ← hstop]
  exact (if_neg (not_not.mpr hst)).trans (if_neg hold')

/-- Only memory changes, and of its bytes those of `P` stay. -/
structure WritesOnly (P : Nat → Prop) (s t : State) : Prop where
  mem : ∃ m, t = { s with sdram := m }
  kept : ∀ o, P o → t.sdByte o = s.sdByte o

/-- One byte is written. -/
theorem WritesOnly.sdWrite {P : Nat → Prop} {t : State} (h : WritesOnly P s t) {a : Nat} (x : Nat)
    (ha : ∀ o, P o → o ≠ a - sdramBase) : WritesOnly P s (t.sdWrite a (leBytes 1 x)) := by
  obtain ⟨⟨m, rfl⟩, hkept⟩ := h
  obtain ⟨m', hm'⟩ := sdWrite_eq { s with sdram := m } a (leBytes 1 x)
  refine ⟨⟨m', hm'⟩, fun o ho => (sdByte_sdWrite_out _ _ _ _ ?_).trans (hkept o ho)⟩
  have := ha o ho
  rw [length_leBytes]
  omega

/-- The bytes apart from the map entries of a unit's trigger sample. -/
def NotTrigEntry (s : State) (v : Nat) (o : Nat) : Prop :=
  ∀ r ∈ (s.unitOf v).rows, (s.unitOf v).trigIn r.first r.count = true →
    ∀ i < (s.unitOf v).src.count, o ≠ s.mapAddr v (r.slot + i) + 0xD - sdramBase

/-- The trigger sample's map entry is marked, and nothing else changes. -/
theorem WritesOnly.markTrig (s : State) (v : Nat) : WritesOnly (NotTrigEntry s v) s (s.markTrig v) := by
  unfold State.markTrig
  simp only
  split
  · next r hr =>
    refine (List.range (s.unitOf v).src.count).foldlRecOn _ (motive := WritesOnly (NotTrigEntry s v) s) ⟨⟨s.sdram, rfl⟩, fun _ _ => rfl⟩
      fun t ht i hi => ht.sdWrite _ fun o ho => ?_
    obtain ⟨m, rfl⟩ := ht.mem
    exact ho r (List.mem_of_find?_eq_some hr) (by simpa using List.find?_some hr) i (List.mem_range.mp hi)
  · exact ⟨⟨s.sdram, rfl⟩, fun _ _ => rfl⟩

end

section
variable {s : State} {v : Fin 8} {d : Decision} {rest : List Decision} {ns : Nat}

/-- A decision that is not accepted is counted, and its unit changes in nothing else. -/
theorem Runs.missed {f : Field} (stale : Bool) (hf : f = if stale then CAPU_MISSED_STALE v else CAPU_MISSED_BUSY v)
    (hexec : s.trigArrive v ns = (decisionTaken s v rest).missTrigger v stale) :
    Runs (.triggerArrival v ns) s [f, CAP_STAT_MISSED.bit v] (fun t => { s with cap := t.cap })
      (fun t => t.fld f = min (s.fld f + 1) 0xFFFF ∧ t.bitSet CAP_STAT_MISSED v = true ∧
        (∀ k : Nat, k ≠ v → t.unitOf k = s.unitOf k) ∧ t.unitOf v = { s.unitOf v with queue := rest }) := by
  have hshape : f.addr = 0x81040 + v * 0x100 ∧ f.width = 16 ∧ f.lo + f.width ≤ 32 := by
    subst hf
    cases stale <;> simp [CAPU_MISSED_STALE, CAPU_MISSED_BUSY]
  obtain ⟨haddr, hwidth, hlo⟩ := hshape
  have hmiss : (decisionTaken s v rest).missTrigger v stale = ((decisionTaken s v rest).addSat f 1).stick CAP_STAT_MISSED v := by
    rw [State.missTrigger, hf]
  have hunit : ∀ k, (((decisionTaken s v rest).addSat f 1).stick CAP_STAT_MISSED v).settle.unitOf k =
      if k = v then { s.unitOf v with queue := rest } else s.unitOf k := fun k => by
    rw [← unitOf_setUnit, State.unitOf, settle_cap, State.unitOf]
    rfl
  refine Runs.capOnly (congrArg Machine.done (hexec.trans hmiss)) ⟨?_, ?_, fun k hk => ?_, ?_⟩
    ((((KeepsFields.refl _ s).setUnit _ _).setFld f _ (by simp)).setFld _ _ (by simp))
    ((((CapOnly.refl s).setUnit _ _).setFld f _).setFld _ _) ?_
  · rw [settle_fld _ _ (quiet_capture (by omega) (by omega)), stick_eq, fld_setFld_addr _ _ (by
      rw [haddr]
      simp only [Field.bit, CAP_STAT_MISSED]
      omega), fld_addSat_self _ _ _ hlo, hwidth]
    rfl
  · rw [settle_bitSet _ _ _ (quiet_capture (by simp [Field.bit, CAP_STAT_MISSED]) (by simp [Field.bit, CAP_STAT_MISSED])),
      bitSet_stick _ _ _ (by simp only [CAP_STAT_MISSED]; omega)]
  · rw [hunit, if_neg hk]
  · rw [hunit, if_pos rfl]
  · rw [settle_cap]
    rfl

/-- An accepted decision triggers its unit, and of memory at most the map entry of the trigger sample changes. -/
theorem Runs.accepted (hexec : s.trigArrive v ns =
      (((decisionTaken s v rest).setUnit v (acceptedUnit s v d rest ns)).setCapState v capTriggered).markTrig v) :
    Runs (.triggerArrival v ns) s (stateFields v) (fun t => { s with cap := t.cap, sdram := t.sdram })
      (fun t => StateShown t v capTriggered ∧ (∀ k : Nat, k ≠ v → t.unitOf k = s.unitOf k) ∧
        t.unitOf v = acceptedUnit s v d rest ns ∧
        ∀ o : Nat, (∀ r ∈ (s.unitOf v).rows, r.first ≤ s.capTrig (s.unitOf v).src (decisionPos d) →
            s.capTrig (s.unitOf v).src (decisionPos d) < r.first + r.count → ∀ i < (s.unitOf v).src.count,
              o ≠ s.mapAddr v (r.slot + i) + 0xD - sdramBase) → t.sdByte o = s.sdByte o) := by
  generalize hu : ((decisionTaken s v rest).setUnit v (acceptedUnit s v d rest ns)).setCapState v capTriggered = u at hexec
  have hunit : ∀ k, u.unitOf k = if k = v then acceptedUnit s v d rest ns else s.unitOf k := fun k => by
    subst hu
    exact (unitOf_setUnit _ _ _ k).trans (by by_cases hk : k = v <;> simp [hk, decisionTaken])
  have hstate : StateShown u v capTriggered := by
    subst hu
    exact .setCapState _ v.isLt (by decide)
  have hfields : KeepsFields (stateFields v) s u := by
    subst hu
    exact (((KeepsFields.refl _ s).setUnit _ _).setUnit _ _).setCapState (fun _ h => h) _
  have hcap : CapOnly s u := by
    subst hu
    exact (((CapOnly.refl s).setUnit _ _).setUnit _ _).setCapState _ _
  have hseg : u.segBase v = s.segBase v := by
    subst hu
    rw [setCapState_segBase _ v.isLt]
    rfl
  have hother : u.conv = s.conv ∧ u.sdram = s.sdram := by
    subst hu
    exact ⟨rfl, rfl⟩
  clear hu
  obtain ⟨⟨m, hmark⟩, hmem⟩ := WritesOnly.markTrig u v
  rw [hmark] at hexec hmem
  have hbelow : ∀ g ∈ stateFields v, g.addr < 0x90000 := fun g hg => by
    simp only [stateFields, List.mem_cons, List.not_mem_nil, or_false] at hg
    rcases hg with rfl | rfl | rfl
    all_goals simp only [CAPU_STAT_STATE, Field.bit, CAP_RUN_ARMED, CAP_RUN_TRIGGERED]; omega
  have hfields' : KeepsFields (stateFields v) s { u with sdram := m } := hfields.of_regs rfl
  have hstate' : StateShown { u with sdram := m } v capTriggered := hstate.of_regs rfl
  refine Runs.capOnly (congrArg Machine.done hexec) ⟨hstate'.settle v.isLt, fun k hk => ?_, ?_, fun o ho => ?_⟩ hfields'
    (hcap.setMem m) ?_
  · rw [State.unitOf, settle_cap]
    exact (hunit k).trans (if_neg hk)
  · rw [State.unitOf, settle_cap]
    exact (hunit v).trans (if_pos rfl)
  · have hbyte := hmem o fun r hr htrig i hi => by
      rw [hunit, if_pos rfl] at hr htrig hi
      obtain ⟨hlo, hhi⟩ : r.first ≤ s.capTrig (s.unitOf v).src (decisionPos d) ∧
          s.capTrig (s.unitOf v).src (decisionPos d) < r.first + r.count := by
        simpa [CapUnit.trigIn, acceptedUnit] using htrig
      rw [State.mapAddr, hseg]
      exact ho r hr hlo hhi i hi
    rw [sdByte_congr (s := { u with sdram := m }) ?_ (settle_sdram _), hbyte]
    · exact sdByte_congr (hfields.capacity hbelow) hother.2 o
    · exact hfields'.settle.capacity hbelow |>.trans (hfields'.capacity hbelow).symm
  · rw [settle_cap, settle_sdram, hother.1]

end

end Sys2Proof
end

section
/-! PROOFS. The rows of a capture unit, for O33: samples that are lost, a row that is dropped, a row that is written, and what follows
either (R290 to R292, R298, R301). -/

namespace Sys2Proof

open Sys2Proof.Machine

/-! ### Lost samples (R301) -/

/-- The fields that show them. -/
def gapFields (v : Nat) : List Field := [CAPU_GAP_LOST_COUNT v, CAP_STAT_GAP.bit v]

section
variable {s t u d : State} {v : Nat} {w : List Field} {first : Int} {n : Nat}

/-- What a loss writes. -/
theorem loseSamples_pos (hn : n ≠ 0) : s.loseSamples v first n =
    ((s.setUnit v { s.unitOf v with gapNow := (s.unitOf v).gapNow + n, gapSeg := (s.unitOf v).gapSeg + n,
                                    gaps := (s.unitOf v).gaps ++ [(first, first + (n : Int))] }).addSat
      (CAPU_GAP_LOST_COUNT v) n).stick CAP_STAT_GAP v := if_neg hn

/-- No sample lost, nothing changes. -/
theorem loseSamples_zero : s.loseSamples v first 0 = s := if_pos rfl

/-- The unit counts the samples since its last written row, and in its segment. -/
theorem loseSamples_unit (s : State) (v : Nat) (first : Int) (n : Nat) :
    (∃ a b, (s.loseSamples v first n).unitOf v = { s.unitOf v with gapNow := (s.unitOf v).gapNow + n, gapSeg := a, gaps := b }) ∧
      ∀ k : Nat, k ≠ v → (s.loseSamples v first n).unitOf k = s.unitOf k := by
  obtain rfl | hn := eq_or_ne n 0
  · rw [loseSamples_zero]
    exact ⟨⟨_, _, rfl⟩, fun _ _ => rfl⟩
  · rw [loseSamples_pos hn]
    exact ⟨⟨_, _, (unitOf_setUnit _ _ _ v).trans (if_pos rfl)⟩, fun k hk => (unitOf_setUnit _ _ _ k).trans (if_neg hk)⟩

/-- Capture memory and the converters stay as they were. -/
theorem loseSamples_same (s : State) (v : Nat) (first : Int) (n : Nat) :
    (s.loseSamples v first n).sdram = s.sdram ∧ (s.loseSamples v first n).conv = s.conv := by
  obtain rfl | hn := eq_or_ne n 0
  · exact ⟨rfl, rfl⟩
  · rw [loseSamples_pos hn]
    exact ⟨rfl, rfl⟩

/-- CAPu_GAP_LOST counts them. -/
theorem loseSamples_count (s : State) (v : Nat) (first : Int) (n : Nat) :
    (s.loseSamples v first n).fld (CAPU_GAP_LOST_COUNT v) = min (s.fld (CAPU_GAP_LOST_COUNT v) + n) 0xFFFFFFFF := by
  obtain rfl | hn := eq_or_ne n 0
  · have hlt : s.fld (CAPU_GAP_LOST_COUNT v) < 2 ^ 32 := by
      rw [State.fld, wordBits_eq]
      exact Nat.mod_lt _ (Nat.two_pow_pos 32)
    rw [loseSamples_zero]
    omega
  · rw [loseSamples_pos hn, stick_eq, fld_setFld_addr, fld_addSat_self _ _ _ (by simp [CAPU_GAP_LOST_COUNT])]
    · rfl
    · simp only [CAPU_GAP_LOST_COUNT, Field.bit, CAP_STAT_GAP]
      omega

/-- CAP_STAT.GAP shows whether there were any. -/
theorem loseSamples_gap (s : State) (hv : v < 8) (first : Int) (n : Nat) :
    (s.loseSamples v first n).bitSet CAP_STAT_GAP v = (decide (0 < n) || s.bitSet CAP_STAT_GAP v) := by
  obtain rfl | hn := eq_or_ne n 0
  · rw [loseSamples_zero]
    simp
  · rw [loseSamples_pos hn, bitSet_stick _ _ _ (by simp only [CAP_STAT_GAP]; omega), decide_eq_true (Nat.pos_of_ne_zero hn), Bool.true_or]

theorem KeepsFields.loseSamples (h : KeepsFields w s u) (hw : ∀ f ∈ gapFields v, f ∈ w) (first : Int) (n : Nat) :
    KeepsFields w s (u.loseSamples v first n) := by
  obtain rfl | hn := eq_or_ne n 0
  · exact h
  · rw [loseSamples_pos hn]
    exact ((h.setUnit _ _).setFld _ _ (hw _ (by simp [gapFields]))).setFld _ _ (hw _ (by simp [gapFields]))

theorem CapOnly.loseSamples (h : CapOnly s u) (v : Nat) (first : Int) (n : Nat) : CapOnly s (u.loseSamples v first n) := by
  obtain rfl | hn := eq_or_ne n 0
  · exact h
  · rw [loseSamples_pos hn]
    exact ((h.setUnit _ _).setFld _ _).setFld _ _

/-! ### A dropped row (R301) -/

/-- The unit that has dropped a row. -/
theorem dropRow_unit (s : State) (v : Nat) :
    (∃ a b, (s.dropRow v).unitOf v = { s.unitOf v with gapNow := (s.unitOf v).gapNow + (s.unitOf v).src.spb, gapSeg := a, gaps := b,
                                                       row := (s.unitOf v).row + ((s.unitOf v).src.spb : Int) }) ∧
      ∀ k : Nat, k ≠ v → (s.dropRow v).unitOf k = s.unitOf k := by
  obtain ⟨⟨a, b, hunit⟩, hothers⟩ := loseSamples_unit s v (s.unitOf v).row (s.unitOf v).src.spb
  refine ⟨⟨a, b, ?_⟩, fun k hk => ?_⟩
  · rw [State.dropRow, unitOf_setUnit, if_pos rfl, hunit]
  · rw [State.dropRow, unitOf_setUnit, if_neg hk, hothers k hk]

/-! ### A written row (R290 to R292) -/

/-- The blocks of a row of `count` samples. -/
def rowBlocks (s : State) (v count : Nat) : List (List CapSample) :=
  (s.capStreams (s.unitOf v).src (s.unitOf v).row count).map presentRun

/-- The map entry of a block. -/
def rowEntry (s : State) (v count : Nat) (b : List CapSample × Nat) : List Byte :=
  mapEntry (s.unitOf v).row (s.unitOf v).gapNow count ((s.unitOf v).trigIn (s.unitOf v).row count)
    (s.holdsTick (s.unitOf v).src (s.unitOf v).row count) (b.1.any (fun x => x.ovr))
    (((rowBlocks s v count).zipIdx.map (fun b => s.capDegraded (s.unitOf v).src b.2 b.1)).getD b.2 false)
    (decide (count < (s.unitOf v).src.spb)) b.2 (s.fld (CAPU_STAT_ARMSEQ v))

/-- A block and its map entry are written. -/
def putBlock (s : State) (v count : Nat) (t : State) (b : List CapSample × Nat) : State :=
  (t.sdWrite (t.capSlotAddr v ((s.unitOf v).slot + b.2)) ((s.unitOf v).src.blockBytes b.1)).sdWrite
    ((t.sdWrite (t.capSlotAddr v ((s.unitOf v).slot + b.2)) ((s.unitOf v).src.blockBytes b.1)).mapAddr v ((s.unitOf v).slot + b.2))
    (rowEntry s v count b)

/-- A block and its map entry, each with its device address. -/
def blockWrites (s : State) (v count : Nat) (b : List CapSample × Nat) : List (Nat × List Byte) :=
  [(s.capSlotAddr v ((s.unitOf v).slot + b.2), (s.unitOf v).src.blockBytes b.1),
    (s.mapAddr v ((s.unitOf v).slot + b.2), rowEntry s v count b)]

/-- The writes of a row. -/
def rowWrites (s : State) (v count : Nat) : List (Nat × List Byte) := (rowBlocks s v count).zipIdx.flatMap (blockWrites s v count)

/-- A row's blocks are those writes: memory alone changes, so no address moves. -/
theorem foldl_putBlock (s : State) (v count : Nat) (l : List (List CapSample × Nat)) (m : List (Nat × Byte)) :
    l.foldl (putBlock s v count) { s with sdram := m } = writeAll { s with sdram := m } (l.flatMap (blockWrites s v count)) := by
  induction l generalizing m with
  | nil => rfl
  | cons b l ih =>
    obtain ⟨m₁, h₁⟩ := sdWrite_eq { s with sdram := m } (s.capSlotAddr v ((s.unitOf v).slot + b.2)) ((s.unitOf v).src.blockBytes b.1)
    obtain ⟨m₂, h₂⟩ := sdWrite_eq { s with sdram := m₁ } (s.mapAddr v ((s.unitOf v).slot + b.2)) (rowEntry s v count b)
    have hput : putBlock s v count { s with sdram := m } b = { s with sdram := m₂ } := by
      rw [putBlock, show State.capSlotAddr { s with sdram := m } v ((s.unitOf v).slot + b.2) =
        s.capSlotAddr v ((s.unitOf v).slot + b.2) from rfl, h₁]
      exact h₂
    rw [List.foldl_cons, hput, ih, List.flatMap_cons, blockWrites, writeAll, writeAll, List.foldl_append]
    simp only [List.foldl_cons, List.foldl_nil]
    rw [h₁, h₂]

/-- The unit that has written a row, before the samples lost at its end are counted. -/
def writtenUnit (s : State) (v : Nat) (rows : List CapRow) : CapUnit :=
  { s.unitOf v with
    rows := rows, slot := ((s.unitOf v).slot + (s.unitOf v).src.count) % max 1 (s.capLen v),
    row := (s.unitOf v).row + ((s.unitOf v).src.spb : Int), gapNow := 0, staged := (s.unitOf v).staged + (s.unitOf v).src.count }

/-- The state in which a row's blocks stand in memory and its unit has moved on. -/
def rowWritten (s : State) (v count : Nat) (rows : List CapRow) (deg : Nat) : State :=
  ((writeAll s (rowWrites s v count)).setUnit v (writtenUnit s v rows)).setFld (CAPU_STAT_DEG v) deg

/-- A row is written, and the samples lost at its end are counted. -/
theorem writeRow_eq (s : State) (v count want : Nat) : ∃ rows deg, s.writeRow v count want =
    (rowWritten s v count rows deg).loseSamples v ((s.unitOf v).row + (count : Int)) (want - count) := by
  simp only [rowWritten]
  rw [rowWrites, ← foldl_putBlock s v count _ s.sdram]
  exact ⟨_, _, rfl⟩

/-- The units. -/
theorem rowWritten_unitOf (s : State) (v count : Nat) (rows : List CapRow) (deg k : Nat) :
    (rowWritten s v count rows deg).unitOf k = if k = v then writtenUnit s v rows else s.unitOf k := by
  obtain ⟨m, hm⟩ := writeAll_eq s (rowWrites s v count)
  rw [rowWritten, hm]
  exact unitOf_setUnit _ _ _ k

/-- The registers but CAPu_STAT.DEG. -/
theorem rowWritten_fld (s : State) (v count : Nat) (rows : List CapRow) (deg : Nat) {f : Field} (hf : f.addr ≠ (CAPU_STAT_DEG v).addr) :
    (rowWritten s v count rows deg).fld f = s.fld f := by
  obtain ⟨m, hm⟩ := writeAll_eq s (rowWrites s v count)
  rw [rowWritten, fld_setFld_addr _ _ hf, hm]
  rfl

theorem CapOnly.rowWritten (s : State) (v count : Nat) (rows : List CapRow) (deg : Nat) :
    CapOnly s (rowWritten s v count rows deg) := by
  obtain ⟨m, hm⟩ := writeAll_eq s (rowWrites s v count)
  rw [Sys2Proof.rowWritten, hm]
  exact (((CapOnly.refl s).setMem m).setUnit _ _).setFld _ _

theorem KeepsFields.rowWritten (s : State) (v count : Nat) (rows : List CapRow) (deg : Nat) (hw : CAPU_STAT_DEG v ∈ w) :
    KeepsFields w s (rowWritten s v count rows deg) := by
  obtain ⟨m, hm⟩ := writeAll_eq s (rowWrites s v count)
  have hmem : KeepsFields w s { s with sdram := m } := (KeepsFields.refl w s).of_regs rfl
  rw [Sys2Proof.rowWritten, hm]
  exact (hmem.setUnit _ _).setFld _ _ hw

/-- Capture memory holds the writes. -/
theorem rowWritten_sdram (s : State) (v count : Nat) (rows : List CapRow) (deg : Nat) :
    (rowWritten s v count rows deg).sdram = (writeAll s (rowWrites s v count)).sdram := rfl

/-- The unit that has written a row. -/
theorem writeRow_unit (s : State) (v count want : Nat) :
    (∃ a b rows, (s.writeRow v count want).unitOf v = { writtenUnit s v rows with gapNow := want - count, gapSeg := a, gaps := b }) ∧
      ∀ k : Nat, k ≠ v → (s.writeRow v count want).unitOf k = s.unitOf k := by
  obtain ⟨rows, deg, hrow⟩ := writeRow_eq s v count want
  obtain ⟨⟨a, b, hunit⟩, hothers⟩ :=
    loseSamples_unit (rowWritten s v count rows deg) v ((s.unitOf v).row + (count : Int)) (want - count)
  rw [rowWritten_unitOf, if_pos rfl] at hunit
  rw [hrow]
  refine ⟨⟨a, b, rows, hunit.trans ?_⟩, fun k hk => by rw [hothers k hk, rowWritten_unitOf, if_neg hk]⟩
  simp only [writtenUnit, Nat.zero_add]

/-- What a written row shows in the registers and leaves in memory, and all that it can change. -/
structure WriteShown (s : State) (v count want : Nat) (u : State) : Prop where
  lost : u.fld (CAPU_GAP_LOST_COUNT v) = min (s.fld (CAPU_GAP_LOST_COUNT v) + (want - count)) 0xFFFFFFFF
  gap : u.bitSet CAP_STAT_GAP v = (decide (count < want) || s.bitSet CAP_STAT_GAP v)
  sdram : u.sdram = (writeAll s (rowWrites s v count)).sdram
  fields : KeepsFields (CAPU_STAT_DEG v :: gapFields v) s u
  parts : CapOnly s u

theorem WriteShown.writeRow (s : State) (hv : v < 8) (count want : Nat) : WriteShown s v count want (s.writeRow v count want) := by
  obtain ⟨rows, deg, hrow⟩ := writeRow_eq s v count want
  have hdeg : ∀ f : Field, f.addr = (CAPU_GAP_LOST_COUNT v).addr ∨ f.addr = CAP_STAT_GAP.addr → f.addr ≠ (CAPU_STAT_DEG v).addr :=
    fun f hf => by
      simp only [CAPU_GAP_LOST_COUNT, CAP_STAT_GAP, CAPU_STAT_DEG] at hf ⊢
      omega
  rw [hrow]
  refine ⟨?_, ?_, (loseSamples_same ..).1.trans (rowWritten_sdram ..),
    (KeepsFields.rowWritten s v count rows deg (List.mem_cons_self ..)).loseSamples (fun f hf => List.mem_cons_of_mem _ hf) _ _,
    (CapOnly.rowWritten s v count rows deg).loseSamples _ _ _⟩
  · rw [loseSamples_count, rowWritten_fld _ _ _ _ _ (hdeg _ (.inl rfl))]
  · rw [loseSamples_gap _ hv, bitSet_congr (rowWritten_fld _ _ _ _ _ (hdeg (CAP_STAT_GAP.bit v) (.inr rfl))),
      decide_eq_decide.mpr Nat.sub_pos_iff_lt]

/-! ### Where the blocks stand (R291) -/

/-- A unit's segment, as far as it is used, lies in capture memory within the installed capacity. -/
structure SegmentFits (s : State) (v : Nat) : Prop where
  base : sdramBase ≤ s.segBase v
  size : s.segBase v - sdramBase + segSize (s.capLen v) ≤ s.capacity

/-- A row of `count` samples fits its blocks, and its slots the segment. -/
structure RowFits (s : State) (v count : Nat) : Prop where
  samples : count ≤ (s.unitOf v).src.spb
  slots : (s.unitOf v).slot + (s.unitOf v).src.count ≤ s.capLen v

/-- A block of a row, by the number of its stream. -/
theorem mem_rowBlocks {s : State} {v count : Nat} {b : List CapSample × Nat} (hb : b ∈ (rowBlocks s v count).zipIdx) :
    b.2 < (s.unitOf v).src.count ∧ b.1.length ≤ count := by
  obtain ⟨xs, i⟩ := b
  have hmem := List.mem_zipIdx hb
  obtain ⟨-, hlt, hget⟩ := hmem
  rw [rowBlocks, List.length_map, length_capStreams, Nat.zero_add] at hlt
  refine ⟨hlt, ?_⟩
  have hin : xs ∈ rowBlocks s v count := hget ▸ List.getElem_mem _
  obtain ⟨l, hl, rfl⟩ := List.mem_map.mp hin
  exact (length_presentRun l).trans (length_of_mem_capStreams hl).le

/-- The lengths of a block and of its map entry. -/
theorem length_blockWrites {s : State} {v count : Nat} (h : RowFits s v count) {b : List CapSample × Nat}
    (hb : b ∈ (rowBlocks s v count).zipIdx) : ((s.unitOf v).src.blockBytes b.1).length = 4096 ∧ (rowEntry s v count b).length = 16 :=
  ⟨blockBytes_length _ ((mem_rowBlocks hb).2.trans h.samples), length_mapEntry ..⟩

/-- The map of a segment ends before its data. -/
theorem map_before_data (len : Nat) : 16 * len ≤ 4096 * ceilDiv len 256 := by
  unfold ceilDiv
  omega

/-- No two writes of a row share a byte. -/
theorem rowWrites_apart {s : State} {v count : Nat} (h : RowFits s v count) : (rowWrites s v count).Pairwise WritesApart := by
  have hmap := map_before_data (s.capLen v)
  have hslots := h.slots
  have hidx : (rowBlocks s v count).zipIdx.Pairwise fun a b => a.2 ≠ b.2 := by
    have hnd : ((rowBlocks s v count).zipIdx.map Prod.snd).Nodup := by
      rw [List.zipIdx_map_snd]
      exact List.nodup_range'
    exact List.pairwise_map.mp hnd
  rw [rowWrites, List.pairwise_flatMap]
  refine ⟨fun b hb => ?_, hidx.imp_of_mem fun {a b} ha hb hne x hx y hy => ?_⟩
  · obtain ⟨hdata, hentry⟩ := length_blockWrites h hb
    obtain ⟨hlt, -⟩ := mem_rowBlocks hb
    simp only [blockWrites, List.pairwise_cons, List.mem_singleton, forall_eq, List.not_mem_nil, false_imp_iff, implies_true,
      List.Pairwise.nil, and_true, WritesApart, hdata, hentry, State.capSlotAddr, State.mapAddr]
    omega
  · obtain ⟨hdata, hentry⟩ := length_blockWrites h ha
    obtain ⟨hdata', hentry'⟩ := length_blockWrites h hb
    obtain ⟨hlt, -⟩ := mem_rowBlocks ha
    obtain ⟨hlt', -⟩ := mem_rowBlocks hb
    simp only [blockWrites, List.mem_cons, List.not_mem_nil, or_false] at hx hy
    rcases hx with rfl | rfl
    all_goals
      rcases hy with rfl | rfl
      all_goals
        simp only [WritesApart, hdata, hentry, hdata', hentry', State.capSlotAddr, State.mapAddr]
        omega

/-- Every write of a row lies in the segment, at a slot of the row. -/
theorem rowWrites_place {s : State} {v count : Nat} (h : RowFits s v count) {x : Nat × List Byte} (hx : x ∈ rowWrites s v count) :
    ∃ i < (s.unitOf v).src.count, (x.1 = s.capSlotAddr v ((s.unitOf v).slot + i) ∧ x.2.length = 4096) ∨
      (x.1 = s.mapAddr v ((s.unitOf v).slot + i) ∧ x.2.length = 16) := by
  obtain ⟨b, hb, hx⟩ := List.mem_flatMap.mp hx
  obtain ⟨hdata, hentry⟩ := length_blockWrites h hb
  refine ⟨b.2, (mem_rowBlocks hb).1, ?_⟩
  simp only [blockWrites, List.mem_cons, List.not_mem_nil, or_false] at hx
  rcases hx with rfl | rfl
  · exact .inl ⟨rfl, hdata⟩
  · exact .inr ⟨rfl, hentry⟩

/-- So it ends within the installed capacity. -/
theorem rowWrites_within {s : State} {v count : Nat} (h : RowFits s v count) (hseg : SegmentFits s v) {x : Nat × List Byte}
    (hx : x ∈ rowWrites s v count) : sdramBase ≤ x.1 ∧ x.1 + x.2.length ≤ sdramBase + s.capacity := by
  have hmap := map_before_data (s.capLen v)
  obtain ⟨hbase, hsize⟩ := hseg
  have hslots := h.slots
  unfold segSize at hsize
  obtain ⟨i, hi, ⟨haddr, hlen⟩ | ⟨haddr, hlen⟩⟩ := rowWrites_place h hx
  · rw [haddr, hlen, State.capSlotAddr]
    omega
  · rw [haddr, hlen, State.mapAddr]
    omega

/-- The block of stream `i` of a row. -/
theorem block_mem_rowBlocks (s : State) (v count : Nat) {i : Nat} (hi : i < (s.unitOf v).src.count) :
    (presentRun ((s.capStreams (s.unitOf v).src (s.unitOf v).row count).getD i []), i) ∈ (rowBlocks s v count).zipIdx := by
  rw [List.mem_zipIdx_iff_getElem?, rowBlocks, List.getElem?_map, List.getElem?_eq_getElem (by rwa [length_capStreams]),
    List.getD_eq_getElem _ _ (by rwa [length_capStreams])]
  rfl

/-- A block and its map entry stand at their slot. -/
theorem rowWrites_read {s t : State} {v count i : Nat} (h : RowFits s v count) (hseg : SegmentFits s v)
    (hmem : t.sdram = (writeAll s (rowWrites s v count)).sdram) (hcap : t.capacity = s.capacity) (hi : i < (s.unitOf v).src.count) :
    t.sdRead (s.capSlotAddr v ((s.unitOf v).slot + i)) 4096 =
        (s.unitOf v).src.blockBytes (presentRun ((s.capStreams (s.unitOf v).src (s.unitOf v).row count).getD i [])) ∧
      leNat (t.sdRead (s.mapAddr v ((s.unitOf v).slot + i)) 8) = ofSigned 64 (s.unitOf v).row ∧
      leNat (t.sdRead (s.mapAddr v ((s.unitOf v).slot + i) + 8) 4) = min (s.unitOf v).gapNow (2 ^ 32 - 1) := by
  have hb := block_mem_rowBlocks s v count hi
  generalize presentRun ((s.capStreams (s.unitOf v).src (s.unitOf v).row count).getD i []) = xs at hb ⊢
  obtain ⟨hdata, hentry⟩ := length_blockWrites h hb
  have hin : ∀ x ∈ blockWrites s v count (xs, i), x ∈ rowWrites s v count := fun x hx => List.mem_flatMap.mpr ⟨_, hb, hx⟩
  have hcap' : t.capacity = (writeAll s (rowWrites s v count)).capacity := by
    obtain ⟨m, hm⟩ := writeAll_eq s (rowWrites s v count)
    rw [hcap, hm]
    rfl
  have hread : ∀ x ∈ blockWrites s v count (xs, i), ∀ k len : Nat, k + len ≤ x.2.length →
      t.sdRead (x.1 + k) len = (x.2.drop k).take len := fun x hx k len hlen => by
    obtain ⟨hbase, hwithin⟩ := rowWrites_within h hseg (hin x hx)
    rw [sdRead_congr hcap' hmem, sdRead_writeAll s (rowWrites_apart h) (hin x hx) hbase hlen hwithin]
  refine ⟨?_, ?_, ?_⟩
  · have hall := hread _ (List.mem_cons_self ..) 0 4096 (by simp only [hdata]; omega)
    rw [List.drop_zero, List.take_of_length_le (by simp only [hdata]; omega)] at hall
    exact hall
  · have hfirst := hread _ (List.mem_cons_of_mem _ (List.mem_cons_self ..)) 0 8 (by simp only [hentry]; omega)
    exact (congrArg leNat hfirst).trans (mapEntry_first ..)
  · have hlost := hread _ (List.mem_cons_of_mem _ (List.mem_cons_self ..)) 8 4 (by simp only [hentry]; omega)
    exact (congrArg leNat hlost).trans (mapEntry_lost ..)

/-- A byte of no block and of no map entry of the row stays. -/
theorem rowWrites_else {s t : State} {v count o : Nat} (h : RowFits s v count) (hseg : SegmentFits s v)
    (hmem : t.sdram = (writeAll s (rowWrites s v count)).sdram) (hcap : t.capacity = s.capacity)
    (ho : ∀ i < (s.unitOf v).src.count,
      (o < s.capSlotAddr v ((s.unitOf v).slot + i) - sdramBase ∨ s.capSlotAddr v ((s.unitOf v).slot + i) - sdramBase + 4096 ≤ o) ∧
      (o < s.mapAddr v ((s.unitOf v).slot + i) - sdramBase ∨ s.mapAddr v ((s.unitOf v).slot + i) - sdramBase + 16 ≤ o)) :
    t.sdByte o = s.sdByte o := by
  have hcap' : t.capacity = (writeAll s (rowWrites s v count)).capacity := by
    obtain ⟨m, hm⟩ := writeAll_eq s (rowWrites s v count)
    rw [hcap, hm]
    rfl
  rw [sdByte_congr hcap' hmem, sdByte_writeAll_out s fun x hx => ?_]
  obtain ⟨hbase, -⟩ := rowWrites_within h hseg hx
  obtain ⟨i, hi, ⟨haddr, hlen⟩ | ⟨haddr, hlen⟩⟩ := rowWrites_place h hx
  · have := (ho i hi).1
    omega
  · have := (ho i hi).2
    omega

/-! ### The row being filled is complete (R298, R301) -/

/-- The samples of the row being filled that came, of every stream. -/
def rowCount (s : State) (v : Nat) : Nat :=
  ((s.capStreams (s.unitOf v).src (s.unitOf v).row (s.unitOf v).src.spb).map (fun l => (presentRun l).length)).foldl min
    (s.unitOf v).src.spb

/-- They are no more than the row holds. -/
theorem rowCount_le (s : State) (v : Nat) : rowCount s v ≤ (s.unitOf v).src.spb :=
  List.foldlRecOn _ _ (motive := (· ≤ (s.unitOf v).src.spb)) le_rfl fun _ hb _ _ => (min_le_left _ _).trans hb

/-- The stop row, once taken, ends the segment. -/
def rowEnded (d : State) (v : Nat) (row : Int) : State :=
  if (d.unitOf v).trig.isSome && decide ((d.unitOf v).stop ≤ row) then d.setUnit v { d.unitOf v with ended := true } else d

/-- The units then. -/
theorem rowEnded_unitOf (d : State) (v : Nat) (row : Int) (k : Nat) : (rowEnded d v row).unitOf k =
    if k = v then { d.unitOf v with ended := (d.unitOf v).ended || ((d.unitOf v).trig.isSome && decide ((d.unitOf v).stop ≤ row)) }
    else d.unitOf k := by
  unfold rowEnded
  by_cases hk : k = v
  · subst hk
    cases hstop : (d.unitOf k).trig.isSome && decide ((d.unitOf k).stop ≤ row) with
    | true => simp
    | false => simp
  · rw [if_neg hk]
    split
    · rw [unitOf_setUnit, if_neg hk]
    · rfl

/-- Ending a segment changes its unit alone. -/
theorem rowEnded_eq (d : State) (v : Nat) (row : Int) : ∃ c, rowEnded d v row = { d with cap := c } := by
  unfold rowEnded
  split
  · exact ⟨_, rfl⟩
  · exact ⟨d.cap, rfl⟩

/-- Letting raw entries go changes the taps alone. -/
theorem capPrune_eq (s : State) : ∃ m, s.capPrune = { s with conv := { s.conv with tap := m } } := by
  refine (List.range 4).foldlRecOn _ (motive := fun t : State => ∃ m, t = { s with conv := { s.conv with tap := m } }) ⟨s.conv.tap, rfl⟩
    fun t ht i _ => ?_
  obtain ⟨m, rfl⟩ := ht
  simp only
  split
  · split
    · exact ⟨m, rfl⟩
    · exact ⟨_, rfl⟩
  · exact ⟨_, rfl⟩

/-- A unit that waits for the row being filled, all of which has passed, takes it. -/
theorem rowComplete_taken (acked : Nat) (hst : s.fld (CAPU_STAT_STATE v) ≠ capIdle) (hend : (s.unitOf v).ended = false)
    (hpass : s.capPassed (s.unitOf v).src (s.unitOf v).row (s.unitOf v).src.spb = true) :
    s.rowComplete v acked = (rowEnded ((s.unstage v acked).takeRow v) v (s.unitOf v).row).capPrune :=
  if_neg (by simp [hst, hend, hpass])

/-- An idle unit takes none. -/
theorem rowComplete_idle (acked : Nat) (hst : s.fld (CAPU_STAT_STATE v) = capIdle) : s.rowComplete v acked = s := if_pos (.inl hst)

/-- What a state shows of the row that was taken. -/
structure RowShown (d : State) (v : Nat) (row : Int) (t : State) : Prop where
  fld : ∀ f, quiet f = true → t.fld f = d.fld f
  unit : ∀ k, t.unitOf k = (rowEnded d v row).unitOf k
  sdram : t.sdram = d.sdram

end

/-- A command that takes a row, of which `d` is the state before the segment may end. -/
theorem Runs.rowTaken {s d : State} {v : Fin 8} {acked : Nat} {row : Int} {w : List Field} {parts : State → State}
    {result : State → Prop} (hexec : s.rowComplete v acked = (rowEnded d v row).capPrune) (hw : KeepsFields w s d) (h : CapOnly s d)
    (hparts : ∀ t : State, t.sdram = d.sdram →
      parts t = { s with cap := t.cap, conv := { s.conv with tap := t.conv.tap }, sdram := t.sdram })
    (hr : ∀ t, RowShown d v row t → KeepsFields w s t → result t) : Runs (.captureRowComplete v acked) s w parts result := by
  obtain ⟨c, hc⟩ := rowEnded_eq d v row
  obtain ⟨m, hm⟩ := capPrune_eq (rowEnded d v row)
  have hunit : ∀ k, (rowEnded d v row).capPrune.unitOf k = (rowEnded d v row).unitOf k := fun k => by
    rw [hm]
    rfl
  generalize (rowEnded d v row).capPrune = u at hexec hm hunit
  rw [hc] at hm
  have hregs : u.regs = d.regs ∧ u.sdram = d.sdram := by
    subst hm
    exact ⟨rfl, rfl⟩
  have hcap : CapOnly s u := by
    obtain ⟨_, _, _, _, rfl⟩ := h
    exact ⟨_, _, _, _, hm⟩
  have hfields : KeepsFields w s u := hw.of_regs hregs.1
  refine Runs.capOnly (congrArg Machine.done hexec) (hr _ ⟨fun f hf => ?_, fun k => ?_, ?_⟩ hfields.settle) hfields hcap ?_
  · rw [settle_fld _ _ hf]
    exact fld_congr (by rw [State.reg, hregs.1, State.reg])
  · rw [State.unitOf, settle_cap, ← State.unitOf, hunit]
  · rw [settle_sdram, hregs.2]
  · rw [hparts _ ((settle_sdram u).trans hregs.2), settle_cap, settle_conv, settle_sdram]

end Sys2Proof
end

section
/-! PROOFS. The statement of 10_triggers_capture.md on the capture units (O33): rows dropped and written, the last segment, and the
statement. -/

namespace Sys2Proof

open Sys2Proof.Machine

/-! ### Rows (R301) -/

section
variable {s : State} {v acked : Nat}

/-- Blocks leave the staging buffer: the unit alone changes. -/
theorem unstage_unitOf (s : State) (v n k : Nat) :
    (s.unstage v n).unitOf k = if k = v then { s.unitOf v with staged := (s.unitOf v).staged - n } else s.unitOf k :=
  unitOf_setUnit ..

/-- It leaves what came of the row being filled. -/
theorem unstage_rowCount (s : State) (v n : Nat) : rowCount (s.unstage v n) v = rowCount s v := by
  rw [rowCount, unstage_unitOf, if_pos rfl]
  rfl

/-- A row that staging has no room for, or of which no sample came, is dropped. -/
theorem takeRow_drop (h : ¬(s.unitOf v).staged - acked + (s.unitOf v).src.count ≤ 512 ∨ rowCount s v = 0) :
    (s.unstage v acked).takeRow v = (s.unstage v acked).dropRow v := by
  refine if_neg fun hfits => ?_
  obtain ⟨hroom, hcame⟩ := hfits
  rw [unstage_unitOf, if_pos rfl] at hroom
  exact h.elim (fun hno => hno hroom) fun hnone => hcame ((unstage_rowCount s v acked).trans hnone)

/-- Another is written. -/
theorem takeRow_write (hroom : (s.unitOf v).staged - acked + (s.unitOf v).src.count ≤ 512) (hcame : 0 < rowCount s v) :
    (s.unstage v acked).takeRow v = (s.unstage v acked).writeRow v (rowCount s v) (s.unitOf v).src.spb := by
  have hcount := unstage_rowCount s v acked
  have hunit := unstage_unitOf s v acked v
  rw [if_pos rfl] at hunit
  have hfits : ((s.unstage v acked).unitOf v).staged + ((s.unstage v acked).unitOf v).src.count ≤ 512 ∧
      rowCount (s.unstage v acked) v ≠ 0 := by
    rw [hunit, hcount]
    exact ⟨hroom, hcame.ne'⟩
  rw [show (s.unitOf v).src.spb = ((s.unstage v acked).unitOf v).src.spb by rw [hunit], ← hcount]
  exact if_pos hfits

end

section
variable {s : State} {v : Fin 8} {acked : Nat}

/-- No signal is derived in CAPu_GAP_LOST. -/
theorem quiet_gapLost (v : Fin 8) : quiet (CAPU_GAP_LOST_COUNT v) = true :=
  quiet_capture (by simp only [CAPU_GAP_LOST_COUNT]; omega) (by simp only [CAPU_GAP_LOST_COUNT]; omega)

/-- Nor in CAP_STAT. -/
theorem quiet_gap (v : Fin 8) : quiet (CAP_STAT_GAP.bit v) = true :=
  quiet_capture (by simp [Field.bit, CAP_STAT_GAP]) (by simp [Field.bit, CAP_STAT_GAP])

/-- A dropped row counts its samples as lost and moves the unit on. -/
theorem Runs.rowDropped (hst : s.fld (CAPU_STAT_STATE v) ≠ capIdle) (hend : (s.unitOf v).ended = false)
    (hpass : s.capPassed (s.unitOf v).src (s.unitOf v).row (s.unitOf v).src.spb = true) (hspb : 0 < (s.unitOf v).src.spb)
    (h : ¬(s.unitOf v).staged - acked + (s.unitOf v).src.count ≤ 512 ∨ rowCount s v = 0) :
    Runs (.captureRowComplete v acked) s (gapFields v)
      (fun t => { s with cap := t.cap, conv := { s.conv with tap := t.conv.tap } })
      (fun t => t.fld (CAPU_GAP_LOST_COUNT v) = min (s.fld (CAPU_GAP_LOST_COUNT v) + (s.unitOf v).src.spb) 0xFFFFFFFF ∧
        t.bitSet CAP_STAT_GAP v = true ∧ (∀ k : Nat, k ≠ v → t.unitOf k = s.unitOf k) ∧
        (t.unitOf v).row = (s.unitOf v).row + (s.unitOf v).src.spb ∧ (t.unitOf v).rows = (s.unitOf v).rows ∧
        (t.unitOf v).gapNow = (s.unitOf v).gapNow + (s.unitOf v).src.spb ∧
        (t.unitOf v).ended = ((s.unitOf v).trig.isSome && decide ((s.unitOf v).stop ≤ (s.unitOf v).row))) := by
  have hexec := rowComplete_taken acked hst hend hpass
  rw [takeRow_drop h] at hexec
  have hunit := fun k => unstage_unitOf s v acked k
  have hstay : KeepsFields (gapFields v) s (s.unstage v acked) ∧ CapOnly s (s.unstage v acked) ∧
      (s.unstage v acked).sdram = s.sdram ∧ ∀ f, (s.unstage v acked).fld f = s.fld f :=
    ⟨(KeepsFields.refl _ s).setUnit _ _, (CapOnly.refl s).setUnit _ _, rfl, fun _ => rfl⟩
  generalize s.unstage v acked = p at hexec hunit hstay
  obtain ⟨hfields, hcap, hsdram, hfld⟩ := hstay
  have hself := hunit v
  rw [if_pos rfl] at hself
  obtain ⟨⟨a, b, hdrop⟩, hothers⟩ := dropRow_unit p v
  rw [hself] at hdrop
  have hlost : (p.dropRow v).fld (CAPU_GAP_LOST_COUNT v) =
      min (s.fld (CAPU_GAP_LOST_COUNT v) + (s.unitOf v).src.spb) 0xFFFFFFFF := by
    refine (loseSamples_count p v (p.unitOf v).row (p.unitOf v).src.spb).trans ?_
    rw [hself, hfld]
  have hgap : (p.dropRow v).bitSet CAP_STAT_GAP v = true := by
    refine (loseSamples_gap p v.isLt (p.unitOf v).row (p.unitOf v).src.spb).trans ?_
    rw [hself, decide_eq_true hspb, Bool.true_or]
  refine Runs.rowTaken hexec (((hfields.loseSamples (fun _ hf => hf) _ _)).setUnit _ _) ((hcap.loseSamples _ _ _).setUnit _ _)
    (fun t ht => ?_) fun t ht _ => ⟨?_, ?_, fun k hk => ?_, ?_⟩
  · rw [ht, show (p.dropRow v).sdram = s.sdram from (loseSamples_same ..).1.trans hsdram]
  · rw [ht.fld _ (quiet_gapLost v), hlost]
  · rw [bitSet_congr (ht.fld _ (quiet_gap v)), hgap]
  · rw [ht.unit, rowEnded_unitOf, if_neg hk, hothers k hk, hunit, if_neg hk]
  · rw [ht.unit, rowEnded_unitOf, if_pos rfl, hdrop, hend, Bool.false_or]
    exact ⟨rfl, rfl, rfl, rfl⟩

/-- The fields that a written row can write. -/
def rowFields (v : Nat) : List Field := CAPU_STAT_DEG v :: gapFields v

/-- What a written row shows: the unit's place, the samples lost at the row's end, and the blocks with their map entries. -/
structure RowWritten (s : State) (v : Nat) (t : State) : Prop where
  others : ∀ k : Nat, k ≠ v → t.unitOf k = s.unitOf k
  row : (t.unitOf v).row = (s.unitOf v).row + (s.unitOf v).src.spb
  slot : (t.unitOf v).slot = ((s.unitOf v).slot + (s.unitOf v).src.count) % max 1 (s.capLen v)
  gapNow : (t.unitOf v).gapNow = (s.unitOf v).src.spb - rowCount s v
  lost : t.fld (CAPU_GAP_LOST_COUNT v) =
    min (s.fld (CAPU_GAP_LOST_COUNT v) + ((s.unitOf v).src.spb - rowCount s v)) 0xFFFFFFFF
  gap : t.bitSet CAP_STAT_GAP v = (decide (rowCount s v < (s.unitOf v).src.spb) || s.bitSet CAP_STAT_GAP v)
  blocks : ∀ i < (s.unitOf v).src.count, t.sdRead (s.capSlotAddr v ((s.unitOf v).slot + i)) 4096 =
      (s.unitOf v).src.blockBytes (presentRun ((s.capStreams (s.unitOf v).src (s.unitOf v).row (rowCount s v)).getD i [])) ∧
    leNat (t.sdRead (s.mapAddr v ((s.unitOf v).slot + i)) 8) = ofSigned 64 (s.unitOf v).row ∧
    leNat (t.sdRead (s.mapAddr v ((s.unitOf v).slot + i) + 8) 4) = min (s.unitOf v).gapNow (2 ^ 32 - 1)
  kept : ∀ o : Nat, (∀ i < (s.unitOf v).src.count,
      (o < s.capSlotAddr v ((s.unitOf v).slot + i) - sdramBase ∨ s.capSlotAddr v ((s.unitOf v).slot + i) - sdramBase + 4096 ≤ o) ∧
      (o < s.mapAddr v ((s.unitOf v).slot + i) - sdramBase ∨ s.mapAddr v ((s.unitOf v).slot + i) - sdramBase + 16 ≤ o)) →
    t.sdByte o = s.sdByte o

/-- A row that is written. -/
theorem Runs.rowWritten (hst : s.fld (CAPU_STAT_STATE v) ≠ capIdle) (hend : (s.unitOf v).ended = false)
    (hpass : s.capPassed (s.unitOf v).src (s.unitOf v).row (s.unitOf v).src.spb = true)
    (hroom : (s.unitOf v).staged - acked + (s.unitOf v).src.count ≤ 512) (hcame : 0 < rowCount s v)
    (hslots : (s.unitOf v).slot + (s.unitOf v).src.count ≤ s.capLen v) (hseg : SegmentFits s v) :
    Runs (.captureRowComplete v acked) s (rowFields v)
      (fun t => { s with cap := t.cap, conv := { s.conv with tap := t.conv.tap }, sdram := t.sdram }) (RowWritten s v) := by
  have hexec := rowComplete_taken acked hst hend hpass
  rw [takeRow_write hroom hcame] at hexec
  have hunit := fun k => unstage_unitOf s v acked k
  have hself := hunit v
  rw [if_pos rfl] at hself
  have hfit : RowFits (s.unstage v acked) v (rowCount s v) := by
    constructor
    · rw [hself]
      exact rowCount_le s v
    · rw [hself]
      exact hslots
  have hseg' : SegmentFits (s.unstage v acked) v := ⟨hseg.base, hseg.size⟩
  obtain ⟨⟨a, b, rs, hrow⟩, hothers⟩ := writeRow_unit (s.unstage v acked) v (rowCount s v) (s.unitOf v).src.spb
  have hwrite := WriteShown.writeRow (s.unstage v acked) v.isLt (rowCount s v) (s.unitOf v).src.spb
  have hfields : KeepsFields (rowFields v) s ((s.unstage v acked).writeRow v (rowCount s v) (s.unitOf v).src.spb) :=
    ((KeepsFields.refl _ s).setUnit _ _).trans hwrite.fields
  have hcap : CapOnly s ((s.unstage v acked).writeRow v (rowCount s v) (s.unitOf v).src.spb) := by
    obtain ⟨_, _, _, _, hp⟩ := hwrite.parts
    rw [hp]
    exact ⟨_, _, _, _, rfl⟩
  refine Runs.rowTaken hexec hfields hcap (fun t _ => rfl) fun t ht hkeeps => ?_
  have hbelow : ∀ g ∈ rowFields v, g.addr < 0x90000 := fun g hg => by
    simp only [rowFields, gapFields, List.mem_cons, List.not_mem_nil, or_false] at hg
    rcases hg with rfl | rfl | rfl
    all_goals simp only [CAPU_STAT_DEG, CAPU_GAP_LOST_COUNT, Field.bit, CAP_STAT_GAP]; omega
  have hcapacity : t.capacity = (s.unstage v acked).capacity := hkeeps.capacity hbelow
  have hmem := ht.sdram.trans hwrite.sdram
  refine ⟨fun k hk => ?_, ?_, ?_, ?_, ?_, ?_, fun i hi => ?_, fun o ho => ?_⟩
  · rw [ht.unit, rowEnded_unitOf, if_neg hk, hothers k hk, hunit, if_neg hk]
  · rw [ht.unit, rowEnded_unitOf, if_pos rfl, hrow, writtenUnit, hself]
  · rw [ht.unit, rowEnded_unitOf, if_pos rfl, hrow, writtenUnit, hself]
    rfl
  · rw [ht.unit, rowEnded_unitOf, if_pos rfl, hrow]
  · rw [ht.fld _ (quiet_gapLost v), hwrite.lost]
    rfl
  · rw [bitSet_congr (ht.fld _ (quiet_gap v)), hwrite.gap]
    rfl
  · have hread := rowWrites_read (i := i) hfit hseg' hmem hcapacity (by rw [hself]; exact hi)
    rw [hself] at hread
    exact hread
  · have helse := rowWrites_else (o := o) hfit hseg' hmem hcapacity
    rw [hself] at helse
    exact helse ho

end

/-! ### The last segment (R293, R295, R298) -/

section
variable {s u : State} {v : Nat} {w : List Field}

/-- A descriptor is 64 bytes long. -/
theorem length_descriptor (s : State) (v : Nat) (trunc : Bool) : (s.descriptor v trunc).length = 64 := by
  unfold State.descriptor
  simp only
  split
  all_goals simp only [List.length_append, length_leBytes]

/-- What is staged does not stand in it. -/
theorem unstage_descriptor (s : State) (v n : Nat) (trunc : Bool) : (s.unstage v n).descriptor v trunc = s.descriptor v trunc := by
  unfold State.descriptor
  rw [unstage_unitOf, if_pos rfl]
  rfl

/-- The state in which a segment's descriptor stands in memory and the segment is counted. -/
def segmentDone (s : State) (v : Nat) : State :=
  ((s.sdWrite (s.segBase v) (s.descriptor v false ++ zeros 4032)).addSat (CAPU_SEG_DONE_COUNT v) 1).stick CAP_STAT_SEG_DONE v

/-- The registers but those that count it. -/
theorem segmentDone_fld (s : State) {v : Nat} {f : Field} (hcount : f.addr ≠ (CAPU_SEG_DONE_COUNT v).addr)
    (hstat : f.addr ≠ CAP_STAT_SEG_DONE.addr) : (segmentDone s v).fld f = s.fld f := by
  rw [segmentDone, stick_eq, fld_setFld_addr _ _ (by exact hstat), addSat_eq, fld_setFld_addr _ _ hcount, sdWrite_fld]

/-- A unit without REC finishes its segment so. -/
theorem finishSegment_noRecord (hrec : s.flag (CAPU_CTL_REC v) = false) : s.finishSegment v false = segmentDone s v := by
  have hflag : (segmentDone s v).flag (CAPU_CTL_REC v) = false := by
    rw [flag_congr (segmentDone_fld s _ _), hrec]
    all_goals simp only [CAPU_CTL_REC, CAPU_SEG_DONE_COUNT, CAP_STAT_SEG_DONE]; omega
  exact if_neg (by rw [← segmentDone, hflag]; simp)

/-- The last segment of a unit without MODE and REC ends its capture. -/
theorem segmentComplete_last (hst : s.fld (CAPU_STAT_STATE v) = capTriggered) (hend : (s.unitOf v).ended = true)
    (hlast : s.fld (CAPU_STAT_SEG v) = s.fld (CAPU_SEGS_ACT_SEGS_M1 v)) (hmode : s.flag (CAPU_CTL_MODE v) = false)
    (hrec : s.flag (CAPU_CTL_REC v) = false) :
    s.segmentComplete v = (segmentDone (s.unstage v (s.unitOf v).staged) v).capStop v := by
  have hsame : ∀ f : Field, f.addr ≠ (CAPU_SEG_DONE_COUNT v).addr → f.addr ≠ CAP_STAT_SEG_DONE.addr →
      (segmentDone (s.unstage v (s.unitOf v).staged) v).fld f = s.fld f := fun f h h' => segmentDone_fld _ h h'
  have hseg := hsame (CAPU_STAT_SEG v) (by simp [CAPU_STAT_SEG, CAPU_SEG_DONE_COUNT])
    (by simp only [CAPU_STAT_SEG, CAP_STAT_SEG_DONE]; omega)
  have hsegs := hsame (CAPU_SEGS_ACT_SEGS_M1 v) (by simp [CAPU_SEGS_ACT_SEGS_M1, CAPU_SEG_DONE_COUNT])
    (by simp only [CAPU_SEGS_ACT_SEGS_M1, CAP_STAT_SEG_DONE]; omega)
  have hmode' : (segmentDone (s.unstage v (s.unitOf v).staged) v).flag (CAPU_CTL_MODE v) = false := by
    rw [flag_congr (hsame _ (by simp [CAPU_CTL_MODE, CAPU_SEG_DONE_COUNT])
      (by simp only [CAPU_CTL_MODE, CAP_STAT_SEG_DONE]; omega)), hmode]
  have hfinish := finishSegment_noRecord (s := s.unstage v (s.unitOf v).staged) (v := v) hrec
  unfold State.segmentComplete
  simp only
  rw [if_neg (by simp [hst, hend]), hfinish, if_pos ⟨by rw [hseg, hsegs]; simpa using hlast, hmode'⟩]

/-- A unit to which no decision is on its way misses none and accepts none. -/
theorem trigArrive_nothing (ns : Nat) (h : (s.unitOf v).queue = []) : s.trigArrive v ns = s := by
  simp only [State.trigArrive, h]

/-- A unit that is not triggered, or whose stop row is not taken, completes no segment. -/
theorem segmentComplete_still (h : s.fld (CAPU_STAT_STATE v) ≠ capTriggered ∨ (s.unitOf v).ended = false) :
    s.segmentComplete v = s := if_pos h

/-- A unit that stops is IDLE and not armed. -/
theorem capStop_shown (s : State) (hv : v < 8) :
    StateShown (s.capStop v) v capIdle ∧ (s.capStop v).flag (CAPU_CTL_ARM v) = false := by
  have hdeg : (CAPU_CTL_ARM v).addr ≠ (CAPU_STAT_DEG v).addr := by simp [CAPU_CTL_ARM, CAPU_STAT_DEG]
  have hstate : StateShown ((s.setCapState v capIdle).setFld (CAPU_CTL_ARM v) 0) v capIdle :=
    (StateShown.setCapState s hv (by decide)).setFld 0 (by simp only [CAPU_CTL_ARM, CAP_RUN_ARMED]; omega)
      (.inl (by simp [CAPU_CTL_ARM, CAPU_STAT_STATE]))
  have hunit : StateShown (((s.setCapState v capIdle).setFld (CAPU_CTL_ARM v) 0).setUnit v
      { CapUnit.reset with queue := (s.unitOf v).queue }) v capIdle := hstate.of_regs rfl
  refine ⟨hunit.setFld 0 (by simp only [CAPU_STAT_DEG, CAP_RUN_ARMED]; omega) (.inr (by simp [CAPU_STAT_DEG])), ?_⟩
  rw [State.capStop, flag_congr (fld_setFld_addr _ _ hdeg)]
  exact flag_clear (s.setCapState v capIdle) (CAPU_CTL_ARM v) (by simp [CAPU_CTL_ARM])

/-- A field that is given a value changes no unit. -/
theorem setFld_unitOf (s : State) (f : Field) (x k : Nat) : (s.setFld f x).unitOf k = s.unitOf k := rfl

/-- It forgets its segment, and keeps what is on its way. -/
theorem capStop_unitOf (s : State) (v k : Nat) :
    (s.capStop v).unitOf k = if k = v then { CapUnit.reset with queue := (s.unitOf v).queue } else s.unitOf k := by
  rw [State.capStop, setFld_unitOf, unitOf_setUnit, setFld_unitOf, State.setCapState, putBit_eq, putBit_eq, setFld_unitOf, setFld_unitOf,
    setFld_unitOf]

/-- Its counters stay. -/
theorem capStop_fld (s : State) {f : Field} (hstat : f.addr ≠ (CAPU_STAT_STATE v).addr) (hctl : f.addr ≠ (CAPU_CTL_ARM v).addr)
    (hrun : f.addr ≠ CAP_RUN_ARMED.addr) : (s.capStop v).fld f = s.fld f := by
  rw [State.capStop, fld_setFld_addr _ _ (by exact hstat), setUnit_fld, fld_setFld_addr _ _ hctl, State.setCapState, putBit_eq, putBit_eq,
    fld_setFld_addr _ _ (by exact hrun), fld_setFld_addr _ _ (by exact hrun), fld_setFld_addr _ _ hstat]

/-- The fields that the end of the last segment can write. -/
def endFields (v : Nat) : List Field :=
  CAPU_SEG_DONE_COUNT v :: CAP_STAT_SEG_DONE.bit v :: CAPU_CTL_ARM v :: CAPU_STAT_DEG v :: stateFields v

theorem KeepsFields.segmentDone (h : KeepsFields (endFields v) s u) : KeepsFields (endFields v) s (segmentDone u v) := by
  obtain ⟨m, hm⟩ := sdWrite_eq u (u.segBase v) (u.descriptor v false ++ zeros 4032)
  have hmem : KeepsFields (endFields v) s { u with sdram := m } := h.of_regs rfl
  rw [Sys2Proof.segmentDone, hm]
  exact (hmem.setFld _ _ (by simp [endFields])).setFld _ _ (by simp [endFields])

theorem KeepsFields.capStop (h : KeepsFields (endFields v) s u) : KeepsFields (endFields v) s (u.capStop v) :=
  ((((h.setCapState (fun f hf => by simp [endFields, hf]) _).setFld _ _ (by simp [endFields])).setUnit _ _).setFld _ _
    (by simp [endFields]))

theorem CapOnly.segmentDone (h : CapOnly s u) (v : Nat) : CapOnly s (segmentDone u v) := by
  obtain ⟨m, hm⟩ := sdWrite_eq u (u.segBase v) (u.descriptor v false ++ zeros 4032)
  rw [Sys2Proof.segmentDone, hm]
  exact ((h.setMem m).setFld _ _).setFld _ _

theorem CapOnly.capStop (h : CapOnly s u) (v : Nat) : CapOnly s (u.capStop v) :=
  ((((h.setCapState _ _).setFld _ _).setUnit _ _).setFld _ _)

/-- The converters and the units stay as they were, and memory holds the descriptor. -/
theorem segmentDone_same (s : State) (v : Nat) : (segmentDone s v).conv = s.conv ∧ (∀ k, (segmentDone s v).unitOf k = s.unitOf k) ∧
    (segmentDone s v).sdram = (s.sdWrite (s.segBase v) (s.descriptor v false ++ zeros 4032)).sdram := by
  obtain ⟨m, hm⟩ := sdWrite_eq s (s.segBase v) (s.descriptor v false ++ zeros 4032)
  rw [segmentDone, hm]
  exact ⟨rfl, fun _ => rfl, rfl⟩

/-- A unit that stops changes registers and its own state. -/
theorem capStop_eq (s : State) (v : Nat) : ∃ r c, s.capStop v = { s with regs := r, cap := c } := ⟨_, _, rfl⟩

/-- The segment is counted. -/
theorem segmentDone_counted (s : State) (hv : v < 8) :
    (segmentDone s v).fld (CAPU_SEG_DONE_COUNT v) = min (s.fld (CAPU_SEG_DONE_COUNT v) + 1) 0xFFFFFFFF ∧
      (segmentDone s v).bitSet CAP_STAT_SEG_DONE v = true := by
  refine ⟨?_, bitSet_stick _ _ _ (by simp only [CAP_STAT_SEG_DONE]; omega)⟩
  rw [segmentDone, stick_eq, fld_setFld_addr, fld_addSat_self _ _ _ (by simp [CAPU_SEG_DONE_COUNT]), sdWrite_fld]
  · rfl
  · simp only [CAPU_SEG_DONE_COUNT, Field.bit, CAP_STAT_SEG_DONE]
    omega

/-- A descriptor, padded to its block, stands where it was written, and no other byte changes. -/
theorem descriptorBlock_read {p t : State} {a : Nat} {bytes : List Byte}
    (hmem : t.sdram = (p.sdWrite a (bytes ++ zeros 4032)).sdram) (hcap : t.capacity = p.capacity) (hlen : bytes.length = 64)
    (hbase : sdramBase ≤ a) (hsize : a - sdramBase + 4096 ≤ p.capacity) :
    t.sdRead a 64 = bytes ∧ ∀ o : Nat, o < a - sdramBase ∨ a - sdramBase + 4096 ≤ o → t.sdByte o = p.sdByte o := by
  have hblock : (bytes ++ zeros 4032).length = 4096 := by rw [List.length_append, hlen, zeros, List.length_replicate]
  have hcap' : t.capacity = (p.sdWrite a (bytes ++ zeros 4032)).capacity := by rw [sdWrite_capacity, hcap]
  constructor
  · have hread := sdRead_writeAll p (ws := [(a, bytes ++ zeros 4032)]) (List.pairwise_singleton ..) (List.mem_singleton_self _)
      (k := 0) (len := 64) hbase (by rw [hblock]; decide) (by rw [hblock]; show a + 4096 ≤ _; omega)
    rw [sdRead_congr hcap' hmem]
    exact hread.trans (by rw [List.drop_zero, List.take_left' hlen])
  · intro o ho
    rw [sdByte_congr hcap' hmem, sdByte_sdWrite_out _ _ _ _ (by rw [hblock]; omega)]

end

/-- The last segment of a unit without MODE and REC: the unit goes IDLE, its segment is counted, and the descriptor stands at the
segment's beginning. -/
theorem Runs.segmentEnds {s : State} {v : Fin 8}
    (hexec : s.segmentComplete v = (segmentDone (s.unstage v (s.unitOf v).staged) v).capStop v)
    (hbase : sdramBase ≤ s.segBase v) (hsize : s.segBase v - sdramBase + 4096 ≤ s.capacity) :
    Runs (.segmentComplete v) s (endFields v) (fun t => { s with cap := t.cap, sdram := t.sdram })
      (fun t => StateShown t v capIdle ∧ t.flag (CAPU_CTL_ARM v) = false ∧ (∀ k : Nat, k ≠ v → t.unitOf k = s.unitOf k) ∧
        t.unitOf v = { CapUnit.reset with queue := (s.unitOf v).queue } ∧
        t.fld (CAPU_SEG_DONE_COUNT v) = min (s.fld (CAPU_SEG_DONE_COUNT v) + 1) 0xFFFFFFFF ∧
        t.bitSet CAP_STAT_SEG_DONE v = true ∧ t.sdRead (s.segBase v) 64 = s.descriptor v false ∧
        ∀ o : Nat, o < s.segBase v - sdramBase ∨ s.segBase v - sdramBase + 4096 ≤ o → t.sdByte o = s.sdByte o) := by
  have hdesc := unstage_descriptor s v (s.unitOf v).staged false
  have hunit := fun k => unstage_unitOf s v (s.unitOf v).staged k
  have hstay : KeepsFields (endFields v) s (s.unstage v (s.unitOf v).staged) ∧ CapOnly s (s.unstage v (s.unitOf v).staged) ∧
      (s.unstage v (s.unitOf v).staged).regs = s.regs ∧ (s.unstage v (s.unitOf v).staged).sdram = s.sdram ∧
      (s.unstage v (s.unitOf v).staged).conv = s.conv :=
    ⟨(KeepsFields.refl _ s).setUnit _ _, (CapOnly.refl s).setUnit _ _, rfl, rfl, rfl⟩
  generalize s.unstage v (s.unitOf v).staged = p at hexec hdesc hunit hstay
  obtain ⟨hfields, hcap, hregs, hsdram, hconv⟩ := hstay
  have hfld : ∀ f, p.fld f = s.fld f := fun f => by rw [State.fld, State.reg, hregs, State.fld, State.reg]
  have hseg : p.segBase v = s.segBase v := by
    simp only [State.segBase, State.capLen, hfld, State.pair, State.reg, hregs]
  have hcapacity : p.capacity = s.capacity := by
    simp only [State.capacity, State.pair, State.reg, hregs]
  obtain ⟨hconv', hunit', hmem⟩ := segmentDone_same p v
  obtain ⟨hcount, hmark⟩ := segmentDone_counted p v.isLt
  have hdone : KeepsFields (endFields v) s (segmentDone p v) ∧ CapOnly s (segmentDone p v) :=
    ⟨hfields.segmentDone, hcap.segmentDone v⟩
  generalize segmentDone p v = q at hexec hconv' hunit' hcount hmark hmem hdone
  obtain ⟨hfields', hcap'⟩ := hdone
  obtain ⟨hstate, harm⟩ := capStop_shown q v.isLt
  have hend := fun k => capStop_unitOf q v k
  have hkept := fun f => capStop_fld (v := v) q (f := f)
  have hother : (q.capStop v).sdram = q.sdram ∧ (q.capStop v).conv = q.conv := by
    obtain ⟨r, c, h⟩ := capStop_eq q v
    rw [h]
    exact ⟨rfl, rfl⟩
  have hstop : KeepsFields (endFields v) s (q.capStop v) ∧ CapOnly s (q.capStop v) := ⟨hfields'.capStop, hcap'.capStop v⟩
  generalize q.capStop v = u at hexec hstate harm hend hkept hother hstop
  obtain ⟨hfields'', hcap''⟩ := hstop
  have hbelow : ∀ g ∈ endFields v, g.addr < 0x90000 := fun g hg => by
    simp only [endFields, stateFields, List.mem_cons, List.not_mem_nil, or_false] at hg
    rcases hg with rfl | rfl | rfl | rfl | rfl | rfl | rfl
    all_goals
      simp only [CAPU_SEG_DONE_COUNT, CAP_STAT_SEG_DONE, CAPU_CTL_ARM, CAPU_STAT_DEG, CAPU_STAT_STATE, Field.bit, CAP_RUN_ARMED,
        CAP_RUN_TRIGGERED]
      omega
  have hunits : ∀ k, u.settle.unitOf k = u.unitOf k := fun k => by rw [State.unitOf, settle_cap, State.unitOf]
  have hcounter : ∀ f : Field, f = CAPU_SEG_DONE_COUNT v ∨ f = CAP_STAT_SEG_DONE.bit v → u.settle.fld f = q.fld f := fun f hf => by
    rcases hf with rfl | rfl
    all_goals
      rw [settle_fld _ _ (quiet_capture _ _), hkept]
      all_goals
        simp only [CAPU_SEG_DONE_COUNT, Field.bit, CAP_STAT_SEG_DONE, CAPU_STAT_STATE, CAPU_CTL_ARM, CAP_RUN_ARMED]
        omega
  rw [hseg, hdesc] at hmem
  obtain ⟨hread, helse⟩ := descriptorBlock_read (t := u.settle) (((settle_sdram u).trans hother.1).trans hmem)
    ((hfields''.settle.capacity hbelow).trans hcapacity.symm) (length_descriptor ..) hbase (hsize.trans_eq hcapacity.symm)
  refine Runs.capOnly (congrArg Machine.done hexec)
    ⟨hstate.settle v.isLt, ?_, fun k hk => ?_, ?_, ?_, ?_, hread, fun o ho => (helse o ho).trans (sdByte_congr hcapacity hsdram o)⟩
    hfields'' hcap'' ?_
  · rw [settle_flag _ _ (quiet_capture _ _), harm]
    all_goals simp only [CAPU_CTL_ARM]; omega
  · rw [hunits, hend, if_neg hk, hunit', hunit, if_neg hk]
  · rw [hunits, hend, if_pos rfl, hunit', hunit, if_pos rfl]
  · rw [hcounter _ (.inl rfl), hcount, hfld]
  · rw [bitSet_congr (hcounter _ (.inr rfl)), hmark]
  · rw [settle_cap, settle_sdram, hother.2, hconv', hconv]

/-- Settles O33: what each branch of a decision's arrival, of a row and of a segment's end does to the unit, its registers and capture
memory, from the lemma on that branch. -/
theorem captureUnitsFollowTheirStates : Obligations.CaptureUnitsFollowTheirStates := by
  intro s u ns x st n len others states stateIs
  refine ⟨fun hqueue => ?_, fun d rest hqueue => ?_, fun acked hst => ?_, fun acked hst hend hpass hspb => ?_, fun h => ?_,
    fun hst hend hlast hmode hrec hbase hsize => ?_⟩
  · exact Runs.still (congrArg Machine.done (trigArrive_nothing ns hqueue))
  · intro xt old missed
    refine ⟨fun hst => ?_, fun hst hold => ?_, fun hst hold => ?_⟩
    · exact Runs.missed false rfl (trigArrive_busy ns hqueue hst)
    · exact Runs.missed true rfl (trigArrive_stale ns hqueue hst hold)
    · exact Runs.accepted (trigArrive_accepted ns hqueue hst hold)
  · exact Runs.still (congrArg Machine.done (rowComplete_idle acked hst))
  · intro count fits
    refine ⟨fun h => Runs.rowDropped hst hend hpass hspb h, ?_⟩
    intro base hroom hcame hslots hbase hsize
    obtain ⟨t, hrun, h, hframe⟩ := Runs.rowWritten hst hend hpass hroom hcame hslots ⟨hbase, hsize⟩
    exact ⟨t, hrun, ⟨h.others, h.row, h.slot, h.gapNow, h.lost, h.gap, h.blocks, h.kept⟩, hframe⟩
  · exact Runs.still (congrArg Machine.done (segmentComplete_still h))
  · exact Runs.segmentEnds (segmentComplete_last hst hend hlast hmode hrec) hbase hsize

end Sys2Proof
end

section
/-! PROOFS. The statement of 11_timekeeping_tdc.md on missed windows, grid markers and code densities (O35). -/

namespace Sys2Proof

open Sys2Proof.Machine

/-! ### Windows that close (R314, R325) -/

section
variable {s t u : State} {c : Nat}

/-- A channel's next window has come to its close. -/
def WindowDue (s : State) (c : Nat) : Prop := ∃ t0 : Int, s.nextClose c = some t0 ∧ t0 ≤ s.trigNow

/-- A channel's window after the first that has not closed closes. -/
def closedWindow (s : State) (c : Nat) : ChanWin :=
  { s.chanOf c with closed := some (s.firstOpen c), hits := (s.chanOf c).hits.filter (fun h => decide (s.firstOpen c < h)) }

/-- A window put back is read back. -/
@[simp] theorem chanOf_setChan (s : State) (c d : Nat) (w : ChanWin) : (s.setChan c w).chanOf d = if d = c then w else s.chanOf d := by
  simp [State.chanOf, State.setChan]

/-- No window closes of a channel without an anchor. -/
theorem not_windowDue_of_anchor_none (h : s.fld (TIME_CH_CFG_ANCHOR c) = 0) : ¬WindowDue s c := by
  rintro ⟨t0, hclose, -⟩
  simp [State.nextClose, h] at hclose

/-- No CHANNEL window closes that has not begun. -/
theorem not_windowDue_of_no_start (h : s.fld (TIME_CH_CFG_ANCHOR c) = 3) (hstart : (s.chanOf c).start = none) : ¬WindowDue s c := by
  rintro ⟨t0, hclose, -⟩
  simp [State.nextClose, h, hstart] at hclose

/-- Before its close, and of channel 0 where it takes PPS without a window, nothing closes. -/
theorem windowClose_still (h : ¬WindowDue s c ∨ (c = 0 ∧ s.ppsFree = true)) : s.windowClose c = s := by
  refine if_pos ?_
  rcases h with h | ⟨hc, hfree⟩
  · cases hclose : s.nextClose c with
    | none => rfl
    | some t0 =>
      have hearly : ¬t0 ≤ s.trigNow := fun hle => h ⟨t0, hclose, hle⟩
      simp [hearly]
  · simp [hc, hfree]

/-- What closes otherwise: a CHANNEL window, or the first window of DEAL or SECOND that has not closed. -/
theorem windowClose_due (hdue : WindowDue s c) (hown : ¬(c = 0 ∧ s.ppsFree = true)) :
    s.windowClose c =
      if s.fld (TIME_CH_CFG_ANCHOR c) = 3 then (s.setChan c { s.chanOf c with start := none }).addSat (TIME_CH_MISS_COUNT c) 1
      else if decide (s.firstOpen c ∈ (s.chanOf c).hits) = true then s.setChan c (closedWindow s c)
      else if c = 0 ∧ s.fld (TIME_CH_CFG_ANCHOR c) = 2 then
        ((s.setChan c (closedWindow s c)).addSat (TIME_CH_MISS_COUNT c) 1).ppsMissed
      else (s.setChan c (closedWindow s c)).addSat (TIME_CH_MISS_COUNT c) 1 := by
  obtain ⟨t0, hclose, hle⟩ := hdue
  refine if_neg ?_
  simp only [hclose, hle, decide_true, Bool.not_true, Bool.false_or, Bool.and_eq_true, decide_eq_true_eq]
  exact hown

/-- The windows of channel 0 missed in a row are `n`. -/
def withMissRun (u : State) (n : Nat) : State := { u with time := { u.time with missRun := n } }

/-- A missed window of channel 0 before the third in a row. -/
theorem ppsMissed_counts (h : u.time.missRun < 2) : u.ppsMissed = withMissRun u (u.time.missRun + 1) := if_neg (by omega)

/-- The third in a row loses PPS. -/
theorem ppsMissed_loses (h : 2 ≤ u.time.missRun) :
    u.ppsMissed = ((withMissRun u 0).setFld TIME_STAT_PPS_LOST 1).logEvent 0x0304 sevAttention (u.fld TIME_PPS_MISS_COUNT) :=
  if_pos (by omega)

/-- The channel registers show no derived signal. -/
theorem quiet_of_channelAddr {f : Field} (h : 0x31000 ≤ f.addr) (h' : f.addr < 0x31500) : quiet f = true := by
  have hne : ∀ {a : Nat}, a < 0x31000 ∨ 0x31500 ≤ a → f.addr ≠ a := fun ha e => by omega
  have hreq : f.addr ≠ HOST_INT_REQ_REQ.addr := hne (by decide)
  have hpend : f.addr ≠ HOST_INT_PEND_PEND.addr := hne (by decide)
  have hsup : f.addr ≠ SUP_STAT_FAULT.addr := hne (by decide)
  have hhost : f.addr ≠ HOST_STAT_FAULT.addr := hne (by decide)
  have halert : f.addr ≠ VREG_STAT_ALERT.addr := hne (by decide)
  simp [quiet, hreq, hpend, hsup, hhost, halert]

/-- TIME_CHc_MISS shows no derived signal. -/
theorem quiet_missCount (c : Fin 20) : quiet (TIME_CH_MISS_COUNT c) = true :=
  quiet_of_channelAddr (by simp only [TIME_CH_MISS_COUNT]; omega) (by simp only [TIME_CH_MISS_COUNT]; omega)

/-- A channel's window changes, and nothing else. -/
theorem Runs.windowTaken {c : Fin 20} {w : ChanWin} (hexec : s.windowClose c = s.setChan c w) :
    Runs (.acceptanceWindowClose c) s [] (fun t => { s with time := { s.time with chan := t.time.chan } })
      (fun t => t.chanOf c = w) := by
  refine Runs.done (congrArg Machine.done hexec) ?_ ((KeepsFields.refl _ s).of_regs rfl) ?_ (List.append_nil _).symm
  · rw [State.chanOf, settle_time, ← State.chanOf, chanOf_setChan, if_pos rfl]
  · rw [settle_time]
    rfl

/-- A window that closes without an edge is counted, and another takes its place. -/
theorem Runs.windowMissed {c : Fin 20} {w : ChanWin}
    (hexec : s.windowClose c = (s.setChan c w).addSat (TIME_CH_MISS_COUNT c) 1) :
    Runs (.acceptanceWindowClose c) s [TIME_CH_MISS_COUNT c] (fun t => { s with time := { s.time with chan := t.time.chan } })
      (fun t => t.chanOf c = w ∧ t.fld (TIME_CH_MISS_COUNT c) = min (s.fld (TIME_CH_MISS_COUNT c) + 1) 0xFFFFFFFF) := by
  refine Runs.done (congrArg Machine.done hexec) ⟨?_, ?_⟩ ?_ ?_ (List.append_nil _).symm
  · rw [State.chanOf, settle_time, addSat_eq, setFld_time, ← State.chanOf, chanOf_setChan, if_pos rfl]
  · rw [settle_fld _ _ (quiet_missCount c), fld_addSat_self _ _ _ (by simp [TIME_CH_MISS_COUNT])]
    rfl
  · exact ((KeepsFields.refl _ s).of_regs rfl).setFld _ _ (List.mem_singleton.mpr rfl)
  · rw [settle_time]
    rfl

/-- Channel 0 misses a SECOND window: the miss is counted, and the third in a row loses PPS and is logged (R325). -/
theorem Runs.secondMissed {w : ChanWin}
    (hexec : s.windowClose 0 = ((s.setChan 0 w).addSat (TIME_CH_MISS_COUNT 0) 1).ppsMissed) :
    Runs (.acceptanceWindowClose 0) s (TIME_CH_MISS_COUNT 0 :: TIME_STAT_PPS_LOST :: logFields)
      (fun t => { withLogOf s t with
        time := { s.time with chan := t.time.chan, missRun := if 2 ≤ s.time.missRun then 0 else s.time.missRun + 1 } })
      (fun t => t.fld (TIME_CH_MISS_COUNT 0) = min (s.fld (TIME_CH_MISS_COUNT 0) + 1) 0xFFFFFFFF ∧ t.chanOf 0 = w ∧
        (2 ≤ s.time.missRun → t.flag TIME_STAT_PPS_LOST = true ∧
          (s.flag SUP_STAT_WDOG = false → t.flag HAND_STAT_LOG_ATTN = true)) ∧
        (s.time.missRun < 2 → t.flag TIME_STAT_PPS_LOST = s.flag TIME_STAT_PPS_LOST)) := by
  set u := (s.setChan 0 w).addSat (TIME_CH_MISS_COUNT 0) 1 with hu
  have hcount : u.fld (TIME_CH_MISS_COUNT 0) = min (s.fld (TIME_CH_MISS_COUNT 0) + 1) 0xFFFFFFFF := fld_addSat_self _ _ _ (by decide)
  have hwin : instGet ChanWin.reset u.time.chan 0 = w := (chanOf_setChan s 0 0 w).trans (if_pos rfl)
  have hflag : ∀ f : Field, f.addr ≠ (TIME_CH_MISS_COUNT 0).addr → u.flag f = s.flag f := fun f hf => flag_addSat_ne _ _ (.inl hf)
  have hkeeps : KeepsFields (TIME_CH_MISS_COUNT 0 :: TIME_STAT_PPS_LOST :: logFields) s u :=
    ((KeepsFields.refl _ s).of_regs rfl).setFld _ _ (List.mem_cons_self ..)
  have hrun : u.time.missRun = s.time.missRun := rfl
  have hparts : u = { s with regs := u.regs, time := { s.time with chan := u.time.chan } } := rfl
  clear_value u
  by_cases h : 2 ≤ s.time.missRun
  · rw [ppsMissed_loses (hrun ▸ h)] at hexec
    have hlost := (KeepsFields.of_regs (v := withMissRun u 0) hkeeps rfl).setFld TIME_STAT_PPS_LOST 1 (by simp)
    refine Runs.done (congrArg Machine.done hexec) ⟨?_, ?_, fun _ => ⟨?_, fun hw => ?_⟩, fun hlt => absurd h (by omega)⟩
      (hlost.logEvent _ _ _ fun f hf => by simp [hf]) ?_ ?_
    · rw [settle_fld _ _ (by decide), logEvent_fld _ _ _ _ _ (by decide) (by decide), fld_setFld_addr _ _ (by decide)]
      exact hcount
    · rw [State.chanOf, settle_time, logEvent_time, setFld_time]
      exact hwin
    · rw [settle_flag _ _ (by decide), logEvent_flag _ _ _ _ _ (by decide) (by decide), flag_set _ _ (by decide) (by decide)]
    · have hwdog : ((withMissRun u 0).setFld TIME_STAT_PPS_LOST 1).flag SUP_STAT_WDOG = false := by
        rw [flag_setFld_ne _ _ (.inl (by decide))]
        exact (hflag _ (by decide)).trans hw
      rw [settle_flag _ _ (by decide), logEvent_attn _ _ _ hwdog]
    · rw [settle_time, if_pos h, logEvent_time, withLogOf, settle_hand, settle_lastFatal, logEvent_parts, hparts]
      rfl
    · rw [logEvent_out, hparts]
      exact (List.append_nil _).symm
  · rw [ppsMissed_counts (by omega)] at hexec
    refine Runs.done (congrArg Machine.done hexec) ⟨?_, ?_, fun hle => absurd hle h, fun _ => ?_⟩ (hkeeps.of_regs rfl) ?_ ?_
    · exact (settle_fld _ _ (by decide)).trans hcount
    · rw [State.chanOf, settle_time]
      exact hwin
    · exact (settle_flag _ _ (by decide)).trans (hflag _ (by decide))
    · rw [settle_time, if_neg h, withLogOf, settle_hand, settle_lastFatal, hparts]
      rfl
    · rw [hparts]
      exact (List.append_nil _).symm

end

/-! ### Grid markers (R312) -/

section
variable {s : State}

/-- A marker joins the fit: it is the first of it, or lies within 4 LSB of its line. -/
def MarkerFits (s : State) (die : Nat) (k : Int) (t : Nat) : Prop :=
  let f := instGet GridFit.reset s.time.fit die
  f.points = [] ∨ (f.line s.nsps).agrees (2048 * k) t = true

/-- A fit that a marker has joined. -/
def fitJoined (f : GridFit) (k : Int) (t : Nat) : GridFit :=
  { marks := (some (2048 * k, t) :: f.marks).take 64, out := 0, agree := min 64 (f.agree + 1), bad := f.bad && decide (f.agree + 1 < 64) }

/-- A fit that a marker was left out of. -/
def fitLeft (f : GridFit) : GridFit :=
  { marks := (none :: f.marks).take 64, out := f.out + 1, agree := 0, bad := f.bad || decide (f.out = 63) }

/-- A die's fit is another. -/
def withFit (s : State) (die : Nat) (f : GridFit) : State :=
  { s with time := { s.time with fit := instSet .reset s.time.fit die f } }

/-- A marker that fits joins. -/
theorem gridMarker_fits {die : Nat} {k : Int} {t : Nat} (h : MarkerFits s die k t) :
    s.gridMarker die k t = withFit s die (fitJoined (instGet .reset s.time.fit die) k t) := by
  have hno : ¬((instGet GridFit.reset s.time.fit die).points ≠ [] ∧
      ((instGet GridFit.reset s.time.fit die).line s.nsps).agrees (2048 * k) t = false) := by
    rintro ⟨hpoints, haway⟩
    exact h.elim hpoints fun hagrees => absurd hagrees (by simp [haway])
  have hfew : decide (min 64 ((instGet GridFit.reset s.time.fit die).agree + 1) < 64) =
      decide ((instGet GridFit.reset s.time.fit die).agree + 1 < 64) := decide_eq_decide.mpr (by omega)
  refine (if_neg hno).trans ?_
  simp only [fitJoined, withFit, hfew]

/-- Any other marker is left out, and sets GRID_ERR; the 64th in a row is logged. -/
theorem gridMarker_away {die : Nat} {k : Int} {t : Nat} (h : ¬MarkerFits s die k t) :
    s.gridMarker die k t =
      let u := (withFit s die (fitLeft (instGet .reset s.time.fit die))).setFld TIME_STAT_GRID_ERR 1
      if (instGet GridFit.reset s.time.fit die).out = 63 then u.logEvent 0x0306 sevAttention die else u := by
  obtain ⟨hpoints, hagrees⟩ := not_or.mp h
  refine (if_pos ⟨hpoints, Bool.eq_false_iff.mpr hagrees⟩).trans ?_
  by_cases hout : (instGet GridFit.reset s.time.fit die).out = 63
  · simp [hout, fitLeft, withFit]
  · have hother : (instGet GridFit.reset s.time.fit die).out + 1 ≠ 64 := by omega
    simp [hout, hother, fitLeft, withFit]

/-- A fit put in its place is read back. -/
theorem instGet_withFit (s : State) (die : Nat) (f : GridFit) : instGet GridFit.reset (withFit s die f).time.fit die = f := by
  simp [withFit]

/-- What a grid marker does to its die's fit, and to GRID_ERR. -/
theorem Runs.gridMarker (s : State) (die : Fin 2) (k : Int) (count : BitVec 48) (code : BitVec 9) :
    let t := 512 * count.toNat + code.toNat
    Runs (.gridMarker die k count code) s (TIME_STAT_GRID_ERR :: logFields)
      (fun u => { withLogOf s u with time := { s.time with fit := u.time.fit } })
      (fun u =>
        (MarkerFits s die k t → instGet GridFit.reset u.time.fit die = fitJoined (instGet .reset s.time.fit die) k t ∧
          u.flag TIME_STAT_GRID_ERR = s.flag TIME_STAT_GRID_ERR) ∧
        (¬MarkerFits s die k t → instGet GridFit.reset u.time.fit die = fitLeft (instGet .reset s.time.fit die) ∧
          u.flag TIME_STAT_GRID_ERR = true)) := by
  intro t
  by_cases h : MarkerFits s die k t
  · refine Runs.done (congrArg Machine.done (gridMarker_fits h)) ⟨fun _ => ⟨?_, ?_⟩, fun hno => absurd h hno⟩
      ((KeepsFields.refl _ s).of_regs rfl) ?_ (List.append_nil _).symm
    · rw [settle_time, instGet_withFit]
    · exact settle_flag _ _ (by decide)
    · rw [settle_time, withLogOf, settle_hand, settle_lastFatal]
      rfl
  · set u := (withFit s die (fitLeft (instGet .reset s.time.fit die))).setFld TIME_STAT_GRID_ERR 1 with hu
    have hkeeps : KeepsFields (TIME_STAT_GRID_ERR :: logFields) s u :=
      ((KeepsFields.refl _ s).of_regs rfl).setFld _ _ (List.mem_cons_self ..)
    have herr : u.flag TIME_STAT_GRID_ERR = true := flag_set _ _ (by decide) (by decide)
    have hfit : instGet GridFit.reset u.time.fit die = fitLeft (instGet .reset s.time.fit die) := instGet_withFit s die _
    have hexec := gridMarker_away h
    by_cases hout : (instGet GridFit.reset s.time.fit die).out = 63
    · replace hexec := hexec.trans (if_pos hout)
      refine Runs.done (congrArg Machine.done hexec) ⟨fun hyes => absurd hyes h, fun _ => ⟨?_, ?_⟩⟩ ?_ ?_ ?_
      · rw [settle_time, logEvent_time, hfit]
      · rw [settle_flag _ _ (by decide), logEvent_flag _ _ _ _ _ (by decide) (by decide), herr]
      · exact hkeeps.logEvent _ _ _ fun f hf => List.mem_cons_of_mem _ hf
      · rw [settle_time, withLogOf, settle_hand, settle_lastFatal, logEvent_time, logEvent_parts]
        rfl
      · rw [logEvent_out]
        exact (List.append_nil _).symm
    · replace hexec := hexec.trans (if_neg hout)
      refine Runs.done (congrArg Machine.done hexec) ⟨fun hyes => absurd hyes h, fun _ => ⟨?_, ?_⟩⟩ hkeeps ?_ (List.append_nil _).symm
      · rw [settle_time, hfit]
      · rw [settle_flag _ _ (by decide), herr]
      · rw [settle_time, withLogOf, settle_hand, settle_lastFatal]
        rfl

end

/-! ### Linearisation tables (R311) -/

/-- A code density with enough hits gives its channel a table, and leaves every other channel's. -/
theorem refreshTable_tables (s : State) (c : Nat) (hits : List Nat) (d : Nat) :
    instGet [] (s.refreshTable c hits).time.tables d =
      if d = c ∧ 2 ^ 20 ≤ hits.sum ∧ hits.length = 512 then linearTable hits else instGet [] s.time.tables d := by
  unfold State.refreshTable
  split
  · next h => simp only [instGet_instSet, h, and_self, and_true]
  · next h => rw [if_neg fun hd => h hd.2]

/-- Everything that a code density can change. -/
theorem refreshTable_eq (s : State) (c : Nat) (hits : List Nat) :
    s.refreshTable c hits = { s with time := { s.time with tables := (s.refreshTable c hits).time.tables } } := by
  unfold State.refreshTable
  split <;> rfl

/-- Settles O35: the cases of a window's close, a marker that fits or does not, and the table of a code density. -/
theorem windowsMarkersAndTablesAreJudged : Obligations.WindowsMarkersAndTablesAreJudged := by
  intro s c die k count code hits w anchor own miss missed due m past chans close
  refine ⟨fun h => ?_, fun h => ?_, fun hdue hown h => ?_, fun hdue hown h hin => ?_, fun hdue hown h hnot => ?_,
    fun hdue hown h hc hnot => ?_, ?_, ?_⟩
  · exact Runs.still (congrArg Machine.done (windowClose_still (h.imp id not_not.mp)))
  · exact h.elim not_windowDue_of_anchor_none fun h => not_windowDue_of_no_start h.1 h.2
  · exact Runs.windowMissed ((windowClose_due hdue hown).trans (if_pos h))
  · have hother : ¬anchor = 3 := by omega
    exact Runs.windowTaken ((windowClose_due hdue hown).trans ((if_neg hother).trans (if_pos (decide_eq_true hin))))
  · have hother : ¬anchor = 3 := by omega
    have hplain : ¬(c.val = 0 ∧ anchor = 2) := by omega
    have hmiss : ¬decide (m ∈ w.hits) = true := fun hin => hnot (of_decide_eq_true hin)
    have hexec := (windowClose_due hdue hown).trans ((if_neg hother).trans ((if_neg hmiss).trans (if_neg hplain)))
    obtain ⟨t, hrun, ⟨hwin, hmiss⟩, hframe⟩ := Runs.windowMissed hexec
    exact ⟨t, hrun, ⟨hmiss, hwin⟩, hframe⟩
  · obtain rfl : c = 0 := Fin.ext hc
    have hother : ¬anchor = 3 := by omega
    have hmiss : ¬decide (m ∈ w.hits) = true := fun hin => hnot (of_decide_eq_true hin)
    exact Runs.secondMissed ((windowClose_due hdue hown).trans ((if_neg hother).trans ((if_neg hmiss).trans (if_pos ⟨rfl, h⟩))))
  · exact Runs.gridMarker s die k count code
  · refine Runs.done (congrArg Machine.done (refreshTable_eq s c hits)) ?_ ((KeepsFields.refl _ s).of_regs rfl) ?_
      (List.append_nil _).symm
    · simp only [settle_time, refreshTable_tables]
      exact ⟨by simp, fun d hd => if_neg fun h => hd h.1⟩
    · rw [settle_time]

end Sys2Proof
end

section
/-! PROOFS. The statement of 11_timekeeping_tdc.md on timed edges (O34): what the consumer of an edge leaves of the channel registers,
how an accepted edge fills them, and the statement. -/

namespace Sys2Proof

open Sys2Proof.Machine

/-! ### What the consumer of an edge leaves -/

/-- The channel registers, TIME_STAT.PPS, and whether a PPS was accepted in the second stay as they were. -/
structure EdgeKept (s t : State) : Prop where
  reg : ∀ a, 0x31000 ≤ a → a < 0x31500 → t.reg a = s.reg a
  pps : t.flag TIME_STAT_PPS = s.flag TIME_STAT_PPS
  inSecond : t.time.inSecond = s.time.inSecond

section
variable {s t u v : State}

theorem EdgeKept.refl (s : State) : EdgeKept s s := ⟨fun _ _ _ => rfl, rfl, rfl⟩

theorem EdgeKept.trans (h : EdgeKept s t) (h' : EdgeKept t u) : EdgeKept s u :=
  ⟨fun a ha hb => (h'.reg a ha hb).trans (h.reg a ha hb), h'.pps.trans h.pps, h'.inSecond.trans h.inSecond⟩

/-- The registers are another state's, and so is what the second has seen. -/
theorem EdgeKept.of_same (h : EdgeKept s u) (hr : v.regs = u.regs := by rfl) (hi : v.time.inSecond = u.time.inSecond := by rfl) :
    EdgeKept s v :=
  h.trans ⟨fun a _ _ => by rw [State.reg, hr, State.reg], flag_of_regs hr, hi⟩

/-- The TIME block's own state changes, and not what the second has seen. -/
theorem EdgeKept.withTime (h : EdgeKept s u) (x : TimeState) (hx : x.inSecond = u.time.inSecond) : EdgeKept s { u with time := x } :=
  h.of_same rfl hx

/-- A register outside the channels' and TIME_STAT is given a value. -/
theorem EdgeKept.setReg (h : EdgeKept s u) {a : Nat} (w : Word) (ha : a < 0x31000 ∨ 0x31500 ≤ a) (hs : a ≠ TIME_STAT_PPS.addr) :
    EdgeKept s (u.setReg a w) :=
  h.trans ⟨fun b hb hb' => by rw [reg_setReg, if_neg (by omega)], flag_setReg _ _ _ _ hs.symm, rfl⟩

/-- A field outside the channel registers and apart from TIME_STAT.PPS is given a value. -/
theorem EdgeKept.setFld (h : EdgeKept s u) (f : Field) (x : Nat) (ha : f.addr < 0x31000 ∨ 0x31500 ≤ f.addr := by decide)
    (hs : TIME_STAT_PPS.addr ≠ f.addr ∨ f.lo + f.width ≤ TIME_STAT_PPS.lo ∨ TIME_STAT_PPS.lo + TIME_STAT_PPS.width ≤ f.lo := by decide) :
    EdgeKept s (u.setFld f x) :=
  h.trans ⟨fun b hb hb' => reg_setFld_ne _ _ _ (by omega), flag_setFld_ne _ _ hs, rfl⟩

/-- A pair outside both is given a value. -/
theorem EdgeKept.setPair (h : EdgeKept s u) (p : Pair) (x : Nat) (ha : p.addr + 4 < 0x31000 ∨ 0x31500 ≤ p.addr := by decide)
    (hs : p.addr ≠ TIME_STAT_PPS.addr ∧ p.addr + 4 ≠ TIME_STAT_PPS.addr := by decide) : EdgeKept s (u.setPair p x) :=
  (h.setReg _ (by omega) hs.1).setReg _ (by omega) hs.2

/-- An event is logged. -/
theorem EdgeKept.logEvent (h : EdgeKept s u) (c sev arg : Nat) : EdgeKept s (u.logEvent c sev arg) :=
  h.trans ⟨fun b hb hb' => logEvent_reg _ _ _ _ (by simp only [HAND_LOG_COUNT_COUNT]; omega) (by simp only [HAND_STAT_LOG_ATTN]; omega),
    logEvent_flag _ _ _ _ _ (by decide) (by decide), by rw [logEvent_time]⟩

/-- Of two updates one is done. -/
theorem EdgeKept.ite {c : Prop} [Decidable c] (hu : EdgeKept s u) (hv : EdgeKept s v) : EdgeKept s (if c then u else v) :=
  iteInduction (motive := EdgeKept s) (fun _ => hu) fun _ => hv

/-- The derived signals are brought up to date. -/
theorem EdgeKept.settle (h : EdgeKept s u) : EdgeKept s u.settle := by
  refine h.trans ⟨fun a ha hb => settle_reg u ?_, settle_flag u _ (by decide), by rw [settle_time]⟩
  have hne : ∀ {b : Nat}, b < 0x31000 ∨ 0x31500 ≤ b → a ≠ b := fun hb e => by omega
  exact ⟨hne (by decide), hne (by decide), hne (by decide), hne (by decide), hne (by decide)⟩

/-! #### PPS (R38, R39, R322 to R326) -/

/-- A PPS is noted: its time and position, in its second, and TIME_STAT.PPS. -/
def ppsNoted (s : State) (t pos : Int) : State :=
  ({ s with time := { s.time with
      lastPps := some (t, pos), closePps := if pos ≤ s.closePos s.deal.next then some pos else s.time.closePps,
      inSecond := true } } : State).setFld TIME_STAT_PPS 1

theorem EdgeKept.setChan (h : EdgeKept s u) (c : Nat) (w : ChanWin) : EdgeKept s (u.setChan c w) := h.of_same

/-- The epoch is shown. -/
theorem EdgeKept.showEpoch (h : EdgeKept s u) : EdgeKept s u.showEpoch :=
  (((h.setPair TIME_X0 _).setFld TIME_X0_FRAC_FRAC _).setPair TIME_EPOCH_SEC _).setFld TIME_STAT_EPOCH_SET _

/-- An epoch is put in force. -/
theorem EdgeKept.putEpoch (h : EdgeKept s u) (n : Nat) (x0 secAt change : Int) (told : Bool) :
    EdgeKept s (u.putEpoch n x0 secAt change told) := by
  refine EdgeKept.showEpoch ?_
  split
  · exact EdgeKept.setPair h.of_same TIME_STEP _
  · exact h.of_same

/-- The Dealers count on from an index. -/
theorem EdgeKept.countFrom (h : EdgeKept s u) (j : Int) : EdgeKept s (u.countFrom j) := by
  obtain ⟨d, hd⟩ := countDealers_eq (List.range 4) j u
  rw [State.countFrom, hd]
  exact h.of_same

/-- The device starts unaligned. -/
theorem EdgeKept.unaligned (h : EdgeKept s u) (arg : Nat) : EdgeKept s (u.unaligned arg) := by
  have hmark : EdgeKept s (markUnaligned u arg) :=
    ((h.withTime { u.time with waitAlign := false } rfl).setFld DEAL_STAT_UNALIGNED 1).logEvent _ _ _
  obtain ⟨d, hd⟩ := countUnaligned_eq (markUnaligned u arg)
  rw [unaligned_eq, hd]
  exact .ite hmark.of_same hmark

/-- The Dealers align to a PPS. -/
theorem EdgeKept.alignTo (h : EdgeKept s u) (sec : Nat) (n : Int) (o : Nat) (pos : Int) : EdgeKept s (u.alignTo sec n o pos) := by
  unfold State.alignTo
  simp only
  split
  · exact (h.unaligned 1).withTime _ rfl
  · obtain ⟨d, hd⟩ := countDealers_eq (List.range 4) (((sec - u.pair DEAL_ALIGN_SEC) * u.nsps / 400 : Nat) : Int) u
    rw [State.countFrom, hd]
    exact EdgeKept.putEpoch h.of_same _ _ _ _ _

/-- An epoch waits for its tick. -/
theorem EdgeKept.stageEpoch (h : EdgeKept s u) (x0 secAt : Int) : EdgeKept s (u.stageEpoch x0 secAt) := .ite h.of_same h.of_same

/-- A step waits for its tick. -/
theorem EdgeKept.stageStep (h : EdgeKept s u) (e : Int) : EdgeKept s (u.stageStep e) := .ite h.of_same h.of_same

/-- The drift of PPS is judged. -/
theorem EdgeKept.judgeDrift (h : EdgeKept s u) (e : Int) (first : Bool) : EdgeKept s (u.judgeDrift e first) :=
  have hrun := h.withTime { u.time with driftRun := if u.fld TIME_PPS_TOL_TOL < e.natAbs then u.time.driftRun + b2n first else 0 } rfl
  .ite ((hrun.setFld TIME_STAT_PPS_DRIFT 1).logEvent _ _ _) hrun

/-- The error `e` of a PPS is stored. -/
def errorStored (u : State) (e : Int) : State :=
  ({ u with time := { u.time with lastErr := some e, missRun := 0 } } : State).setFld TIME_PPS_ERR_E
    (ofSigned 32 (clampInt (-(2 ^ 31 - 1)) (2 ^ 31 - 1) e))

/-- It is judged, and the windows that open from then on count again. -/
def errorJudged (u : State) (e pos : Int) (first : Bool) : State :=
  ((if u.ppsFree = true then
      u.setChan 0 { u.chanOf 0 with hits := [], closed := none, since := max (u.chanOf 0).since (pos / 65536 + 1) }
    else u).judgeDrift e first).setFld TIME_STAT_PPS_LOST 0

/-- The error of a PPS is stored and judged; REQUAL ends with a step. -/
theorem ppsError_eq (u : State) (pos : Int) (first : Bool) :
    u.ppsError pos first =
      let v := errorJudged (errorStored u (u.ppsDelta pos)) (u.ppsDelta pos) pos first
      if v.flag TIME_STAT_REQUAL = true then (v.setFld TIME_STAT_REQUAL 0).stageStep (u.ppsDelta pos) else v := rfl

theorem EdgeKept.ppsError (h : EdgeKept s u) (pos : Int) (first : Bool) : EdgeKept s (u.ppsError pos first) := by
  have hstored : EdgeKept s (errorStored u (u.ppsDelta pos)) := 
    (h.withTime { u.time with lastErr := some (u.ppsDelta pos), missRun := 0 } rfl).setFld TIME_PPS_ERR_E _
  have hjudged : EdgeKept s (errorJudged (errorStored u (u.ppsDelta pos)) (u.ppsDelta pos) pos first) :=
    ((EdgeKept.ite (hstored.setChan 0 _) hstored).judgeDrift _ _).setFld TIME_STAT_PPS_LOST 0
  rw [ppsError_eq]
  exact .ite ((hjudged.setFld TIME_STAT_REQUAL 0).stageStep _) hjudged

/-- An accepted PPS is noted, and what follows leaves that. -/
theorem ppsAccept_keeps (s : State) (n : Int) (o : Nat) (t : Int) : ∃ pos, EdgeKept (ppsNoted s t pos) (s.ppsAccept n o t) := by
  set pos := roundEvenDiv (t - toSigned 16 (s.fld TIME_PPS_DELAY_DELAY) * s.unitLsb) unitFrac.toNat with hpos
  have hnoted := EdgeKept.refl (ppsNoted s t pos)
  have htaken := (hnoted.withTime { (ppsNoted s t pos).time with taken := true } rfl).setFld TIME_STAT_REQUAL 0
  have hreset : EdgeKept (ppsNoted s t pos) (if (ppsNoted s t pos).epoch.isSet = true then (ppsNoted s t pos).ppsError pos (!s.time.inSecond)
      else (ppsNoted s t pos).setFld TIME_STAT_REQUAL 0) := .ite (hnoted.ppsError _ _) (hnoted.setFld TIME_STAT_REQUAL 0)
  refine ⟨pos, ?_⟩
  unfold State.ppsAccept
  simp only
  split
  · exact .ite hreset (.ite (htaken.alignTo _ _ _ _) (htaken.stageEpoch _ _))
  · exact hreset

/-! #### Triggers (R273, R284 to R288) -/

/-- A fire that reaches the units and the outputs leaves the TIME block. -/
theorem fireReached_time (s : State) (n : Nat) (ev : TrigEvent) : (fireReached s n ev).time = s.time := by
  obtain ⟨c, hc⟩ := reachUnits_eq n ev (List.range 8) s
  rw [fireReached, hc]
  refine (List.range 2).foldlRecOn _ (motive := fun t => State.time t = s.time) rfl fun t ht o _ => ?_
  obtain ⟨_, _, _, _, _, hout⟩ := OutsOnly.fireOut t n o ev.time
  rw [hout, ht]

/-- What happens in one of the eight slots leaves it. -/
theorem keptBySlot_edgeKept {n : Nat} (hn : n < 8) : KeptBySlot n (EdgeKept s) := by
  have hslot : ∀ {u : State} (b : Nat) (w : Word), 0x71000 ≤ b → EdgeKept s u → EdgeKept s (u.setReg (b + n * 0x100) w) :=
    fun b w hb h => h.setReg w (.inr (by omega)) (by simp only [TIME_STAT_PPS]; omega)
  have hstat : ∀ {u : State} (w : Word), EdgeKept s u → EdgeKept s (u.setReg 0x70000 w) :=
    fun w h => h.setReg w (.inr (by decide)) (by decide)
  refine ⟨fun u x h => h.of_same, fun u h => hstat _ (hslot _ _ (by decide) h), fun u ev h => ?_,
    fun u h => hslot _ _ (by decide) (hslot _ _ (by decide) h)⟩
  have hreached : EdgeKept s (fireReached u n ev) := h.of_same (fireReached_same u n ev).1 (by rw [fireReached_time])
  rw [fire_eq]
  refine hstat _ (hslot _ _ (by decide) (hslot _ _ (by decide) (hreached.setPair _ _ (.inr ?_) ?_)))
  all_goals simp only [TRGS_LAST_IDX, TIME_STAT_PPS]; omega

/-- A timed edge reaches TRG. -/
theorem EdgeKept.trigEdge (h : EdgeKept s u) (c : Nat) (t : Int) (ref : Bool) : EdgeKept s (u.trigEdge c t ref) :=
  .ite h (.ite (foldl_giveSlot_keeps (fun _ hm => keptBySlot_edgeKept (List.mem_range.mp hm)) _ _ h)
    (foldl_giveSlot_keeps (fun _ hm => keptBySlot_edgeKept (List.mem_range.mp hm)) _ _ h))

end

/-! ### The channel registers of an accepted edge (R308, R314, R328) -/

/-- The channel registers show an edge: its raw index, its offset with its marks, the interval of CHANNEL mode, and one edge more than
in `s`. -/
structure EdgeShown (s : State) (c : Nat) (n : Int) (o : Nat) (ref : Bool) (ival : Option Int) (t : State) : Prop where
  index : t.pair (TIME_CH_LAST_IDX c) = ofSigned 64 n
  info : t.reg (TIME_CH_LAST_INFO c).addr =
    BitVec.ofNat 32 (2 ^ 31 + b2n ref * 2 ^ 30 + b2n ival.isSome * 2 ^ 29 + o % 2 ^ 16)
  count : t.fld (TIME_CH_COUNT_COUNT c) = min (s.fld (TIME_CH_COUNT_COUNT c) + 1) 0xFFFFFFFF
  ival : ∀ i : Int, ival = some i → t.pair (TIME_CH_IVAL c) = ofSigned 48 i

section
variable {s t u : State} {c : Nat}

/-- They show it as long as they stay. -/
theorem EdgeShown.of_kept {n : Int} {o : Nat} {ref : Bool} {ival : Option Int} (hc : c < 20) (h : EdgeShown s c n o ref ival t)
    (hk : ∀ a, 0x31000 ≤ a → a < 0x31500 → u.reg a = t.reg a) : EdgeShown s c n o ref ival u := by
  have hreg : ∀ b, b < 0x40 → u.reg (0x31000 + b + c * 0x40) = t.reg (0x31000 + b + c * 0x40) :=
    fun b hb => hk _ (by omega) (by omega)
  have hpair : ∀ b, b < 0x3C → u.pair ⟨0x31000 + b + c * 0x40⟩ = t.pair ⟨0x31000 + b + c * 0x40⟩ := fun b hb => by
    rw [State.pair, State.pair, hk _ (by dsimp only; omega) (by dsimp only; omega),
      hk _ (by dsimp only; omega) (by dsimp only; omega)]
  exact ⟨(hpair 0x10 (by decide)).trans h.index, (hreg 0x18 (by decide)).trans h.info,
    (fld_congr (hreg 0x28 (by decide))).trans h.count, fun i hi => (hpair 0x20 (by decide)).trans (h.ival i hi)⟩

/-- The window that takes an edge, and the windows that it begins, lie in the TIME block. -/
theorem useWindow_eq (s : State) (c : Nat) (t : Int) : ∃ w, s.useWindow c t = { s with time := { s.time with chan := w } } := by
  unfold State.useWindow
  split
  · exact ⟨_, rfl⟩
  · split
    · exact ⟨_, rfl⟩
    · exact ⟨_, rfl⟩
    · split <;> exact ⟨_, rfl⟩

/-- The windows that an edge begins leave the registers. -/
theorem EdgeKept.startWindows (h : EdgeKept s u) (c : Nat) (t : Int) : EdgeKept s (u.startWindows c t) :=
  (List.range 20).foldlRecOn _ (motive := EdgeKept s) h fun _ hv _ _ => .ite (hv.setChan _ _) hv

/-- The interval of CHANNEL mode is shown, where there is one. -/
def intervalShown (s : State) (c : Nat) : Option Int → State
  | some i => s.setPair (TIME_CH_IVAL c) (ofSigned 48 i)
  | none => s

/-- It writes TIME_CHc_IVAL alone. -/
theorem intervalShown_reg (s : State) (ival : Option Int) {a : Nat} (h : a ≠ (TIME_CH_IVAL c).addr ∧ a ≠ (TIME_CH_IVAL c).addr + 4) :
    (intervalShown s c ival).reg a = s.reg a := by
  cases ival with
  | none => rfl
  | some i => exact reg_setPair_ne _ _ _ h.1 h.2

/-- What an accepted edge writes to its channel's registers. -/
theorem noteEdge_eq (s : State) (c : Nat) (n : Int) (o : Nat) (ref : Bool) (ival : Option Int) :
    s.noteEdge c n o ref ival =
      (intervalShown ((s.setPair (TIME_CH_LAST_IDX c) (ofSigned 64 n)).setReg (TIME_CH_LAST_INFO c).addr
        (BitVec.ofNat 32 (2 ^ 31 + b2n ref * 2 ^ 30 + b2n ival.isSome * 2 ^ 29 + o % 2 ^ 16))) c ival).addSat (TIME_CH_COUNT_COUNT c) 1 := by
  have hinfo : 2 ^ 31 + b2n ref <<< 30 + b2n ival.isSome <<< 29 + o % 65536 =
      2 ^ 31 + b2n ref * 2 ^ 30 + b2n ival.isSome * 2 ^ 29 + o % 2 ^ 16 := by simp only [Nat.shiftLeft_eq, Nat.reducePow]
  unfold State.noteEdge
  rw [hinfo]
  cases ival <;> rfl

/-- An accepted edge fills its channel's registers. -/
theorem noteEdge_shows (s : State) (c : Nat) (n : Int) (o : Nat) (ref : Bool) (ival : Option Int) :
    EdgeShown s c n o ref ival (s.noteEdge c n o ref ival) := by
  rw [noteEdge_eq]
  set u := (s.setPair (TIME_CH_LAST_IDX c) (ofSigned 64 n)).setReg (TIME_CH_LAST_INFO c).addr
    (BitVec.ofNat 32 (2 ^ 31 + b2n ref * 2 ^ 30 + b2n ival.isSome * 2 ^ 29 + o % 2 ^ 16)) with hu
  have hreg : ∀ a : Nat, a ≠ 0x31020 + c * 0x40 → a ≠ 0x31020 + c * 0x40 + 4 → (intervalShown u c ival).reg a = u.reg a :=
    fun a ha ha' => intervalShown_reg u ival ⟨ha, ha'⟩
  refine ⟨?_, ?_, ?_, fun i hi => ?_⟩
  · rw [addSat_eq, pair_setFld_ne, State.pair, hreg, hreg, ← State.pair, hu, pair_setReg_ne, pair_setPair,
      Nat.mod_eq_of_lt (ofSigned_lt 64 n)]
    all_goals simp only [TIME_CH_LAST_IDX, TIME_CH_LAST_INFO, TIME_CH_COUNT_COUNT]; omega
  · rw [addSat_eq, reg_setFld_ne, hreg, hu, reg_setReg, if_pos rfl]
    all_goals simp only [TIME_CH_LAST_INFO, TIME_CH_COUNT_COUNT]; omega
  · rw [fld_addSat_self _ _ _ (by simp [TIME_CH_COUNT_COUNT]), fld_congr (hreg _ _ _), hu, fld_setReg_ne, fld_setPair_ne]
    · rfl
    all_goals simp only [TIME_CH_LAST_IDX, TIME_CH_LAST_INFO, TIME_CH_COUNT_COUNT]; omega
  · subst hi
    rw [addSat_eq, pair_setFld_ne, intervalShown, pair_setPair, Nat.mod_eq_of_lt ((ofSigned_lt 48 i).trans (by decide))]
    all_goals simp only [TIME_CH_IVAL, TIME_CH_COUNT_COUNT]; omega

/-- What the registers show counts from a state whose count is the same. -/
theorem EdgeShown.of_count {n : Int} {o : Nat} {ref : Bool} {ival : Option Int} (h : EdgeShown u c n o ref ival t)
    (hc : u.fld (TIME_CH_COUNT_COUNT c) = s.fld (TIME_CH_COUNT_COUNT c)) : EdgeShown s c n o ref ival t :=
  ⟨h.index, h.info, hc ▸ h.count, h.ival⟩

/-! ### Timed edges (R307 to R309) -/

/-- Channel 0 to 18 has noted an accepted edge and begun the windows that it starts. -/
def edgeNoted (s : State) (c : Nat) (n : Int) (o : Nat) : State :=
  ((s.useWindow c (s.edgeTime n o)).noteEdge c n o s.resultsLost (s.judgeEdge c (s.edgeTime n o)).2).startWindows c (s.edgeTime n o)

/-- An edge that channel 0 to 18 accepts is noted and goes to its consumer. -/
theorem edge_accepted {n : Int} {o : Nat} {x : Crossing} (hclock : s.time.grid = true ∧ s.deal.stopped = false) (hc : c ≠ 19)
    (htaken : s.chanWorks c = true ∧ s.edgeDriven c (s.edgeTime n o) x = true) (hok : (s.judgeEdge c (s.edgeTime n o)).1 = true) :
    s.edge c n o x =
      if c = 0 then (edgeNoted s c n o).ppsAccept n o (s.edgeTime n o)
      else (edgeNoted s c n o).trigEdge c (s.edgeTime n o) s.resultsLost := by
  have hruns : ¬(s.time.grid = false ∨ s.deal.stopped = true) := by simp [hclock]
  have hdriven : ¬(!s.chanWorks c || !s.edgeDriven c (s.edgeTime n o) x) = true := by simp [htaken]
  refine (if_neg hruns).trans ((if_neg hc).trans ((if_neg hdriven).trans (if_pos hok)))

/-- The registers show an accepted edge. -/
theorem edgeNoted_shows (s : State) (hc : c < 20) (n : Int) (o : Nat) :
    EdgeShown s c n o s.resultsLost (s.judgeEdge c (s.edgeTime n o)).2 (edgeNoted s c n o) := by
  obtain ⟨w, hw⟩ := useWindow_eq s c (s.edgeTime n o)
  have hcount : (s.useWindow c (s.edgeTime n o)).fld (TIME_CH_COUNT_COUNT c) = s.fld (TIME_CH_COUNT_COUNT c) := by
    rw [hw]
    rfl
  exact ((noteEdge_shows _ c n o _ _).of_count hcount).of_kept hc ((EdgeKept.refl _).startWindows _ _).reg

/-- The registers show an edge that channel 0 to 18 accepts; one of channel 0 is a PPS. -/
theorem edge_accepted_shows {n : Int} {o : Nat} {x : Crossing} (hclock : s.time.grid = true ∧ s.deal.stopped = false) (hc : c < 19)
    (htaken : s.chanWorks c = true ∧ s.edgeDriven c (s.edgeTime n o) x = true) (hok : (s.judgeEdge c (s.edgeTime n o)).1 = true) :
    EdgeShown s c n o s.resultsLost (s.judgeEdge c (s.edgeTime n o)).2 (s.edge c n o x).settle ∧
      (c = 0 → (s.edge c n o x).settle.flag TIME_STAT_PPS = true ∧ (s.edge c n o x).settle.time.inSecond = true) := by
  have hnoted := edgeNoted_shows s (by omega : c < 20) n o
  rw [edge_accepted hclock (by omega) htaken hok]
  by_cases h0 : c = 0
  · obtain ⟨pos, hkept⟩ := ppsAccept_keeps (edgeNoted s c n o) n o (s.edgeTime n o)
    have hpps : ∀ a, 0x31000 ≤ a → a < 0x31500 → (ppsNoted (edgeNoted s c n o) (s.edgeTime n o) pos).reg a = (edgeNoted s c n o).reg a :=
      fun a ha _ => reg_setFld_ne _ _ _ (by simp only [TIME_STAT_PPS]; omega)
    rw [if_pos h0]
    refine ⟨hnoted.of_kept (by omega) fun a ha hb => (hkept.settle.reg a ha hb).trans (hpps a ha hb), fun _ => ⟨?_, ?_⟩⟩
    · rw [hkept.settle.pps, ppsNoted, flag_set _ _ (by decide) (by decide)]
    · rw [hkept.settle.inSecond]
      rfl
  · rw [if_neg h0]
    exact ⟨hnoted.of_kept (by omega) (((EdgeKept.refl _).trigEdge _ _ _).settle).reg, fun h => absurd h h0⟩

/-- Any other edge of channels 0 to 18, and any edge while no grid exists, changes nothing. -/
theorem edge_refused {n : Int} {o : Nat} {x : Crossing} (h : ¬(s.time.grid = true ∧ s.deal.stopped = false) ∨
    (c ≠ 19 ∧ ¬((s.chanWorks c = true ∧ s.edgeDriven c (s.edgeTime n o) x = true) ∧ (s.judgeEdge c (s.edgeTime n o)).1 = true))) :
    s.edge c n o x = s := by
  by_cases hclock : s.time.grid = true ∧ s.deal.stopped = false
  · obtain ⟨hc, hno⟩ := h.resolve_left (not_not.mpr hclock)
    have hruns : ¬(s.time.grid = false ∨ s.deal.stopped = true) := by simp [hclock]
    refine (if_neg hruns).trans ((if_neg hc).trans ?_)
    by_cases htaken : s.chanWorks c = true ∧ s.edgeDriven c (s.edgeTime n o) x = true
    · have hdriven : ¬(!s.chanWorks c || !s.edgeDriven c (s.edgeTime n o) x) = true := by simp [htaken]
      exact (if_neg hdriven).trans (if_neg fun hok => hno ⟨htaken, hok⟩)
    · refine if_pos ?_
      rw [← Bool.not_and, Bool.not_eq_true', ← Bool.not_eq_true, Bool.and_eq_true]
      exact htaken
  · refine if_pos ?_
    rw [← Bool.not_eq_true, ← Bool.not_eq_false (s.deal.stopped)]
    exact not_and_or.mp hclock

/-- An edge of channel 19, where it stands in for no channel. -/
theorem edge_spare {n : Int} {o : Nat} {x : Crossing} (hclock : s.time.grid = true ∧ s.deal.stopped = false)
    (hspare : s.fld TIME_CFG_SPARE_FOR = 0x1F) (hworks : s.chanWorks 19 = true) :
    s.edge 19 n o x = s.setPair (TIME_CH_LAST_IDX 19) (ofSigned 64 n) := by
  have hruns : ¬(s.time.grid = false ∨ s.deal.stopped = true) := by simp [hclock]
  exact (if_neg hruns).trans ((if_pos rfl).trans (if_pos ⟨hspare, hworks⟩))

end

/-- Settles O34: an accepted edge by what its note shows and its consumer keeps, and the other edges by the cases of their judging. -/
theorem timedEdgesFillTheChannelRegisters : Obligations.TimedEdgesFillTheChannelRegisters := by
  intro s c count code x line placed n o t0 clocked taken judged
  have hexec : exec (.edgeTimed c count code x) s = Machine.done (s.edge c n o x) := rfl
  refine ⟨fun hclock hc htaken hok => ?_, fun hclock hc hspare hworks => ?_, fun h => ?_⟩
  · obtain ⟨hshown, hpps⟩ := edge_accepted_shows hclock hc htaken hok
    exact ⟨_, hexec, hshown.index, hshown.info, hshown.count, hshown.ival, hpps⟩
  · obtain rfl : c = 19 := Fin.ext hc
    refine Runs.done (hexec.trans (congrArg Machine.done (edge_spare hclock hspare hworks))) ?_ ?_ rfl (List.append_nil _).symm
    · rw [settle_pair _ (by decide) (by decide), pair_setPair, Nat.mod_eq_of_lt (ofSigned_lt 64 n)]
    · exact (KeepsFields.refl _ s).setPair _ _ (by decide) (by decide)
  · exact Runs.still (hexec.trans (congrArg Machine.done (edge_refused (h.imp id fun ⟨hc, hno⟩ => ⟨Nat.ne_of_lt hc, hno⟩))))

end Sys2Proof
end

section
/-! PROOFS. The statement of 12_clock_generation.md and of 11_timekeeping_tdc.md on the reference and the locks (O37): what bridges,
parked memory and outputs leave of the MDLLs' state, the steps of a relock, and the statement. -/

namespace Sys2Proof

open Sys2Proof.Machine

/-! ### Masks of MDLLs -/

/-- A bit that is put into a mask. -/
theorem bitOf_or_two_pow (x m k : Nat) : bitOf (x ||| 2 ^ m) k = (bitOf x k || decide (m = k)) := by
  rw [bitOf, Nat.testBit_or, Nat.testBit_two_pow, bitOf]

/-- A number in which bit `m` stands, without it. -/
theorem sub_two_pow_of_testBit {x m : Nat} (h : x.testBit m = true) : x - 2 ^ m = 2 ^ m * (2 * (x / 2 ^ m / 2)) + x % 2 ^ m := by
  have hodd : x / 2 ^ m = 2 * (x / 2 ^ m / 2) + 1 := by
    have : x / 2 ^ m % 2 = 1 := by simpa [Nat.testBit_eq_decide_div_mod_eq] using h
    omega
  have hdiv : 2 ^ m * (x / 2 ^ m) = 2 ^ m * (2 * (x / 2 ^ m / 2)) + 2 ^ m :=
    (congrArg (2 ^ m * ·) hodd).trans (Nat.mul_succ ..)
  have hx : 2 ^ m * (x / 2 ^ m) + x % 2 ^ m = x := Nat.div_add_mod x (2 ^ m)
  omega

/-- A mask of MDLLs without one of them. -/
def maskWithout (x m : Nat) : Nat := x - if bitOf x m then 2 ^ m else 0

/-- A bit that is taken out of a mask, where it stands in it. -/
theorem bitOf_maskWithout (x m k : Nat) : bitOf (maskWithout x m) k = (bitOf x k && decide (k ≠ m)) := by
  rw [maskWithout]
  by_cases hm : bitOf x m = true
  · rw [if_pos hm, sub_two_pow_of_testBit hm, bitOf, bitOf, Nat.testBit_two_pow_mul_add _ (Nat.mod_lt _ (Nat.two_pow_pos m))]
    split
    · next hk => simp [Nat.testBit_mod_two_pow, hk, Nat.ne_of_lt hk]
    · next hk =>
      obtain ⟨j, rfl⟩ : ∃ j, k = m + j := ⟨k - m, by omega⟩
      have hshift : x.testBit (m + j) = (x / 2 ^ m).testBit j := by rw [← Nat.shiftRight_eq_div_pow, Nat.testBit_shiftRight]
      rw [Nat.add_sub_cancel_left, hshift]
      cases j with
      | zero => simp
      | succ j => simp [Nat.testBit_succ]
  · rw [if_neg hm, Nat.sub_zero]
    by_cases hk : k = m
    · simp [hk, hm]
    · simp [hk]

/-- A mask is 0 when no bit stands in it. -/
theorem mask_eq_zero {x : Nat} : x = 0 ↔ ∀ k, bitOf x k = false :=
  ⟨fun h k => by rw [h, bitOf, Nat.zero_testBit], fun h => Nat.eq_of_testBit_eq fun k => by rw [Nat.zero_testBit]; exact h k⟩

/-! ### What goes on beside a lock -/

/-- The fields that show the reference and the locks: those of CG below its outputs but for the bridge and gap bits and the summary of LOCKED,
TIME_STAT and HAND_STAT. -/
def LockField (f : Field) : Prop :=
  (CG_STAT.addr < f.addr ∧ f.addr < (CG_OUT_CFG 0).addr) ∨
  (f.addr = CG_STAT.addr ∧ (f.lo + f.width ≤ 3 ∨ (8 ≤ f.lo ∧ f.lo + f.width ≤ 16))) ∨
  f.addr = TIME_STAT.addr ∨ f.addr = HAND_STAT_LOG_ATTN.addr

/-- They stay as they were, but in the registers of `w`, and so do the masks of the MDLLs, the common relock and the clocks step. -/
structure LockKept (w : List Nat) (s t : State) : Prop where
  fld : ∀ f, LockField f → f.addr ∉ w → t.fld f = s.fld f
  relocking : t.clk.relocking = s.clk.relocking
  failed : t.clk.failed = s.clk.failed
  allLock : t.clk.allLock = s.clk.allLock
  started : t.clk.started = s.clk.started

/-- A field of an MDLL's registers is one of them. -/
theorem lockField_mdll {f : Field} (h : 0x20100 ≤ f.addr := by simp) (h' : f.addr < 0x20140) : LockField f := by
  simp only [LockField, CG_STAT, CG_OUT_CFG]
  omega

/-- A field of CG_STAT that shows none of them. -/
theorem apart_cgStat {f g : Field} (hg : LockField g) (hf : f.addr = CG_STAT.addr) (h : (3 ≤ f.lo ∧ f.lo + f.width ≤ 8) ∨ 16 ≤ f.lo) :
    apart g f := by
  simp only [LockField, CG_STAT, CG_OUT_CFG, TIME_STAT, HAND_STAT_LOG_ATTN, apart] at *
  omega

/-- A field of a register that shows none of them. -/
theorem apart_elsewhere {f g : Field} (hg : LockField g) (h : f.addr < CG_STAT.addr ∨ (CG_OUT_CFG 0).addr ≤ f.addr)
    (ht : f.addr ≠ TIME_STAT.addr) (hh : f.addr ≠ HAND_STAT_LOG_ATTN.addr) : apart g f := by
  simp only [LockField, CG_STAT, CG_OUT_CFG, apart] at *
  omega

section
variable {w : List Nat} {s t u v : State}

theorem LockKept.refl (w : List Nat) (s : State) : LockKept w s s := ⟨fun _ _ _ => rfl, rfl, rfl, rfl, rfl⟩

theorem LockKept.trans (h : LockKept w s t) (h' : LockKept w t u) : LockKept w s u :=
  ⟨fun f hf hw => (h'.fld f hf hw).trans (h.fld f hf hw), h'.relocking.trans h.relocking, h'.failed.trans h.failed,
    h'.allLock.trans h.allLock, h'.started.trans h.started⟩

/-- More registers may be written. -/
theorem LockKept.mono {w' : List Nat} (h : LockKept w s t) (hw : ∀ a ∈ w, a ∈ w') : LockKept w' s t :=
  ⟨fun f hf ha => h.fld f hf fun hin => ha (hw _ hin), h.relocking, h.failed, h.allLock, h.started⟩

/-- Registers and clock state are another's. -/
theorem LockKept.of_same (h : LockKept w s u) (hr : v.regs = u.regs := by rfl) (hc : v.clk = u.clk := by rfl) : LockKept w s v :=
  h.trans ⟨fun f _ _ => fld_congr (by rw [State.reg, hr, State.reg]), by rw [hc], by rw [hc], by rw [hc], by rw [hc]⟩

/-- The clock generator's own state changes in other parts. -/
theorem LockKept.withClk (h : LockKept w s u) (c : ClockState) (hr : c.relocking = u.clk.relocking := by rfl)
    (hf : c.failed = u.clk.failed := by rfl) (ha : c.allLock = u.clk.allLock := by rfl) (hs : c.started = u.clk.started := by rfl) :
    LockKept w s { u with clk := c } := h.trans ⟨fun _ _ _ => rfl, hr, hf, ha, hs⟩

/-- A field apart from all of them is given a value. -/
theorem LockKept.setFld (h : LockKept w s u) (f : Field) (x : Nat) (hf : ∀ g, LockField g → g.addr ∉ w → apart g f) :
    LockKept w s (u.setFld f x) :=
  h.trans ⟨fun g hg hw => fld_setFld_ne _ _ (hf g hg hw), rfl, rfl, rfl, rfl⟩

/-- A register of `w`, or one that shows none of them, is given a value. -/
theorem LockKept.setReg (h : LockKept w s u) (a : Nat) (x : Word) (ha : ∀ g, LockField g → g.addr ∉ w → g.addr ≠ a) :
    LockKept w s (u.setReg a x) :=
  h.trans ⟨fun g hg hw => fld_setReg_ne _ _ _ (ha g hg hw), rfl, rfl, rfl, rfl⟩

/-- A bit of CG_STAT beside them is given a value. -/
theorem LockKept.putBit (h : LockKept w s u) (f : Field) (i : Nat) (b : Bool) (hf : f.addr = CG_STAT.addr)
    (hi : (3 ≤ f.lo + i ∧ f.lo + i + 1 ≤ 8) ∨ 16 ≤ f.lo + i) : LockKept w s (u.putBit f i b) :=
  h.setFld (f.bit i) _ fun _ hg _ => apart_cgStat hg hf hi

/-- Of two updates one is done. -/
theorem LockKept.ite {c : Prop} [Decidable c] (hu : LockKept w s u) (hv : LockKept w s v) : LockKept w s (if c then u else v) :=
  iteInduction (motive := LockKept w s) (fun _ => hu) fun _ => hv

/-- A sequence of updates. -/
theorem LockKept.foldl {α : Type} {f : State → α → State} {l : List α} (h : LockKept w s u)
    (hf : ∀ t, ∀ x ∈ l, LockKept w t (f t x)) : LockKept w s (l.foldl f u) :=
  l.foldlRecOn f (motive := LockKept w s) h fun t ht x hx => ht.trans (hf t x hx)

/-- The derived signals are brought up to date. -/
theorem LockKept.settle (h : LockKept w s u) : LockKept w s u.settle := by
  have hquiet : ∀ f, LockField f → quiet f = true := fun f hf => by
    have hne : ∀ {g : Field}, g.addr < CG_STAT.addr ∨ (CG_OUT_CFG 0).addr ≤ g.addr → g.addr ≠ TIME_STAT.addr →
        g.addr ≠ HAND_STAT_LOG_ATTN.addr → f.addr ≠ g.addr := fun hg ht hh e => by
      simp only [LockField, CG_STAT, CG_OUT_CFG] at *
      omega
    have hreq : f.addr ≠ HOST_INT_REQ_REQ.addr := hne (by decide) (by decide) (by decide)
    have hpend : f.addr ≠ HOST_INT_PEND_PEND.addr := hne (by decide) (by decide) (by decide)
    have hsup : f.addr ≠ SUP_STAT_FAULT.addr := hne (by decide) (by decide) (by decide)
    have hhost : f.addr ≠ HOST_STAT_FAULT.addr := hne (by decide) (by decide) (by decide)
    have halert : f.addr ≠ VREG_STAT_ALERT.addr := hne (by decide) (by decide) (by decide)
    simp [quiet, hreq, hpend, hsup, hhost, halert]
  exact h.trans ⟨fun f hf _ => settle_fld _ _ (hquiet f hf), by rw [settle_clk], by rw [settle_clk], by rw [settle_clk], by rw [settle_clk]⟩

theorem LockKept.flag (h : LockKept w s t) {f : Field} (hf : LockField f) (hw : f.addr ∉ w) : t.flag f = s.flag f :=
  flag_congr (h.fld f hf hw)

/-- The outputs of an MDLL run on the bridge clock, or leave it (R341). -/
theorem LockKept.bridge (h : LockKept w s u) (m : Nat) (on : Bool) (old : Nat × Nat) : LockKept w s (u.bridge m on old) := by
  have hbit : ∀ {v : State} (o : Nat), LockKept w s v → LockKept w s (v.putBit CG_STAT_BRIDGE o on) :=
    fun o hv => hv.putBit _ _ _ rfl (.inr (Nat.le_add_right ..))
  unfold State.bridge
  split
  · exact h
  · refine (List.range 7).foldlRecOn _ (motive := LockKept w s) h fun t ht o _ => ?_
    split
    · cases on
      · exact hbit o ht
      · exact hbit o (ht.withClk _)
    · exact ht

/-- A subchannel enters a state. -/
theorem LockKept.enterSub (h : LockKept w s u) (i st : Nat) : LockKept w s (u.enterSub i st) := by
  refine LockKept.setFld h.of_same (MEMCS_STAT_STATE i) st fun g hg _ => apart_elsewhere hg ?_ ?_ ?_
  all_goals simp only [MEMCS_STAT_STATE, CG_STAT, CG_OUT_CFG, TIME_STAT, HAND_STAT_LOG_ATTN]; omega

/-- The memory is parked, or leaves it (R342). -/
theorem LockKept.park (h : LockKept w s u) (on : Bool) : LockKept w s (u.park on) := by
  unfold State.park
  refine LockKept.foldl h.of_same fun t i _ => .ite (.ite ((LockKept.refl w t).enterSub i 5) (.refl w t)) ?_
  exact .ite (LockKept.enterSub (LockKept.of_same (.refl w t)) i 2) (LockKept.of_same (.refl w t))

/-- The interval in which MDLL 3 moved the sample clock ends (R344). -/
theorem LockKept.endGap (h : LockKept w s u) : LockKept w s u.endGap := by
  unfold State.endGap
  split
  · have hended := h.withClk { u.clk with released := none }
    simp only
    split
    · exact (hended.withClk _).setFld CG_STAT_SSYN_GAP 1 fun g hg _ => apart_cgStat hg rfl (.inl (by decide))
    · exact hended
  · exact h

/-- A CLKOUT setting takes effect (R336). -/
theorem LockKept.putOut (h : LockKept w s u) (o : Nat) (x : Word) : LockKept w s (u.putOut o x) := by
  have hreg : ∀ {v : State} (b : Nat) (y : Word), LockKept w s v → b = 0 ∨ b = 4 → LockKept w s (v.setReg (0x20200 + b + o * 0x10) y) :=
    fun b y hv hb => hv.setReg _ _ fun g hg _ => by
      simp only [LockField, CG_STAT, CG_OUT_CFG, TIME_STAT, HAND_STAT_LOG_ATTN] at hg
      omega
  have hset : LockKept w s (u.setReg (CG_OUT_CFG o).addr (x &&& 0x8C00FFFF)) := hreg 0 _ h (.inl rfl)
  have hphase : LockKept w s ((u.setReg (CG_OUT_CFG o).addr (x &&& 0x8C00FFFF)).setReg (CG_OUT_PHASE o).addr 0) := hreg 4 _ hset (.inr rfl)
  have hbit : ∀ {v : State} (b : Bool), LockKept w s v → LockKept w s (v.putBit CG_STAT_BRIDGE o b) :=
    fun b hv => hv.putBit _ _ _ rfl (.inr (Nat.le_add_right ..))
  unfold State.putOut
  simp only
  split <;> exact hbit _ (.ite hset hphase)

/-- CLKOUT writes whose time has come take effect (R336). -/
theorem LockKept.releaseOuts (h : LockKept w s u) : LockKept w s u.releaseOuts :=
  LockKept.foldl (h.withClk _) fun t x _ => (LockKept.refl w t).putOut _ _

/-- The spans of REF_LOST lie in the TIME block. -/
theorem LockKept.openRefSpan (h : LockKept w s u) : LockKept w s u.openRefSpan := by
  unfold State.openRefSpan
  split
  · exact h
  · exact h.of_same

theorem LockKept.closeRefSpan (h : LockKept w s u) : LockKept w s u.closeRefSpan := by
  unfold State.closeRefSpan
  split
  · exact h.of_same
  · exact h

end

/-! ### Logging, and the end of a common relock (R318, R342) -/

section
variable {w : List Nat} {s t u : State}

/-- An event is logged: of these fields only those of HAND_STAT may change. -/
theorem LockKept.logEvent (h : LockKept w s u) (c sev arg : Nat) (hw : HAND_STAT_LOG_ATTN.addr ∈ w) :
    LockKept w s (u.logEvent c sev arg) := by
  refine h.trans ⟨fun f hf ha => logEvent_fld _ _ _ _ _ ?_ fun e => ha (e ▸ hw), ?_, ?_, ?_, ?_⟩
  · simp only [LockField, CG_STAT, CG_OUT_CFG, TIME_STAT, HAND_STAT_LOG_ATTN, HAND_LOG_COUNT_COUNT] at *
    omega
  all_goals rw [logEvent_clk]

/-- The span of REF_LOST closes in the TIME block. -/
theorem closeRefSpan_same (s : State) : s.closeRefSpan.regs = s.regs ∧ s.closeRefSpan.clk = s.clk := by
  unfold State.closeRefSpan
  split <;> exact ⟨rfl, rfl⟩

/-- The clocks coast no more, and REF_LOST clears. -/
def coastEnded (s : State) : State :=
  (({ s with clk := { s.clk with allLock := false } } : State).setFld CG_STAT_COAST 0).setFld TIME_STAT_REF_LOST 0

/-- A common relock that no MDLL is in any longer is over. -/
theorem relockOver_common (ha : s.clk.allLock = true) (hr : s.clk.relocking = 0) : s.relockOver = (coastEnded s).closeRefSpan :=
  if_pos (by simp [ha, hr])

/-- Any other goes on. -/
theorem relockOver_still (h : ¬(s.clk.allLock = true ∧ s.clk.relocking = 0)) : s.relockOver = s :=
  if_neg (by simpa using h)

/-- The end of a relock writes COAST and REF_LOST alone. -/
theorem relockOver_fld (s : State) {f : Field} (hc : apart f CG_STAT_COAST) (hl : apart f TIME_STAT_REF_LOST) :
    s.relockOver.fld f = s.fld f := by
  by_cases h : s.clk.allLock = true ∧ s.clk.relocking = 0
  · rw [relockOver_common h.1 h.2, fld_congr (s := (coastEnded s).closeRefSpan) (t := coastEnded s)
      (by rw [State.reg, (closeRefSpan_same _).1, State.reg]), coastEnded, fld_setFld_ne _ _ hl, fld_setFld_ne _ _ hc]
    rfl
  · rw [relockOver_still h]

/-- Of the clock generator it ends the common relock alone. -/
theorem relockOver_clk (s : State) :
    s.relockOver.clk = { s.clk with allLock := s.clk.allLock && !decide (s.clk.relocking = 0) } := by
  by_cases h : s.clk.allLock = true ∧ s.clk.relocking = 0
  · rw [relockOver_common h.1 h.2, (closeRefSpan_same _).2]
    simp [coastEnded, h]
  · have hall : (s.clk.allLock && !decide (s.clk.relocking = 0)) = s.clk.allLock := by
      cases ha : s.clk.allLock with
      | false => rfl
      | true => simpa [ha] using h
    rw [relockOver_still h, hall]

/-- After a common relock the clocks coast no more and the reference is not lost. -/
theorem relockOver_shows (ha : s.clk.allLock = true) (hr : s.clk.relocking = 0) :
    s.relockOver.flag CG_STAT_COAST = false ∧ s.relockOver.flag TIME_STAT_REF_LOST = false := by
  have hregs := (closeRefSpan_same (coastEnded s)).1
  rw [relockOver_common ha hr, flag_of_regs hregs, flag_of_regs hregs, coastEnded, flag_setFld_ne _ _ (.inl (by decide)),
    flag_clear _ _ (by decide), flag_clear _ _ (by decide)]
  exact ⟨rfl, rfl⟩

end

/-! ### The status of an MDLL -/

section
variable {s t u : State} {m : Nat}

/-- The status register of one of the four MDLLs shows the locks, and is no measurement and no other's status. -/
theorem statField {f : Field} {k : Nat} (hk : k < 4) (hf : f.addr = (CG_MDLL_STAT_LOCKED k).addr := by rfl) :
    LockField f ∧ ∀ j, f.addr ≠ (CG_MDLL_MEAS j).addr ∧ (j ≠ k → f.addr ≠ (CG_MDLL_STAT_LOCKED j).addr) := by
  simp only [CG_MDLL_STAT_LOCKED] at hf
  refine ⟨lockField_mdll (by omega) (by omega), fun j => ?_⟩
  simp only [CG_MDLL_STAT_LOCKED, CG_MDLL_MEAS]
  omega

/-- The unlock bits of CG_STAT show the locks. -/
theorem unlockField {k : Nat} (hk : k < 4) : LockField (CG_STAT_UNLOCK.bit k) :=
  .inr (.inl ⟨rfl, .inr (by simp only [CG_STAT_UNLOCK, Field.bit]; omega)⟩)

/-- So does an MDLL's measurement. -/
theorem measField {k : Nat} (hk : k < 4) : LockField (CG_MDLL_MEAS k) := by
  apply lockField_mdll <;> simp only [CG_MDLL_MEAS] <;> omega

/-- So does an MDLL's setting, which is no status and no measurement. -/
theorem enableField {k : Nat} (hk : k < 4) : LockField (CG_MDLL_CFG_EN k) ∧
    ∀ j, (CG_MDLL_CFG_EN k).addr ≠ (CG_MDLL_STAT_LOCKED j).addr ∧ (CG_MDLL_CFG_EN k).addr ≠ (CG_MDLL_MEAS j).addr := by
  refine ⟨by apply lockField_mdll <;> simp only [CG_MDLL_CFG_EN] <;> omega, fun j => ?_⟩
  simp only [CG_MDLL_CFG_EN, CG_MDLL_STAT_LOCKED, CG_MDLL_MEAS]
  omega

/-- An MDLL's status shows whether it relocks and whether it is locked; CG_STAT shows the latter too. -/
def lockShown (s : State) (m : Nat) (relocks locked : Bool) : State :=
  ((s.setFld (CG_MDLL_STAT_RELOCK m) (b2n relocks)).setFld (CG_MDLL_STAT_LOCKED m) (b2n locked)).putBit CG_STAT_LOCKED m locked

/-- It shows them, and leaves the band and the other registers. -/
theorem lockShown_shows (s : State) (hm : m < 4) (relocks locked : Bool) :
    (lockShown s m relocks locked).flag (CG_MDLL_STAT_RELOCK m) = relocks ∧
      (lockShown s m relocks locked).flag (CG_MDLL_STAT_LOCKED m) = locked ∧
      (lockShown s m relocks locked).fld (CG_MDLL_STAT_BAND m) = s.fld (CG_MDLL_STAT_BAND m) ∧
      ∀ f, LockField f → f.addr ≠ (CG_MDLL_STAT_LOCKED m).addr → (lockShown s m relocks locked).fld f = s.fld f := by
  have hsum : ∀ f, LockField f → apart f (CG_STAT_LOCKED.bit m) := fun f hf =>
    apart_cgStat hf rfl (.inl (by simp only [Field.bit, CG_STAT_LOCKED]; omega))
  rw [lockShown, putBit_eq]
  refine ⟨?_, ?_, ?_, fun f hf ha => ?_⟩
  · rw [flag_setFld_ne _ _ (hsum (CG_MDLL_STAT_RELOCK m) (statField hm).1),
      flag_setFld_ne (f := CG_MDLL_STAT_LOCKED m) (g := CG_MDLL_STAT_RELOCK m) _ _
        (.inr (.inr (by simp [CG_MDLL_STAT_LOCKED, CG_MDLL_STAT_RELOCK]))),
      flag_put _ _ _ (by simp [CG_MDLL_STAT_RELOCK]) (by simp [CG_MDLL_STAT_RELOCK])]
  · rw [flag_setFld_ne _ _ (hsum (CG_MDLL_STAT_LOCKED m) (statField hm).1),
      flag_put _ _ _ (by simp [CG_MDLL_STAT_LOCKED]) (by simp [CG_MDLL_STAT_LOCKED])]
  · rw [fld_setFld_ne _ _ (hsum (CG_MDLL_STAT_BAND m) (statField hm).1),
      fld_setFld_ne (f := CG_MDLL_STAT_LOCKED m) (g := CG_MDLL_STAT_BAND m) _ _
        (.inr (.inr (by simp [CG_MDLL_STAT_LOCKED, CG_MDLL_STAT_BAND]))),
      fld_setFld_ne (f := CG_MDLL_STAT_RELOCK m) (g := CG_MDLL_STAT_BAND m) _ _
        (.inr (.inr (by simp [CG_MDLL_STAT_RELOCK, CG_MDLL_STAT_BAND])))]
  · rw [fld_setFld_ne _ _ (hsum f hf), fld_setFld_addr (f := CG_MDLL_STAT_LOCKED m) _ _ ha,
      fld_setFld_addr (f := CG_MDLL_STAT_RELOCK m) _ _ ha]

/-- A state in which other MDLLs relock and have failed. -/
def withMasks (s : State) (relocking failed : Nat) : State := { s with clk := { s.clk with relocking := relocking, failed := failed } }

/-! ### A relock begins (R341, R344) -/

/-- An MDLL is in its relock. -/
def relockBegun (s : State) (m : Nat) : State :=
  (lockShown (withMasks s (s.clk.relocking ||| 2 ^ m) s.clk.failed) m true false).setFld (CG_MDLL_STAT_COAST m) 0

/-- What else goes on when an MDLL begins to relock. -/
theorem startRelock_keeps (s : State) (m : Nat) (old : Nat × Nat) : LockKept [] (relockBegun s m) (s.startRelock m old) := by
  have hbridge := (LockKept.refl [] (relockBegun s m)).bridge m true old
  have hpark : LockKept [] (relockBegun s m)
      (if m = 1 then ((relockBegun s m).bridge m true old).park true else (relockBegun s m).bridge m true old) :=
    .ite (hbridge.park true) hbridge
  unfold State.startRelock
  simp only
  split
  · exact hpark.withClk _
  · exact hpark

/-- What the beginning of a relock shows. -/
theorem startRelock_shows (s : State) (hm : m < 4) (old : Nat × Nat) :
    (s.startRelock m old).flag (CG_MDLL_STAT_RELOCK m) = true ∧ (s.startRelock m old).flag (CG_MDLL_STAT_LOCKED m) = false ∧
      (s.startRelock m old).clk.relocking = s.clk.relocking ||| 2 ^ m ∧
      ∀ f, LockField f → f.addr ≠ (CG_MDLL_STAT_LOCKED m).addr → (s.startRelock m old).fld f = s.fld f := by
  have hkeeps := startRelock_keeps s m old
  obtain ⟨hrelock, hlocked, -, hother⟩ := lockShown_shows (withMasks s (s.clk.relocking ||| 2 ^ m) s.clk.failed) hm true false
  refine ⟨?_, ?_, hkeeps.relocking, fun f hf ha => ?_⟩
  · rw [hkeeps.flag (statField hm).1 List.not_mem_nil, relockBegun, flag_setFld_ne (f := CG_MDLL_STAT_COAST m)
      (g := CG_MDLL_STAT_RELOCK m) _ _ (.inr (.inr (by simp [CG_MDLL_STAT_COAST, CG_MDLL_STAT_RELOCK]))), hrelock]
  · rw [hkeeps.flag (statField hm).1 List.not_mem_nil, relockBegun, flag_setFld_ne (f := CG_MDLL_STAT_COAST m)
      (g := CG_MDLL_STAT_LOCKED m) _ _ (.inr (.inl (by simp [CG_MDLL_STAT_COAST, CG_MDLL_STAT_LOCKED]))), hlocked]
  · rw [hkeeps.fld f hf List.not_mem_nil, relockBegun, fld_setFld_addr (f := CG_MDLL_STAT_COAST m) _ _ ha, hother f hf ha]
    rfl

/-! ### A relock ends (R341, R344, R349) -/

/-- An MDLL is locked again. -/
def relockEnded (s : State) (m : Nat) : State :=
  lockShown (withMasks s (maskWithout s.clk.relocking m) s.clk.failed) m false true

/-- A frequency is measured. -/
theorem LockKept.measure {w : List Nat} (h : LockKept w s u) (hm : (CG_MDLL_MEAS m).addr ∈ w) : LockKept w s (u.measure m) :=
  LockKept.setReg (u := { u with free := u.free + 1 }) h.of_same _ _ fun _ _ hg e => hg (e ▸ hm)

/-- What else goes on when an MDLL is locked again. -/
theorem endRelock_keeps (s : State) (m : Nat) : LockKept [(CG_MDLL_MEAS m).addr] (relockEnded s m) (s.endRelock m) := by
  set u := (relockEnded s m).bridge m false (0, 1) with hu
  have hbridge : LockKept [(CG_MDLL_MEAS m).addr] (relockEnded s m) u := (LockKept.refl _ _).bridge m false (0, 1)
  have hpark : LockKept [(CG_MDLL_MEAS m).addr] (relockEnded s m) (if m = 1 then u.park false else u) := .ite (hbridge.park false) hbridge
  have hgap : LockKept [(CG_MDLL_MEAS m).addr] (relockEnded s m)
      (if m = 3 then (if m = 1 then u.park false else u).endGap else (if m = 1 then u.park false else u)) := .ite hpark.endGap hpark
  exact (LockKept.ite (hgap.measure (List.mem_singleton.mpr rfl)) hgap).releaseOuts

/-- MDLLs that end their relock: they are locked, the others' registers and the bands stay, and so does a common relock. -/
structure RelocksEnd (s : State) (ms : List Nat) (t : State) : Prop where
  locked : ∀ k ∈ ms, t.flag (CG_MDLL_STAT_LOCKED k) = true
  idle : ∀ k ∈ ms, t.flag (CG_MDLL_STAT_RELOCK k) = false
  relocking : ∀ k, bitOf t.clk.relocking k = (bitOf s.clk.relocking k && decide (k ∉ ms))
  other : ∀ f, LockField f → (∀ k ∈ ms, f.addr ≠ (CG_MDLL_STAT_LOCKED k).addr ∧ f.addr ≠ (CG_MDLL_MEAS k).addr) → t.fld f = s.fld f
  band : ∀ k < 4, t.fld (CG_MDLL_STAT_BAND k) = s.fld (CG_MDLL_STAT_BAND k)
  allLock : t.clk.allLock = s.clk.allLock

/-- One MDLL ends its relock. -/
theorem RelocksEnd.one (s : State) (hm : m < 4) : RelocksEnd s [m] (s.endRelock m) := by
  have hkeeps := endRelock_keeps s m
  obtain ⟨hidle, hlocked, hband, hother⟩ := lockShown_shows (withMasks s (maskWithout s.clk.relocking m) s.clk.failed) hm false true
  have hstat : ∀ {f : Field} {k : Nat}, k < 4 → f.addr = (CG_MDLL_STAT_LOCKED k).addr → (s.endRelock m).fld f = (relockEnded s m).fld f :=
    fun hk hf => hkeeps.fld _ (statField hk hf).1 (by simpa using ((statField hk hf).2 m).1)
  refine ⟨?_, ?_, fun k => ?_, fun f hf hne => ?_, fun k hk => ?_, hkeeps.allLock⟩
  · simpa using (flag_congr (hstat hm rfl)).trans hlocked
  · simpa using (flag_congr (hstat (f := CG_MDLL_STAT_RELOCK m) hm rfl)).trans hidle
  · have hmask : (relockEnded s m).clk.relocking = maskWithout s.clk.relocking m := rfl
    rw [hkeeps.relocking, hmask, bitOf_maskWithout]
    simp
  · obtain ⟨hstat', hmeas⟩ := hne m (List.mem_singleton.mpr rfl)
    exact (hkeeps.fld f hf (by simpa using hmeas)).trans (hother f hf hstat')
  · refine (hstat (f := CG_MDLL_STAT_BAND k) hk rfl).trans ?_
    by_cases h : k = m
    · subst h
      exact hband
    · exact hother _ (statField (f := CG_MDLL_STAT_BAND k) hk).1 (((statField (f := CG_MDLL_STAT_BAND k) hk).2 m).2 (Ne.symm h))

/-- More MDLLs end theirs. -/
theorem RelocksEnd.cons {ms : List Nat} (hm : m < 4) (h : RelocksEnd s [m] t) (h' : RelocksEnd t ms u) : RelocksEnd s (m :: ms) u := by
  have hkeep : ∀ f : Field, m ∉ ms → f.addr = (CG_MDLL_STAT_LOCKED m).addr → u.fld f = t.fld f := fun f hn hf =>
    h'.other f (statField hm hf).1 fun k hk => ⟨((statField hm hf).2 k).2 (ne_of_mem_of_not_mem hk hn), ((statField hm hf).2 k).1⟩
  refine ⟨fun k hk => ?_, fun k hk => ?_, fun k => ?_, fun f hf hne => ?_, fun k hk => (h'.band k hk).trans (h.band k hk),
    h'.allLock.trans h.allLock⟩
  · by_cases hin : k ∈ ms
    · exact h'.locked k hin
    · obtain rfl : k = m := (List.mem_cons.mp hk).resolve_right hin
      exact (flag_congr (hkeep _ hin rfl)).trans (h.locked k (List.mem_singleton.mpr rfl))
  · by_cases hin : k ∈ ms
    · exact h'.idle k hin
    · obtain rfl : k = m := (List.mem_cons.mp hk).resolve_right hin
      exact (flag_congr (hkeep (CG_MDLL_STAT_RELOCK k) hin rfl)).trans (h.idle k (List.mem_singleton.mpr rfl))
  · rw [h'.relocking, h.relocking, Bool.and_assoc, ← Bool.decide_and]
    simp
  · have hlast := h'.other f hf fun k hk => hne k (List.mem_cons_of_mem _ hk)
    exact hlast.trans (h.other f hf fun k hk => hne k (by simp [List.mem_singleton.mp hk]))

/-- Every MDLL of a list ends its relock. -/
theorem RelocksEnd.foldl (ms : List Nat) (hms : ∀ m ∈ ms, m < 4) (s : State) :
    RelocksEnd s ms (ms.foldl (fun t m => t.endRelock m) s) := by
  induction ms generalizing s with
  | nil => exact ⟨by simp, by simp, by simp, fun _ _ _ => rfl, fun _ _ => rfl, rfl⟩
  | cons m ms ih =>
    exact (RelocksEnd.one s (hms m (List.mem_cons_self ..))).cons (hms m (List.mem_cons_self ..))
      (ih (fun k hk => hms k (List.mem_cons_of_mem _ hk)) _)

/-- The relocks of a list have ended, the longest time on the bridge clock with them. -/
def relocksTimed (s : State) (ms : List Nat) (ns : Nat) : State := (ms.foldl (fun t m => t.endRelock m) s).maxFld CG_RELOCK_MAX_NS ns

/-- The last of them is counted and logged. -/
def relockCounted (s : State) (ns : Nat) : State :=
  ((s.setFld CG_STAT_RELOCK 1).addSat CG_RELOCK_COUNT_COUNT 1).logEvent 0x0202 sevInfo ns

/-- Relocks end: with the last one the relock is complete. -/
theorem endRelocks_eq (s : State) (ms : List Nat) (ns : Nat) :
    s.endRelocks ms ns =
      if (relocksTimed s ms ns).clk.relocking = 0 then (relockCounted (relocksTimed s ms ns) ns).relockOver else relocksTimed s ms ns := rfl

/-- Counting and logging leave the other registers. -/
theorem relockCounted_fld (s : State) (ns : Nat) {f : Field} (hf : LockField f) (hs : apart f CG_STAT_RELOCK)
    (hc : apart f CG_RELOCK_COUNT_COUNT) (hh : f.addr ≠ HAND_STAT_LOG_ATTN.addr) : (relockCounted s ns).fld f = s.fld f := by
  have hlog : f.addr ≠ HAND_LOG_COUNT_COUNT.addr := fun e => by
    simp only [LockField, CG_STAT, CG_OUT_CFG, TIME_STAT, HAND_STAT_LOG_ATTN, HAND_LOG_COUNT_COUNT] at *
    omega
  rw [relockCounted, logEvent_fld _ _ _ _ _ hlog hh, addSat_eq, fld_setFld_ne _ _ hc, fld_setFld_ne _ _ hs]

/-- It is no part of the clock generator's own state. -/
theorem relockCounted_clk (s : State) (ns : Nat) : (relockCounted s ns).clk = s.clk := by
  rw [relockCounted, logEvent_clk]
  rfl

/-- The end of relocks leaves what the MDLLs' own registers show then, and which of them relock. -/
theorem endRelocks_mdll (s : State) (ms : List Nat) (ns : Nat) :
    (∀ f : Field, 0x20100 ≤ f.addr → f.addr < 0x20140 → (s.endRelocks ms ns).fld f = (ms.foldl (fun t m => t.endRelock m) s).fld f) ∧
      (s.endRelocks ms ns).clk.relocking = (ms.foldl (fun t m => t.endRelock m) s).clk.relocking := by
  have htimed : ∀ f : Field, 0x20100 ≤ f.addr → (relocksTimed s ms ns).fld f = (ms.foldl (fun t m => t.endRelock m) s).fld f :=
    fun f hf => fld_setFld_addr _ _ (by simp only [CG_RELOCK_MAX_NS]; omega)
  have hne : ∀ {f g : Field}, 0x20100 ≤ f.addr → f.addr < 0x20140 → g.addr < 0x20100 ∨ 0x20140 ≤ g.addr → f.addr ≠ g.addr :=
    fun _ _ _ => by omega
  rw [endRelocks_eq]
  split
  · refine ⟨fun f hf hf' => ?_, ?_⟩
    · rw [relockOver_fld _ (.inl (hne hf hf' (by decide))) (.inl (hne hf hf' (by decide))),
        relockCounted_fld _ _ (lockField_mdll hf hf') (.inl (hne hf hf' (by decide))) (.inl (hne hf hf' (by decide)))
          (hne (g := HAND_STAT_LOG_ATTN) hf hf' (by decide)), htimed f hf]
    · rw [relockOver_clk, relockCounted_clk]
      rfl
  · exact ⟨fun f hf _ => htimed f hf, rfl⟩

/-- The MDLLs whose relocks end are locked, and relock no more; the bands stay. -/
theorem endRelocks_locked (s : State) {ms : List Nat} (hms : ∀ m ∈ ms, m < 4) (ns : Nat) :
    (∀ k ∈ ms, (s.endRelocks ms ns).flag (CG_MDLL_STAT_LOCKED k) = true ∧ (s.endRelocks ms ns).flag (CG_MDLL_STAT_RELOCK k) = false ∧
        bitOf (s.endRelocks ms ns).clk.relocking k = false) ∧
      ∀ k < 4, (s.endRelocks ms ns).fld (CG_MDLL_STAT_BAND k) = s.fld (CG_MDLL_STAT_BAND k) := by
  obtain ⟨hfld, hmask⟩ := endRelocks_mdll s ms ns
  have hends := RelocksEnd.foldl ms hms s
  have hstat : ∀ (f : Field) {k : Nat}, k < 4 → f.addr = (CG_MDLL_STAT_LOCKED k).addr →
      (s.endRelocks ms ns).fld f = (ms.foldl (fun t m => t.endRelock m) s).fld f := fun f k hk hf => by
    simp only [CG_MDLL_STAT_LOCKED] at hf
    exact hfld f (by omega) (by omega)
  refine ⟨fun k hk => ⟨?_, ?_, ?_⟩, fun k hk => ?_⟩
  · exact (flag_congr (hstat _ (hms k hk) rfl)).trans (hends.locked k hk)
  · exact (flag_congr (hstat (CG_MDLL_STAT_RELOCK k) (hms k hk) rfl)).trans (hends.idle k hk)
  · rw [hmask, hends.relocking, decide_eq_false (not_not.mpr hk), Bool.and_false]
  · exact (hstat (CG_MDLL_STAT_BAND k) hk rfl).trans (hends.band k hk)

/-- What the end of relocks counts, logs and ends. -/
theorem endRelocks_counts (s : State) {ms : List Nat} (hms : ∀ m ∈ ms, m < 4) (ns : Nat) :
    (s.endRelocks ms ns).fld CG_RELOCK_MAX_NS = max (s.fld CG_RELOCK_MAX_NS) (min ns 0xFFFFFFFF) ∧
      ((∀ k, bitOf s.clk.relocking k = true → k ∈ ms) →
        (s.endRelocks ms ns).flag CG_STAT_RELOCK = true ∧
        (s.endRelocks ms ns).fld CG_RELOCK_COUNT_COUNT = min (s.fld CG_RELOCK_COUNT_COUNT + 1) 0xFFFF ∧
        (s.endRelocks ms ns).clk.allLock = false ∧
        (s.clk.allLock = true → (s.endRelocks ms ns).flag CG_STAT_COAST = false ∧ (s.endRelocks ms ns).flag TIME_STAT_REF_LOST = false)) ∧
      (¬(∀ k, bitOf s.clk.relocking k = true → k ∈ ms) →
        (s.endRelocks ms ns).fld CG_RELOCK_COUNT_COUNT = s.fld CG_RELOCK_COUNT_COUNT ∧
        (s.endRelocks ms ns).clk.allLock = s.clk.allLock) := by
  have hends := RelocksEnd.foldl ms hms s
  have hother : ∀ f, LockField f → f.addr < 0x20100 → (ms.foldl (fun t m => t.endRelock m) s).fld f = s.fld f := fun f hf ha =>
    hends.other f hf fun k _ => by simp only [CG_MDLL_STAT_LOCKED, CG_MDLL_MEAS]; omega
  have hcg : ∀ f : Field, CG_STAT.addr < f.addr → f.addr < 0x20100 → LockField f := fun f h h' => .inl ⟨h, h'.trans (by decide)⟩
  have hmax : (relocksTimed s ms ns).fld CG_RELOCK_MAX_NS = max (s.fld CG_RELOCK_MAX_NS) (min ns 0xFFFFFFFF) := by
    have hlt : s.fld CG_RELOCK_MAX_NS < 2 ^ 32 := fld_lt s CG_RELOCK_MAX_NS
    rw [relocksTimed, maxFld_eq, fld_setFld_eq _ _ _ (by decide), hother _ (hcg _ (by decide) (by decide)) (by decide)]
    simp only [CG_RELOCK_MAX_NS] at hlt ⊢
    omega
  have hcount : (relocksTimed s ms ns).fld CG_RELOCK_COUNT_COUNT = s.fld CG_RELOCK_COUNT_COUNT :=
    (fld_setFld_addr _ _ (by decide)).trans (hother _ (hcg _ (by decide) (by decide)) (by decide))
  have hall : (relocksTimed s ms ns).clk.allLock = s.clk.allLock := hends.allLock
  have hlast : (relocksTimed s ms ns).clk.relocking = 0 ↔ ∀ k, bitOf s.clk.relocking k = true → k ∈ ms := by
    rw [mask_eq_zero]
    refine forall_congr' fun k => ?_
    rw [show (relocksTimed s ms ns).clk = (ms.foldl (fun t m => t.endRelock m) s).clk from rfl, hends.relocking]
    cases bitOf s.clk.relocking k <;> simp
  rw [endRelocks_eq]
  by_cases h : (relocksTimed s ms ns).clk.relocking = 0
  · have hclk := relockCounted_clk (relocksTimed s ms ns) ns
    rw [if_pos h]
    refine ⟨?_, fun _ => ⟨?_, ?_, ?_, fun ha => ?_⟩, fun hno => absurd (hlast.mp h) hno⟩
    · rw [relockOver_fld _ (by unfold apart; decide) (by unfold apart; decide), relockCounted_fld _ _ (hcg _ (by decide) (by decide))
        (by unfold apart; decide) (by unfold apart; decide) (by decide), hmax]
    · rw [flag_congr (relockOver_fld _ (by unfold apart; decide) (by unfold apart; decide)), relockCounted,
        logEvent_flag _ _ _ _ _ (by decide) (by decide), flag_addSat_ne _ _ (by decide), flag_set _ _ (by decide) (by decide)]
    · rw [relockOver_fld _ (by unfold apart; decide) (by unfold apart; decide), relockCounted,
        logEvent_fld _ _ _ _ _ (by decide) (by decide), fld_addSat_self _ _ _ (by decide), fld_setFld_addr _ _ (by decide), hcount]
      rfl
    · rw [relockOver_clk, hclk, h]
      simp
    · exact relockOver_shows (by rw [hclk, hall, ha]) (by rw [hclk, h])
  · rw [if_neg h]
    exact ⟨hmax, fun hyes => absurd (hlast.mpr hyes) h, fun _ => ⟨hcount, hall⟩⟩

/-! ### An MDLL fails (R346) -/

/-- An MDLL has failed. -/
def mdllFailed (s : State) (m : Nat) : State :=
  lockShown (withMasks s (maskWithout s.clk.relocking m) (s.clk.failed ||| 2 ^ m)) m false false

/-- The sample clock is gone: only an event is logged. -/
theorem LockKept.clockGone {w : List Nat} (h : LockKept w s u) (hw : HAND_STAT_LOG_ATTN.addr ∈ w) : LockKept w s u.clockGone :=
  LockKept.of_same ((h.setFld CONV_STAT_SCLK_LOST 1 fun g hg _ => apart_elsewhere hg (by decide) (by decide) (by decide)).logEvent
    0x0402 sevFatal 0 hw)

/-- What else goes on when an MDLL fails, before a common relock that it was the last in is over. -/
theorem mdllFail_keeps (s : State) (m : Nat) :
    ∃ u, LockKept [HAND_STAT_LOG_ATTN.addr] (mdllFailed s m) u ∧ s.mdllFail m = u.relockOver := by
  set u := (if (mdllFailed s m).clk.started = true then (mdllFailed s m).bridge m true ((mdllFailed s m).mdllRate m)
    else mdllFailed s m).logEvent 0x0203 sevFatal m with hu
  have hlog : HAND_STAT_LOG_ATTN.addr ∈ [HAND_STAT_LOG_ATTN.addr] := List.mem_singleton.mpr rfl
  have hbridge := (LockKept.refl [HAND_STAT_LOG_ATTN.addr] (mdllFailed s m)).bridge m true ((mdllFailed s m).mdllRate m)
  have hlogged : LockKept [HAND_STAT_LOG_ATTN.addr] (mdllFailed s m) u := (LockKept.ite hbridge (.refl _ _)).logEvent _ _ _ hlog
  exact ⟨if m = 3 ∧ u.flag CONV_CLK_SRC = true then u.clockGone else u, .ite (hlogged.clockGone hlog) hlogged, rfl⟩

/-- What the failure of an MDLL shows. -/
theorem mdllFail_shows (s : State) (hm : m < 4) :
    bitOf (s.mdllFail m).clk.failed m = true ∧ (s.mdllFail m).flag (CG_MDLL_STAT_LOCKED m) = false ∧
      (s.mdllFail m).bitSet CG_STAT_UNLOCK m = s.bitSet CG_STAT_UNLOCK m := by
  obtain ⟨u, hkeeps, hfail⟩ := mdllFail_keeps s m
  obtain ⟨-, hlocked, -, hother⟩ :=
    lockShown_shows (withMasks s (maskWithout s.clk.relocking m) (s.clk.failed ||| 2 ^ m)) hm false false
  have hhand : (CG_MDLL_STAT_LOCKED m).addr ≠ HAND_STAT_LOG_ATTN.addr ∧ (CG_MDLL_STAT_LOCKED m).addr ≠ CG_STAT_COAST.addr ∧
      (CG_MDLL_STAT_LOCKED m).addr ≠ TIME_STAT_REF_LOST.addr := by
    simp only [CG_MDLL_STAT_LOCKED, HAND_STAT_LOG_ATTN, CG_STAT_COAST, TIME_STAT_REF_LOST]
    omega
  have hbit : apart (CG_STAT_UNLOCK.bit m) CG_STAT_COAST := .inr (.inl (by simp only [CG_STAT_UNLOCK, CG_STAT_COAST, Field.bit]; omega))
  rw [hfail]
  refine ⟨?_, ?_, bitSet_congr ?_⟩
  · rw [relockOver_clk, hkeeps.failed]
    exact (bitOf_or_two_pow ..).trans (by simp)
  · rw [flag_congr (relockOver_fld u (.inl hhand.2.1) (.inl hhand.2.2)), hkeeps.flag (statField hm).1 (by simpa using hhand.1)]
    exact hlocked
  · rw [relockOver_fld u hbit (.inl (by simp [CG_STAT_UNLOCK, TIME_STAT_REF_LOST, Field.bit])),
      hkeeps.fld _ (unlockField hm) (by simp [CG_STAT_UNLOCK, Field.bit, HAND_STAT_LOG_ATTN])]
    exact hother _ (unlockField hm) (by simp only [CG_STAT_UNLOCK, CG_MDLL_STAT_LOCKED, Field.bit]; omega)

/-! ### An MDLL loses lock (R346) -/

/-- The times of the unlocks of an MDLL within the last second, this one with them. -/
def unlockTimes (s : State) (m : Nat) : List Int :=
  (s.now :: instGet [] s.clk.unlocks m).filter (fun t => decide (s.now - t ≤ (s.nsps : Int) / 400))

/-- The unlock is shown and logged. -/
def unlockLogged (s : State) (m : Nat) : State := (s.stick CG_STAT_UNLOCK m).logEvent 0x0201 sevAttention m

/-- Its time is remembered. -/
def unlockNoted (s : State) (m : Nat) : State :=
  { unlockLogged s m with clk := { (unlockLogged s m).clk with
      unlocks := instSet [] (unlockLogged s m).clk.unlocks m ((unlockTimes (unlockLogged s m) m).take 3) } }

/-- To show and log an unlock changes none of the times. -/
theorem unlockTimes_logged (s : State) (m : Nat) : unlockTimes (unlockLogged s m) m = unlockTimes s m := by
  have hnow : (unlockLogged s m).now = s.now := by
    rw [State.now, State.dealerOf, unlockLogged, logEvent_dealer]
    rfl
  have hclk : (unlockLogged s m).clk = s.clk := by
    rw [unlockLogged, logEvent_clk]
    rfl
  have hnsps : (unlockLogged s m).nsps = s.nsps := by
    rw [State.nsps, unlockLogged, logEvent_pair _ _ _ _ _ (by decide) (by decide), stick_eq, pair_setFld_ne]
    · rfl
    all_goals simp [TIME_NSPS, CG_STAT_UNLOCK, Field.bit]
  rw [unlockTimes, hnow, hclk, hnsps, unlockTimes]

/-- When an unlock counts: the MDLL is enabled and locked, and follows a reference. -/
def CanUnlock (s : State) (m : Nat) : Prop :=
  s.mdllOn m = true ∧ s.flag (CG_MDLL_STAT_LOCKED m) = true ∧ (s.flag TIME_STAT_REF_LOST = false ∨ s.clk.allLock = true)

/-- Any other unlock changes nothing. -/
theorem unlock_still (h : ¬CanUnlock s m) : s.unlock m = s := by
  refine if_pos ?_
  by_contra hno
  simp only [Bool.or_eq_true, Bool.and_eq_true, Bool.not_eq_true', not_or, not_and, Bool.not_eq_false] at hno
  obtain ⟨⟨hon, hlocked⟩, hcommon⟩ := hno
  exact h ⟨hon, hlocked, (Bool.eq_false_or_eq_true _).symm.imp id hcommon⟩

/-- An unlock that counts fails the MDLL the third time within 1 s, and relocks it otherwise. -/
theorem unlock_counts (h : CanUnlock s m) :
    s.unlock m = if 3 ≤ (unlockTimes s m).length then (unlockNoted s m).mdllFail m
      else (unlockNoted s m).startRelock m ((unlockNoted s m).mdllRate m) := by
  obtain ⟨hon, hlocked, hcommon⟩ := h
  have hcan : ¬(!s.mdllOn m || !s.flag (CG_MDLL_STAT_LOCKED m) || s.flag TIME_STAT_REF_LOST && !s.clk.allLock) = true := by
    rcases hcommon with hlost | hall
    · simp [hon, hlocked, hlost]
    · simp [hon, hlocked, hall]
  rw [← unlockTimes_logged]
  exact if_neg hcan

/-- What an unlock that counts shows. -/
theorem unlock_shows (hm : m < 4) (h : CanUnlock s m) :
    (s.unlock m).bitSet CG_STAT_UNLOCK m = true ∧ (s.unlock m).flag (CG_MDLL_STAT_LOCKED m) = false ∧
      ((unlockTimes s m).length < 3 → bitOf (s.unlock m).clk.relocking m = true ∧ (s.unlock m).flag (CG_MDLL_STAT_RELOCK m) = true) ∧
      (3 ≤ (unlockTimes s m).length → bitOf (s.unlock m).clk.failed m = true) := by
  have hnoted : (unlockNoted s m).bitSet CG_STAT_UNLOCK m = true := by
    have hlogged : (unlockLogged s m).bitSet CG_STAT_UNLOCK m = (s.stick CG_STAT_UNLOCK m).bitSet CG_STAT_UNLOCK m :=
      bitSet_congr (logEvent_fld _ _ _ _ _ (by simp [CG_STAT_UNLOCK, Field.bit, HAND_LOG_COUNT_COUNT])
        (by simp [CG_STAT_UNLOCK, Field.bit, HAND_STAT_LOG_ATTN]))
    exact hlogged.trans (bitSet_stick _ _ _ (by simp only [CG_STAT_UNLOCK]; omega))
  rw [unlock_counts h]
  by_cases hthird : 3 ≤ (unlockTimes s m).length
  · obtain ⟨hfailed, hlocked, hunlock⟩ := mdllFail_shows (unlockNoted s m) hm
    rw [if_pos hthird]
    exact ⟨hunlock.trans hnoted, hlocked, fun hlt => absurd hthird (by omega), fun _ => hfailed⟩
  · obtain ⟨hrelock, hlocked, hmask, hother⟩ := startRelock_shows (unlockNoted s m) hm ((unlockNoted s m).mdllRate m)
    rw [if_neg hthird]
    refine ⟨(bitSet_congr (hother _ (unlockField hm) ?_)).trans hnoted, hlocked, fun _ => ⟨?_, hrelock⟩, fun hle => absurd hle hthird⟩
    · simp only [CG_STAT_UNLOCK, CG_MDLL_STAT_LOCKED, Field.bit]
      omega
    · rw [hmask, bitOf_or_two_pow]
      simp

/-! ### A band search ends (R340, R346) -/

/-- The end of a search is shown and logged. -/
def searchShown (s : State) (m code : Nat) : State := (s.setFld CG_STAT_BAND_SEARCH 1).logEvent 0x0204 sevInfo (m + code <<< 8)

/-- The band that was found is shown and waits to be stored. -/
def bandFound (s : State) (m b : Nat) : State :=
  { (searchShown s m b).setFld (CG_MDLL_STAT_BAND m) b with
    clk := { (searchShown s m b).clk with bands := (searchShown s m b).clk.bands ++ [(m, b)] } }

/-- It is no part of the clock generator's own state. -/
theorem searchShown_clk (s : State) (m code : Nat) : (searchShown s m code).clk = s.clk := by
  rw [searchShown, logEvent_clk]
  rfl

/-- A search in operation of an MDLL that does not relock changes nothing. -/
theorem bandSearch_still (h : s.clk.started = true ∧ bitOf s.clk.relocking m = false) (band : Option (BitVec 6)) (ns : Nat) :
    s.bandSearch m band ns = s := if_pos h

/-- Another that finds a band shows it; in operation the MDLL's relock ends. -/
theorem bandSearch_found (h : ¬(s.clk.started = true ∧ bitOf s.clk.relocking m = false)) (b : BitVec 6) (ns : Nat) :
    s.bandSearch m (some b) ns = if s.clk.started = true then (bandFound s m b.toNat).endRelocks [m] ns else bandFound s m b.toNat := by
  have hclk : (bandFound s m b.toNat).clk.started = s.clk.started :=
    (rfl : _ = (searchShown s m b.toNat).clk.started).trans (by rw [searchShown_clk])
  rw [← hclk]
  exact if_neg h

/-- One that finds none in operation fails the MDLL. -/
theorem bandSearch_failed (hs : s.clk.started = true) (hr : bitOf s.clk.relocking m = true) (ns : Nat) :
    s.bandSearch m none ns = (searchShown s m 0x3F).mdllFail m := by
  have hclk : (searchShown s m 0x3F).clk.started = true := by rw [searchShown_clk, hs]
  exact (if_neg (by simp [hr])).trans (if_pos hclk)

/-- A band that is shown is read back. -/
theorem bandFound_band (s : State) (m : Nat) (b : BitVec 6) : (bandFound s m b.toNat).fld (CG_MDLL_STAT_BAND m) = b.toNat :=
  (fld_setFld_eq _ _ _ (by simp [CG_MDLL_STAT_BAND])).trans (Nat.mod_eq_of_lt b.isLt)

/-- Before the clocks step a search writes what it shows, and the band waits to be stored. -/
theorem Runs.searchEnds {m : Fin 4} {b : BitVec 6} {ns : Nat} (h : s.clk.started = false) :
    Runs (.cgBandSearch m (some b) ns) s (CG_STAT_BAND_SEARCH :: CG_MDLL_STAT_BAND m :: logFields)
      (fun t => { withLogOf s t with clk := { s.clk with bands := s.clk.bands ++ [(m.val, b.toNat)] } })
      (fun t => t.fld (CG_MDLL_STAT_BAND m) = b.toNat ∧ t.flag CG_STAT_BAND_SEARCH = true) := by
  have hexec : s.bandSearch m (some b) ns = bandFound s m b.toNat :=
    (bandSearch_found (by simp [h]) b ns).trans (if_neg (by simp [h]))
  have hkeeps : KeepsFields (CG_STAT_BAND_SEARCH :: CG_MDLL_STAT_BAND m :: logFields) s (bandFound s m b.toNat) :=
    KeepsFields.of_regs (u := (searchShown s m b.toNat).setFld (CG_MDLL_STAT_BAND m) b.toNat)
      ((((KeepsFields.refl _ s).setFld CG_STAT_BAND_SEARCH 1 (by simp)).logEvent _ _ _ fun f hf => by simp [hf]).setFld _ _ (by simp)) rfl
  have hquiet : ∀ k : Fin 4, quiet (CG_MDLL_STAT_BAND k) = true := by decide
  refine Runs.done (congrArg Machine.done hexec) ⟨?_, ?_⟩ hkeeps ?_ ?_
  · rw [settle_fld _ _ (hquiet m), bandFound_band]
  · rw [settle_flag _ _ (by decide)]
    refine (flag_setFld_ne (f := CG_MDLL_STAT_BAND m) (g := CG_STAT_BAND_SEARCH) _ _ (.inl ?_)).trans ?_
    · simp only [CG_STAT_BAND_SEARCH, CG_MDLL_STAT_BAND]
      omega
    · rw [searchShown, logEvent_flag _ _ _ _ _ (by decide) (by decide), flag_set _ _ (by decide) (by decide)]
  · rw [withLogOf, settle_hand, settle_lastFatal, bandFound, searchShown, logEvent_parts]
    rfl
  · rw [bandFound, searchShown]
    exact (logEvent_out ..).trans (List.append_nil _).symm

end

/-! ### Sequences over the MDLLs -/

/-- Where each step establishes a property of its own MDLL, and leaves the others', a sequence of steps establishes those of all its
MDLLs; `I` is what every step keeps. -/
theorem foldl_establishes {l : List Nat} {f : State → Nat → State} {I : State → Prop} {Q : Nat → State → Prop}
    (hI : ∀ t, ∀ m ∈ l, I t → I (f t m)) (hQ : ∀ t, ∀ m ∈ l, I t → Q m (f t m))
    (hkeep : ∀ t, ∀ m ∈ l, ∀ k ∈ l, k ≠ m → Q k t → Q k (f t m)) {s : State} (h : I s) :
    I (l.foldl f s) ∧ ∀ k ∈ l, Q k (l.foldl f s) := by
  suffices hall : ∀ l' : List Nat, (∀ m ∈ l', m ∈ l) → ∀ s, I s → I (l'.foldl f s) ∧ ∀ k ∈ l', Q k (l'.foldl f s) from
    hall l (fun _ hm => hm) s h
  intro l' hl
  induction l' with
  | nil => exact fun s h => ⟨h, fun k hk => absurd hk List.not_mem_nil⟩
  | cons m l' ih =>
    intro s h
    have hm : m ∈ l := hl m (List.mem_cons_self ..)
    have hl' : ∀ k ∈ l', k ∈ l := fun k hk => hl k (List.mem_cons_of_mem _ hk)
    obtain ⟨hinv, hrest⟩ := ih hl' (f s m) (hI s m hm h)
    refine ⟨hinv, fun k hk => ?_⟩
    by_cases hin : k ∈ l'
    · exact hrest k hin
    · obtain rfl : k = m := (List.mem_cons.mp hk).resolve_right hin
      exact l'.foldlRecOn f (motive := Q k) (hQ s k hm h) fun t ht x hx =>
        hkeep t x (hl' x hx) k hm (ne_of_mem_of_not_mem hx hin).symm ht

/-! ### The reference is lost (R317, R345) -/

section
variable {s t u : State} {m : Nat}

/-- REF_LOST is set and logged, and timestamps carry it from now on. -/
def lossDeclared (s : State) : State := ((s.setFld TIME_STAT_REF_LOST 1).logEvent 0x0301 sevAttention 0).openRefSpan

/-- A relock in progress stops. -/
def relockStopped (busy : Nat) (s : State) (m : Nat) : State :=
  if bitOf busy m = true then
    (if m = 1 then ((s.setFld (CG_MDLL_STAT_RELOCK m) 0).bridge m false (0, 1)).park false
     else (s.setFld (CG_MDLL_STAT_RELOCK m) 0).bridge m false (0, 1))
  else s

/-- All of them stop. -/
def relocksStopped (s : State) : State :=
  let u := ((List.range 4).foldl (relockStopped s.clk.relocking) s).endGap
  { u with clk := { u.clk with relocking := 0, allLock := false } }

/-- An MDLL coasts: it is locked to nothing and measures nothing. -/
def mdllCoasts (s : State) (m : Nat) : State :=
  (((if (s.mdllOn m && !bitOf s.clk.failed m) = true then s.setFld (CG_MDLL_STAT_COAST m) 1 else s).setFld (CG_MDLL_STAT_LOCKED m) 0).putBit
    CG_STAT_LOCKED m false).setReg (CG_MDLL_MEAS m).addr 0

/-- All of them coast. -/
def allCoast (s : State) : State := ((List.range 4).foldl mdllCoasts s).setFld CG_STAT_COAST 1

/-- REFCLK is declared lost. -/
theorem coastAll_eq (h : s.flag TIME_STAT_REF_LOST = false) :
    s.coastAll = (allCoast (relocksStopped (lossDeclared s))).releaseOuts := by
  unfold State.coastAll
  simp only [h, Bool.false_eq_true, if_false]
  rfl

/-- The registers of the MDLLs that show their status. -/
def statRegs : List Nat := (List.range 4).map fun m => (CG_MDLL_STAT_LOCKED m).addr

/-- Relocks that stop leave the other registers. -/
theorem relocksStopped_keeps (s : State) :
    (∀ f, LockField f → f.addr ∉ statRegs → (relocksStopped s).fld f = s.fld f) ∧ (relocksStopped s).clk.failed = s.clk.failed := by
  have hstopped : LockKept statRegs s ((List.range 4).foldl (relockStopped s.clk.relocking) s).endGap := by
    refine ((LockKept.refl statRegs s).foldl fun t m hm => ?_).endGap
    have hstat : (CG_MDLL_STAT_RELOCK m).addr ∈ statRegs := List.mem_map.mpr ⟨m, hm, rfl⟩
    have hbridge := ((LockKept.refl statRegs t).setFld (CG_MDLL_STAT_RELOCK m) 0 fun g _ hg =>
      .inl (ne_of_mem_of_not_mem hstat hg).symm).bridge m false (0, 1)
    exact .ite (.ite (hbridge.park false) hbridge) (.refl _ t)
  exact ⟨fun f hf hw => hstopped.fld f hf hw, hstopped.failed⟩

/-- What an MDLL that coasts shows. -/
theorem mdllCoasts_shows (s : State) (hm : m < 4) :
    (mdllCoasts s m).flag (CG_MDLL_STAT_LOCKED m) = false ∧ (mdllCoasts s m).fld (CG_MDLL_MEAS m) = 0 ∧
      ((s.mdllOn m && !bitOf s.clk.failed m) = true → (mdllCoasts s m).flag (CG_MDLL_STAT_COAST m) = true) ∧
      (∀ f, LockField f → f.addr ≠ (CG_MDLL_STAT_LOCKED m).addr → f.addr ≠ (CG_MDLL_MEAS m).addr → (mdllCoasts s m).fld f = s.fld f) ∧
      (mdllCoasts s m).clk = s.clk := by
  set u := (if (s.mdllOn m && !bitOf s.clk.failed m) = true then s.setFld (CG_MDLL_STAT_COAST m) 1 else s) with hu
  have hcoast : (s.mdllOn m && !bitOf s.clk.failed m) = true → u.flag (CG_MDLL_STAT_COAST m) = true := fun h => by
    rw [hu, if_pos h, flag_set _ _ (by simp [CG_MDLL_STAT_COAST]) (by simp [CG_MDLL_STAT_COAST])]
  have hother : ∀ f : Field, f.addr ≠ (CG_MDLL_STAT_LOCKED m).addr → u.fld f = s.fld f := fun f hf => by
    rw [hu]
    split
    · exact fld_setFld_addr (f := CG_MDLL_STAT_COAST m) _ _ hf
    · rfl
  have hclk : u.clk = s.clk := by
    rw [hu]
    split <;> rfl
  clear_value u
  have hsum : ∀ f, LockField f → apart f (CG_STAT_LOCKED.bit m) := fun f hf =>
    apart_cgStat hf rfl (.inl (by simp only [Field.bit, CG_STAT_LOCKED]; omega))
  have hshown : ∀ f, LockField f → f.addr ≠ (CG_MDLL_MEAS m).addr →
      (mdllCoasts s m).fld f = (u.setFld (CG_MDLL_STAT_LOCKED m) 0).fld f := fun f hf ha => by
    rw [mdllCoasts, ← hu, fld_setReg_ne _ _ _ ha, putBit_eq, fld_setFld_ne _ _ (hsum f hf)]
  have hstat := fun (f : Field) (hf : f.addr = (CG_MDLL_STAT_LOCKED m).addr) => hshown f (statField hm hf).1 ((statField hm hf).2 m).1
  refine ⟨?_, ?_, fun h => ?_, fun f hf ha ha' => ?_, ?_⟩
  · rw [flag_congr (hstat _ rfl), flag_clear _ _ (by simp [CG_MDLL_STAT_LOCKED])]
  · rw [mdllCoasts, fld_setReg_eq _ _ _ _ rfl]
    simp [wordBits]
  · rw [flag_congr (hstat (CG_MDLL_STAT_COAST m) rfl), flag_setFld_ne (f := CG_MDLL_STAT_LOCKED m) (g := CG_MDLL_STAT_COAST m) _ _
      (.inr (.inr (by simp [CG_MDLL_STAT_LOCKED, CG_MDLL_STAT_COAST]))), hcoast h]
  · rw [hshown f hf ha', fld_setFld_addr (f := CG_MDLL_STAT_LOCKED m) _ _ ha, hother f ha]
  · rw [mdllCoasts, ← hu]
    exact hclk

/-- The declaration sets REF_LOST, is logged at ATTENTION, and leaves the other fields. -/
theorem lossDeclared_shows (s : State) :
    (lossDeclared s).flag TIME_STAT_REF_LOST = true ∧
      (s.flag SUP_STAT_WDOG = false → (lossDeclared s).flag HAND_STAT_LOG_ATTN = true) ∧
      (∀ f, LockField f → apart f TIME_STAT_REF_LOST → f.addr ≠ HAND_STAT_LOG_ATTN.addr → (lossDeclared s).fld f = s.fld f) ∧
      (lossDeclared s).clk.failed = s.clk.failed := by
  set u := (s.setFld TIME_STAT_REF_LOST 1).logEvent 0x0301 sevAttention 0 with hu
  have hspan : LockKept [] u (lossDeclared s) := (LockKept.refl [] u).openRefSpan
  have hlogged : LockKept [HAND_STAT_LOG_ATTN.addr] (s.setFld TIME_STAT_REF_LOST 1) u :=
    (LockKept.refl _ _).logEvent _ _ _ (List.mem_singleton.mpr rfl)
  refine ⟨?_, fun hw => ?_, fun f hf hl hh => ?_, hspan.failed.trans hlogged.failed⟩
  · rw [hspan.flag (f := TIME_STAT_REF_LOST) (.inr (.inr (.inl rfl))) List.not_mem_nil,
      hlogged.flag (f := TIME_STAT_REF_LOST) (.inr (.inr (.inl rfl))) (by decide),
      flag_set _ _ (by decide) (by decide)]
  · rw [hspan.flag (f := HAND_STAT_LOG_ATTN) (.inr (.inr (.inr rfl))) List.not_mem_nil, hu, logEvent_attn]
    rw [flag_setFld_ne _ _ (.inl (by decide)), hw]
  · rw [hspan.fld f hf List.not_mem_nil, hlogged.fld f hf (by simpa using hh), fld_setFld_ne _ _ hl]

/-- Nothing changes but the status and the measurements of the MDLLs. -/
def MdllsOnly (s t : State) : Prop :=
  t.clk = s.clk ∧
  ∀ f, LockField f → (∀ k < 4, f.addr ≠ (CG_MDLL_STAT_LOCKED k).addr ∧ f.addr ≠ (CG_MDLL_MEAS k).addr) → t.fld f = s.fld f

/-- An MDLL is locked to nothing, measures nothing, and coasts if in `s` it is enabled and has not failed. -/
def CoastShown (s : State) (k : Nat) (t : State) : Prop :=
  t.flag (CG_MDLL_STAT_LOCKED k) = false ∧ t.fld (CG_MDLL_MEAS k) = 0 ∧
    ((s.mdllOn k && !bitOf s.clk.failed k) = true → t.flag (CG_MDLL_STAT_COAST k) = true)

/-- Whether an MDLL is enabled, and has failed, is no part of its status. -/
theorem MdllsOnly.good (h : MdllsOnly s t) {k : Nat} (hk : k < 4) :
    (t.mdllOn k && !bitOf t.clk.failed k) = (s.mdllOn k && !bitOf s.clk.failed k) := by
  have hon : t.mdllOn k = s.mdllOn k := flag_congr (h.2 _ (enableField hk).1 fun j _ => (enableField hk).2 j)
  rw [hon, h.1]

/-- All four MDLLs coast. -/
theorem mdllsCoast_shows (s : State) :
    MdllsOnly s ((List.range 4).foldl mdllCoasts s) ∧ ∀ k ∈ List.range 4, CoastShown s k ((List.range 4).foldl mdllCoasts s) := by
  refine foldl_establishes (fun t m hm ht => ?_) (fun t m hm ht => ?_) (fun t m hm k hk hne hshown => ?_) ⟨rfl, fun _ _ _ => rfl⟩
  · obtain ⟨-, -, -, hother, hclk⟩ := mdllCoasts_shows t (List.mem_range.mp hm)
    exact ⟨hclk.trans ht.1, fun f hf ha =>
      (hother f hf (ha m (List.mem_range.mp hm)).1 (ha m (List.mem_range.mp hm)).2).trans (ht.2 f hf ha)⟩
  · obtain ⟨hlocked, hmeas, hcoast, -, -⟩ := mdllCoasts_shows t (List.mem_range.mp hm)
    exact ⟨hlocked, hmeas, fun h => hcoast ((ht.good (List.mem_range.mp hm)).trans h)⟩
  · obtain ⟨-, -, -, hother, -⟩ := mdllCoasts_shows t (List.mem_range.mp hm)
    obtain ⟨hlocked, hmeas, hcoast⟩ := hshown
    have hk4 := List.mem_range.mp hk
    have hstat : ∀ f : Field, f.addr = (CG_MDLL_STAT_LOCKED k).addr → (mdllCoasts t m).fld f = t.fld f := fun f hf =>
      hother f (statField hk4 hf).1 (((statField hk4 hf).2 m).2 hne.symm) ((statField hk4 hf).2 m).1
    refine ⟨(flag_congr (hstat _ rfl)).trans hlocked, (hother _ (measField hk4) ?_ ?_).trans hmeas, fun h =>
      (flag_congr (hstat (CG_MDLL_STAT_COAST k) rfl)).trans (hcoast h)⟩
    all_goals simp only [CG_MDLL_MEAS, CG_MDLL_STAT_LOCKED]; omega

/-- What a declared loss shows (R317, R345). -/
theorem coastAll_shows (h : s.flag TIME_STAT_REF_LOST = false) :
    s.coastAll.flag TIME_STAT_REF_LOST = true ∧ s.coastAll.flag TIME_STAT_REF_PRESENT = s.flag TIME_STAT_REF_PRESENT ∧
      s.coastAll.flag CG_STAT_COAST = true ∧ s.coastAll.clk.relocking = 0 ∧ (∀ k < 4, CoastShown s k s.coastAll) ∧
      (s.flag SUP_STAT_WDOG = false → s.coastAll.flag HAND_STAT_LOG_ATTN = true) := by
  obtain ⟨hlost, hattn, hdeclared, hfailed⟩ := lossDeclared_shows s
  obtain ⟨hstopped, hfailed'⟩ := relocksStopped_keeps (lossDeclared s)
  obtain ⟨honly, hcoasts⟩ := mdllsCoast_shows (relocksStopped (lossDeclared s))
  have houts : LockKept [] (allCoast (relocksStopped (lossDeclared s))) s.coastAll := by
    rw [coastAll_eq h]
    exact (LockKept.refl [] _).releaseOuts
  have hmdll : ∀ f : Field, CG_STAT.addr < f.addr → f.addr < (CG_OUT_CFG 0).addr →
      s.coastAll.fld f = ((List.range 4).foldl mdllCoasts (relocksStopped (lossDeclared s))).fld f := fun f hf hf' =>
    (houts.fld f (.inl ⟨hf, hf'⟩) List.not_mem_nil).trans (fld_setFld_addr _ _ (Nat.ne_of_gt hf))
  have hrest : ∀ f : Field, f.addr = TIME_STAT.addr ∨ f.addr = HAND_STAT_LOG_ATTN.addr → s.coastAll.fld f = (lossDeclared s).fld f :=
    fun f hf => by
    have hfield : LockField f := .inr (.inr hf)
    have hne : ∀ k, k < 4 → f.addr ≠ (CG_MDLL_STAT_LOCKED k).addr ∧ f.addr ≠ (CG_MDLL_MEAS k).addr := fun k _ => by
      simp only [TIME_STAT, HAND_STAT_LOG_ATTN, CG_MDLL_STAT_LOCKED, CG_MDLL_MEAS] at *
      omega
    have hnot : f.addr ∉ statRegs := fun hin => by
      obtain ⟨k, hk, hfk⟩ := List.mem_map.mp hin
      exact (hne k (List.mem_range.mp hk)).1 hfk.symm
    have hsum : f.addr ≠ CG_STAT_COAST.addr := fun e => by
      simp only [TIME_STAT, HAND_STAT_LOG_ATTN, CG_STAT_COAST] at *
      omega
    rw [houts.fld f hfield List.not_mem_nil, allCoast, fld_setFld_addr _ _ hsum, honly.2 f hfield hne, hstopped f hfield hnot]
  have hgood : ∀ k < 4, ((relocksStopped (lossDeclared s)).mdllOn k && !bitOf (relocksStopped (lossDeclared s)).clk.failed k) =
      (s.mdllOn k && !bitOf s.clk.failed k) := fun k hk => by
    obtain ⟨hen, hstat⟩ := enableField hk
    have hnot : (CG_MDLL_CFG_EN k).addr ∉ statRegs := fun hin => by
      obtain ⟨j, -, hj⟩ := List.mem_map.mp hin
      exact (hstat j).1 hj.symm
    have hon : (relocksStopped (lossDeclared s)).mdllOn k = s.mdllOn k := flag_congr ((hstopped _ hen hnot).trans (hdeclared _ hen
      (.inl (by simp only [CG_MDLL_CFG_EN, TIME_STAT_REF_LOST]; omega)) (by simp only [CG_MDLL_CFG_EN, HAND_STAT_LOG_ATTN]; omega)))
    rw [hon, hfailed', hfailed]
  refine ⟨?_, ?_, ?_, ?_, fun k hk => ?_, fun hw => ?_⟩
  · exact (flag_congr (hrest TIME_STAT_REF_LOST (.inl rfl))).trans hlost
  · exact flag_congr ((hrest TIME_STAT_REF_PRESENT (.inl rfl)).trans (hdeclared _ (.inr (.inr (.inl rfl))) (by unfold apart; decide) (by decide)))
  · rw [houts.flag (f := CG_STAT_COAST) (.inr (.inl ⟨rfl, .inl (by decide)⟩)) List.not_mem_nil, allCoast, flag_set _ _ (by decide) (by decide)]
  · rw [houts.relocking]
    exact congrArg ClockState.relocking honly.1
  · obtain ⟨hlocked, hmeas, hcoast⟩ := hcoasts k (List.mem_range.mpr hk)
    refine ⟨(flag_congr (hmdll _ ?_ ?_)).trans hlocked, (hmdll _ ?_ ?_).trans hmeas, fun hg =>
      (flag_congr (hmdll _ ?_ ?_)).trans (hcoast ((hgood k hk).trans hg))⟩
    all_goals simp only [CG_STAT, CG_OUT_CFG, CG_MDLL_STAT_LOCKED, CG_MDLL_MEAS, CG_MDLL_STAT_COAST]; omega
  · exact (flag_congr (hrest HAND_STAT_LOG_ATTN (.inr rfl))).trans (hattn hw)

/-! #### The detector (R317) -/

/-- The detector declares a loss: 1 µs without an edge, or a count more than 1 % from nominal. -/
def RefGone (s : State) (quiet edges : Nat) : Prop :=
  1000 ≤ quiet ∨ 100 * edges + s.refEdges < 100 * s.refEdges ∨ 101 * s.refEdges < 100 * edges

/-- REF_PRESENT shows whether an edge came in the last 1 µs. -/
def presenceShown (s : State) (quiet : Nat) : State := s.setFld TIME_STAT_REF_PRESENT (b2n (decide (quiet < 1000)))

/-- The detector's reading, from the clocks step on. -/
theorem refLost_started (hs : s.clk.started = true) (quiet edges : Nat) :
    s.refLost quiet edges =
      if (decide (1000 ≤ quiet) || decide (s.refEdges < 100 * if edges < s.refEdges then s.refEdges - edges else edges - s.refEdges)) &&
          (!(presenceShown s quiet).flag TIME_STAT_REF_LOST || (presenceShown s quiet).clk.allLock) then (presenceShown s quiet).coastAll
      else presenceShown s quiet := if_neg (by simp [hs])

/-- The detector's two conditions. -/
theorem refGone_iff (s : State) (quiet edges : Nat) :
    (decide (1000 ≤ quiet) || decide (s.refEdges < 100 * if edges < s.refEdges then s.refEdges - edges else edges - s.refEdges)) = true ↔
      RefGone s quiet edges := by
  rw [Bool.or_eq_true, decide_eq_true_eq, decide_eq_true_eq, RefGone]
  refine or_congr Iff.rfl ?_
  split <;> omega

/-- To show an edge's presence does not touch REF_LOST. -/
theorem presenceShown_lost (s : State) (quiet : Nat) : (presenceShown s quiet).flag TIME_STAT_REF_LOST = s.flag TIME_STAT_REF_LOST :=
  flag_setFld_ne _ _ (by decide)

/-- A loss is declared. -/
theorem refLost_declares {quiet edges : Nat} (hs : s.clk.started = true) (hgone : RefGone s quiet edges)
    (hlost : s.flag TIME_STAT_REF_LOST = false) : s.refLost quiet edges = (presenceShown s quiet).coastAll := by
  rw [refLost_started hs, presenceShown_lost, hlost, (refGone_iff s quiet edges).mpr hgone]
  rfl

/-- A reading that declares no loss, and one of a loss that stands, show the presence of edges alone. -/
theorem refLost_watches {quiet edges : Nat} (hs : s.clk.started = true)
    (h : ¬RefGone s quiet edges ∨ (s.flag TIME_STAT_REF_LOST = true ∧ s.clk.allLock = false)) :
    s.refLost quiet edges = presenceShown s quiet := by
  rw [refLost_started hs, presenceShown_lost]
  refine if_neg fun hdeclares => ?_
  obtain ⟨hgone, hopen⟩ := (Bool.and_eq_true _ _).mp hdeclares
  rcases h with hno | ⟨hlost, hall⟩
  · exact hno ((refGone_iff s quiet edges).mp hgone)
  · have hclk : (presenceShown s quiet).clk.allLock = false := hall
    rw [hlost, hclk] at hopen
    exact absurd hopen (by decide)

/-- A reading that declares no loss, as it runs. -/
theorem Runs.refWatched {quiet edges : Nat}
    (h : ¬(s.clk.started = true ∧ RefGone s quiet edges) ∨ (s.flag TIME_STAT_REF_LOST = true ∧ s.clk.allLock = false)) :
    Runs (.refLost quiet edges) s (if s.clk.started = true then [TIME_STAT_REF_PRESENT] else []) (fun _ => s)
      (fun t => s.clk.started = true → t.flag TIME_STAT_REF_PRESENT = decide (quiet < 1000)) := by
  by_cases hs : s.clk.started = true
  · rw [if_pos hs]
    refine Runs.done (congrArg Machine.done (refLost_watches hs (h.imp_left fun hno hgone => hno ⟨hs, hgone⟩))) (fun _ => ?_)
      ((KeepsFields.refl _ s).setFld _ _ (List.mem_singleton.mpr rfl)) rfl (List.append_nil _).symm
    rw [settle_flag _ _ (by decide), presenceShown, flag_put _ _ _ (by decide) (by decide)]
  · rw [if_neg hs]
    have hstill : s.refLost quiet edges = s := if_pos (by simpa using hs)
    obtain ⟨t, hrun, -, hframe⟩ := Runs.still (c := .refLost quiet edges) (congrArg Machine.done hstill)
    exact ⟨t, hrun, fun h => absurd h hs, hframe⟩

/-! ### The reference is requalified (R318, R342) -/

/-- The reference is requalified, and PPS goes to REQUAL. -/
def requalified (s : State) : State :=
  (((s.setFld TIME_STAT_REF_PRESENT 1).setFld TIME_STAT_REQUAL 1).setFld TIME_STAT_PPS_LOST 0).logEvent 0x0302 sevInfo 0

/-- A common relock begins. -/
def commonRelock (s : State) : State := { s with clk := { s.clk with allLock := true, was2 := none } }

/-- An MDLL that is enabled and has not failed relocks, MDLL 2 from the rate it had before the clocks coasted. -/
def relocksFrom (was : Nat × Nat) (s : State) (m : Nat) : State :=
  if (s.mdllOn m && !bitOf s.clk.failed m) = true then s.startRelock m (if m = 2 then was else s.mdllRate m) else s

/-- When REFCLK is requalified: it was lost and no common relock runs, and for 1 s every count was within 1 %. -/
def CanRequal (s : State) (windows fewest most : Nat) : Prop :=
  s.flag TIME_STAT_REF_LOST = true ∧ s.clk.allLock = false ∧ 10000 ≤ windows ∧ 99 * s.refEdges ≤ 100 * fewest ∧
    100 * most ≤ 101 * s.refEdges

/-- REFCLK is requalified. -/
theorem refRequal_counts {windows fewest most : Nat} (h : CanRequal s windows fewest most) :
    s.refRequal windows fewest most =
      (List.range 4).foldl (relocksFrom ((requalified s).clk.was2.getD ((requalified s).mdllRate 2))) (commonRelock (requalified s)) := by
  obtain ⟨hlost, hall, hwindows, hfewest, hmost⟩ := h
  exact if_neg (by simp [hlost, hall, hwindows, hfewest, hmost])

/-- It is not before. -/
theorem refRequal_still {windows fewest most : Nat} (h : ¬CanRequal s windows fewest most) : s.refRequal windows fewest most = s := by
  refine if_pos ?_
  by_contra hno
  simp only [Bool.or_eq_true, Bool.not_eq_true', not_or, Bool.not_eq_false, Bool.not_eq_true, Bool.and_eq_true, decide_eq_true_eq] at hno
  obtain ⟨⟨⟨⟨hwindows, hfewest⟩, hmost⟩, hlost⟩, hall⟩ := hno
  exact h ⟨hlost, hall, hwindows, hfewest, hmost⟩

/-- Nothing changes but the status of the MDLLs and which of them relock. -/
def RelocksOnly (s t : State) : Prop :=
  t.clk.failed = s.clk.failed ∧ t.clk.allLock = s.clk.allLock ∧
  ∀ f, LockField f → (∀ k < 4, f.addr ≠ (CG_MDLL_STAT_LOCKED k).addr) → t.fld f = s.fld f

/-- An MDLL relocks if in `s` it is enabled and has not failed. -/
def RelockShown (s : State) (k : Nat) (t : State) : Prop :=
  (s.mdllOn k && !bitOf s.clk.failed k) = true → bitOf t.clk.relocking k = true ∧ t.flag (CG_MDLL_STAT_RELOCK k) = true

/-- All MDLLs that are enabled and have not failed relock. -/
theorem relocksFrom_shows (was : Nat × Nat) (s : State) :
    RelocksOnly s ((List.range 4).foldl (relocksFrom was) s) ∧
      ∀ k ∈ List.range 4, RelockShown s k ((List.range 4).foldl (relocksFrom was) s) := by
  refine foldl_establishes (fun t m hm ht => ?_) (fun t m hm ht hg => ?_) (fun t m hm k hk hne hshown hg => ?_) ⟨rfl, rfl, fun _ _ _ => rfl⟩
  · refine iteInduction (motive := RelocksOnly s) (fun _ => ?_) fun _ => ht
    obtain ⟨hfailed, hall, hother⟩ := ht
    have hkeeps := startRelock_keeps t m (if m = 2 then was else t.mdllRate m)
    obtain ⟨-, -, -, hstart⟩ := startRelock_shows t (List.mem_range.mp hm) (if m = 2 then was else t.mdllRate m)
    exact ⟨hkeeps.failed.trans hfailed, hkeeps.allLock.trans hall, fun f hf ha =>
      (hstart f hf (ha m (List.mem_range.mp hm))).trans (hother f hf ha)⟩
  · obtain ⟨hfailed, -, hother⟩ := ht
    have hen := enableField (List.mem_range.mp hm)
    have hon : t.mdllOn m = s.mdllOn m := flag_congr (hother _ hen.1 fun k _ => (hen.2 k).1)
    obtain ⟨hrelock, -, hmask, -⟩ := startRelock_shows t (List.mem_range.mp hm) (if m = 2 then was else t.mdllRate m)
    rw [relocksFrom, if_pos (by rw [hon, hfailed, hg])]
    exact ⟨by rw [hmask, bitOf_or_two_pow]; simp, hrelock⟩
  · obtain ⟨hbusy, hrelock⟩ := hshown hg
    refine iteInduction (motive := fun u => bitOf (State.clk u).relocking k = true ∧ u.flag (CG_MDLL_STAT_RELOCK k) = true) (fun _ => ?_)
      fun _ => ⟨hbusy, hrelock⟩
    obtain ⟨-, -, hmask, hstart⟩ := startRelock_shows t (List.mem_range.mp hm) (if m = 2 then was else t.mdllRate m)
    have hstat := statField (f := CG_MDLL_STAT_RELOCK k) (List.mem_range.mp hk)
    exact ⟨by rw [hmask, bitOf_or_two_pow, hbusy, Bool.true_or], (flag_congr (hstart _ hstat.1 ((hstat.2 m).2 hne.symm))).trans hrelock⟩

/-- What a requalified reference shows. -/
theorem refRequal_shows {windows fewest most : Nat} (h : CanRequal s windows fewest most) :
    (s.refRequal windows fewest most).flag TIME_STAT_REF_PRESENT = true ∧ (s.refRequal windows fewest most).flag TIME_STAT_REQUAL = true ∧
      (s.refRequal windows fewest most).flag TIME_STAT_PPS_LOST = false ∧ (s.refRequal windows fewest most).clk.allLock = true ∧
      ∀ k < 4, RelockShown s k (s.refRequal windows fewest most) := by
  rw [refRequal_counts h]
  obtain ⟨⟨-, hall, hother⟩, hrelocks⟩ :=
    relocksFrom_shows ((requalified s).clk.was2.getD ((requalified s).mdllRate 2)) (commonRelock (requalified s))
  have htime : ∀ f : Field, f.addr = TIME_STAT.addr → ((List.range 4).foldl
      (relocksFrom ((requalified s).clk.was2.getD ((requalified s).mdllRate 2))) (commonRelock (requalified s))).fld f =
      (requalified s).fld f := fun f hf => hother f (.inr (.inr (.inl hf))) fun k _ => by
    simp only [TIME_STAT, CG_MDLL_STAT_LOCKED] at *
    omega
  have hgood : ∀ k < 4, ((commonRelock (requalified s)).mdllOn k && !bitOf (commonRelock (requalified s)).clk.failed k) =
      (s.mdllOn k && !bitOf s.clk.failed k) := fun k hk => by
    have hclk : (requalified s).clk = s.clk := (logEvent_clk ..).trans rfl
    have hne : ∀ a, 0x20200 ≤ a → (CG_MDLL_CFG_EN k).addr ≠ a := fun a ha => by
      simp only [CG_MDLL_CFG_EN]
      omega
    have hon : (requalified s).mdllOn k = s.mdllOn k := by
      refine (logEvent_flag _ _ _ _ _ (hne _ (by decide)) (hne _ (by decide))).trans ?_
      rw [flag_setFld_ne _ _ (.inl (hne _ (by decide))), flag_setFld_ne _ _ (.inl (hne _ (by decide))),
        flag_setFld_ne _ _ (.inl (hne _ (by decide))), State.mdllOn]
    have hfailed : (requalified s).clk.failed = s.clk.failed := by rw [hclk]
    exact congrArg₂ (fun a b => a && !bitOf b k) hon hfailed
  refine ⟨?_, ?_, ?_, hall, fun k hk hg => hrelocks k (List.mem_range.mpr hk) ((hgood k hk).trans hg)⟩
  · rw [flag_congr (htime TIME_STAT_REF_PRESENT rfl), requalified, logEvent_flag _ _ _ _ _ (by decide) (by decide),
      flag_setFld_ne _ _ (by decide), flag_setFld_ne _ _ (by decide), flag_set _ _ (by decide) (by decide)]
  · rw [flag_congr (htime TIME_STAT_REQUAL rfl), requalified, logEvent_flag _ _ _ _ _ (by decide) (by decide),
      flag_setFld_ne _ _ (by decide), flag_set _ _ (by decide) (by decide)]
  · rw [flag_congr (htime TIME_STAT_PPS_LOST rfl), requalified, logEvent_flag _ _ _ _ _ (by decide) (by decide),
      flag_clear _ _ (by decide)]

end

/-! ### The statement -/

section
variable {s : State}

/-- A register that reads 0 as one field is 0. -/
theorem reg_eq_zero_of_fld {a : Nat} (h : s.fld ⟨a, 0, 32⟩ = 0) : s.reg a = 0 := by
  have hmod : (s.reg a).toNat >>> 0 % 2 ^ 32 = 0 := h
  have hlt := (s.reg a).isLt
  exact BitVec.eq_of_toNat_eq (by simpa [Nat.mod_eq_of_lt hlt] using hmod)

/-- A loss that is declared, as it runs. -/
theorem refLost_runs {quiet edges : Nat} (hs : s.clk.started = true) (hgone : RefGone s quiet edges)
    (hlost : s.flag TIME_STAT_REF_LOST = false) :
    ∃ t : State, exec (.refLost quiet edges) s = .next t ∧
      t.flag TIME_STAT_REF_LOST = true ∧ t.flag TIME_STAT_REF_PRESENT = decide (quiet < 1000) ∧ t.flag CG_STAT_COAST = true ∧
      (∀ k < 4, t.flag (CG_MDLL_STAT_LOCKED k) = false ∧ t.reg (CG_MDLL_MEAS k).addr = 0 ∧ bitOf t.clk.relocking k = false ∧
        ((s.mdllOn k && !bitOf s.clk.failed k) = true → t.flag (CG_MDLL_STAT_COAST k) = true)) ∧
      (s.flag SUP_STAT_WDOG = false → t.flag HAND_STAT_LOG_ATTN = true) := by
  set u := presenceShown s quiet with hu
  obtain ⟨hloss, hpresent, hcoast, hmask, hmdlls, hattn⟩ := coastAll_shows (s := u) ((presenceShown_lost s quiet).trans hlost)
  have hsettle : LockKept [] u.coastAll u.coastAll.settle := (LockKept.refl [] _).settle
  have htime : ∀ f : Field, f.addr = TIME_STAT.addr → u.coastAll.settle.flag f = u.coastAll.flag f := fun f hf =>
    hsettle.flag (.inr (.inr (.inl hf))) List.not_mem_nil
  refine ⟨u.coastAll.settle, congrArg Machine.done (refLost_declares hs hgone hlost), (htime TIME_STAT_REF_LOST rfl).trans hloss, ?_, ?_, fun k hk => ?_,
    fun hw => ?_⟩
  · rw [htime TIME_STAT_REF_PRESENT rfl, hpresent, hu, presenceShown, flag_put _ _ _ (by decide) (by decide)]
  · exact (hsettle.flag (f := CG_STAT_COAST) (.inr (.inl ⟨rfl, .inl (by decide)⟩)) List.not_mem_nil).trans hcoast
  · obtain ⟨hlocked, hmeas, hgood⟩ := hmdlls k hk
    have hon : u.mdllOn k = s.mdllOn k := flag_setFld_ne _ _ (.inl (by simp only [CG_MDLL_CFG_EN, TIME_STAT_REF_PRESENT]; omega))
    refine ⟨?_, reg_eq_zero_of_fld ((hsettle.fld _ (measField hk) List.not_mem_nil).trans hmeas), ?_, fun hg => ?_⟩
    · rw [hsettle.flag (statField hk).1 List.not_mem_nil, hlocked]
    · rw [hsettle.relocking, hmask, bitOf, Nat.zero_testBit]
    · rw [hsettle.flag (f := CG_MDLL_STAT_COAST k) (statField hk).1 List.not_mem_nil]
      exact hgood (by rw [hon]; exact hg)
  · rw [hsettle.flag (f := HAND_STAT_LOG_ATTN) (.inr (.inr (.inr rfl))) List.not_mem_nil]
    exact hattn ((flag_setFld_ne _ _ (.inl (by decide))).trans hw)

/-- Relocks that end, as they run. -/
theorem relockDone_runs {locked : BitVec 4} {ns : Nat} {ms : List Nat}
    (hms : ms = (List.range 4).filter (fun k => bitOf s.clk.relocking k && locked.getLsbD k)) (hsome : ms ≠ []) :
    exec (.relockComplete locked ns) s = .next (s.endRelocks ms ns).settle ∧ (∀ m ∈ ms, m < 4) ∧
      ((∀ k, bitOf s.clk.relocking k = true → k < 4 ∧ locked.getLsbD k = true) ↔ ∀ k, bitOf s.clk.relocking k = true → k ∈ ms) := by
  subst hms
  refine ⟨congrArg Machine.done (if_neg (by simpa using hsome)), fun m hm => List.mem_range.mp (List.mem_of_mem_filter hm),
    forall_congr' fun k => ?_⟩
  refine forall_congr' fun hk => ?_
  rw [List.mem_filter, List.mem_range, hk, Bool.true_and]

/-- Relocks that end show it, with the derived signals brought up to date. -/
theorem relockDone_shows {ms : List Nat} (hms : ∀ m ∈ ms, m < 4) (ns : Nat) :
    (∀ k ∈ ms, (s.endRelocks ms ns).settle.flag (CG_MDLL_STAT_LOCKED k) = true ∧
        (s.endRelocks ms ns).settle.flag (CG_MDLL_STAT_RELOCK k) = false ∧ bitOf (s.endRelocks ms ns).settle.clk.relocking k = false) ∧
      (s.endRelocks ms ns).settle.fld CG_RELOCK_MAX_NS = max (s.fld CG_RELOCK_MAX_NS) (min ns 0xFFFFFFFF) ∧
      ((∀ k, bitOf s.clk.relocking k = true → k ∈ ms) →
        (s.endRelocks ms ns).settle.flag CG_STAT_RELOCK = true ∧
        (s.endRelocks ms ns).settle.fld CG_RELOCK_COUNT_COUNT = min (s.fld CG_RELOCK_COUNT_COUNT + 1) 0xFFFF ∧
        (s.endRelocks ms ns).settle.clk.allLock = false ∧
        (s.clk.allLock = true →
          (s.endRelocks ms ns).settle.flag CG_STAT_COAST = false ∧ (s.endRelocks ms ns).settle.flag TIME_STAT_REF_LOST = false)) ∧
      (¬(∀ k, bitOf s.clk.relocking k = true → k ∈ ms) →
        (s.endRelocks ms ns).settle.fld CG_RELOCK_COUNT_COUNT = s.fld CG_RELOCK_COUNT_COUNT ∧
        (s.endRelocks ms ns).settle.clk.allLock = s.clk.allLock) := by
  have hsettle : LockKept [] (s.endRelocks ms ns) (s.endRelocks ms ns).settle := (LockKept.refl [] _).settle
  have hflag : ∀ f, LockField f → (s.endRelocks ms ns).settle.flag f = (s.endRelocks ms ns).flag f := fun f hf =>
    hsettle.flag hf List.not_mem_nil
  have hrelock : ∀ f : Field, CG_STAT.addr < f.addr → f.addr < (CG_OUT_CFG 0).addr →
      (s.endRelocks ms ns).settle.fld f = (s.endRelocks ms ns).fld f := fun f h h' => hsettle.fld f (.inl ⟨h, h'⟩) List.not_mem_nil
  obtain ⟨hdone, -⟩ := endRelocks_locked s hms ns
  obtain ⟨hmax, hlast, hmore⟩ := endRelocks_counts s hms ns
  refine ⟨fun k hk => ?_, (hrelock _ (by decide) (by decide)).trans hmax, fun h => ?_, fun h => ?_⟩
  · obtain ⟨hlocked, hidle, hmask⟩ := hdone k hk
    exact ⟨(hflag _ (statField (hms k hk)).1).trans hlocked, (hflag (CG_MDLL_STAT_RELOCK k) (statField (hms k hk)).1).trans hidle,
      (congrArg (bitOf · k) hsettle.relocking).trans hmask⟩
  · obtain ⟨hshown, hcount, hall, hcommon⟩ := hlast h
    refine ⟨(hflag CG_STAT_RELOCK (.inr (.inl ⟨rfl, .inl (by decide)⟩))).trans hshown,
      (hrelock _ (by decide) (by decide)).trans hcount, hsettle.allLock.trans hall, fun ha => ?_⟩
    exact ⟨(hflag CG_STAT_COAST (.inr (.inl ⟨rfl, .inl (by decide)⟩))).trans (hcommon ha).1,
      (hflag TIME_STAT_REF_LOST (.inr (.inr (.inl rfl)))).trans (hcommon ha).2⟩
  · exact ⟨(hrelock _ (by decide) (by decide)).trans (hmore h).1, hsettle.allLock.trans (hmore h).2⟩

/-- An unlock that counts, as it runs. -/
theorem cgUnlock_runs {m : Fin 4} (h : CanUnlock s m) :
    ∃ t : State, exec (.cgUnlock m) s = .next t ∧ t.bitSet CG_STAT_UNLOCK m = true ∧ t.flag (CG_MDLL_STAT_LOCKED m) = false ∧
      ((unlockTimes s m).length < 3 → bitOf t.clk.relocking m = true ∧ t.flag (CG_MDLL_STAT_RELOCK m) = true) ∧
      (3 ≤ (unlockTimes s m).length → bitOf t.clk.failed m = true) := by
  have hsettle : LockKept [] (s.unlock m) (s.unlock m).settle := (LockKept.refl [] _).settle
  have hstat : ∀ f : Field, f.addr = (CG_MDLL_STAT_LOCKED m).addr → (s.unlock m).settle.flag f = (s.unlock m).flag f := fun f hf =>
    hsettle.flag (statField m.isLt hf).1 List.not_mem_nil
  obtain ⟨hunlock, hlocked, hrelocks, hfails⟩ := unlock_shows m.isLt h
  refine ⟨(s.unlock m).settle, rfl, (bitSet_congr (hsettle.fld _ (unlockField m.isLt) List.not_mem_nil)).trans hunlock, (hstat _ rfl).trans hlocked,
    fun hlt => ⟨(congrArg (bitOf · m) hsettle.relocking).trans (hrelocks hlt).1,
      (hstat (CG_MDLL_STAT_RELOCK m) rfl).trans (hrelocks hlt).2⟩,
    fun hge => (congrArg (bitOf · m) hsettle.failed).trans (hfails hge)⟩

/-- A search in operation that finds a band, as it runs. -/
theorem bandFound_runs {m : Fin 4} {b : BitVec 6} {ns : Nat} (hs : s.clk.started = true) (hr : bitOf s.clk.relocking m = true) :
    ∃ t : State, exec (.cgBandSearch m (some b) ns) s = .next t ∧ t.fld (CG_MDLL_STAT_BAND m) = b.toNat ∧
      t.flag (CG_MDLL_STAT_LOCKED m) = true ∧ bitOf t.clk.relocking m = false := by
  set u := (bandFound s m b.toNat).endRelocks [m] ns with hu
  have hexec : s.bandSearch m (some b) ns = u := (bandSearch_found (by simp [hr]) b ns).trans (if_pos hs)
  have hsettle : LockKept [] u u.settle := (LockKept.refl [] u).settle
  obtain ⟨hdone, hband⟩ := endRelocks_locked (bandFound s m b.toNat) (ms := [m.val]) (by simp) ns
  obtain ⟨hlocked, -, hmask⟩ := hdone m (List.mem_singleton_self _)
  refine ⟨u.settle, congrArg Machine.done hexec, ?_, (hsettle.flag (statField m.isLt).1 List.not_mem_nil).trans hlocked,
    (congrArg (bitOf · m) hsettle.relocking).trans hmask⟩
  calc u.settle.fld (CG_MDLL_STAT_BAND m)
      = u.fld (CG_MDLL_STAT_BAND m) := hsettle.fld _ (statField m.isLt).1 List.not_mem_nil
    _ = (bandFound s m b.toNat).fld (CG_MDLL_STAT_BAND m) := hband m m.isLt
    _ = b.toNat := bandFound_band s m b

/-- A search in operation that finds none, as it runs. -/
theorem bandFailed_runs {m : Fin 4} {ns : Nat} (hs : s.clk.started = true) (hr : bitOf s.clk.relocking m = true) :
    ∃ t : State, exec (.cgBandSearch m none ns) s = .next t ∧ bitOf t.clk.failed m = true ∧ t.flag (CG_MDLL_STAT_LOCKED m) = false := by
  set u := (searchShown s m 0x3F).mdllFail m
  have hsettle : LockKept [] u u.settle := (LockKept.refl [] u).settle
  obtain ⟨hfailed, hlocked, -⟩ := mdllFail_shows (searchShown s m 0x3F) m.isLt
  exact ⟨u.settle, congrArg Machine.done (bandSearch_failed hs hr ns), (congrArg (bitOf · m) hsettle.failed).trans hfailed,
    (hsettle.flag (statField m.isLt).1 List.not_mem_nil).trans hlocked⟩

/-- A reference that is requalified, as it runs. -/
theorem refRequal_runs {windows fewest most : Nat} (h : CanRequal s windows fewest most) :
    ∃ t : State, exec (.refRequal windows fewest most) s = .next t ∧
      t.flag TIME_STAT_REF_PRESENT = true ∧ t.flag TIME_STAT_REQUAL = true ∧ t.flag TIME_STAT_PPS_LOST = false ∧ t.clk.allLock = true ∧
      (∀ k < 4, (s.mdllOn k && !bitOf s.clk.failed k) = true →
        bitOf t.clk.relocking k = true ∧ t.flag (CG_MDLL_STAT_RELOCK k) = true) := by
  set u := s.refRequal windows fewest most
  have hsettle : LockKept [] u u.settle := (LockKept.refl [] u).settle
  have htime : ∀ f : Field, f.addr = TIME_STAT.addr → u.settle.flag f = u.flag f := fun f hf =>
    hsettle.flag (.inr (.inr (.inl hf))) List.not_mem_nil
  obtain ⟨hpresent, hrequal, hpps, hall, hrelocks⟩ := refRequal_shows h
  refine ⟨u.settle, rfl, (htime TIME_STAT_REF_PRESENT rfl).trans hpresent, (htime TIME_STAT_REQUAL rfl).trans hrequal,
    (htime TIME_STAT_PPS_LOST rfl).trans hpps, hsettle.allLock.trans hall, fun k hk hg => ?_⟩
  obtain ⟨hmask, hrelock⟩ := hrelocks k hk hg
  exact ⟨(congrArg (bitOf · k) hsettle.relocking).trans hmask,
    (hsettle.flag (f := CG_MDLL_STAT_RELOCK k) (statField hk).1 List.not_mem_nil).trans hrelock⟩

end

/-- Settles O37: each event by what its state shows before the derived signals are brought up to date, which touches none of it. -/
theorem referenceAndLockEventsMoveTheMdlls : Obligations.ReferenceAndLockEventsMoveTheMdlls := by
  intro s m ns b quiet edges windows fewest most locked busy lost good
  refine ⟨⟨Runs.refWatched, fun hgone hlost => refLost_runs hgone.1 hgone.2 hlost⟩, ⟨refRequal_runs, fun hunable => ?_⟩,
    ⟨fun hnone => ?_, fun hsome => ?_⟩, ⟨cgUnlock_runs, fun hunable => ?_⟩, Runs.searchEnds,
    fun hstart hbusy => ⟨bandFound_runs hstart hbusy, bandFailed_runs hstart hbusy⟩, fun hstart hidle => ?_⟩
  · exact Runs.still (congrArg Machine.done (refRequal_still hunable))
  · exact Runs.still (congrArg Machine.done (if_pos (by rw [List.isEmpty_iff]; exact hnone)))
  · obtain ⟨hexec, hms, hlast⟩ := relockDone_runs (ns := ns) rfl hsome
    obtain ⟨hdone, hmax, hend, hmore⟩ := relockDone_shows (s := s) hms ns
    exact ⟨_, hexec, hdone, hmax, fun h => hend (hlast.mp h), fun h => hmore (mt hlast.mpr h)⟩
  · exact Runs.still (congrArg Machine.done (unlock_still hunable))
  · exact Runs.still (congrArg Machine.done (bandSearch_still ⟨hstart, hidle⟩ _ _))

end Sys2Proof
end
